-- ==== Sys2Proof/Word.lean ====
section
/-! DEFINITION. The machine words and the sparse map shape every file of the model uses. -/

namespace Sys2Proof

/-- A register, descriptor or table word: 64 bits (00 R9). -/
abbrev W64 := BitVec 64

/-- A 32-bit word: FP32 patterns, lanes, ravel words. -/
abbrev W32 := BitVec 32

/-- One byte. -/
abbrev Byte := BitVec 8

/-- A sparse map from numbers: unlisted keys hold the reader's default. -/
abbrev SMap (α : Type) := List (Nat × α)

end Sys2Proof
end

