-- ==== Sys2Proof/Msg.lean ====
section
/-! DEFINITION. What commands carry from outside the block: host accesses, messages of peers, error events of the memory. -/

namespace Sys2Proof

/-- A host access (00 R6, R10; 15 R380): a write or a read of `size` bytes at `addr`; `data` is the value written. -/
structure HostAccess where
  write : Bool
  addr : Nat
  size : Nat
  data : Nat
deriving DecidableEq, Repr

/-- An ECC error met by an access (12 R316, R317): the 64-byte unit, as stack × 32 + channel and unit number in the channel, and whether it is uncorrectable. -/
structure EccEvent where
  chan : Nat
  unit : Nat
  ue : Bool
deriving DecidableEq, Repr

/-- A remote knot operation (11 R292–R294): tie or untie, target context and knot, the sender's generation, step and attempt, and the sending station. -/
structure RemoteOp where
  tie : Bool
  ctx : Nat
  knot : Nat
  gen : Nat
  step : Nat
  attempt : Nat
  srcMember : Nat
  srcCore : Nat
deriving DecidableEq, Repr

/-- A fragment message of the gradient exchange (09 R247): its four header words and payload. -/
structure FragMsg where
  h0 : W64
  h1 : W64
  h2 : W64
  h3 : W64
  payload : List Byte
deriving DecidableEq, Repr

/-- A DENSE message of a BUCKET ring (09 R253): its header words, the ring bucket's chunk, whether it is on its second trip, the first of the chunk's elements that it carries, and the values' codes, at most 8,191 (its COUNT has 13 bits). The header has no field for the chunk, the trip and the first element. -/
structure DenseMsg where
  h0 : W64
  h1 : W64
  h3 : W64
  chunk : Nat
  second : Bool
  off : Nat := 0
  vals : List Nat
deriving DecidableEq, Repr

/-- A CELL message (09 R252): its four header words, the leg it travels (0 member to manager, 1 manager to manager, 2 result to members; the header has no field for it), and its cells, 64 bytes each. Its TILE field is the index of its first cell. -/
structure CellMsg where
  h0 : W64
  h1 : W64
  h2 : W64
  h3 : W64
  leg : Nat
  cells : List (List Byte)
deriving DecidableEq, Repr

/-- A step summary (10 R272), a module's own or a combined one: layers with storm and calm flags, FP32 maxima by TRACK_SLOT and TENSOR_ID, vetoed TENSOR_IDs, timing reasons, fault bit. -/
structure Summary where
  storm : List Nat
  calm : List Nat
  sites : List (Nat × W32)
  weights : List (Nat × W32)
  vetoes : List Nat
  tnr : Nat
  fault : Bool
deriving DecidableEq, Repr

/-- UCIe modules of an attachment (01 R20): 24 between the compute dies (0), 4 from the host die to die A (1) and to die B (2). -/
def ucieModules (attachment : Nat) : Nat := if attachment = 0 then 24 else if attachment ≤ 2 then 4 else 0

/-- What the environment shows a maintenance slot (10 R276, 16 R418, 01 R21): how many pieces of work fit; wear readings as (kind, die, logical cluster × 8 + core, critical), kind 0 path-delay replica and 1 aging oscillator; channels whose PHY margin is below its limit, as stack × 32 + channel with whether it stays so after retraining; UCIe modules that lane repair cannot keep, as (attachment, module, repaired). -/
structure SlotFacts where
  fits : Nat
  wear : List (Nat × Nat × Nat × Bool)
  phy : List (Nat × Bool)
  ucie : List (Nat × Nat × Bool)
deriving DecidableEq, Repr

/-- What a training exchange shows (13 R338, R339, 17 R455): the far end's job, slot, link and rate range and proposal; the highest rate this end's margins support; the measured one-way latency in ps; the 32-bit SESSION; the lanes that lock. -/
structure TrainMsg where
  jobId : Nat
  slot : Nat
  peerLink : Nat
  floor : Nat
  ceil : Nat
  proposal : Nat
  support : Nat
  latency : Nat
  session : Nat
  lanes : Nat
deriving DecidableEq, Repr

/-- What the physical layer shows with a received flit (13 R341, R344, R345): an uncorrectable codeword, corrected symbols per physical lane, and flit times in which a ready VC of this end lacked a credit. -/
structure PhyFacts where
  fecBad : Bool
  lanes : List Nat
  stalls : Nat
deriving DecidableEq, Repr

/-- Mirror data or restore data (13 R362, 16 R426–R428): the source or target member, step or version, attempt, whether it is an exchange residual, its stack or die and record, byte offset in the half, bytes, the half's tensor scale, the final marker, and the record's context and its generation. -/
structure MirrorMsg where
  member : Nat
  step : Nat
  attempt : Nat
  exch : Bool
  unit : Nat
  rcd : Nat
  off : Nat
  bytes : List Byte
  wt : Nat
  final : Bool
  ctx : Nat := 0
  gen : Nat := 0
deriving DecidableEq, Repr

end Sys2Proof
end

