-- ==== Sys2Proof/Syntax.lean ====
section
/-! DEFINITION. The commands of the block: one constructor per row of spec/opcode_table.json, in its order. Operands name the part, and carry what reaches the block from outside. -/

namespace Sys2Proof

/-- A command (95: the steps of the part, each whole and indivisible). -/
inductive Instr where
  /-- NOP (R265): Control-core instruction that does nothing. -/
  | ccNop (core : Nat)
  /-- STEPEND (R270): Ends the core's stream for the step; when every used core has executed it, the module enters DRAINING. -/
  | stepend (core : Nat)
  /-- ADDI (R265): Sets sD to sA plus the sign-extended immediate, modulo 2^64. -/
  | addi (core : Nat)
  /-- ADD (R265): Sets sD to sA plus sB. -/
  | ccAdd (core : Nat)
  /-- SUB (R265): Sets sD to sA minus sB. -/
  | ccSub (core : Nat)
  /-- MUL (R265): Sets sD to the low 64 bits of sA times sB. -/
  | ccMul (core : Nat)
  /-- AND (R265): Sets sD to the bitwise AND of sA and sB. -/
  | ccAnd (core : Nat)
  /-- OR (R265): Sets sD to the bitwise OR of sA and sB. -/
  | ccOr (core : Nat)
  /-- XOR (R265): Sets sD to the bitwise XOR of sA and sB. -/
  | ccXor (core : Nat)
  /-- SHL (R265): Shifts sA left by (sB + IMM) mod 64. -/
  | shl (core : Nat)
  /-- SHR (R265): Shifts sA right logically by (sB + IMM) mod 64. -/
  | shr (core : Nat)
  /-- SRA (R265): Shifts sA right arithmetically by (sB + IMM) mod 64. -/
  | sra (core : Nat)
  /-- LI (R265): Loads the immediate into sD. -/
  | li (core : Nat)
  /-- LIH (R265): Loads the immediate into the upper 32 bits of sD and keeps the lower half. -/
  | lih (core : Nat)
  /-- LDC (R265): Loads 8 aligned bytes of the constant store into sD; a misaligned address stops the core. -/
  | ldc (core : Nat)
  /-- GETS (R265): Loads LOGLINE, ATTEMPT, logical core id, MEMBER or context into sD as EXT selects. -/
  | gets (core : Nat)
  /-- BEQ (R265): Branches to IMM if sA equals sB. -/
  | beq (core : Nat)
  /-- BNE (R265): Branches to IMM if sA differs from sB. -/
  | bne (core : Nat)
  /-- BLT (R265): Branches to IMM if sA is less than sB, signed. -/
  | blt (core : Nat)
  /-- BLTU (R265): Branches to IMM if sA is less than sB, unsigned. -/
  | bltu (core : Nat)
  /-- LOOP (R265): Decrements sD and branches to IMM if it is not zero. -/
  | ccLoop (core : Nat)
  /-- ISSUE (R266): Reads a descriptor from the constant store, applies up to two patches and sends it to the ply, vector engine or DMA engine, writing the tag to sD. -/
  | issue (core : Nat)
  /-- FENCE (R265): Waits until no earlier operation to the selected units is in flight. -/
  | fence (core : Nat)
  /-- VRES (R267): Waits for a vector launch to complete and reads one of its result words into sD. -/
  | vres (core : Nat)
  /-- TIE (R288): Ties a knot of the core's context, releasing pending WAITs and one TAKE, or waits in barrier mode. `cellErr`: the knot's cell fails its parity (16 R414). -/
  | tie (core : Nat) (cellErr : Bool)
  /-- UNTIE (R288): Clears a knot, releasing pending WAITCLRs, or waits in barrier mode. -/
  | untie (core : Nat) (cellErr : Bool)
  /-- WAIT (R288): Stops the core until the knot is tied. `lag`: how many recent changes the station's view lacks (R290). -/
  | wait (core : Nat) (cellErr : Bool) (lag : Nat)
  /-- WAITCLR (R288): Stops the core until the knot is clear. `lag` as for WAIT. -/
  | waitclr (core : Nat) (cellErr : Bool) (lag : Nat)
  /-- TAKE (R288): Waits until the knot is tied, then clears it and completes. -/
  | take (core : Nat) (cellErr : Bool)
  /-- RTIE (R292): Queues a remote tie on an endpoint, held behind the core's earlier writes. -/
  | rtie (core : Nat)
  /-- RUNTIE (R292): Queues a remote untie on an endpoint, held behind the core's earlier writes. -/
  | runtie (core : Nat)
  /-- REMOTE_SEND (R293): The knot station sends a held remote operation once every earlier write of the core is acknowledged. -/
  | remoteSend (core : Nat)
  /-- REMOTE_KNOT_OP (R294): A remote tie or untie arrives at the target die and is applied, queued for a later step, or dropped as stale. -/
  | remoteKnotOp (die : Nat) (o : RemoteOp) (cellErr : Bool)
  /-- KNOT_TIMEOUT (R296): A waiting knot operation's timeout expires; the operation is cancelled and the core stops as a fault. -/
  | knotTimeout (core : Nat)
  /-- HOST_NOP (R303): KNOT_HOST_OP with OP 0 on a valid persistent knot changes nothing. -/
  | hostNop (die : Nat) (ctx : Nat) (knot : Nat)
  /-- HOST_TIE (R303): KNOT_HOST_OP with OP 1 ties a persistent knot at the store, for example releasing a feed. -/
  | hostTie (die : Nat) (ctx : Nat) (knot : Nat) (cellErr : Bool)
  /-- HOST_UNTIE (R303): KNOT_HOST_OP with OP 2 unties a persistent knot at the store. -/
  | hostUntie (die : Nat) (ctx : Nat) (knot : Nat) (cellErr : Bool)
  /-- MATMUL (R119): A ply accepts and checks a MATMUL descriptor for a single ply or rope, rejecting it with a code if a check fails. -/
  | matmul (core : Nat) (ply : Nat)
  /-- PACKED (R113): A ply accepts and checks a packed-quadrant descriptor for one 8 x 8 quadrant. -/
  | packed (core : Nat) (ply : Nat)
  /-- BLOCK_STEP (R99): A block-step enters the adder tree once its operands, bight queues and feeder grant allow it and adds exact products into the accumulators. `feedStalls`: cycles the feeds waited for a port; `gap`: cycles since the step before, in which a bight's queue retires entries (R111); `ecc`: errors of scratch (16 R414). -/
  | blockStep (core : Nat) (ply : Nat) (quad : Nat) (feedStalls : Nat) (gap : Nat) (ecc : List (Nat × Nat))
  /-- READ_OUT (R141): A ply moves a tile to the read-out buffer, resolves it, checks residues and passes exact values to the quantiser, then signals completion. -/
  | readOut (core : Nat) (ply : Nat) (quad : Nat)
  /-- QUANTISER_OPERATION (R65): The quantiser takes one operation's blocks from a port through twist, bight, scale, rounding, damage counting and keep copy, stalling on a full keep ring. -/
  | quantiserOperation (core : Nat) (port : Nat)
  /-- DAMAGE_RECORD (R152): The error-control unit combines and judges a producer tile's records and, when a guarded consumer's ranges are complete, decides it. -/
  | damageRecord (core : Nat)
  /-- EC_LAYER_BOUND (R170): A host write while HELD sets a layer's mode and rung bounds, resets its rung to START_RUNG and clears its runs and HELD. -/
  | ecLayerBound (core : Nat) (layer : Nat) (value : W64)
  /-- RESIDUE_INJECT (R150): A host write of ARM while HELD makes the ply's next checked read-out fail its residue check. -/
  | residueInject (core : Nat) (ply : Nat)
  /-- RAVEL_TEST_INDEX (R89): A write starts a ravel test computation on the current test inputs and clears VALID. -/
  | ravelTestIndex (core : Nat) (value : W64)
  /-- RAVEL_TEST_INPUT (R89): A write to a seed, step or stream test register clears VALID and restarts a running computation. -/
  | ravelTestInput (core : Nat) (sel : Nat) (value : W64)
  /-- RAVEL_TEST_DONE (R89): The ravel test result becomes ready and VALID reads 1, 36 cycles after the start. -/
  | ravelTestDone (core : Nat)
  /-- VLAUNCH (R178): The vector engine accepts and checks a launch descriptor and queues it for its strand cores, or rejects it. -/
  | vlaunch (core : Nat)
  /-- LAUNCH_COMPLETE (R179): A launch completes once every strand has executed END and all its writes and damage records have landed. -/
  | launchComplete (core : Nat)
  /-- VEC_NOP (R185): Strand instruction that does nothing. -/
  | vecNop (core : Nat) (strand : Nat)
  /-- END (R185): Ends the strand core's part of the launch. -/
  | strandEnd (core : Nat) (strand : Nat)
  /-- BR (R185): Branches the strand core to IMM. -/
  | br (core : Nat) (strand : Nat)
  /-- BRANY (R185): Branches if any active lane of a predicate is 1. -/
  | brany (core : Nat) (strand : Nat)
  /-- LSET (R185): Sets a loop counter from the immediate or a broadcast slot. -/
  | lset (core : Nat) (strand : Nat)
  /-- VEC_LOOP (R185): Decrements a strand loop counter and branches if it is not zero. -/
  | vecLoop (core : Nat) (strand : Nat)
  /-- VOUT (R185): Writes lane 0 of a register to a launch result word. -/
  | vout (core : Nat) (strand : Nat)
  /-- VLD (R187): Loads an operand-cache line into a vector register. `ecc`: errors of scratch, as (byte address, 1 corrected or 2 uncorrectable). -/
  | vld (core : Nat) (strand : Nat) (stalls : Nat) (ecc : List (Nat × Nat))
  /-- VST (R187): Stores active lanes to an operand-cache line after normalising -0 and NaN. -/
  | vst (core : Nat) (strand : Nat) (stalls : Nat)
  /-- VSTR (R187): Stores active lanes' raw bits to an operand-cache line. -/
  | vstr (core : Nat) (strand : Nat) (stalls : Nat)
  /-- VLDQ (R189): Decodes a block of a tensor slot to FP32 lanes. `scr`, `oc`: cycles waited for a scratch bank and for an operand-cache port (R188). -/
  | vldq (core : Nat) (strand : Nat) (scr : Nat) (oc : Nat) (ecc : List (Nat × Nat))
  /-- VSTQ (R189): Sends all 16 lanes to the quantiser as one block under a QSPEC slot. -/
  | vstq (core : Nat) (strand : Nat) (stalls : Nat)
  /-- VADD (R185): FP32 lane addition. -/
  | vadd (core : Nat) (strand : Nat)
  /-- VSUB (R185): FP32 lane subtraction. -/
  | vsub (core : Nat) (strand : Nat)
  /-- VMUL (R185): FP32 lane multiplication. -/
  | vmul (core : Nat) (strand : Nat)
  /-- VFMA (R183): Fused multiply-add VA x VB + VC with one rounding. -/
  | vfma (core : Nat) (strand : Nat)
  /-- VFMS (R183): Fused multiply-subtract VA x VB - VC with one rounding. -/
  | vfms (core : Nat) (strand : Nat)
  /-- VMIN (R185): Lane minimum with NaN and signed-zero rules. -/
  | vmin (core : Nat) (strand : Nat)
  /-- VMAX (R185): Lane maximum with NaN and signed-zero rules. -/
  | vmax (core : Nat) (strand : Nat)
  /-- VABS (R185): Lane absolute value. -/
  | vabs (core : Nat) (strand : Nat)
  /-- VNEG (R185): Lane negation. -/
  | vneg (core : Nat) (strand : Nat)
  /-- VMOV (R185): Lane register copy. -/
  | vmov (core : Nat) (strand : Nat)
  /-- VRCP (R192): Lane reciprocal within 1 ulp. -/
  | vrcp (core : Nat) (strand : Nat)
  /-- VDIV (R192): Correctly rounded lane division. -/
  | vdiv (core : Nat) (strand : Nat)
  /-- VSQRT (R192): Correctly rounded lane square root. -/
  | vsqrt (core : Nat) (strand : Nat)
  /-- VRSQ (R192): Lane reciprocal square root within 1 ulp. -/
  | vrsq (core : Nat) (strand : Nat)
  /-- VEXP2 (R192): Lane 2^x within 1 ulp. -/
  | vexp2 (core : Nat) (strand : Nat)
  /-- VEXP (R192): Lane e^x within 2 ulp. -/
  | vexp (core : Nat) (strand : Nat)
  /-- VLOG2 (R192): Lane log2 x. -/
  | vlog2 (core : Nat) (strand : Nat)
  /-- VLOG (R192): Lane natural logarithm. -/
  | vlog (core : Nat) (strand : Nat)
  /-- VTANH (R192): Lane hyperbolic tangent. -/
  | vtanh (core : Nat) (strand : Nat)
  /-- VSIGM (R192): Lane logistic sigmoid. -/
  | vsigm (core : Nat) (strand : Nat)
  /-- VERF (R192): Lane error function. -/
  | verf (core : Nat) (strand : Nat)
  /-- VSIN (R192): Lane sine. -/
  | vsin (core : Nat) (strand : Nat)
  /-- VCOS (R192): Lane cosine. -/
  | vcos (core : Nat) (strand : Nat)
  /-- VCEQ (R185): Lane equality compare into a predicate. -/
  | vceq (core : Nat) (strand : Nat)
  /-- VCLT (R185): Lane less-than compare into a predicate. -/
  | vclt (core : Nat) (strand : Nat)
  /-- VCLE (R185): Lane less-or-equal compare into a predicate. -/
  | vcle (core : Nat) (strand : Nat)
  /-- VCUN (R185): Lane unordered compare into a predicate. -/
  | vcun (core : Nat) (strand : Nat)
  /-- VSEL (R185): Selects VA or VB per lane by a predicate. -/
  | vsel (core : Nat) (strand : Nat)
  /-- PAND (R185): Predicate AND. -/
  | pand (core : Nat) (strand : Nat)
  /-- POR (R185): Predicate OR. -/
  | por (core : Nat) (strand : Nat)
  /-- PXOR (R185): Predicate XOR. -/
  | pxor (core : Nat) (strand : Nat)
  /-- PNOT (R185): Predicate NOT. -/
  | pnot (core : Nat) (strand : Nat)
  /-- VCVTI (R185): Converts FP32 lanes to saturated int32, NaN to 0. -/
  | vcvti (core : Nat) (strand : Nat)
  /-- VCVTF (R185): Converts int32 lanes to FP32. -/
  | vcvtf (core : Nat) (strand : Nat)
  /-- VRBF (R185): Rounds lanes to BF16 precision under SAT_WIDE. -/
  | vrbf (core : Nat) (strand : Nat)
  /-- VIADD (R185): Integer lane addition. -/
  | viadd (core : Nat) (strand : Nat)
  /-- VISUB (R185): Integer lane subtraction. -/
  | visub (core : Nat) (strand : Nat)
  /-- VIMUL (R185): Integer lane multiplication, low 32 bits. -/
  | vimul (core : Nat) (strand : Nat)
  /-- VAND (R185): Bitwise lane AND. -/
  | vand (core : Nat) (strand : Nat)
  /-- VOR (R185): Bitwise lane OR. -/
  | vor (core : Nat) (strand : Nat)
  /-- VXOR (R185): Bitwise lane XOR. -/
  | vxor (core : Nat) (strand : Nat)
  /-- VSHL (R185): Lane shift left. -/
  | vshl (core : Nat) (strand : Nat)
  /-- VSHRA (R185): Lane arithmetic shift right. -/
  | vshra (core : Nat) (strand : Nat)
  /-- VSHRL (R185): Lane logical shift right. -/
  | vshrl (core : Nat) (strand : Nat)
  /-- VIMIN (R185): Integer lane minimum. -/
  | vimin (core : Nat) (strand : Nat)
  /-- VIMAX (R185): Integer lane maximum. -/
  | vimax (core : Nat) (strand : Nat)
  /-- VICLT (R185): Integer less-than compare into a predicate. -/
  | viclt (core : Nat) (strand : Nat)
  /-- VPERM (R185): Permutes lanes of VA by indices in VB. -/
  | vperm (core : Nat) (strand : Nat)
  /-- VBLANE (R185): Broadcasts one lane of VA to every lane. -/
  | vblane (core : Nat) (strand : Nat)
  /-- VIOTA (R185): Writes lane index plus 16 x strand plus IMM. -/
  | viota (core : Nat) (strand : Nat)
  /-- VROT (R185): Rotates lanes of VA by IMM. -/
  | vrot (core : Nat) (strand : Nat)
  /-- RCLR (R194): Clears a reduction state to the identity of every operation. -/
  | rclr (core : Nat) (strand : Nat)
  /-- RADD (R195): Adds active lanes into a reduction state exactly, or by the fall-back tree. -/
  | radd (core : Nat) (strand : Nat)
  /-- RMAX (R197): Folds active lanes into the running maximum. -/
  | rmax (core : Nat) (strand : Nat)
  /-- RMIN (R197): Folds active lanes into the running minimum. -/
  | rmin (core : Nat) (strand : Nat)
  /-- RARG (R197): Keeps the largest value and its position. -/
  | rarg (core : Nat) (strand : Nat)
  /-- RSOFT (R200): Updates a softmax state with a chunk of a row. -/
  | rsoft (core : Nat) (strand : Nat)
  /-- RREAD (R195): Returns a reduction state's sum, extremum, position or term count. -/
  | rread (core : Nat) (strand : Nat)
  /-- RXPORT (R198): Writes a reduction state as an exact cell to the operand cache. -/
  | rxport (core : Nat) (strand : Nat) (stalls : Nat)
  /-- RIMPORT (R198): Adds an exact cell into a reduction state. -/
  | rimport (core : Nat) (strand : Nat) (stalls : Nat) (ecc : List (Nat × Nat))
  /-- VSMX (R201): Writes the softmax of a chunk under a reduction state, deciding the row case. -/
  | vsmx (core : Nat) (strand : Nat)
  /-- VGATH (R204): Gathers indexed elements of a tensor slot into lanes, FILL for out-of-bounds. `scr`, `oc` as for VLDQ. -/
  | vgath (core : Nat) (strand : Nat) (scr : Nat) (oc : Nat) (ecc : List (Nat × Nat))
  /-- VSCAT (R205): Scatters lanes to indexed elements of an FP32 or BF16 slot. `scr`, `oc` as for VLDQ. -/
  | vscat (core : Nat) (strand : Nat) (scr : Nat) (oc : Nat)
  /-- VSCADD (R206): Adds lanes exactly into indexed exact cells. `scr`, `oc` as for VLDQ. -/
  | vscadd (core : Nat) (strand : Nat) (scr : Nat) (oc : Nat) (ecc : List (Nat × Nat))
  /-- COPY (R327): A DMA COPY descriptor walks records between HBM and scratch, raw or converting, with padding and optional quantisation. `ecc`: errors of HBM; `scr`: errors of scratch; `late`: its crossings between the dies that came late (01 R34). -/
  | copy (core : Nat) (ecc : List EccEvent) (scr : List (Nat × Nat)) (late : Nat)
  /-- DMA_GATHER (R333): An INDEXED descriptor with IDX_OP 0 gathers indexed HBM rows into scratch. Operands as for COPY. -/
  | dmaGather (core : Nat) (ecc : List EccEvent) (scr : List (Nat × Nat)) (late : Nat)
  /-- DMA_SCATTER_STORE (R333): An INDEXED descriptor with IDX_OP 1 stores scratch rows to indexed HBM rows in list order. Operands as for COPY. -/
  | dmaScatterStore (core : Nat) (ecc : List EccEvent) (scr : List (Nat × Nat)) (late : Nat)
  /-- DMA_SCATTER_ADD (R333): An INDEXED descriptor with IDX_OP 2 adds FP32 rows exactly into HBM exact cells. Operands as for COPY. -/
  | dmaScatterAdd (core : Nat) (ecc : List EccEvent) (scr : List (Nat × Nat)) (late : Nat)
  /-- DMA_COMPLETE (R334): A DMA descriptor completes once all its writes are acknowledged and its damage records delivered. `acks`: write acknowledgements that come in; `late`: late crossings. -/
  | dmaComplete (core : Nat) (acks : Nat) (late : Nat)
  /-- PEER_WRITE (R331): A DMA PEER write arrives on the data channel, is written at the target and acknowledged. -/
  | peerWrite (die : Nat) (member : Nat) (ctx : Nat) (gen : Nat) (runs : List (Nat × List Byte))
  /-- HOST_HBM_ACCESS (R28): A host access to the HBM window is steered, forwarded if needed, resolved through the lay table and served. -/
  | hostHbmAccess (a : HostAccess) (ecc : List EccEvent)
  /-- HOST_ACCESS_TIMEOUT (R381): A host access unanswered for 2 us is completed by the UCIe adapter with all ones or discarded. -/
  | hostAccessTimeout
  /-- NORM_PASS (R224): Once GRAD_KNOT is tied, the Capstan adds a clipped record's squared gradients into its group cell. -/
  | normPass (stack : Nat) (rcd : Nat)
  /-- CLIP_NORM (R225): The job-wide group cell returns and the Capstan forms the clip factor or vetoes the group. -/
  | clipNorm (stack : Nat) (group : Nat)
  /-- UPDATE_PASS (R217): The Capstan applies the optimiser to a record into the inactive slot and ties DONE_KNOT after the writes are acknowledged. -/
  | updatePass (stack : Nat) (rcd : Nat)
  /-- MP_END (R220): Microprogram operation that ends the program. -/
  | mpEnd (stack : Nat)
  /-- MP_ADD (R220): Microprogram addition. -/
  | mpAdd (stack : Nat)
  /-- MP_SUB (R220): Microprogram subtraction. -/
  | mpSub (stack : Nat)
  /-- MP_MUL (R220): Microprogram multiplication. -/
  | mpMul (stack : Nat)
  /-- MP_FMA (R220): Microprogram fused multiply-add. -/
  | mpFma (stack : Nat)
  /-- MP_DIV (R220): Microprogram division. -/
  | mpDiv (stack : Nat)
  /-- MP_SQRT (R220): Microprogram square root. -/
  | mpSqrt (stack : Nat)
  /-- MP_MIN (R220): Microprogram minimum. -/
  | mpMin (stack : Nat)
  /-- MP_MAX (R220): Microprogram maximum. -/
  | mpMax (stack : Nat)
  /-- MP_ABS (R220): Microprogram absolute value. -/
  | mpAbs (stack : Nat)
  /-- MP_NEG (R220): Microprogram negation. -/
  | mpNeg (stack : Nat)
  /-- MP_SIGN (R220): Microprogram sign. -/
  | mpSign (stack : Nat)
  /-- MP_SELNEG (R220): Microprogram select B if A is negative, else C. -/
  | mpSelneg (stack : Nat)
  /-- MP_MOV (R220): Microprogram move. -/
  | mpMov (stack : Nat)
  /-- SCHED_TEST_COMPUTE (R236): A write to SCHED_TEST_CTRL with MODE 0 starts computing sched(ENTRY, STEP). -/
  | schedTestCompute (stack : Nat) (index : Nat) (entry : Nat)
  /-- SCHED_TEST_CT (R236): A write to SCHED_TEST_CTRL with MODE 1 starts reading a CT entry. -/
  | schedTestCt (stack : Nat) (index : Nat) (entry : Nat)
  /-- SCHED_TEST_DONE (R236): The schedule test result becomes valid 200 ns after the write. -/
  | schedTestDone (stack : Nat)
  /-- BUCKET_COMPRESS (R242): A whipping engine compresses a bucket with error feedback under TOPK or SIGN and sends its fragments, CANCEL or FINAL. -/
  | bucketCompress (die : Nat) (rcd : Nat) (bucket : Nat)
  /-- TOPK (R249): A TOPK fragment arrives and is staged in its slot or dropped as stale. -/
  | topkMsg (die : Nat) (m : FragMsg)
  /-- SIGN (R249): A SIGN fragment arrives and is staged in its slot or dropped as stale. -/
  | signMsg (die : Nat) (m : FragMsg)
  /-- CANCEL (R249): A CANCEL arrives and empties the slot, raising its highest epoch. -/
  | cancelMsg (die : Nat) (m : FragMsg)
  /-- FINAL (R249): A FINAL arrives and makes the slot final, or raises WH_PROTOCOL. -/
  | finalMsg (die : Nat) (m : FragMsg)
  /-- CELL (R252): An exact-cell message arrives and is added exactly into the job-wide combination. -/
  | cellMsg (die : Nat) (m : CellMsg)
  /-- DENSE (R253): A DENSE ring message arrives, is added and rounded, and is sent on or written out. -/
  | denseMsg (die : Nat) (m : DenseMsg)
  /-- BUCKET_MERGE (R250): Once all slots of a bucket are final and the merge store has room, the bucket is summed exactly and written to OUT_BASE. -/
  | bucketMerge (die : Nat) (rcd : Nat) (bucket : Nat) (stalls : Nat)
  /-- LOAD (R262): STEP_CTRL.LOAD checks a rigging image completely and loads it or rejects it with a code. -/
  | load
  /-- RUN (R274): A write to STEP_CTRL.RUN lets the controller leave HELD for ARMED, or holds it at the next sample. -/
  | run (value : Bool)
  /-- REISSUE (R277): STEP_CTRL.REISSUE raises ATTEMPT, clears FAULT_HELD and proceeds under RUN for the same step. -/
  | reissue
  /-- STEP_LIMIT (R275): A write of the step limit holds the module at its next sample if the limit is reached. -/
  | stepLimit (value : W64)
  /-- READY (R355): A READY message arrives at a manager or the root; when all have reported, READY goes up or TICK is sent. -/
  | ready (member : Nat) (step : Nat) (attempt : Nat)
  /-- TICK (R355): A TICK arrives, is forwarded with ELAPSED updated, and starts the wait for RUNNING or, with HOLD, returns to HELD. -/
  | tick (step : Nat) (attempt : Nat) (hold : Bool) (elapsed : Nat) (link : Nat) (residence : Nat)
  /-- ENTER_RUNNING (R270): TICK_DELAY minus ELAPSED expires and the module enters RUNNING, clearing step-scoped knots and applying queued remote operations. -/
  | enterRunning
  /-- DRAIN_COMPLETE (R272): When DRAINING work and mirror acknowledgements finish, the module sends its step summary. `acks`: mirror acknowledgements that have come in since. -/
  | drainComplete (acks : Nat)
  /-- STEP_SUMMARY (R272): A step summary arrives at a manager or the root and is combined; the root answers COMMIT or ABORT. -/
  | stepSummary (member : Nat) (step : Nat) (attempt : Nat) (m : Summary)
  /-- DRAIN_TIMEOUT (R272): DRAINING outlasts DRAIN_BOUND, a fault. -/
  | drainTimeout
  /-- COMMIT (R273): COMMIT arrives and the module writes commit words, ratchet and maxima, mailboxes, feed releases, the step record and LOGLINE. -/
  | commit (step : Nat) (attempt : Nat) (m : Summary) (k : Nat) (facts : SlotFacts)
  /-- MAINTENANCE_END (R276): The slot's MAINT_LEN expires and the module goes to ARMED or HELD. -/
  | maintenanceEnd
  /-- ABORT (R409): ABORT arrives and every unit stops, discards queued work and quiesces within 20 us. -/
  | abortStep (step : Nat) (attempt : Nat)
  /-- QUIESCE_CHECK (R409): At 20 us the die controller checks quiescence, escalates stragglers and the step controller enters HELD with FAULT_HELD. -/
  | quiesceCheck (stuck : List (Nat × Nat))
  /-- REISSUE_MESSAGE (R358): A REISSUE message arrives and is applied as a local write of STEP_CTRL.REISSUE. -/
  | reissueMessage (step : Nat) (attempt : Nat)
  /-- FAULT_REPORT (R358): A fault report arrives at a manager or the root; the root sends ABORT. -/
  | faultReport (member : Nat) (entry : List W64)
  /-- HEARTBEAT (R359): A heartbeat arrives on the management channel, carrying frequency proposals. `k`: the sender's proposal; `standby`: it is a standby. -/
  | heartbeat (member : Nat) (k : Nat) (standby : Bool)
  /-- HEARTBEAT_TIMER (R359): Every HEARTBEAT us the module sends a heartbeat. -/
  | heartbeatTimer
  /-- HANK_MEMBER_LOST (R359): A manager misses MISS_LIMIT heartbeats from a member and reports the loss. -/
  | hankMemberLost (member : Nat)
  /-- HANK_MANAGER_LOST (R359): A member misses its manager's heartbeats. -/
  | hankManagerLost
  /-- ROUTE_LOAD (R361): ROUTE_CTRL.LOAD while HELD loads a replacement route section and records its digest. -/
  | routeLoad (value : W64)
  /-- MIRROR_DATA (R426): Mirror planes or residuals arrive at the buddy, are written into the uncommitted half and acknowledged. -/
  | mirrorData (m : MirrorMsg)
  /-- MIRROR_RESTORE (R427): MIRROR_CTRL SEND with MODE 0 sends the committed mirror halves to a standby. -/
  | mirrorRestore (value : W64)
  /-- MIRROR_REBUILD (R428): MIRROR_CTRL SEND with MODE 1 sends the module's committed slots to its new buddy. -/
  | mirrorRebuild (value : W64)
  /-- RESTORE_DATA (R427): Restore data arrives at a standby, is written to slot 0 or a residual plane, and commits the record, or is refused. -/
  | restoreData (m : MirrorMsg)
  /-- SAVE (R429): STATE_CTRL.SAVE while HELD writes the job-wide state block. -/
  | save
  /-- RESTORE (R429): STATE_CTRL.RESTORE reads back the state block if allowed, or sets REFUSED. -/
  | restore
  /-- TETHER (R411): A part's no-progress count reaches TETHER_LIMIT, raising a fault, taking a dump and starting reset escalation. -/
  | tether (core : Nat) (part : Nat)
  /-- RESET_ESCALATED (R412): A reset stage passes its bound without handshake and escalates to the next stage. -/
  | resetEscalated (kind : Nat) (idx : Nat)
  /-- RESET_DONE (R412): A reset stage completes its reset-done handshake. -/
  | resetDone (kind : Nat) (idx : Nat)
  /-- SLOT_NOW (R415): REL_CTRL.SLOT_NOW while HELD runs an unscheduled maintenance slot. -/
  | slotNow (facts : SlotFacts)
  /-- SPARE_REQ (R417): A write of VALID marks a core or cluster for sparing at the next slot. -/
  | spareReq (die : Nat) (value : W64)
  /-- TAKE_DUMP (R421): DUMP_CTRL.TAKE takes a crash dump unless one is held. -/
  | takeDump (die : Nat)
  /-- RELEASE_DUMP (R421): DUMP_CTRL.RELEASE clears the dump's VALID word. -/
  | releaseDump (die : Nat)
  /-- CHAFE_TAIL (R420): A write retires chafe-log entries up to TAIL. -/
  | chafeTail (die : Nat) (value : W64)
  /-- JOURNAL_ACK (R423): Acknowledges a journal outbox slot and frees it. -/
  | journalAck (slot : Nat)
  /-- JOURNAL_RESUME (R424): RESUME offers a journal entry to continue the chain, which is accepted or refused, and a resumed entry is emitted. -/
  | journalResume (value : W64)
  /-- JOURNAL_SUBMIT (R422): SUBMIT signs a host page-retirement body as a journal entry. -/
  | journalSubmit (value : W64)
  /-- MIGRATION_REQUEST (R320): A write of REPAIR_CTRL.DST requests a channel migration, accepted for the next slot or refused. -/
  | migrationRequest (stack : Nat) (value : W64)
  /-- RETRAIN (R319): REPAIR_CTRL.RETRAIN requests retraining of a channel at the next slot. -/
  | retrain (stack : Nat) (src : Nat)
  /-- MIGRATION_CHUNK (R321): The repair engine copies a 64-slot chunk and advances the watermark. -/
  | migrationChunk (stack : Nat)
  /-- PATROL_SCRUB (R318): The repair engine scrubs active channels under the repair regulator. -/
  | patrolScrub (stack : Nat) (ecc : List EccEvent)
  /-- REFRESH_OVERRIDE (R311): A rise in refresh need raises the refresh rate at once as a safety override. `temp`: the temperature in °C of the stack's hottest device. -/
  | refreshOverride (stack : Nat) (temp : Nat)
  /-- CREATE (R394): CTX_CTRL.CREATE makes a context ACTIVE with its generation, or refuses it. -/
  | create (ctx : Nat) (gen : Nat)
  /-- TEARDOWN (R399): CTX_CTRL.TEARDOWN retires the generation and starts draining the context. -/
  | teardown (ctx : Nat)
  /-- CTX_DRAIN_FORCED (R399): CTX_DRAIN_BOUND expires, the remainder is discarded and scrubbing starts. -/
  | ctxDrainForced (ctx : Nat)
  /-- CTX_TEARDOWN_DONE (R399): The scrub completes, the key is erased and the context becomes FREE. -/
  | ctxTeardownDone (ctx : Nat)
  /-- STATUS_CLEAR (R385): A write of 1 to a cause STATUS bit clears it unless a hardware set lands in the same cycle. `met`: the causes that occur in the cycle of the write. -/
  | statusClear (addr : Nat) (value : W64) (met : W64)
  /-- DETAIL_VALID_CLEAR (R483): A write of 1 to a first-event detail register's VALID clears it, subject to a same-cycle event. `met`: the detail of an event in the cycle of the write, with bit 63 set, or 0. -/
  | detailValidClear (addr : Nat) (value : W64) (met : W64)
  /-- REGISTER_WRITE (R12): A write to a register without its own row updates its fields, subject to access codes and state checks. `ecc`: errors of scratch that a scratch-window read meets. -/
  | registerWrite (a : HostAccess) (ecc : List (Nat × Nat))
  /-- LANE_CTRL (R363): A write of RATE_FLOOR or RATE_CEIL while HELD retrains the link at once. -/
  | laneCtrl (link : Nat) (value : W64)
  /-- VOLT_BOUND (R482): A write while HELD sets a die's VCORE bounds, effective at once. -/
  | voltBound (die : Nat) (value : W64)
  /-- CLK_BOUND (R482): A write while HELD sets the core-clock bounds, effective at the next slot. -/
  | clkBound (value : W64)
  /-- POWER_CAP (R482): A write while HELD sets the input power cap, effective at the next slot. -/
  | powerCap (value : W64)
  /-- FLIT (R344): A flit arrives and is accepted in order, NAKed, forwarded or delivered; credits and ACKs are taken. -/
  | flit (link : Nat) (bytes : List Byte) (phy : PhyFacts)
  /-- NAK (R344): A NAK arrives and the sender replays every flit after the acknowledged SEQ. -/
  | nak (link : Nat) (ack : Nat)
  /-- ACK_TIMEOUT (R342): No ACK for 10 us with flits outstanding takes the link down. -/
  | ackTimeout (link : Nat)
  /-- LANE_LOCK_LOSS (R342): An active lane loses lock during a step and the link goes down. -/
  | laneLockLoss (link : Nat) (lane : Nat)
  /-- MESSAGE_RELEASE (R351): A delivered knot/control or data message is released to its unit at its deadline. `index`: its place among those delivered; `release`: RELEASE of the sender's route set, in ns. -/
  | messageRelease (link : Nat) (index : Nat) (release : Nat)
  /-- FIRMWARE_BOOT (R434): RESET_N release starts the boot ROM reading and verifying the firmware image. -/
  | firmwareBoot
  /-- FIRMWARE_VERIFIED (R435): Verification ends: the other dies are released, or the module enters recovery. -/
  | firmwareVerified
  /-- RECOVERY_IMAGE (R436): In recovery, a replacement image arrives over MCTP, is written to flash and booted. -/
  | recoveryImage (bytes : List Byte)
  /-- HBM_READY (R479): Base dies finish PHY training and zeroing and HBM reports ready. -/
  | hbmReady
  /-- PWR_EN_RISE (R479): PWR_EN rising closes the input switch and runs the start-up sequence to PWR_GOOD. -/
  | pwrEnRise
  /-- PWR_EN_FALL (R479): PWR_EN falling shuts the rails down in reverse order, losing all state. -/
  | pwrEnFall
  /-- RESET_N_ASSERT (R480): RESET_N falling while running resets every unit except chafe logs and dumps. -/
  | resetNAssert
  /-- VIN_WARN (R462): VIN36 outside 33.5-39.5 V for 1 ms raises a warning and ALERT_N. -/
  | vinWarn (mv : Nat)
  /-- VIN_FAULT (R462): VIN36 below 32 V for 100 us or above 41 V for 10 us is a fault and shuts the module down. -/
  | vinFault (mv : Nat)
  /-- VIN_OVERCURRENT (R462): Input current above 80 A for 100 us invokes the issue throttle. -/
  | vinOvercurrent (ma : Nat)
  /-- PHASE_SHED (R463): A converter phase out of limits is shed within 5 us and a spare is marked. -/
  | phaseShed (phase : Nat)
  /-- THERMAL_THROTTLE (R471): A compute-die sensor at 95 C gates issue to one cycle in two. -/
  | thermalThrottle (die : Nat) (temp : Nat)
  /-- THROTTLE_RELEASE (R471): The issue gate is released at 92 C. -/
  | throttleRelease (die : Nat) (temp : Nat)
  /-- THERM_TRIP (R471): A sensor at 105 C asserts THERM_TRIP_N and opens the input switch. -/
  | thermTrip (part : Nat) (temp : Nat)
  /-- VOLTAGE_LOOP (R467): Every 10 us the voltage loop moves VCORE one step toward 10 % margin within bounds. -/
  | voltageLoop (die : Nat) (margin : Nat)
  /-- REF_LOST (R474): A reference clock lost for 1 us is a fault and the PLLs hold frequency. -/
  | refLost (r : Nat)
  /-- REF_HOLDOVER_EXPIRY (R474): A reference absent for 10 ms sends the module to RESET with ALERT_N. -/
  | refHoldoverExpiry
  /-- ALERT_STATUS_CLEAR (R478): A W1C write to ALERT_STATUS clears events whose condition has passed. -/
  | alertStatusClear (value : W64)
  /-- CLEAR_FAULTS (R477): PMBus command that clears ALERT_STATUS. -/
  | clearFaults
  /-- CAPABILITY (R477): PMBus command that returns the capability byte. -/
  | capability
  /-- VIN_UV_WARN_LIMIT (R477): PMBus command that returns the 33.5 V warning limit. -/
  | vinUvWarnLimit
  /-- STATUS_WORD (R477): PMBus command that returns the status word. -/
  | statusWord
  /-- STATUS_INPUT (R477): PMBus command that returns input status. -/
  | statusInput
  /-- STATUS_TEMPERATURE (R477): PMBus command that returns temperature status. -/
  | statusTemperature
  /-- READ_VIN (R477): PMBus command that returns input voltage. -/
  | readVin
  /-- READ_IIN (R477): PMBus command that returns input current. -/
  | readIin
  /-- READ_TEMPERATURE_1 (R477): PMBus command that returns the hottest compute-die temperature. -/
  | readTemperature1
  /-- READ_TEMPERATURE_2 (R477): PMBus command that returns the hottest base-die temperature. -/
  | readTemperature2
  /-- READ_PIN (R477): PMBus command that returns input power. -/
  | readPin
  /-- MFR_ID (R477): PMBus command that returns IXVR. -/
  | mfrId
  /-- MFR_MODEL (R477): PMBus command that returns FX3M-512. -/
  | mfrModel
  /-- GET_VERSION (R447): SPDM request answered with version 1.2. -/
  | getVersion
  /-- GET_CAPABILITIES (R447): SPDM request for responder capabilities. -/
  | getCapabilities
  /-- NEGOTIATE_ALGORITHMS (R447): SPDM request settling on P-521 and SHA-512. -/
  | negotiateAlgorithms
  /-- GET_DIGESTS (R447): SPDM request for certificate-chain digests. -/
  | getDigests
  /-- GET_CERTIFICATE (R445): SPDM request for the certificate chain in slot 0. -/
  | getCertificate (slot : Nat) (offset : Nat) (length : Nat)
  /-- CHALLENGE (R447): SPDM challenge answered with an Alias-key signature. -/
  | challenge (slot : Nat) (nonce : List Byte)
  /-- GET_MEASUREMENTS (R448): SPDM request answered from a one-cycle snapshot of the measurement blocks. -/
  | getMeasurements (op : Nat) (signed : Bool) (nonce : List Byte)
  /-- CTX_KEY_GEN (R451): Security command that draws and installs a context's AES-256-XTS key. -/
  | ctxKeyGen (ctx : Nat)
  /-- LINK_SECRET (R455): Security command that installs the job link secret in the unused key phase. -/
  | linkSecret
  /-- IMAGE_KEY (R450): Security command that installs the rigging-image public key. -/
  | imageKey
  /-- POLICY_WRITE (R442): Security command that writes a new customer policy generation to OTP, committing it last. -/
  | policyWrite
  /-- LIFECYCLE_ADVANCE (R439): Security command that advances the lifecycle state, effective at next power-on. -/
  | lifecycleAdvance
  /-- DEBUG_CHALLENGE (R440): Security command that returns a one-use 32-byte nonce. -/
  | debugChallenge
  /-- DEBUG_UNLOCK (R440): Security command that verifies a signed nonce and unlocks JTAG until power loss. -/
  | debugUnlock (slot : Nat)
  /-- SPDM_RELAY (R447): Security command that relays an SPDM request from the host and returns the response. -/
  | spdmRelay
  /-- RANDOM (R458): Security command that returns 64 DRBG bytes. -/
  | randomBytes
  /-- SEC_ARG_ZEROING (R459): 1 ms after a secret-bearing command completes, SEC_ARG and SEC_RESULT are zeroed if not already. -/
  | secArgZeroing
  /-- TRNG_FAIL (R458): An entropy health test fails and key-drawing commands end with code 7 until power cycles. -/
  | trngFail
  /-- TRAINING_EXCHANGE (R338): During link training the far end's JOB_ID, SLOT_ID, link number and rate proposal arrive and the lanes lock, so the link comes up, stays down miscabled or raises a rate conflict. -/
  | trainingExchange (link : Nat) (t : TrainMsg)
  /-- REF_RETURN (R474): A lost reference clock comes back within the 10 ms holdover, cancelling the move to RESET and restoring lock at the next maintenance slot. -/
  | refReturn (r : Nat)
  /-- LINK_LANE_MARKED (R341): A lane's receive margin falls below the PHY limit, so the lane is marked for sparing at the next slot and LINK_LANE_MARKED is raised. -/
  | linkLaneMarked (link : Nat) (lane : Nat)
  /-- KEY_PHASE_REPORT (R456): The far end's management-VC report that it holds a link secret for the new key phase arrives and is recorded for the next phase change. -/
  | keyPhaseReport (link : Nat) (phase : Nat)
  /-- SEC_STATUS_READ (R459): A host read of SEC_STATUS with BUSY 0 after a secret-bearing command zeroes SEC_ARG and SEC_RESULT. -/
  | secStatusRead
  /-- SEC_CMD_DONE (R458): A security command ends after up to 50 ms, writes SEC_RESULT and CODE and clears BUSY. -/
  | secCmdDone
  /-- LOAD_DONE (R263): A rigging-image load ends after up to 10 ms plus size over 4 GB/s, writing the units and IMAGE_MEAS or leaving the old image, and clears LOADING and LOAD. -/
  | loadDone
deriving DecidableEq, Repr

end Sys2Proof
end

