-- ==== Sys2Proof/Decode.lean ====
section
/-! DEFINITION. The words of commands. The table gives no row any bits: commands are events and accesses, not words. -/

namespace Sys2Proof

/-- The command that a word spells by the table's bits: none, since no row has any. -/
def decodeTableWord (_nbits _w : Nat) : Option Instr := none

end Sys2Proof
end

