-- ==== Sys2Proof/Config.lean ====
section
/-! DEFINITION. What an implementation fixes and the spec leaves open: free values, constants without a body, so that no proof can see them. -/

namespace Sys2Proof.Config

/-- The value an instruction takes where the spec states none; applied to the state's free-value counter. -/
opaque freeWord : Nat → W64

/-- A free choice among the results a bound admits, a function of the operation and its input bits (07 R192). -/
opaque fnChoice : Nat → W32 → Nat

/-- The same choice for VEXP of a value that is no FP32 number (07 R200, R201): the value in units of 2^−149. -/
opaque expChoice : Int → Nat

/-- A shift by 32 or more, for which 07 R185 states no result: operation, value, amount. -/
opaque shiftOver : Nat → W32 → W32 → W32

/-- What a word beyond the end of a constant store reads as (10 R265 states none): core and word number. -/
opaque poolPast : Nat → Nat → W64

/-- The entry that leaves a full page-entry cache (15 R397 states no order): cache, context and page of the entry that enters. -/
opaque cacheVictim : Nat → Nat → Nat → Nat

/-- Which of the encodings of a fill value a raw transfer's synthesised records take, and their bits where no encoding has that value (12 R328 states neither): format specifier, FILL, tensor scale. -/
opaque fillChoice : Nat → Nat → Nat → Nat

/-- The number drawn for an ECDSA signature, which FIPS 186-5 leaves to the signer: private key and digest. -/
opaque ecdsaNonce : Nat → BitVec 512 → Nat

/-- DRBG output: 64 bytes for each draw number. -/
opaque drbg : Nat → List Byte

/-- What a byte encrypted under one key reads as under another (17 R454): content key, key in force, address. -/
opaque garble : Nat → Nat → Nat → Byte

/-- The clip factor with which a vetoed clip group's records go through their update, whose slots are abandoned (08 R225, R226): step, stack, group. -/
opaque vetoClip : Nat → Nat → Nat → BitVec 32

/-- The body of a message to which the spec gives no layout: its fields, as numbers. -/
opaque msgBody : List Nat → List Byte

/-- The bytes of a DER certificate chain and of responder fields that the spec leaves to the standards it names: an item number and the digests it carries. -/
opaque certBytes : Nat → List (BitVec 512) → List Byte

/-- The highest k a module's frequency loop would choose (18 R468), before its software ceiling: from the clock and the power cap. -/
opaque freqChoice : Nat → Nat → Nat

/-- Core cycle within the beat (13 R348) in which a message is sent, from the beat and the messages sent before it; the model's clock counts beats. -/
opaque coreCycle : Nat → Nat → Nat

/-- The body of a knot/control message after a passing hop has added ns to the ELAPSED that a TICK carries (13 R355); other bodies stay. The spec gives no layout of these bodies. -/
opaque addElapsed : Nat → List Byte → List Byte

/-- What a host read of core scratch finds while the module is RUNNING, which is undefined (10 R282): core, byte address, and how many values the host was returned before. -/
opaque busyScratch : Nat → Nat → Nat → Byte

/-- The byte that PMBus CAPABILITY returns, which 18 R477 does not state. -/
opaque pmbusCapability : Byte

/-- Whether a member of a job (JOB_ID, member) is an FX3 module: 09 R238 has image load judge it in a mixed job, and the spec does not say how the module knows (14 R367; log 93). -/
opaque memberFx3 : Nat → Nat → Bool

end Sys2Proof.Config
end

