-- ==== Sys2Proof/Machine/CosTable.lean ====
section
/-! DEFINITION. The cosine table CT of the schedule engine (08 R231): its first 513 entries; the rest follow by CT[1024 − j] = 2^30 − CT[j]. -/

namespace Sys2Proof.Machine

/-- Entries 0–56. -/
def ctPart0 : List Nat := [
  1073741824, 1073739297, 1073731718, 1073719085, 1073701399, 1073678660, 1073650868, 1073618024, 1073580129, 1073537181,
  1073489182, 1073436132, 1073378032, 1073314882, 1073246683, 1073173435, 1073095139, 1073011797, 1072923408, 1072829973,
  1072731494, 1072627971, 1072519405, 1072405797, 1072287149, 1072163461, 1072034735, 1071900972, 1071762173, 1071618339,
  1071469472, 1071315573, 1071156644, 1070992686, 1070823700, 1070649689, 1070470653, 1070286596, 1070097517, 1069903419,
  1069704305, 1069500175, 1069291032, 1069076877, 1068857714, 1068633543, 1068404366, 1068170187, 1067931007, 1067686828,
  1067437654, 1067183485, 1066924325, 1066660176, 1066391040, 1066116920, 1065837818
]

/-- Entries 57–113. -/
def ctPart1 : List Nat := [
  1065553738, 1065264682, 1064970652, 1064671652, 1064367683, 1064058750, 1063744855, 1063426000, 1063102189, 1062773425,
  1062439712, 1062101051, 1061757447, 1061408902, 1061055420, 1060697004, 1060333658, 1059965385, 1059592188, 1059214071,
  1058831038, 1058443092, 1058050237, 1057652476, 1057249813, 1056842252, 1056429797, 1056012452, 1055590220, 1055163106,
  1054731114, 1054294247, 1053852511, 1053405908, 1052954443, 1052498121, 1052036945, 1051570921, 1051100052, 1050624343,
  1050143798, 1049658422, 1049168220, 1048673195, 1048173354, 1047668699, 1047159237, 1046644972, 1046125909, 1045602052,
  1045073408, 1044539979, 1044001772, 1043458792, 1042911044, 1042358533, 1041801264
]

/-- Entries 114–170. -/
def ctPart2 : List Nat := [
  1041239242, 1040672473, 1040100962, 1039524715, 1038943736, 1038358031, 1037767607, 1037172468, 1036572619, 1035968068,
  1035358818, 1034744877, 1034126249, 1033502942, 1032874959, 1032242308, 1031604995, 1030963025, 1030316404, 1029665139,
  1029009235, 1028348699, 1027683537, 1027013756, 1026339361, 1025660359, 1024976756, 1024288559, 1023595775, 1022898409,
  1022196468, 1021489960, 1020778890, 1020063265, 1019343092, 1018618378, 1017889130, 1017155354, 1016417057, 1015674247,
  1014926930, 1014175114, 1013418805, 1012658010, 1011892737, 1011122993, 1010348786, 1009570121, 1008787008, 1007999452,
  1007207462, 1006411046, 1005610209, 1004804961, 1003995308, 1003181259, 1002362821
]

/-- Entries 171–227. -/
def ctPart3 : List Nat := [
  1001540001, 1000712807, 999881248, 999045330, 998205063, 997360453, 996511509, 995658239, 994800650, 993938751,
  993072550, 992202055, 991327274, 990448216, 989564889, 988677300, 987785459, 986889374, 985989053, 985084505,
  984175738, 983262761, 982345582, 981424211, 980498655, 979568923, 978635025, 977696968, 976754762, 975808416,
  974857939, 973903339, 972944625, 971981807, 971014894, 970043894, 969068817, 968089672, 967106468, 966119215,
  965127921, 964132597, 963133251, 962129893, 961122532, 960111178, 959095840, 958076528, 957053251, 956026020,
  954994843, 953959731, 952920693, 951877739, 950830879, 949780122, 948725479
]

/-- Entries 228–284. -/
def ctPart4 : List Nat := [
  947666960, 946604574, 945538331, 944468242, 943394316, 942316564, 941234996, 940149621, 939060451, 937967496,
  936870765, 935770269, 934666018, 933558024, 932446295, 931330844, 930211679, 929088812, 927962254, 926832014,
  925698104, 924560534, 923419315, 922274458, 921125973, 919973871, 918818164, 917658861, 916495974, 915329515,
  914159493, 912985919, 911808806, 910628163, 909444003, 908256336, 907065173, 905870526, 904672406, 903470823,
  902265790, 901057318, 899845418, 898630102, 897411381, 896189266, 894963769, 893734901, 892502675, 891267101,
  890028191, 888785958, 887540412, 886291565, 885039430, 883784017, 882525340
]

/-- Entries 285–341. -/
def ctPart5 : List Nat := [
  881263408, 879998236, 878729833, 877458213, 876183387, 874905368, 873624166, 872339795, 871052267, 869761593,
  868467786, 867170857, 865870820, 864567686, 863261468, 861952177, 860639827, 859324429, 858005996, 856684541,
  855360075, 854032612, 852702163, 851368742, 850032360, 848693031, 847350767, 846005581, 844657485, 843306492,
  841952614, 840595865, 839236257, 837873804, 836508517, 835140410, 833769495, 832395786, 831019295, 829640036,
  828258021, 826873263, 825485776, 824095572, 822702665, 821307067, 819908792, 818507853, 817104264, 815698036,
  814289184, 812877721, 811463660, 810047015, 808627798, 807206023, 805781704
]

/-- Entries 342–398. -/
def ctPart6 : List Nat := [
  804354854, 802925486, 801493614, 800059251, 798622411, 797183107, 795741353, 794297163, 792850549, 791401527,
  789950108, 788496307, 787040138, 785581614, 784120750, 782657558, 781192052, 779724247, 778254157, 776781794,
  775307173, 773830308, 772351212, 770869900, 769386386, 767900682, 766412805, 764922767, 763430582, 761936265,
  760439830, 758941290, 757440660, 755937954, 754433186, 752926370, 751417521, 749906652, 748393778, 746878913,
  745362071, 743843267, 742322515, 740799829, 739275224, 737748714, 736220313, 734690035, 733157896, 731623909,
  730088088, 728550450, 727011007, 725469774, 723926767, 722381998, 720835484
]

/-- Entries 399–455. -/
def ctPart7 : List Nat := [
  719287238, 717737275, 716185609, 714632256, 713077230, 711520545, 709962217, 708402259, 706840686, 705277514,
  703712757, 702146429, 700578546, 699009121, 697438171, 695865709, 694291751, 692716311, 691139405, 689561046,
  687981250, 686400032, 684817406, 683233388, 681647992, 680061233, 678473127, 676883688, 675292931, 673700871,
  672107523, 670512903, 668917024, 667319903, 665721554, 664121992, 662521232, 660919289, 659316179, 657711917,
  656106517, 654499995, 652892365, 651283644, 649673845, 648062985, 646451079, 644838141, 643224186, 641609231,
  639993290, 638376378, 636758511, 635139704, 633519971, 631899329, 630277793
]

/-- Entries 456–512. -/
def ctPart8 : List Nat := [
  628655377, 627032098, 625407969, 623783008, 622157228, 620530646, 618903276, 617275134, 615646236, 614016595,
  612386229, 610755152, 609123380, 607490927, 605857810, 604224043, 602589643, 600954624, 599319001, 597682791,
  596046009, 594408670, 592770789, 591132381, 589493464, 587854050, 586214157, 584573800, 582932993, 581291753,
  579650095, 578008034, 576365586, 574722767, 573079591, 571436074, 569792232, 568148080, 566503633, 564858908,
  563213919, 561568682, 559923213, 558277527, 556631639, 554985566, 553339322, 551692922, 550046384, 548399721,
  546752950, 545106086, 543459144, 541812140, 540165090, 538518009, 536870912
]

/-- Entries 0–512. -/
def ctHalf : List Nat := ctPart0 ++ ctPart1 ++ ctPart2 ++ ctPart3 ++ ctPart4 ++ ctPart5 ++ ctPart6 ++ ctPart7 ++ ctPart8

/-- CT[j], j = 0–1,024. -/
def ct (j : Nat) : Nat := if j ≤ 512 then (ctHalf[j]?).getD 0 else 2 ^ 30 - (ctHalf[1024 - j]?).getD 0

end Sys2Proof.Machine
end

