-- ==== Sys2Proof/Machine/Bits.lean ====
section
/-! DEFINITION. Bit fields, byte order, sparse maps and other plain helpers, in one place so that each is decided once. -/

namespace Sys2Proof.Machine

/-- Bits `hi:lo` of a number. -/
def bits (w hi lo : Nat) : Nat := (w >>> lo) % 2 ^ (hi + 1 - lo)

/-- Bits `hi:lo` of a 64-bit word. -/
def fld (w : W64) (hi lo : Nat) : Nat := bits w.toNat hi lo

/-- One bit of a 64-bit word. -/
def bit (w : W64) (i : Nat) : Bool := fld w i i = 1

/-- Bit `i` of a number. -/
def nbit (w i : Nat) : Bool := bits w i i = 1

/-- `w` with bits `hi:lo` replaced by `v`. -/
def setFld (w : W64) (hi lo v : Nat) : W64 :=
  let m := 2 ^ (hi + 1 - lo)
  BitVec.ofNat 64 (w.toNat - (bits w.toNat hi lo) * 2 ^ lo + (v % m) * 2 ^ lo)

/-- A 64-bit word from a number. -/
def w64 (n : Nat) : W64 := BitVec.ofNat 64 n

/-- Sign extension of the low `n` bits of `v` as an integer. -/
def sext (n v : Nat) : Int :=
  let u := v % 2 ^ n
  if u < 2 ^ (n - 1) then (u : Int) else (u : Int) - (2 ^ n : Nat)

/-- An integer as an `n`-bit two's-complement number. -/
def toTwos (n : Nat) (i : Int) : Nat := (i % ((2 ^ n : Nat) : Int)).toNat

/-- `List.find?` for an association by number, with a default. -/
def sget {α : Type} (m : SMap α) (d : α) (k : Nat) : α :=
  match m with
  | [] => d
  | (k', v) :: t => if k' = k then v else sget t d k

/-- The entry at `k`, if the map lists one. -/
def sfind {α : Type} (m : SMap α) (k : Nat) : Option α :=
  match m with
  | [] => none
  | (k', v) :: t => if k' = k then some v else sfind t k

/-- Sets the entry at `k`, keeping the keys in rising order. -/
def sset {α : Type} (m : SMap α) (k : Nat) (v : α) : SMap α :=
  match m with
  | [] => [(k, v)]
  | (k', v') :: t =>
    if k < k' then (k, v) :: (k', v') :: t
    else if k = k' then (k, v) :: t
    else (k', v') :: sset t k v

/-- Removes the entry at `k`. -/
def sdel {α : Type} (m : SMap α) (k : Nat) : SMap α := m.filter fun p => p.1 ≠ k

/-- The `i`-th element of a list, or a default. -/
def nth {α : Type} (l : List α) (d : α) (i : Nat) : α := (l[i]?).getD d

/-- A list with position `i` replaced (unchanged when out of range). -/
def setNth {α : Type} (l : List α) (i : Nat) (v : α) : List α := l.set i v

/-- Little-endian number of a byte list (00 R9). -/
def leNat : List Byte → Nat
  | [] => 0
  | b :: t => b.toNat + 256 * leNat t

/-- The low `n` bytes of a number, least significant first (00 R9). -/
def leBytes : Nat → Nat → List Byte
  | 0, _ => []
  | n + 1, v => BitVec.ofNat 8 v :: leBytes n (v / 256)

/-- Big-endian number of a byte list. -/
def beNat (l : List Byte) : Nat := leNat l.reverse

/-- The number of bits needed for `n`: 0 for 0. -/
def nbits (n : Nat) : Nat := if n = 0 then 0 else Nat.log2 n + 1

/-- Ceiling of the base-2 logarithm of a positive number. -/
def clog2 (n : Nat) : Nat := nbits (n - 1)

/-- A saturating 64-bit counter raised by `k` (15 R386: saturating totals). -/
def satAdd (w : W64) (k : Nat) : W64 := w64 (min (w.toNat + k) (2 ^ 64 - 1))

/-- Population count of the low `n` bits. -/
def popc : Nat → Nat → Nat
  | 0, _ => 0
  | n + 1, v => v % 2 + popc n (v / 2)

/-- 1 for true, 0 for false. -/
def b01 (b : Bool) : Nat := if b then 1 else 0

/-- `n` divided by `d`, rounded up. -/
def cdiv (n d : Nat) : Nat := (n + d - 1) / d

/-- `n` rounded up to a multiple of `d`. -/
def roundUp (n d : Nat) : Nat := cdiv n d * d

/-- Bitwise list of bits set in `w`, lowest first, among bits `0..n-1`. -/
def bitsSet (n w : Nat) : List Nat := (List.range n).filter (nbit w)

/-- A bitmap with exactly the listed bits set. -/
def bitmap (l : List Nat) : Nat := l.foldl (fun a i => a ||| 1 <<< i) 0

end Sys2Proof.Machine
end

