-- ==== Sys2Proof/Machine/Crypto.lean ====
section
/-! DEFINITION. The cryptography that the spec names by its standard: SHA-512, and HMAC and HKDF with it (10 R261, 17 R444, R455); ECDSA on P-521 (17 R435, R450); AES-256-GCM (13 R353). The standards' own text is not in the spec (PRESUMED, log 107). -/

namespace Sys2Proof.Machine

/- SHA-512. -/

/-- Big-endian bytes of a number. -/
def beBytes (n v : Nat) : List Byte := (leBytes n v).reverse

/-- A list cut into pieces of n, the last one perhaps shorter. -/
def piecesOf {α : Type} (n : Nat) : Nat → List α → List (List α)
  | 0, _ => []
  | f + 1, l => if l.isEmpty then [] else l.take n :: piecesOf n f (l.drop n)

/-- Rotation of a 64-bit word to the right. -/
def rotr64 (x n : Nat) : Nat := (x >>> n) ||| ((x <<< (64 - n)) % 2 ^ 64)

/-- The eight working words. -/
structure ShaRegs where
  a : Nat
  b : Nat
  c : Nat
  d : Nat
  e : Nat
  f : Nat
  g : Nat
  h : Nat
deriving DecidableEq, Repr

/-- Round constants, part 1. -/
def shaK0 : List Nat := [
  0x428a2f98d728ae22, 0x7137449123ef65cd, 0xb5c0fbcfec4d3b2f, 0xe9b5dba58189dbbc,
  0x3956c25bf348b538, 0x59f111f1b605d019, 0x923f82a4af194f9b, 0xab1c5ed5da6d8118,
  0xd807aa98a3030242, 0x12835b0145706fbe, 0x243185be4ee4b28c, 0x550c7dc3d5ffb4e2,
  0x72be5d74f27b896f, 0x80deb1fe3b1696b1, 0x9bdc06a725c71235, 0xc19bf174cf692694,
  0xe49b69c19ef14ad2, 0xefbe4786384f25e3, 0xfc19dc68b8cd5b5, 0x240ca1cc77ac9c65,
  0x2de92c6f592b0275, 0x4a7484aa6ea6e483, 0x5cb0a9dcbd41fbd4, 0x76f988da831153b5,
  0x983e5152ee66dfab, 0xa831c66d2db43210, 0xb00327c898fb213f, 0xbf597fc7beef0ee4,
  0xc6e00bf33da88fc2, 0xd5a79147930aa725, 0x6ca6351e003826f, 0x142929670a0e6e70,
  0x27b70a8546d22ffc, 0x2e1b21385c26c926, 0x4d2c6dfc5ac42aed, 0x53380d139d95b3df,
  0x650a73548baf63de, 0x766a0abb3c77b2a8, 0x81c2c92e47edaee6, 0x92722c851482353b]
/-- Round constants, part 2. -/
def shaK1 : List Nat := [
  0xa2bfe8a14cf10364, 0xa81a664bbc423001, 0xc24b8b70d0f89791, 0xc76c51a30654be30,
  0xd192e819d6ef5218, 0xd69906245565a910, 0xf40e35855771202a, 0x106aa07032bbd1b8,
  0x19a4c116b8d2d0c8, 0x1e376c085141ab53, 0x2748774cdf8eeb99, 0x34b0bcb5e19b48a8,
  0x391c0cb3c5c95a63, 0x4ed8aa4ae3418acb, 0x5b9cca4f7763e373, 0x682e6ff3d6b2b8a3,
  0x748f82ee5defb2fc, 0x78a5636f43172f60, 0x84c87814a1f0ab72, 0x8cc702081a6439ec,
  0x90befffa23631e28, 0xa4506cebde82bde9, 0xbef9a3f7b2c67915, 0xc67178f2e372532b,
  0xca273eceea26619c, 0xd186b8c721c0c207, 0xeada7dd6cde0eb1e, 0xf57d4f7fee6ed178,
  0x6f067aa72176fba, 0xa637dc5a2c898a6, 0x113f9804bef90dae, 0x1b710b35131c471b,
  0x28db77f523047d84, 0x32caab7b40c72493, 0x3c9ebe0a15c9bebc, 0x431d67c49c100d4c,
  0x4cc5d4becb3e42b6, 0x597f299cfc657e2a, 0x5fcb6fab3ad6faec, 0x6c44198c4a475817]

/-- The initial hash value. -/
def shaInit : ShaRegs := ⟨0x6a09e667f3bcc908, 0xbb67ae8584caa73b, 0x3c6ef372fe94f82b, 0xa54ff53a5f1d36f1, 0x510e527fade682d1, 0x9b05688c2b3e6c1f, 0x1f83d9abfb41bd6b, 0x5be0cd19137e2179⟩

/-- One round, with its constant and its word of the schedule. -/
def shaRound (r : ShaRegs) (k w : Nat) : ShaRegs :=
  let t := r.h + (rotr64 r.e 14 ^^^ rotr64 r.e 18 ^^^ rotr64 r.e 41) + ((r.e &&& r.f) ^^^ ((2 ^ 64 - 1 - r.e) &&& r.g)) + k + w
  let u := (rotr64 r.a 28 ^^^ rotr64 r.a 34 ^^^ rotr64 r.a 39) + ((r.a &&& r.b) ^^^ (r.a &&& r.c) ^^^ (r.b &&& r.c))
  ⟨(t + u) % 2 ^ 64, r.a, r.b, r.c, (r.d + t) % 2 ^ 64, r.e, r.f, r.g⟩

/-- The rounds; `ws` is the window of sixteen words of the message schedule. -/
def shaRounds : List Nat → List Nat → ShaRegs → ShaRegs
  | [], _, r => r
  | k :: ks, ws, r =>
    let w := nth ws 0 0
    let x := nth ws 0 14
    let y := nth ws 0 1
    let v := ((rotr64 x 19 ^^^ rotr64 x 61 ^^^ (x >>> 6)) + nth ws 0 9 + (rotr64 y 1 ^^^ rotr64 y 8 ^^^ (y >>> 7)) + w) % 2 ^ 64
    shaRounds ks (ws.drop 1 ++ [v]) (shaRound r k w)

/-- One block of 128 bytes. -/
def shaBlock (h : ShaRegs) (b : List Byte) : ShaRegs :=
  let r := shaRounds (shaK0 ++ shaK1) ((piecesOf 8 16 b).map beNat) h
  let s (x y : Nat) : Nat := (x + y) % 2 ^ 64
  ⟨s h.a r.a, s h.b r.b, s h.c r.c, s h.d r.d, s h.e r.e, s h.f r.f, s h.g r.g, s h.h r.h⟩

/-- A message with its padding and its length in bits. -/
def shaPad (m : List Byte) : List Byte :=
  m ++ 0x80 :: List.replicate ((239 - m.length % 128) % 128) 0 ++ beBytes 16 (8 * m.length)

/-- The digest's bytes. -/
def shaBytes (m : List Byte) : List Byte :=
  let p := shaPad m
  let r := (piecesOf 128 (p.length / 128 + 1) p).foldl shaBlock shaInit
  [r.a, r.b, r.c, r.d, r.e, r.f, r.g, r.h].flatMap (beBytes 8)

/-- SHA-512 of a byte string; the digest's first byte is the number's least significant one. -/
def sha512 (m : List Byte) : BitVec 512 := BitVec.ofNat 512 (leNat (shaBytes m))

/-- HMAC-SHA-512 (RFC 2104): key and message. -/
def hmac (key m : List Byte) : List Byte :=
  let k := if 128 < key.length then shaBytes key else key
  let pad (x : Byte) : List Byte := (k ++ List.replicate (128 - k.length) 0).map (· ^^^ x)
  shaBytes (pad 0x5C ++ shaBytes (pad 0x36 ++ m))

/-- The blocks of HKDF's expansion: fuel, block number, previous block. -/
def hkdfGo (prk info : List Byte) : Nat → Nat → List Byte → List Byte
  | 0, _, _ => []
  | f + 1, i, t =>
    let u := hmac prk (t ++ info ++ [BitVec.ofNat 8 i])
    u ++ hkdfGo prk info f (i + 1) u

/-- HKDF-SHA-512 (RFC 5869): secret, salt, info, output length. -/
def hkdf (secret salt info : List Byte) (n : Nat) : List Byte :=
  (hkdfGo (hmac salt secret) info (cdiv n 64) 1 []).take n

/- P-521. -/

/-- The field's prime. -/
def p521 : Nat := 2 ^ 521 - 1
/-- n − 1 for the order n of the base point. -/
def p521Order1 : Nat := 6864797660130609714981900799081393217269435300143305409394463459185543183397655394245057746333217197532963996371363321113864768612440380340372808892707005448
/-- The curve's coefficient b. -/
def p521B : Nat := 0x51953eb9618e1c9a1f929a21a0b68540eea2da725b99b315f3b8b489918ef109e156193951ec7e937b1652c0bd3bb1bf073573df883d2c34f1ef451fd46b503f00

/-- A point in Jacobian coordinates; z = 0 is the point at infinity. -/
structure EcPoint where
  x : Nat
  y : Nat
  z : Nat
deriving DecidableEq, Repr

/-- The base point. -/
def p521G : EcPoint :=
  { x := 0xc6858e06b70404e9cd9e3ecb662395b4429c648139053fb521f828af606b4d3dbaa14b5e77efe75928fe1dc127a2ffa8de3348b3c1856a429bf97e7e31c2e5bd66
    y := 0x11839296a789a3bc0045c8a5fb42c7d1bd998f54449579b446817afbd17273e662c97ee72995ef42640c550b9013fad0761353c7086a272c24088be94769fd16650
    z := 1 }

/-- Difference modulo m of numbers below m. -/
def subMod (m a b : Nat) : Nat := (a + m - b) % m

/-- Twice a point. -/
def EcPoint.dbl (a : EcPoint) : EcPoint :=
  let d := a.z * a.z % p521
  let g := a.y * a.y % p521
  let b := a.x * g % p521
  let l := 3 * (subMod p521 a.x d * (a.x + d)) % p521
  let x := subMod p521 (l * l % p521) (8 * b % p521)
  let z := subMod p521 ((a.y + a.z) * (a.y + a.z) % p521) ((g + d) % p521)
  { x := x, y := subMod p521 (l * subMod p521 (4 * b % p521) x % p521) (8 * (g * g) % p521), z := z }

/-- Sum of two points. -/
def EcPoint.add (a b : EcPoint) : EcPoint :=
  if a.z = 0 then b else if b.z = 0 then a else
  let za := a.z * a.z % p521
  let zb := b.z * b.z % p521
  let u := a.x * zb % p521
  let s := a.y * (zb * b.z) % p521
  let h := subMod p521 (b.x * za % p521) u
  let r := subMod p521 (b.y * (za * a.z) % p521) s
  if h = 0 then (if r = 0 then a.dbl else { x := 1, y := 1, z := 0 }) else
  let hh := h * h % p521
  let hc := hh * h % p521
  let v := u * hh % p521
  let x := subMod p521 (r * r % p521) ((hc + 2 * v) % p521)
  { x := x, y := subMod p521 (r * subMod p521 v x % p521) (s * hc % p521), z := a.z * b.z * h % p521 }

/-- k times a point. -/
def EcPoint.mul (k : Nat) (a : EcPoint) : EcPoint :=
  (List.range 521).reverse.foldl (fun r i => if nbit k i then r.dbl.add a else r.dbl) { x := 1, y := 1, z := 0 }

/-- b to the power e modulo m, for e below 2^521. -/
def powMod (m b e : Nat) : Nat := (List.range 521).reverse.foldl (fun r i => let r := r * r % m; if nbit e i then r * b % m else r) 1

/-- Affine coordinates. -/
def EcPoint.affine (a : EcPoint) : Nat × Nat :=
  let i := powMod p521 a.z (p521 - 2)
  (a.x * (i * i % p521) % p521, a.y * (i * i % p521 * i % p521) % p521)

/-- The public key of a private key, uncompressed. -/
def publicKey (d : Nat) : List Byte := let p := (p521G.mul d).affine; 0x04 :: beBytes 66 p.1 ++ beBytes 66 p.2

/-- The integer that ECDSA takes from a digest. -/
def digestInt (d : BitVec 512) : Nat := beNat (leBytes 64 d.toNat)

/-- ECDSA P-521 verification (FIPS 186-5): public key, message digest, R, S. -/
def ecdsaVerify (key : List Byte) (dg : BitVec 512) (r s : List Byte) : Bool :=
  let n := p521Order1 + 1
  let x := beNat ((key.drop 1).take 66)
  let y := beNat ((key.drop 67).take 66)
  let r := beNat r
  let s := beNat s
  let w := powMod n s (n - 2)
  let t := (p521G.mul (digestInt dg * w % n)).add (EcPoint.mul (r * w % n) { x := x, y := y, z := 1 })
  decide (key.length = 133) && decide (key.head? = some 0x04) && decide (x < p521) && decide (y < p521)
    && decide (y * y % p521 = (x * x * x + (p521 - 3) * x + p521B) % p521)
    && decide (0 < r) && decide (r < n) && decide (0 < s) && decide (s < n) && decide (t.z ≠ 0) && decide (t.affine.1 % n = r)

/-- ECDSA P-521 signature: private key and digest to R and S, 66 bytes each. The number drawn for the signature is the module's own. -/
def ecdsaSign (d : Nat) (dg : BitVec 512) : List Byte × List Byte :=
  let n := p521Order1 + 1
  let k := Config.ecdsaNonce d dg % p521Order1 + 1
  let r := (p521G.mul k).affine.1 % n
  (beBytes 66 r, beBytes 66 (powMod n k (n - 2) * ((digestInt dg + r * d) % n) % n))

/- AES-256-GCM. -/

/-- The substitution box, byte i at bits 8i to 8i + 7. -/
def aesBox : Nat := 0x16bb54b00f2d99416842e6bf0d89a18cdf2855cee9871e9b948ed9691198f8e19e1dc186b95735610ef6034866b53e708a8bbd4b1f74dde8c6b4a61c2e2578ba08ae7a65eaf4566ca94ed58d6d37c8e779e4959162acd3c25c2406490a3a32e0db0b5ede14b8ee4688902a22dc4f816073195d643d7ea7c41744975fec130ccdd2f3ff1021dab6bcf5389d928f40a351a89f3c507f02f94585334d43fbaaefd0cf584c4a39becb6a5bb1fc20ed00d153842fe329b3d63b52a05a6e1b1a2c830975b227ebe28012079a059618c323c7041531d871f1e5a534ccf73f362693fdb7c072a49cafa2d4adf04759fa7dc982ca76abd7fe2b670130c56f6bf27b777c63

/-- A substituted byte. -/
def subByte (b : Nat) : Nat := bits aesBox (8 * b + 7) (8 * b)

/-- A byte times 2 in the field of AES. -/
def xtime (b : Nat) : Nat := let d := 2 * b; if d < 256 then d else d - 256 ^^^ 0x1B

/-- Bytes of two lists, one by one. -/
def xorList (a b : List Nat) : List Nat := List.zipWith (· ^^^ ·) a b

/-- The key schedule: each step appends four bytes to the list `ws` of four-byte words, newest first; `i` is the word's number. -/
def aesWords : Nat → Nat → Nat → List (List Nat) → List (List Nat)
  | 0, _, _, ws => ws
  | f + 1, i, rc, ws =>
    let t := nth ws [] 0
    let u := t.map subByte
    let v := if i % 8 = 0 then xorList (u.drop 1 ++ u.take 1) [rc, 0, 0, 0] else if i % 8 = 4 then u else t
    aesWords f (i + 1) (if i % 8 = 0 then xtime rc else rc) (xorList (nth ws [] 7) v :: ws)

/-- Round keys of 16 bytes, first to last. -/
def aesKeys (key : List Byte) : List (List Nat) :=
  let ws := ((piecesOf 4 8 (key.map BitVec.toNat)).reverse)
  (piecesOf 4 15 (aesWords 52 8 1 ws).reverse).map List.flatten

/-- ShiftRows. -/
def shiftRows (s : List Nat) : List Nat := (List.range 16).map fun i => nth s 0 ((i + 4 * (i % 4)) % 16)

/-- MixColumns of one column. -/
def mixColumn (c : List Nat) : List Nat :=
  (List.range 4).map fun i =>
    xtime (nth c 0 i) ^^^ xtime (nth c 0 ((i + 1) % 4)) ^^^ nth c 0 ((i + 1) % 4) ^^^ nth c 0 ((i + 2) % 4) ^^^ nth c 0 ((i + 3) % 4)

/-- The rounds after the first key. -/
def aesRounds : List (List Nat) → List Nat → List Nat
  | [], s => s
  | [k], s => xorList (shiftRows (s.map subByte)) k
  | k :: ks, s => aesRounds ks (xorList ((piecesOf 4 4 (shiftRows (s.map subByte))).flatMap mixColumn) k)

/-- One block under AES-256, with its round keys. -/
def aesBlock (ks : List (List Nat)) (b : List Nat) : List Nat := aesRounds (ks.drop 1) (xorList b (nth ks [] 0))

/-- Product in the field of GHASH; bit 0 of a block is the most significant. -/
def ghashMul (x y : Nat) : Nat :=
  ((List.range 128).foldl (fun (a : Nat × Nat) i =>
    (if nbit x (127 - i) then a.1 ^^^ a.2 else a.1, if nbit a.2 0 then a.2 / 2 ^^^ 0xE1000000000000000000000000000000 else a.2 / 2)) (0, y)).1

/-- A byte string filled with zeros to a whole number of 16-byte blocks, as numbers. -/
def blockNats (bs : List Byte) : List Nat :=
  (piecesOf 16 (bs.length / 16 + 1) bs).map fun b => beNat (b ++ List.replicate (16 - b.length) 0)

/-- Data under the counter of GCM: round keys, nonce, counter. -/
def gcmStream (ks : List (List Nat)) (nonce : List Byte) : Nat → List (List Byte) → List Byte
  | _, [] => []
  | c, p :: t =>
    let k := aesBlock ks ((nonce ++ beBytes 4 c).map BitVec.toNat)
    List.zipWith (fun (x : Byte) y => x ^^^ BitVec.ofNat 8 y) p k ++ gcmStream ks nonce (c + 1) t

/-- The tag of AAD and ciphertext. -/
def gcmTag (ks : List (List Nat)) (nonce aad ct : List Byte) : List Byte :=
  let num (l : List Nat) : Nat := beNat (l.map (BitVec.ofNat 8))
  let h := num (aesBlock ks (List.replicate 16 0))
  let s := (blockNats aad ++ blockNats ct ++ [8 * aad.length * 2 ^ 64 + 8 * ct.length]).foldl (fun a x => ghashMul (a ^^^ x) h) 0
  beBytes 16 (s ^^^ num (aesBlock ks ((nonce ++ beBytes 4 1).map BitVec.toNat)))

/-- Nonce of a flit (13 R353): SESSION, then the count. -/
def gcmNonce (session count : Nat) : List Byte := leBytes 4 session ++ leBytes 8 count

/-- AES-256-GCM sealing: key, SESSION, count, AAD, plaintext; ciphertext and tag. -/
def gcmSeal (key : List Byte) (session count : Nat) (aad pt : List Byte) : List Byte :=
  let ks := aesKeys key
  let n := gcmNonce session count
  let ct := gcmStream ks n 2 (piecesOf 16 (pt.length / 16 + 1) pt)
  ct ++ gcmTag ks n aad ct

/-- AES-256-GCM opening of ciphertext and tag; none when the tag fails. -/
def gcmOpen (key : List Byte) (session count : Nat) (aad bs : List Byte) : Option (List Byte) :=
  let ks := aesKeys key
  let n := gcmNonce session count
  let ct := bs.take (bs.length - 16)
  if gcmTag ks n aad ct = bs.drop (bs.length - 16) then some (gcmStream ks n 2 (piecesOf 16 (ct.length / 16 + 1) ct)) else none

end Sys2Proof.Machine
end

