-- ==== Sys2Proof/Machine/Num.lean ====
section
/-! DEFINITION. Exact binary values, their one rounding to a floating-point format, and the decoders of every element and scale format (02_lashed_formats.md). -/

namespace Sys2Proof.Machine

/-- A value: NaN, an infinity, or exactly (−1)^neg × m × 2^e. Zeros keep their sign. -/
inductive Fl where
  | nan
  | inf (neg : Bool)
  | fin (neg : Bool) (m : Nat) (e : Int)
deriving DecidableEq, Repr

/-- +0. -/
def Fl.zero : Fl := .fin false 0 0

/-- An integer times a power of two. -/
def Fl.ofInt (i : Int) (e : Int := 0) : Fl := .fin (decide (i < 0)) i.natAbs e

/-- The value is NaN. -/
def Fl.isNan : Fl → Bool
  | .nan => true
  | _ => false

/-- The value is an infinity. -/
def Fl.isInf : Fl → Bool
  | .inf _ => true
  | _ => false

/-- The value is finite. -/
def Fl.isFin : Fl → Bool
  | .fin _ _ _ => true
  | _ => false

/-- The value is ±0. -/
def Fl.isZero : Fl → Bool
  | .fin _ 0 _ => true
  | _ => false

/-- Sign bit (false for NaN). -/
def Fl.sign : Fl → Bool
  | .nan => false
  | .inf n => n
  | .fin n _ _ => n

/-- Negation. -/
def Fl.neg : Fl → Fl
  | .nan => .nan
  | .inf n => .inf (!n)
  | .fin n m e => .fin (!n) m e

/-- Magnitude. -/
def Fl.abs : Fl → Fl
  | .nan => .nan
  | .inf _ => .inf false
  | .fin _ m e => .fin false m e

/-- −0 becomes +0 (R62). -/
def Fl.posZero : Fl → Fl
  | .fin _ 0 _ => .zero
  | x => x

/-- Exact product; infinity × 0 is NaN (R63). -/
def Fl.mul (a b : Fl) : Fl :=
  match a, b with
  | .nan, _ => .nan
  | _, .nan => .nan
  | .fin n m e, .fin n' m' e' => .fin (xor n n') (m * m') (e + e')
  | x, y => if x.isZero || y.isZero then .nan else .inf (xor x.sign y.sign)

/-- `m × 2^e` as an integer multiple of `2^g`, for `g ≤ e`. -/
def onGrid (n : Bool) (m : Nat) (e g : Int) : Int :=
  let v : Int := ((m <<< (e - g).toNat : Nat) : Int)
  if n then -v else v

/-- Exact sum; opposite infinities give NaN (R63); an exact zero is +0 unless both terms are −0. -/
def Fl.add (a b : Fl) : Fl :=
  match a, b with
  | .nan, _ => .nan
  | _, .nan => .nan
  | .inf n, .inf n' => if n = n' then .inf n else .nan
  | .inf n, _ => .inf n
  | _, .inf n => .inf n
  | .fin n m e, .fin n' m' e' =>
    if m = 0 then (if m' = 0 then .fin (n && n') 0 0 else .fin n' m' e')
    else if m' = 0 then .fin n m e
    else
      let g := min e e'
      let s := onGrid n m e g + onGrid n' m' e' g
      .fin (decide (s < 0)) s.natAbs g

/-- Exact difference. -/
def Fl.sub (a b : Fl) : Fl := a.add b.neg

/-- Magnitude comparison `m × 2^e < m' × 2^e'`, exact. -/
def magLt (m : Nat) (e : Int) (m' : Nat) (e' : Int) : Bool :=
  let g := min e e'
  decide (m <<< (e - g).toNat < m' <<< (e' - g).toNat)

/-- IEEE less-than (false when unordered; −0 = +0). -/
def Fl.lt (a b : Fl) : Bool :=
  match a, b with
  | .nan, _ => false
  | _, .nan => false
  | .inf n, .inf n' => n && !n'
  | .inf n, _ => n
  | _, .inf n => !n
  | .fin n m e, .fin n' m' e' =>
    let n := n && m ≠ 0
    let n' := n' && m' ≠ 0
    match n, n' with
    | true, false => true
    | false, true => false
    | false, false => magLt m e m' e'
    | true, true => magLt m' e' m e

/-- IEEE equality (false when unordered). -/
def Fl.beq (a b : Fl) : Bool := !a.isNan && !b.isNan && !a.lt b && !b.lt a

/-- IEEE less-or-equal. -/
def Fl.le (a b : Fl) : Bool := !a.isNan && !b.isNan && !b.lt a

/-- The larger magnitude of two values, both taken as finite. -/
def Fl.maxMag (a b : Fl) : Fl := if a.abs.lt b.abs then b.abs else a.abs

/-- `num / den` as significand and exponent, with one sticky bit below 96 or more quotient bits:
it compares with, and rounds to, any value of fewer bits as the exact quotient does. -/
def quotSticky (num den : Nat) : Nat × Int :=
  if den = 0 then (0, 0) else
  let s := 96 + nbits den - nbits num
  let n := num <<< s
  let q := n / den
  (2 * q + b01 (n % den ≠ 0), -(s : Int) - 1)

/-- Quotient of two values, exact up to the sticky bit of `quotSticky`;
0/0 and infinity/infinity are NaN, x/0 an infinity. -/
def Fl.div (a b : Fl) : Fl :=
  match a, b with
  | .nan, _ => .nan
  | _, .nan => .nan
  | .inf _, .inf _ => .nan
  | .inf n, y => .inf (xor n y.sign)
  | .fin n _ _, .inf n' => .fin (xor n n') 0 0
  | .fin n m e, .fin n' m' e' =>
    if m' = 0 then (if m = 0 then .nan else .inf (xor n n'))
    else
      let q := quotSticky m m'
      .fin (xor n n') q.1 (q.2 + e - e')

/-- Integer square root by bits, highest first. -/
def isqrtGo : Nat → Nat → Nat → Nat
  | 0, _, r => r
  | k + 1, n, r =>
    let r' := r + 1 <<< k
    isqrtGo k n (if r' * r' ≤ n then r' else r)

/-- Floor of the square root. -/
def isqrt (n : Nat) : Nat := isqrtGo (nbits n / 2 + 1) n 0

/-- Square root with one sticky bit below at least 90 result bits; negative non-zero input is NaN. -/
def Fl.sqrt (a : Fl) : Fl :=
  match a with
  | .nan => .nan
  | .inf n => if n then .nan else .inf false
  | .fin n 0 _ => .fin n 0 0
  | .fin true _ _ => .nan
  | .fin false m e =>
    let s := 200 + (if (e - 200) % 2 = 0 then 0 else 1)
    let v := m <<< s
    let r := isqrt v
    .fin false (2 * r + b01 (r * r ≠ v)) ((e - s) / 2 - 1)

/-- `m / 2^d` rounded to nearest, ties to even (R59). -/
def roundShift (m d : Nat) : Nat :=
  let q := m >>> d
  let r := m % 2 ^ d
  let h := 2 ^ d / 2
  if d = 0 then m
  else if r < h then q else if h < r then q + 1 else q + q % 2

/-- A floating-point layout s.e.m (R40): exponent width, mantissa width, bias, and whether the top exponent encodes infinity and NaN. -/
structure FF where
  ebits : Nat
  mbits : Nat
  bias : Int
  ieee : Bool
deriving DecidableEq, Repr

/-- E2M1 (R40, R41). -/
def FF.e2m1 : FF := ⟨2, 1, 1, false⟩
/-- E2M3 (R40, R42). -/
def FF.e2m3 : FF := ⟨2, 3, 1, false⟩
/-- E3M2 (R40, R42). -/
def FF.e3m2 : FF := ⟨3, 2, 3, false⟩
/-- E4M3 (R40): no infinity; code 0x7F is NaN. -/
def FF.e4m3 : FF := ⟨4, 3, 7, false⟩
/-- E5M2 (R40). -/
def FF.e5m2 : FF := ⟨5, 2, 15, true⟩
/-- BF16 (R40). -/
def FF.bf16 : FF := ⟨8, 7, 127, true⟩
/-- FP32 (R40). -/
def FF.fp32 : FF := ⟨8, 23, 127, true⟩

/-- Exponent of the smallest subnormal step. -/
def FF.qmin (f : FF) : Int := 1 - f.bias - f.mbits

/-- Width of the magnitude code. -/
def FF.magBits (f : FF) : Nat := f.ebits + f.mbits

/-- First magnitude code that is not finite (the infinity of IEEE layouts). -/
def FF.infMag (f : FF) : Nat := (2 ^ f.ebits - 1) <<< f.mbits

/-- Magnitude code of the largest finite value (R40). -/
def FF.maxMag (f : FF) : Nat :=
  if f.ieee then f.infMag - 1
  else if f.ebits = 4 then 2 ^ f.magBits - 2
  else 2 ^ f.magBits - 1

/-- Integer and exponent of a finite magnitude code (subnormals with exponent field 0). -/
def FF.magVal (f : FF) (c : Nat) : Nat × Int :=
  let ef := c >>> f.mbits
  let mf := c % 2 ^ f.mbits
  if ef = 0 then (mf, f.qmin) else (mf + 2 ^ f.mbits, f.qmin + (ef : Int) - 1)

/-- Magnitude code of `m × 2^e` rounded to nearest even (R59), with no upper limit: the code runs on past the largest finite one. -/
def FF.encMag (f : FF) (m : Nat) (e : Int) : Nat :=
  if m = 0 then 0 else
  let q := max f.qmin (e + (nbits m : Int) - 1 - f.mbits)
  let d := q - e
  let k := if d ≤ 0 then m <<< (-d).toNat else roundShift m d.toNat
  ((q - f.qmin).toNat <<< f.mbits) + k

/-- The largest magnitude code whose value does not exceed `m × 2^e`. -/
def FF.floorMag (f : FF) (m : Nat) (e : Int) : Nat :=
  if m = 0 then 0 else
  let q := max f.qmin (e + (nbits m : Int) - 1 - f.mbits)
  let d := q - e
  let k := if d ≤ 0 then m <<< (-d).toNat else m >>> d.toNat
  ((q - f.qmin).toNat <<< f.mbits) + k

/-- Reads a code of an s.e.m layout, special values included; the sign of a zero is kept. -/
def FF.decode (f : FF) (c : Nat) : Fl :=
  let neg := nbit c f.magBits
  let mag := c % 2 ^ f.magBits
  if f.ieee then
    if mag = f.infMag then .inf neg
    else if f.infMag < mag then .nan
    else let v := f.magVal mag; .fin neg v.1 v.2
  else if f.ebits = 4 && mag = 2 ^ f.magBits - 1 then .nan
  else let v := f.magVal mag; .fin neg v.1 v.2

/-- The canonical NaN of BF16 and FP32 (R63). -/
def FF.nanCode (f : FF) : Nat := f.infMag + 2 ^ (f.mbits - 1)

/-- Rounds to a BF16 or FP32 code under R59, R61 and R63; the flag says that the value counted as saturated. Signed zeros are kept. -/
def FF.encode (f : FF) (satWide : Bool) (x : Fl) : Nat × Bool :=
  let sg (n : Bool) : Nat := (b01 n) <<< f.magBits
  match x with
  | .nan => (f.nanCode, false)
  | .inf n => (sg n + f.infMag, false)
  | .fin n m e =>
    let c := f.encMag m e
    if f.infMag ≤ c then (sg n + (if satWide then f.maxMag else f.infMag), true) else (sg n + c, false)

/-- Value of an FP32 word. -/
def f32 (w : W32) : Fl := FF.fp32.decode w.toNat

/-- Value of an FP32 pattern given as a number. -/
def f32n (n : Nat) : Fl := FF.fp32.decode n

/-- Rounds to FP32 with overflow to infinity; signed zeros kept. -/
def toF32 (x : Fl) : W32 := BitVec.ofNat 32 (FF.fp32.encode false x).1

/-- Rounds to FP32 with overflow to the largest finite value (SAT_WIDE = 1). -/
def toF32Sat (x : Fl) : W32 × Bool :=
  let r := FF.fp32.encode true x
  (BitVec.ofNat 32 r.1, r.2)

/-- Value after one rounding to FP32, overflow to infinity. -/
def rnd32 (x : Fl) : Fl := f32 (toF32 x)

/-- Tensor output form of an FP32 pattern: +0 for a zero, the canonical NaN for a NaN (R62, R63). -/
def tensorF32 (w : W32) : W32 :=
  match f32 w with
  | .nan => 0x7FC00000
  | .fin _ 0 _ => 0
  | _ => w

/-- A tensor scale must be positive and normal (R46). -/
def tscaleOk (w : Nat) : Bool := !nbit w 31 && decide (1 ≤ bits w 30 23) && decide (bits w 30 23 ≤ 254)

/- Format specifiers (R4, R5, R47). -/

/-- CODE of a format specifier. -/
def fsCode (s : Nat) : Nat := bits s 3 0
/-- VARIANT of a format specifier. -/
def fsVar (s : Nat) : Bool := nbit s 4
/-- SHAPE of a format specifier: square block. -/
def fsSquare (s : Nat) : Bool := nbit s 5
/-- SAT_WIDE of a format specifier. -/
def fsSat (s : Nat) : Bool := nbit s 6

/-- Codes 0x0–0x4: the lashed formats (R4, R39). -/
def isLashed (c : Nat) : Bool := decide (c ≤ 4)
/-- Codes 0xC–0xF: the OCP MX formats (R57). -/
def isMx (c : Nat) : Bool := decide (0xC ≤ c)
/-- INT4, UINT4, INT8, UINT8 (R54). -/
def isInt (c : Nat) : Bool := decide (7 ≤ c) && decide (c ≤ 0xA)
/-- BF16 and FP32. -/
def isWide (c : Nat) : Bool := c = 5 || c = 6
/-- LUT4 (R56). -/
def isLut (c : Nat) : Bool := c = 0xB

/-- A format specifier keeps *Format specifier* (R47, R48). -/
def specOk (s : Nat) : Bool :=
  let c := fsCode s
  decide (s < 128) && (!fsSquare s || isLashed c) && (!fsSat s || isWide c) && (!fsVar s || c = 0xD || c = 0xE)

/-- Element width in bits (R52, R54, R58). -/
def elemBits (c : Nat) : Nat :=
  match c with
  | 0x0 | 0x7 | 0x8 | 0xB | 0xC => 4
  | 0x1 | 0x2 | 0xD => 6
  | 0x5 => 16
  | 0x6 => 32
  | _ => 8

/-- Elements of one record: 32 for MX, 16 otherwise (R52, R58, R105). -/
def recElems (c : Nat) : Nat := if isMx c then 32 else 16

/-- Bytes of one element record. -/
def recBytes (c : Nat) : Nat := elemBits c * recElems c / 8

/-- The formats with a scale plane. -/
def hasScale (c : Nat) : Bool := isLashed c || isMx c

/-- The s.e.m layout of a format's element. -/
def elemFF (c : Nat) (v : Bool) : FF :=
  match c with
  | 0x0 | 0xC => .e2m1
  | 0x1 => .e2m3
  | 0x2 => .e3m2
  | 0x3 => .e4m3
  | 0x4 => .e5m2
  | 0x5 => .bf16
  | 0x6 => .fp32
  | 0xD => if v then .e3m2 else .e2m3
  | 0xE => if v then .e5m2 else .e4m3
  | _ => .e4m3

/-- Value of an element code without its scale; every negative zero reads as +0 (R40–R43, R54, R57, R62). -/
def elemVal (c : Nat) (v : Bool) (raw : Nat) : Fl :=
  match c with
  | 0x7 => .ofInt (sext 4 raw)
  | 0x8 => .ofInt (raw % 16)
  | 0x9 => .ofInt (sext 8 raw)
  | 0xA => .ofInt (raw % 256)
  | 0xB => .ofInt (raw % 16)
  | 0xF => .ofInt (sext 8 raw) (-6)
  | _ => ((elemFF c v).decode raw).posZero

/-- Value of a UE5M3 block scale (R44); 0x00 is zero and 0xFF NaN (R45). -/
def ue5m3 (c : Nat) : Fl :=
  let se := bits c 7 3
  let sm := bits c 2 0
  if c = 0xFF then .nan
  else if se = 0 then .fin false sm (-17)
  else .fin false (8 + sm) ((se : Int) - 18)

/-- Value of an E8M0 scale (R57). -/
def e8m0 (c : Nat) : Fl := if c = 0xFF then .nan else .fin false 1 ((c : Int) - 127)

/-- Value of a block-scale code under a format: 1 where the format has no scale. -/
def scaleVal (c : Nat) (sc : Nat) : Fl :=
  if isLashed c then ue5m3 sc else if isMx c then e8m0 sc else .fin false 1 0

/-- Element under its block scale: zero blocks read +0 and NaN blocks NaN whatever the element code (R39, R45). -/
def elemScaled (c : Nat) (v : Bool) (raw sc : Nat) : Fl :=
  if isLashed c && sc = 0 then .zero
  else if hasScale c && sc = 0xFF then .nan
  else ((elemVal c v raw).mul (scaleVal c sc)).posZero

/-- R64: exact element × scale, then one rounding with the tensor scale under SAT_WIDE = 1; an invalid tensor scale reads NaN (R46); BF16 and FP32 ignore the tensor scale (R43). -/
def decodeF32 (c : Nat) (v : Bool) (raw sc t : Nat) : W32 × Bool :=
  if isWide c then (toF32 (elemVal c v raw), false)
  else if !tscaleOk t then (0x7FC00000, false)
  else
    let x := elemScaled c v raw sc
    match x with
    | .inf _ => (toF32 x, false)
    | _ => toF32Sat (x.mul (f32n t))

/-- The largest finite element magnitude of a format (R40, R54, R60), as integer and exponent. -/
def emaxOf (c : Nat) (v : Bool) : Nat × Int :=
  match c with
  | 0x7 => (7, 0)
  | 0x8 => (15, 0)
  | 0x9 => (127, 0)
  | 0xA => (255, 0)
  | 0xF => (127, -6)
  | _ => let f := elemFF c v; f.magVal f.maxMag

/-- Ceiling of log2 of `m × 2^e`, m > 0. -/
def clog2Dy (m : Nat) (e : Int) : Int := e + (clog2 m : Int)

/-- The range of an integer element (R54; R57 for MXINT8 in units of 2^−6). -/
def intRange (c : Nat) : Int × Int :=
  match c with
  | 0x7 => (-8, 7)
  | 0x8 => (0, 15)
  | 0x9 => (-128, 127)
  | 0xA => (0, 255)
  | _ => (-128, 127)

end Sys2Proof.Machine
end

