-- ==== Sys2Proof/Machine/Cells.lean ====
section
/-! DEFINITION. Exact cells and exact sums (07 R194, R195, R198): a 320-bit sum on the FP32 grid with its flags and term count. -/

namespace Sys2Proof.Machine

/-- An exact cell (*Exact cell*). -/
structure XCell where
  sum : BitVec 320 := 0
  nan : Bool := false
  pinf : Bool := false
  ninf : Bool := false
  terms : Nat := 0
deriving DecidableEq, Repr

/-- A finite value on the 2^−149 grid, as an integer. -/
def gridInt (neg : Bool) (m : Nat) (e : Int) : Int := onGrid neg m e (-149)

/-- Adds a value exactly, or sets a flag (R195). -/
def XCell.addVal (c : XCell) (x : Fl) : XCell :=
  match x with
  | .nan => { c with nan := true }
  | .inf n => if n then { c with ninf := true } else { c with pinf := true }
  | .fin n m e => { c with sum := c.sum + BitVec.ofInt 320 (gridInt n m e) }

/-- Adds an FP32 lane and counts one term. A count beyond 2^42 sets NAN (R195); the count itself holds 48 bits. -/
def XCell.addLane (c : XCell) (w : W32) : XCell :=
  let c := { c.addVal (f32 w) with terms := c.terms + 1 }
  if 2 ^ 42 < c.terms then { c with nan := true, terms := c.terms % 2 ^ 48 } else c

/-- Adds a cell: sums and term counts add, flags OR (R198). -/
def XCell.add (a b : XCell) : XCell :=
  let t := a.terms + b.terms
  { sum := a.sum + b.sum, nan := a.nan || b.nan || decide (2 ^ 42 < t)
    pinf := a.pinf || b.pinf, ninf := a.ninf || b.ninf, terms := t % 2 ^ 48 }

/-- Resolution of a cell under *Flag resolution at read-out* (05 R137). -/
def XCell.value (c : XCell) : Fl :=
  if c.nan || (c.pinf && c.ninf) then .nan
  else if c.pinf then .inf false
  else if c.ninf then .inf true
  else .ofInt c.sum.toInt (-149)

/-- The cell resolved and rounded once to FP32. -/
def XCell.toF32 (c : XCell) : W32 := Machine.toF32 c.value

/-- The 64 bytes of a cell. -/
def XCell.toBytes (c : XCell) : List Byte :=
  leBytes 40 c.sum.toNat ++ leBytes 1 (b01 c.nan + 2 * b01 c.pinf + 4 * b01 c.ninf) ++ leBytes 6 c.terms ++ leBytes 17 0

/-- The cell in 64 bytes. -/
def XCell.ofBytes (bs : List Byte) : XCell :=
  let f := leNat ((bs.drop 40).take 1)
  { sum := BitVec.ofNat 320 (leNat (bs.take 40)), nan := nbit f 0, pinf := nbit f 1, ninf := nbit f 2
    terms := leNat ((bs.drop 41).take 6) }

/-- Cells added position by position. -/
def addCells : List XCell → List XCell → List XCell
  | a :: t, b :: u => a.add b :: addCells t u
  | [], u => u
  | t, [] => t

end Sys2Proof.Machine
end

