-- ==== Sys2Proof/Machine/Ravel.lean ====
section
/-! DEFINITION. The ravel generator (03 R85–R88). -/

namespace Sys2Proof.Machine

/-- The four state words of the generator. -/
structure RavelSt where
  a : W32
  b : W32
  c : W32
  d : W32
deriving DecidableEq, Repr

/-- The lash constants G of R85. -/
def ravelG (j : Nat) : W32 := if j = 0 then 0x5A17C3E9 else 0xC4B28D61

/-- lash(j) of R85 over key words k0–k3. -/
def ravelLash (j : Nat) (k0 k1 k2 k3 : W32) (s : RavelSt) : RavelSt :=
  { a := s.a ^^^ k0 ^^^ ravelG j, b := s.b ^^^ k1, c := s.c ^^^ k2, d := s.d ^^^ k3 }

/-- Rotation amounts RD of R85. -/
def ravelRD (r : Nat) : Nat := if r % 3 = 0 then 12 else if r % 3 = 1 then 4 else 20
/-- Rotation amounts RB of R85. -/
def ravelRB (r : Nat) : Nat := if r % 3 = 0 then 20 else if r % 3 = 1 then 28 else 8

/-- One round of R85. -/
def ravelRound (r : Nat) (s : RavelSt) : RavelSt :=
  let a := s.a + s.b
  let d := (s.d ^^^ a).rotateLeft (ravelRD r)
  let c := s.c + d
  let b := (s.b ^^^ c).rotateLeft (ravelRB r)
  { a := a, b := b, c := c, d := d }

/-- ravel(seed, step, stream, index) (R85); `seed` is a 128-bit number, `index` 48 bits. -/
def ravel (seed step stream index : Nat) : W32 :=
  let w (n lo : Nat) : W32 := BitVec.ofNat 32 (n >>> lo)
  let k0 := w seed 0
  let k1 := w seed 32
  let k2 := w seed 64
  let k3 := w seed 96 ^^^ BitVec.ofNat 32 (bits index 47 32)
  let s0 : RavelSt := { a := w step 0, b := w step 32, c := w stream 0, d := w index 0 }
  let s := ravelLash 0 k0 k1 k2 k3 s0
  let s := ravelRound 2 (ravelRound 1 (ravelRound 0 s))
  let s := ravelLash 1 k0 k1 k2 k3 s
  let s := ravelRound 5 (ravelRound 4 (ravelRound 3 s))
  (s.a + s.c) ^^^ (s.b + s.d).rotateLeft 16

/-- Stream id of R87. -/
def streamId (dir purpose site : Nat) : Nat := (dir % 4) * 2 ^ 30 + (purpose % 64) * 2 ^ 24 + site % 2 ^ 24

end Sys2Proof.Machine
end

