-- ==== Sys2Proof/Machine/Quant.lean ====
section
/-! DEFINITION. The quantiser's arithmetic: specification, twist, bight selection, block-scale choice, rounding and damage (03_quantiser_twist_bight.md). -/

namespace Sys2Proof.Machine

/-- A quantiser specification, the fields of *QSPEC* (R68). -/
structure QSpec where
  dst : Nat
  stoch : Bool
  twistN : Nat
  signs : Bool
  bLimit : Nat
  bRatio : Nat
  bCap : Nat
  tracked : Bool
  headroom : Nat
  keepFmt : Nat
  keepRing : Nat
  tscale : Nat
  site : Nat
  dir : Nat
deriving DecidableEq, Repr

/-- Decodes the two words of a QSPEC (R68). -/
def qspecOf (lo hi : W64) : QSpec :=
  { dst := fld lo 7 0, stoch := fld lo 9 8 = 1, twistN := fld lo 12 10, signs := bit lo 13
    bLimit := fld lo 15 14, bRatio := fld lo 19 16, bCap := fld lo 25 20, tracked := bit lo 26
    headroom := fld lo 30 27, keepFmt := fld lo 33 32, keepRing := fld lo 35 34
    tscale := fld hi 31 0, site := fld hi 55 32, dir := fld hi 57 56 }

/-- The word of a QSPEC (0 or 1) holding its first break, if any (R47, R48, R68, R69, R98); `ring r` is the size of keep ring r. -/
def qspecBad (lo hi : W64) (ring : Nat → Nat) : Option Nat :=
  let q := qspecOf lo hi
  let c := fsCode q.dst
  if !specOk q.dst || isLut c || decide (2 ≤ fld lo 9 8) || decide (5 ≤ q.twistN) || q.bLimit = 3
    || bit lo 31 || decide (fld lo 63 36 ≠ 0) then some 0
  else if q.bLimit ≠ 0 ∧ (!isLashed c ∨ q.bRatio = 0 ∨ 33 ≤ q.bCap) then some 0
  else if q.keepFmt ≠ 0 ∧ ring q.keepRing = 0 then some 0
  else if fld hi 63 58 ≠ 0 ∨ q.dir = 3 then some 1
  else if !q.tracked && !isWide c && !tscaleOk q.tscale then some 1
  else none

/-- Size n of a twist (R68): 1 for none. -/
def twistSize (tn : Nat) : Nat := if tn = 0 then 1 else 8 <<< tn

/-- One input of a quantiser operation: its exact value, whether the position is padding (R53), its element index (R88) and its reduction index (R74). -/
structure QElem where
  x : Fl
  pad : Bool
  idx : Nat
  k : Nat
deriving DecidableEq, Repr

/-- A run of elements along one stored row: row, first column, elements. -/
structure QRow where
  row : Nat
  col : Nat
  els : List QElem
deriving DecidableEq, Repr

/-- A block to be coded: the stored position of its first element, and its elements in block order. -/
structure QBlk where
  row : Nat
  col : Nat
  els : List QElem
deriving DecidableEq, Repr

/-- A damage record (R90); QE sums in units of 2^−16 (R91). -/
structure Damage where
  sat : Nat := 0
  flushed : Nat := 0
  bightOvf : Nat := 0
  zeroBlk : Nat := 0
  nanBlk : Nat := 0
  qeNum : Nat := 0
  qeDen : Nat := 0
deriving DecidableEq, Repr

/-- Adds two records, counts saturating at their field widths, energy sums exactly (R90, R152). -/
def Damage.add (a b : Damage) : Damage :=
  { sat := min (a.sat + b.sat) 0x1FFF, flushed := min (a.flushed + b.flushed) 0x1FFF
    bightOvf := min (a.bightOvf + b.bightOvf) 0x1FF, zeroBlk := min (a.zeroBlk + b.zeroBlk) 0x1FF
    nanBlk := min (a.nanBlk + b.nanBlk) 0x1FF
    qeNum := a.qeNum + b.qeNum, qeDen := a.qeDen + b.qeDen }

/-- QER of R91. -/
def Damage.qer (d : Damage) : Nat := if d.qeDen = 0 then 0 else min 0xFFFF (d.qeNum * 2 ^ 16 / d.qeDen)

/-- A coded block: element codes in block order, scale code, bight entries (position, second, BF16 value). -/
structure QOut where
  row : Nat
  col : Nat
  codes : List Nat
  scale : Nat
  bights : List (Nat × Bool × Nat)
deriving DecidableEq, Repr

/-- Tracked tensor scale exponent of R70: maximum `a`, element maximum, headroom. -/
def trackedScale (a : Fl) (dst headroom : Nat) : Nat :=
  let c := fsCode dst
  match a with
  | .fin _ (m + 1) e =>
    if isWide c then 0x3F800000 else
    let em := emaxOf c (fsVar dst)
    let ex := clog2Dy (m + 1) e - clog2Dy em.1 em.2 - headroom
    let ex := max (-126) (min 127 ex)
    ((ex + 127).toNat) <<< 23
  | _ => 0x3F800000

/-- Output tensor scale of an operation (R69, R70): 1.0 for BF16 and FP32. For a TRACKED MX destination it codes the elements only: R58 speaks of a descriptor's tensor record, and no descriptor lays one out, so it is written nowhere (DESIGN CHOICE, log 116). -/
def outTscale (q : QSpec) (a : Fl) : Nat :=
  if isWide (fsCode q.dst) then 0x3F800000
  else if q.tracked then trackedScale a q.dst q.headroom else q.tscale

/- Twist (R74–R76). -/

/-- Entry sign of the Sylvester Hadamard matrix: true for −1. -/
def hadNeg (i j : Nat) : Bool := popc 7 (i &&& j) % 2 = 1

/-- Sum of signed terms of one twist output. -/
def twistSum (i : Nat) (xs : List (Nat × Bool × Fl)) : Fl :=
  xs.foldl (fun acc p => acc.add (if xor (hadNeg i p.1) p.2.1 then p.2.2.neg else p.2.2)) .zero

/-- Twists one group of n elements already rounded to FP32. -/
def twistGroup (dneg : Nat → Bool) (g : List QElem) : List QElem :=
  let xs := (g.zipIdx).map fun p => (p.2, dneg p.1.k, p.1.x)
  (g.zipIdx).map fun p => { p.1 with x := twistSum p.2 xs, pad := false }

/-- Chunks of `n`. -/
def chunks {α : Type} (n : Nat) : Nat → List α → List (List α)
  | 0, _ => []
  | f + 1, l => if l.isEmpty then [] else l.take n :: chunks n f (l.drop n)

/-- Twists every row of an operation (R74); padding enters as zero (R76), x is rounded to FP32 first (R75). Returns the rows and the elements saturated by that rounding. -/
def twistRows (q : QSpec) (seed step : Nat) (rows : List QRow) : List QRow × Nat :=
  if q.twistN = 0 then (rows, 0) else
  let n := twistSize q.twistN
  let dneg (k : Nat) : Bool := q.signs && nbit (ravel seed step (streamId q.dir 1 q.site) k).toNat 31
  let pre (e : QElem) : QElem × Nat :=
    if e.pad then ({ e with x := .zero, pad := false }, 0)
    else let r := toF32Sat e.x; ({ e with x := f32 r.1 }, b01 r.2)
  rows.foldr (fun r acc =>
    let ps := r.els.map pre
    let els := ((chunks n (ps.length + 1) (ps.map Prod.fst)).map (twistGroup dneg)).flatten
    ({ r with els := els } :: acc.1, acc.2 + (ps.map Prod.snd).sum)) ([], 0)

/- Forming blocks. -/

/-- Cuts a row at record boundaries of `n` elements. -/
def cutRow (n : Nat) : Nat → QRow → List QBlk
  | 0, _ => []
  | f + 1, r =>
    if r.els.isEmpty then [] else
    let m := n - r.col % n
    ⟨r.row, r.col, r.els.take m⟩ :: cutRow n f ⟨r.row, r.col + m, r.els.drop m⟩

/-- Line blocks of a band of rows in bight-tile order: block columns outer, rows inner (R81). -/
def lineBlocks (n : Nat) (rows : List QRow) : List QBlk :=
  let per := rows.map fun r => cutRow n (r.els.length + 1) r
  let w := (per.map List.length).foldl max 0
  ((List.range w).map fun i => per.filterMap fun bs => bs[i]?).flatten

/-- Square 4 × 4 blocks of four rows (R50). -/
def squareRow (rows : List QRow) : List QBlk :=
  match rows with
  | [] => []
  | r0 :: _ =>
    let w := r0.els.length / 4
    (List.range w).map fun b =>
      { row := r0.row, col := r0.col + 4 * b, els := (rows.map fun r => (r.els.drop (4 * b)).take 4).flatten }

/-- Square blocks of a band of rows in bight-tile order: 16 × 16 regions left to right, block rows inside (R81). -/
def squareBlocks (rows : List QRow) : List QBlk :=
  let w := (rows.map fun r => r.els.length).foldl max 0
  ((List.range (cdiv w 16)).map fun t =>
    let sub := rows.map fun r => { r with col := r.col + 16 * t, els := (r.els.drop (16 * t)).take 16 }
    ((chunks 4 (sub.length + 1) sub).map squareRow).flatten).flatten

/-- The blocks of an operation's rows: bands of 16 rows, each in bight-tile order, or, for a walk, row by row. -/
def formBlocks (dst : Nat) (walk : Bool) (rows : List QRow) : List QBlk :=
  if walk then
    (if fsSquare dst then ((chunks 4 (rows.length + 1) rows).map squareRow).flatten
     else (rows.map fun r => cutRow (recElems (fsCode dst)) (r.els.length + 1) r).flatten) else
  let bands := chunks 16 (rows.length + 1) rows
  (bands.map fun b => if fsSquare dst then squareBlocks b else lineBlocks (recElems (fsCode dst)) b).flatten

/- Bight selection (R78, R79). -/

/-- Index and magnitude of the largest listed element (lowest index wins a tie), among candidates given as (index, magnitude). -/
def argMaxMag (l : List (Nat × Fl)) : Option (Nat × Fl) :=
  l.foldl (fun best p => match best with
    | none => some p
    | some b => if b.2.lt p.2 then some p else some b) none

/-- The R78 test over the listed elements: the dominating element, if it exceeds 2^k times the largest other and that other is not zero. -/
def bightTest (k : Nat) (l : List (Nat × Fl)) : Option Nat :=
  match argMaxMag l with
  | none => none
  | some a =>
    match argMaxMag (l.filter fun p => p.1 ≠ a.1) with
    | none => none
    | some b => if !b.2.isZero && (b.2.mul (.fin false 1 k)).lt a.2 then some a.1 else none

/-- Candidates of a block: first and second (R78); none in a block with a NaN or infinity. -/
def bightCands (q : QSpec) (b : QBlk) : Option Nat × Option Nat :=
  let l := ((b.els.zipIdx).filter fun p => !p.1.pad).map fun p => (p.2, p.1.x.abs)
  if l.any fun p => !p.2.isFin then (none, none) else
  match bightTest q.bRatio l with
  | none => (none, none)
  | some a =>
    (some a, if q.bLimit = 2 then bightTest q.bRatio (l.filter fun p => p.1 ≠ a) else none)

/-- First pass of R79 over a tile: which first candidates are taken under the cap. -/
def bightPass1 : Nat → List (Option Nat × Option Nat) → List Bool
  | _, [] => []
  | cap, (some _, _) :: t => if cap = 0 then false :: bightPass1 0 t else true :: bightPass1 (cap - 1) t
  | cap, (none, _) :: t => false :: bightPass1 cap t

/-- Second pass of R79: second candidates of blocks whose first was taken. -/
def bightPass2 : Nat → List ((Option Nat × Option Nat) × Bool) → List Bool
  | _, [] => []
  | cap, ((_, some _), true) :: t => if cap = 0 then false :: bightPass2 0 t else true :: bightPass2 (cap - 1) t
  | cap, _ :: t => false :: bightPass2 cap t

/-- Extraction of one tile: each block's extracted positions (first, second) and the refused candidates (R79). -/
def bightTile (q : QSpec) (tile : List QBlk) : List (List (Nat × Bool)) × Nat :=
  let cs := tile.map (bightCands q)
  let t1 := bightPass1 q.bCap cs
  let n1 := t1.count true
  let t2 := bightPass2 (q.bCap - n1) (cs.zip t1)
  let n2 := t2.count true
  let all := (cs.map fun c => b01 c.1.isSome + b01 c.2.isSome).sum
  let ex := ((cs.zip t1).zip t2).map fun p =>
    (match p.1.1.1, p.1.2 with | some a, true => [(a, false)] | _, _ => []) ++
    (match p.1.1.2, p.2 with | some a, true => [(a, true)] | _, _ => [])
  (ex, all - (n1 + n2))

/- Rounding (R59, R60, R83). -/

/-- Formats whose codes are two's-complement or unsigned integers, MXINT8 among them. -/
def isIntLike (c : Nat) : Bool := isInt c || c = 0xF

/-- Exponent of an integer-like code's unit. -/
def intUnit (c : Nat) : Int := if c = 0xF then -6 else 0

/-- Largest magnitude code whose value does not exceed `m × 2^e`. -/
def floorCode (c : Nat) (v : Bool) (m : Nat) (e : Int) : Nat :=
  if isIntLike c then
    let d := intUnit c - e
    if d ≤ 0 then m <<< (-d).toNat else m >>> d.toNat
  else (elemFF c v).floorMag m e

/-- Magnitude code nearest to `m × 2^e`, ties to even (R59). -/
def rneCode (c : Nat) (v : Bool) (m : Nat) (e : Int) : Nat :=
  if isIntLike c then
    let d := intUnit c - e
    if d ≤ 0 then m <<< (-d).toNat else roundShift m d.toNat
  else (elemFF c v).encMag m e

/-- Value of a magnitude code. -/
def codeMag (c : Nat) (v : Bool) (k : Nat) : Nat × Int :=
  if isIntLike c then (k, intUnit c) else (elemFF c v).magVal k

/-- Stochastic choice between the two neighbours of a value (R83), `u` the ravel value. -/
def stochCode (c : Nat) (v : Bool) (neg : Bool) (m : Nat) (e : Int) (u : Nat) : Nat :=
  let k := floorCode c v m e
  let lo := codeMag c v k
  let hi := codeMag c v (k + 1)
  let x : Fl := .fin false m e
  let l : Fl := .fin false lo.1 lo.2
  let h : Fl := .fin false hi.1 hi.2
  if x.beq l then k else
  let gap := (h.sub l).mul (.ofInt u)
  let part (a : Fl) := a.mul (.fin false 1 32)
  if neg then (if gap.lt (part (h.sub x)) then k else k + 1)
  else (if gap.lt (part (x.sub l)) then k + 1 else k)

/-- Raw element code of a signed magnitude code; zero never carries a sign (R62). -/
def rawCode (c : Nat) (v : Bool) (neg : Bool) (k : Nat) : Nat :=
  if isIntLike c then toTwos (elemBits c) (if neg then -(k : Int) else k)
  else if k = 0 then 0 else (b01 neg) <<< (elemFF c v).magBits ||| k

/-- The limit a saturated element is written as, as a magnitude code (R60). -/
def satMag (c : Nat) (v : Bool) (neg : Bool) : Nat :=
  if isIntLike c then (let r := intRange c; if neg then (-r.1).toNat else r.2.toNat) else (elemFF c v).maxMag

/-- Codes an exact quotient: saturation judged on q itself (R60), then one rounding (R83). -/
def codeElem (c : Nat) (v : Bool) (stoch : Bool) (u : Unit → Nat) (q : Fl) : Nat × Bool :=
  match q with
  | .nan => (0, false)
  | .inf n => (rawCode c v n (satMag c v n), true)
  | .fin n m e =>
    if m = 0 then (0, false) else
    let lim := codeMag c v (satMag c v n)
    if magLt lim.1 lim.2 m e then (rawCode c v n (satMag c v n), true)
    else (rawCode c v n (if stoch then stochCode c v n m e (u ()) else rneCode c v m e), false)

/-- Value of a coded element as the damage sums take it. -/
def codedVal (c : Nat) (v : Bool) (raw : Nat) : Fl := elemVal c v raw

/-- One damage term (R91): (d / u)² in units of 2^−16, truncated, capped. -/
def qeTerm (d u : Fl) : Nat :=
  match d, u with
  | .fin _ m e, .fin _ m' e' =>
    if m' = 0 then 0 else
    let s : Int := 2 * (e - e') + 16
    let num := if 0 ≤ s then (m * m) <<< s.toNat else m * m
    let den := if 0 ≤ s then m' * m' else (m' * m') <<< (-s).toNat
    min (num / den) (2 ^ 48 - 1)
  | .inf _, _ => 2 ^ 48 - 1
  | _, _ => 0

/-- Smallest UE5M3 code c ≥ 1 with S(c) ≥ need, or 0xFE beyond the range (R72, R73). -/
def ue5m3For (need : Fl) : Nat :=
  ((List.range 0xFE).map (· + 1)).find? (fun c => need.le (ue5m3 c)) |>.getD 0xFE

/-- Smallest non-zero E8M0 code c with 2^(c − 127) ≥ need, or 0xFE beyond the range (R72). -/
def e8m0For (need : Fl) : Nat :=
  match need with
  | .fin _ (m + 1) e => (max 1 (min 0xFE (clog2Dy (m + 1) e + 127))).toNat
  | .inf _ => 0xFE
  | _ => 1

/-- Smallest scale code for a block (R72). -/
def scaleFor (c : Nat) (need : Fl) : Nat := if isMx c then e8m0For need else ue5m3For need

/-- Quantises one block of a lashed, MX or integer destination (R72), given the positions the bight takes. -/
def quantBlock (q : QSpec) (t : Nat) (u : Nat → Nat) (b : QBlk) (ex : List (Nat × Bool)) : QOut × Damage :=
  let c := fsCode q.dst
  let v := fsVar q.dst
  let tv := f32n t
  let out (codes : List Nat) (scale : Nat) : QOut := { row := b.row, col := b.col, codes := codes, scale := scale, bights := [] }
  let zeros : List Nat := b.els.map fun _ => 0
  if isInt c then
    let rs := b.els.map fun e =>
      if e.pad then (0, ({} : Damage)) else
      match e.x with
      | .nan => (0, {})
      | x =>
        let r := codeElem c v q.stoch (fun _ => u e.idx) (x.div tv)
        let xh := (codedVal c v r.1).mul tv
        (r.1, { sat := b01 r.2, flushed := b01 (!x.isZero && (codedVal c v r.1).isZero)
                qeNum := qeTerm (x.sub xh) tv, qeDen := qeTerm x tv })
    let d := (rs.map Prod.snd).foldl Damage.add {}
    let nanRec := b.els.any fun e => !e.pad && e.x.isNan
    (out (rs.map Prod.fst) 0, d.add { nanBlk := b01 nanRec })
  else
    let mxfp8 := c = 0xE
    let special (e : QElem) : Bool := !e.pad && !e.x.isFin
    let anySp := b.els.any special
    if anySp && !mxfp8 then (out zeros 0xFF, { nanBlk := 1 })
    else
      let spCode (e : QElem) : Nat :=
        if v then (match e.x with | .inf n => 0x7C + 0x80 * b01 n | _ => 0x7E) else 0x7F
      let nanWritten := b.els.any fun e => special e && !(v && e.x.isInf)
      let dsp : Damage := { nanBlk := b01 nanWritten }
      let isEx (i : Nat) : Bool := ex.any fun p => p.1 = i
      let live := (b.els.zipIdx).filter fun p => !p.1.pad && !special p.1 && !isEx p.2
      let m := (live.map fun p => p.1.x).foldl Fl.maxMag .zero
      let bightEl (i : Nat) (sec : Bool) (su : Fl) : (Nat × Bool × Nat) × Damage :=
        let x := (nth b.els ⟨.zero, true, 0, 0⟩ i).x
        let r := FF.bf16.encode true (x.div tv)
        let code := if r.1 = 0x8000 then 0 else r.1
        let xh := (FF.bf16.decode code).mul tv
        ((i, sec, code), { sat := b01 r.2, qeNum := qeTerm (x.sub xh) su, qeDen := qeTerm x su })
      if m.isZero then
        let bs := ex.map fun p => bightEl p.1 p.2 .zero
        let db := (bs.map fun p => ({ p.2 with qeNum := 0, qeDen := 0 } : Damage)).foldl Damage.add {}
        let codes := b.els.map fun e => if special e then spCode e else 0
        ({ out codes (if isLashed c then 0 else 0x7F) with bights := bs.map Prod.fst }, (dsp.add db).add { zeroBlk := b01 (!anySp) })
      else
        let em := emaxOf c v
        let need := m.div ((Fl.fin false em.1 em.2).mul tv)
        let sc := scaleFor c need
        let su := (scaleVal c sc).mul tv
        let rs := (b.els.zipIdx).map fun p =>
          let e := p.1
          if special e then (spCode e, ({} : Damage))
          else if e.pad || isEx p.2 then (0, {})
          else
            let r := codeElem c v q.stoch (fun _ => u e.idx) (e.x.div su)
            let xh := (codedVal c v r.1).mul su
            (r.1, { sat := b01 r.2, flushed := b01 (!e.x.isZero && (codedVal c v r.1).isZero)
                    qeNum := qeTerm (e.x.sub xh) su, qeDen := qeTerm e.x su })
        let bs := ex.map fun p => bightEl p.1 p.2 su
        let d := ((rs.map Prod.snd) ++ (bs.map Prod.snd)).foldl Damage.add {}
        ({ out (rs.map Prod.fst) sc with bights := bs.map Prod.fst }, dsp.add d)

/-- Rounds an exact value to a BF16 or FP32 destination in the operation's mode (R59, R82, R83); overflow is judged on the rounded result (R61), and a zero is +0 (R62). -/
def wideRound (dst : Nat) (stoch : Bool) (u : Unit → Nat) (x : Fl) : Nat × Bool :=
  let c := fsCode dst
  let f := elemFF c false
  let r := match x with
    | .fin n (m + 1) e =>
      if stoch then
        let k := stochCode c false n (m + 1) e (u ())
        (((b01 n) <<< f.magBits) + (if f.infMag ≤ k then (if fsSat dst then f.maxMag else f.infMag) else k), decide (f.infMag ≤ k))
      else f.encode (fsSat dst) x
    | y => f.encode (fsSat dst) y.posZero
  (if r.1 = 1 <<< f.magBits then 0 else r.1, r.2)

/-- Writes one record of a BF16 or FP32 destination (R61, R62, R90): saturated and NaN counts only. -/
def wideBlock (dst : Nat) (stoch : Bool) (u : Nat → Nat) (b : QBlk) : QOut × Damage :=
  let rs := b.els.map fun e => if e.pad then (0, false) else wideRound dst stoch (fun _ => u e.idx) e.x
  ({ row := b.row, col := b.col, codes := rs.map Prod.fst, scale := 0, bights := [] },
   { sat := (rs.map fun r => b01 r.2).sum, nanBlk := b01 (b.els.any fun e => !e.pad && e.x.isNan) })

/-- A whole tile of up to 16 blocks, bight extraction included when enabled (R79). -/
def quantTile (q : QSpec) (t : Nat) (u : Nat → Nat) (tile : List QBlk) : List QOut × Damage :=
  if isWide (fsCode q.dst) then
    let rs := tile.map (wideBlock q.dst q.stoch u)
    (rs.map Prod.fst, (rs.map Prod.snd).foldl Damage.add {})
  else
    let ext := if q.bLimit = 0 then (tile.map fun _ => ([] : List (Nat × Bool)), 0) else bightTile q tile
    let rs := (tile.zip ext.1).map fun p => quantBlock q t u p.1 p.2
    (rs.map Prod.fst, ((rs.map Prod.snd).foldl Damage.add {}).add { bightOvf := min ext.2 0x1FF })

/-- What a quantiser operation computes: coded blocks, its damage record, its keep copy and the keep copy's saturations, and the largest finite magnitude quantised (R65, R71, R93). -/
structure QResult where
  blocks : List QOut
  damage : Damage
  keep : List QOut
  keepSat : Nat
  maxMag : Fl
deriving DecidableEq, Repr

/-- Format code of a keep copy (R68). -/
def keepCode (k : Nat) : Nat := if k = 1 then 3 else if k = 2 then 4 else 5

/-- Keep blocks: line records of 16 of each block's z values (R93). -/
def keepBlocks (q : QSpec) (t : Nat) (bs : List QBlk) : List QOut × Nat :=
  let halves := (bs.map fun b => (chunks 16 3 b.els).zipIdx.map fun p => ({ b with col := b.col + 16 * p.2, els := p.1 } : QBlk)).flatten
  let kq : QSpec := { q with dst := if q.keepFmt = 3 then 0x45 else keepCode q.keepFmt, stoch := false, bLimit := 0 }
  let rs := quantTile kq t (fun _ => 0) halves
  (rs.1, rs.2.sat)

/-- One quantiser operation on its rows (R65): twist, then blocks tile by tile. -/
def quantOp (q : QSpec) (t seed step : Nat) (walk : Bool) (rows : List QRow) : QResult :=
  let tw := twistRows q seed step rows
  let bs := formBlocks q.dst walk tw.1
  let u (i : Nat) : Nat := (ravel seed step (streamId q.dir 0 q.site) i).toNat
  let ts := (chunks 16 (bs.length + 1) bs).map (quantTile q t u)
  let d0 := (ts.map Prod.snd).foldl Damage.add { sat := min tw.2 0x1FFF }
  let d := if isWide (fsCode q.dst) then { d0 with flushed := 0, bightOvf := 0, zeroBlk := 0, qeNum := 0, qeDen := 0 } else d0
  let kp := if q.keepFmt = 0 then ([], 0) else keepBlocks q t bs
  let mx := (bs.map fun b => (b.els.filter fun e => !e.pad && e.x.isFin).map fun e => e.x).flatten.foldl Fl.maxMag .zero
  { blocks := (ts.map Prod.fst).flatten, damage := d, keep := kp.1, keepSat := kp.2, maxMag := mx }

end Sys2Proof.Machine
end

