-- ==== Sys2Proof/Machine/CoreState.lean ====
section
/-! DEFINITION. The state of one core's units: control core, plies, quantiser, error control, vector engine, DMA, knot station, tether (chapters 03–07, 10–12, 16). Plain data only. -/

namespace Sys2Proof.Machine

/-- What a control core is doing: not used in this step, running, stopped by a fault (R269, R296, R301), or past STEPEND (R270). -/
inductive CcMode where
  | idle
  | running
  | stopped
  | ended
deriving DecidableEq, Repr

/-- A descriptor on its way to, or inside, a unit: its sixteen words after patches (R266), the issuing instruction's index, which execution of it this is (R155), its tag, and whether the error-control unit re-issued it (R161). `bcast` holds a launch's sampled broadcast values (R176), `guard` the guard entry whose chain a ply operation belongs to. -/
structure OpMsg where
  words : List W64
  idx : Nat
  occ : Nat
  tag : Nat
  reissue : Bool
  bcast : List W64
  guard : Option Nat := none
deriving DecidableEq, Repr

/-- One of a control core's operations in flight (R267): tag and unit (0 plies, 1 vector, 2 DMA). -/
structure InFlight where
  tag : Nat
  unit : Nat
deriving DecidableEq, Repr

/-- The result words of a recent vector launch (R179, R267). -/
structure LaunchRes where
  tag : Nat
  done : Bool
  words : SMap W32
deriving DecidableEq, Repr

/-- A control core (R264–R269, R283). `waiting` is CC_STATUS.WAITING. -/
structure ControlCore where
  mode : CcMode := .idle
  waiting : Nat := 0
  pc : Nat := 0
  sregs : SMap W64 := []
  issues : Nat := 0
  occ : SMap Nat := []
  inFlight : List InFlight := []
  results : List LaunchRes := []
  stream : List W64 := []
  pool : List W64 := []
deriving DecidableEq, Repr

/-- A long accumulator (R126–R128): the resolved 256-bit value of its pair, flags, residue, and whether an entry was truncated or clamped (R147). -/
structure Acc where
  sum : BitVec 256 := 0
  nan : Bool := false
  pinf : Bool := false
  ninf : Bool := false
  res : Nat := 0
  inexact : Bool := false
deriving DecidableEq, Repr

/-- An operation running on a ply, a rope or one quadrant (R99, R114): its message, its next block-step, and whether its accumulation has ended. -/
structure PlyRun where
  msg : OpMsg
  kb : Nat
  done : Bool
deriving DecidableEq, Repr

/-- The accumulators of one ply or quadrant with the counts that travel with the sum. -/
structure AccTile where
  accs : List Acc := []
  trunc : Nat := 0
  clamp : Nat := 0
  steps : Nat := 0
deriving DecidableEq, Repr

/-- One slot of a ply: slot 0 serves MATMUL and quadrant 0; slots 1–3 serve the other quadrants (R113). `held` is the operation whose sum waits for a continuation (R120). `queA` and `queB` are the entries in the bight queues of the two operands, which may be of two operations (R111). -/
structure PlySlot where
  run : Option PlyRun := none
  tile : AccTile := {}
  held : Option OpMsg := none
  queA : Nat := 0
  queB : Nat := 0
deriving DecidableEq, Repr

/-- A ply: its queue of up to four descriptors (R114) and its slots. -/
structure Ply where
  queue : List OpMsg := []
  slots : List PlySlot := [{}, {}, {}, {}]
deriving DecidableEq, Repr

/-- Where a quantiser operation writes: scratch of a core or a context's HBM, its planes as byte addresses, its row stride in records, and its bight plane. -/
structure QDest where
  hbm : Bool
  core : Nat
  elem : Nat
  scale : Nat
  bight : Option Nat
  stride : Nat
deriving DecidableEq, Repr

/-- Where a written tile lies: core, format specifier, tensor scale, destination, and its blocks' stored positions in block order (R241). -/
structure TileLoc where
  core : Nat
  fmt : Nat
  tscale : Nat
  dst : QDest
  ats : List (Nat × Nat)
deriving DecidableEq, Repr

/-- One quantiser operation waiting at a port (R65–R67): specification words, rows of exact inputs, destination, and what its damage record carries. `tag` is the operation to signal complete once its blocks are written; `last` marks the last record of its producer tile (R152). `walk` says that its blocks come row by row instead of tile by tile (R330); `preSat` counts source elements that saturated when decoded (R64). -/
structure QOp where
  lo : W64
  hi : W64
  rows : List QRow
  dst : QDest
  tile : Nat
  epoch : Nat
  accTrunc : Nat
  accSat : Nat
  plies : List Nat
  quad : Nat
  signal : Option OpMsg
  launch : Option Nat
  guard : Option Nat
  last : Bool
  walk : Bool := false
  preSat : Nat := 0
deriving DecidableEq, Repr

/-- An unreleased keep entry (R94, R95). -/
structure KeepEntry where
  ring : Nat
  first : Nat
  lines : Nat
  site : Nat
  tile : Nat
  epoch : Nat
deriving DecidableEq, Repr

/-- A running ravel test computation (R89): the index register was written since the inputs last changed. -/
structure Quantiser where
  ports : List (List QOp) := [[], [], [], []]
  stalled : List Bool := [false, false, false, false]
  keeps : List KeepEntry := []
  heads : List Nat := [0, 0, 0, 0]
  testRun : Bool := false
deriving DecidableEq, Repr

/-- A damage record delivered to the error-control unit with its tile's identity (R152), the keep entry it wrote and the blocks it placed. -/
structure DamageMsg where
  site : Nat
  dir : Nat
  tile : Nat
  epoch : Nat
  dmg : Damage
  accTrunc : Nat
  accSat : Nat
  keep : Option KeepEntry
  blocks : List QBlk
  lo : W64
  hi : W64
  dst : QDest
  guard : Option Nat
  last : Bool
deriving DecidableEq, Repr

/-- A producer tile at the error-control unit (R152, R159): its combined record, once judged its breached metrics, and the layers and rungs at which it has been staged (R160). -/
structure TileRec where
  site : Nat
  tile : Nat
  epoch : Nat
  dmg : Damage
  accTrunc : Nat
  accSat : Nat
  parts : List DamageMsg
  guard : Option Nat
  judged : Option Nat
  staged : List (Nat × Nat) := []
deriving DecidableEq, Repr

/-- A layer's ratchet and step state beside its image record (R154, R165–R170). -/
structure EcLayer where
  words : List W64 := []
  mode : Nat := 0
  start : Nat := 0
  ceil : Nat := 0
  rung : Nat := 0
  storm : Nat := 0
  calm : Nat := 0
  held : Bool := false
  slackLast : Nat := 0
  overLast : Bool := false
  cost : Nat := 0
  residual : Bool := false
  breached : Bool := false
deriving DecidableEq, Repr

/-- A guard entry's state in the step (R155, R159–R163): its current epoch, the chain of its consumer as issued, and how far it has come. -/
structure GuardSt where
  words : List W64
  epoch : Nat := 0
  chain : List OpMsg := []
  readOut : Bool := false
  decided : Bool := false
  reissued : Bool := false
  accepted : Bool := false
deriving DecidableEq, Repr

/-- The error-control unit of a core (chapter 06). -/
structure ErrCtl where
  layers : SMap EcLayer := []
  sites : SMap W64 := []
  guards : List GuardSt := []
  inbox : List DamageMsg := []
  tiles : List TileRec := []
  plyMask : Nat := 0
deriving DecidableEq, Repr

/-- A reduction state (R194). `m` is none at the identity of RCLR. -/
structure RedState where
  sum : BitVec 320 := 0
  nan : Bool := false
  pinf : Bool := false
  ninf : Bool := false
  terms : Nat := 0
  tree : W32 := 0
  m : Option W32 := none
  pos : Nat := 0
  n : Nat := 0
  p : Nat := 0
  live : Bool := false
  emptySeen : Bool := false
deriving DecidableEq, Repr

/-- A strand core (R180): vector and predicate registers, loop counters, reduction states, and the launch it runs. -/
structure Strand where
  v : SMap (List W32) := []
  p : SMap Nat := []
  l : SMap Nat := []
  r : SMap RedState := []
  pc : Nat := 0
  launch : Option Nat := none
deriving DecidableEq, Repr

/-- A launch accepted by the vector engine (R177): strands still to begin and strands that have ended. -/
structure Launch where
  msg : OpMsg
  pend : List Nat
  ended : List Nat
  qops : Nat
deriving DecidableEq, Repr

/-- The vector engine of a core (chapter 07). -/
structure Vector16 where
  kernel : SMap W64 := []
  inbox : List OpMsg := []
  queue : List Launch := []
  strands : SMap Strand := []
deriving DecidableEq, Repr

/-- A DMA descriptor and how far it has come: walked, with acknowledgements and records still to come (R334); `lost`: its writes go to a fenced cluster, which acknowledges nothing (16 R413). -/
structure DmaRun where
  msg : OpMsg
  walked : Bool
  acks : Nat
  qops : Nat
  lost : Bool := false
deriving DecidableEq, Repr

/-- A remote knot operation held at a station behind the core's earlier writes (R293): endpoint entry, tie or untie, knot, and the DMA operations it waits for. -/
structure HeldRemote where
  endpoint : W64
  tie : Bool
  knot : Nat
  fence : List Nat
deriving DecidableEq, Repr

/-- Where a part's reset escalation stands (R411, R412): the stage in progress. -/
structure ResetSt where
  cause : Nat
  stage : Nat
deriving DecidableEq, Repr

/-- Everything one logical core holds beside its registers in the register file. -/
structure Core where
  cc : ControlCore := {}
  plies : List Ply := [{}, {}, {}, {}]
  plyInbox : List OpMsg := []
  qnt : Quantiser := {}
  ec : ErrCtl := {}
  vec : Vector16 := {}
  dma : List DmaRun := []
  held : List HeldRemote := []
  reset : Option ResetSt := none
deriving DecidableEq, Repr

end Sys2Proof.Machine
end

