-- ==== Sys2Proof/Machine/ModState.lean ====
section
/-! DEFINITION. The state of everything outside the cores: dies, stacks, links, contexts, step controller, image, memory system (chapters 08–18). Plain data only. -/

namespace Sys2Proof.Machine

/-- Who issued a knot operation, in the order of R289; a Capstan's with the record it concerns. -/
inductive KSrc where
  | core (n : Nat)
  | ec (n : Nat)
  | whip
  | cap (s rcd : Nat)
  | remote (o : RemoteOp)
  | host
deriving DecidableEq, Repr

/-- The knot operations (R288). -/
inductive KOp where
  | tie
  | untie
  | wait
  | waitclr
  | take
deriving DecidableEq, Repr

/-- An operation pending at a die's knot store (R289): its source, kind, context knot and physical knot. -/
structure KnotPend where
  src : KSrc
  op : KOp
  ctx : Nat
  knot : Nat
  phys : Nat
deriving DecidableEq, Repr

/-- A change of a physical knot on its way to the stations' views (R290): the knot, its new state, when it was made, and the core whose station issued it. -/
structure KnotChange where
  phys : Nat
  tied : Bool
  time : Nat
  core : Option Nat
deriving DecidableEq, Repr

/-- A die's knot store (R285–R294): tied physical knots, translation entries by context × 4,096 + knot, endpoints, pending operations, operations of a remote source held behind its waiting one, the remote queue, operations that came while it was full and keep their place in the links' buffers, and the changes that views may not show yet, newest first. -/
structure KnotStore where
  tied : List Nat := []
  xlate : SMap W64 := []
  endpoints : List W64 := []
  pend : List KnotPend := []
  behind : List RemoteOp := []
  queue : List RemoteOp := []
  door : List RemoteOp := []
  recent : List KnotChange := []
deriving DecidableEq, Repr

/-- Step controller states (R270). -/
inductive StepState where
  | held
  | armed
  | running
  | draining
  | committing
  | maintenance
deriving DecidableEq, Repr

/-- Context states (R394). -/
inductive CtxState where
  | free
  | active
  | draining
  | scrubbing
deriving DecidableEq, Repr

/-- A context (R394–R399): its state and generations, and the number of the key installed for it (17 R451). -/
structure Ctx where
  state : CtxState := .free
  gen : Nat := 0
  lastGen : Nat := 0
  key : Option Nat := none
deriving DecidableEq, Repr

/-- A lay group of the MEMORY section (R309). -/
structure LayGroup where
  base : Nat
  size : Nat
  half : Bool
deriving DecidableEq, Repr

/-- Channel states (R305). -/
inductive ChanState where
  | active
  | spare
  | failed
deriving DecidableEq, Repr

/-- Keys of a window page (17 R452–R454): the key in force by the key-owner table, the key its content was written under, and the units (number in the page) written since under another. Key 0 is the host key. -/
structure PageKey where
  cur : Nat
  base : Nat
  exc : SMap Nat
deriving DecidableEq, Repr

/-- The lay table, lay groups, channel states and host region (R305–R312). `lay` lists the entries that differ from the unrepaired power-on table, `pages` the pages whose content was not all written under the host key, `hot` the temperature of each stack's hottest device, `retired` the UCIe modules retired (attachment × 32 + module), `ceRaised` the channels whose count has passed CE_THRESH in the period, `tokens` what a regulator (stack × 7 + partition) held in units of R314 and the base-die cycle up to which they were counted, `xcache` the cached page entries ((cache × 4 + context) × 2^18 + page; cache 0–1 the compute dies, 2–9 the base dies). -/
structure MemSys where
  lay : SMap Nat := []
  groups : List LayGroup := []
  chans : SMap ChanState := []
  hostBase : Nat := 0x7000000000
  hostSize : Nat := 32
  cePeriod : SMap Nat := []
  retrainReq : List Nat := []
  retraining : List Nat := []
  migReq : SMap (Nat × Nat) := []
  patrol : SMap Nat := []
  hot : SMap Nat := []
  ceRaised : List Nat := []
  tokens : SMap (Nat × Nat) := []
  xcache : SMap W64 := []
  pages : SMap PageKey := []
  mirBase : Nat := 0
  mirSize : Nat := 0
  retired : List Nat := []
deriving DecidableEq, Repr

/-- The step controller (R270–R279). The flags are those of the step record in progress; `tnr` its TNR_REASON. `tick` is the ELAPSED of the tick that RUNNING waits for, `aborting` an ABORT whose quiescence is still to be checked, `ran` that a step has run since the image was loaded, `kNext` the clock multiplier of the next slot, `maint` that the slot follows a COMMIT, `mirrorSent` that the step's mirror data has left and `mirrorOut` how many of its messages are not acknowledged, `holdTick` the (step, attempt) that a TICK with HOLD has held. -/
structure StepCtl where
  state : StepState := .held
  attempt : Nat := 0
  faultHeld : Bool := false
  imageValid : Bool := false
  fault : Bool := false
  slack : Bool := false
  rejected : Bool := false
  veto : Bool := false
  tnr : Nat := 0
  armedAt : Nat := 0
  runAt : Nat := 0
  drainAt : Nat := 0
  readySent : Bool := false
  summarySent : Bool := false
  unscheduled : Bool := false
  tick : Option Nat := none
  aborting : Bool := false
  ran : Bool := false
  kNext : Nat := 15
  maint : Bool := false
  mirrorSent : Bool := false
  mirrorOut : Nat := 0
  holdTick : Option (Nat × Nat) := none
deriving DecidableEq, Repr

/-- The JOB section in force (10 *Job section*), and the contexts torn down since the image was loaded (15 R400). -/
structure Job where
  jobId : Nat := 0
  seed : Nat := 0
  member : Nat := 0
  modules : Nat := 1
  role : Nat := 0
  genMix : Nat := 0
  used : List Nat := []
  ctxOf : SMap Nat := []
  inert : List Nat := []
deriving DecidableEq, Repr

/-- A gradient tile reported to a whipping unit (09 R241): where it lies, and the stored positions whose producing operation is still to be accepted, as (row, column, guard entry). -/
structure WhipTile where
  site : Nat
  tile : Nat
  epoch : Nat
  loc : TileLoc
  wait : List (Nat × Nat × Nat)
deriving DecidableEq, Repr

/-- A sender's bucket (09 R248): its epoch, whether its current epoch has been compressed and sent, and whether FINAL was sent. -/
structure BucketTx where
  rcd : Nat
  bucket : Nat
  epoch : Nat
  sent : Bool
  fin : Bool
deriving DecidableEq, Repr

/-- A receiver's slot (09 R249): highest epoch H, the epoch held, and whether it is final. -/
structure SlotRx where
  rcd : Nat
  bucket : Nat
  sender : Nat
  h : Nat
  held : Option Nat
  fin : Bool
deriving DecidableEq, Repr

/-- A BUCKET record's ring in the step (09 R253, 14 R376): the ring buckets that have entered the ring, messages that came before that, the pieces of chunks written as (ring bucket, chunk, first element, elements), and the 4,096-element buckets sent on to followers or, at a follower, written. -/
structure RingSt where
  rcd : Nat
  went : List Nat := []
  early : List DenseMsg := []
  written : List (Nat × Nat × Nat × Nat) := []
  fan : List Nat := []
deriving DecidableEq, Repr

/-- A CELL record's combination in the step (09 R252): the Capstans whose group cell is in and its running sum, whether this module's cells are formed and sent, pieces received as (sender, first cell, count) with their sums, for the hank (leg 0), the job (leg 1) and the returned result (leg 2). -/
structure CellJob where
  rcd : Nat
  capsIn : List Nat := []
  own : List XCell := []
  mine : Bool := false
  hankGot : List (Nat × Nat × Nat) := []
  hankSum : List XCell := []
  sentHank : Bool := false
  jobGot : List (Nat × Nat × Nat) := []
  jobSum : List XCell := []
  resGot : List (Nat × Nat × Nat) := []
  res : List XCell := []
  done : Bool := false
deriving DecidableEq, Repr

/-- A whipping unit (chapter 09). `cancelled` lists the (site, tile, epoch) cancelled in the step, `store` the buckets in the merge store as (record, bucket); `bridged` holds a bridge's merged buckets as (record, bucket, values) (14 R376). -/
structure Whip where
  records : List (List W64) := []
  tiles : List WhipTile := []
  cancelled : List (Nat × Nat × Nat) := []
  tx : List BucketTx := []
  rx : List SlotRx := []
  store : List (Nat × Nat) := []
  merged : List (Nat × Nat) := []
  rings : List RingSt := []
  cells : List CellJob := []
  doneTied : List Nat := []
  bridged : List (Nat × Nat × List W32) := []
deriving DecidableEq, Repr

/-- A microprogram in progress (08 R220): record, scalars of the pass, parameter in progress, next operation, registers, and finished parameters, newest first. -/
structure MpRun where
  rcd : Nat
  c : W32
  p : Nat
  pc : Nat
  regs : List W32
  outs : List (W32 × W32 × W32)
deriving DecidableEq, Repr

/-- A Capstan (chapter 08): its tables, and its progress in the step: group cells and factors (`none`: the group is vetoed), records whose wait on GRAD_KNOT a tie has released, records whose norm pass and update pass are done, records processed and vetoed, and the schedule test computation in progress. -/
structure Cap where
  records : List (List W64) := []
  groups : List W64 := []
  sched : List (List W64) := []
  mprogs : List (List W32) := []
  cells : SMap XCell := []
  handed : List Nat := []
  clip : SMap (Option W32) := []
  released : List Nat := []
  normDone : List Nat := []
  updDone : List Nat := []
  processed : List Nat := []
  vetoed : List Nat := []
  badCommit : List Nat := []
  mp : Option MpRun := none
  test : Option W64 := none
deriving DecidableEq, Repr

/-- A plan entry (10 *Plan entry*). -/
structure PlanEntry where
  id : Nat
  ctx : Nat
  knot : Nat
  period : Nat
  phase : Nat
deriving DecidableEq, Repr

/-- The STEP_PLAN section in force (10 *Step plan section*). -/
structure Plan where
  maintPeriod : Nat := 64
  maintLen : Nat := 4000
  drainBound : Nat := 0
  tracked : Nat := 0
  wTracked : Nat := 0
  feeds : List PlanEntry := []
  mboxes : List PlanEntry := []
deriving DecidableEq, Repr

/-- The route section in force (13 *Route section*). -/
structure RouteSec where
  present : Bool := false
  slotId : Nat := 0
  hank : Nat := 0
  standby : Bool := false
  manager : Nat := 0
  root : Nat := 0
  hankFirst : Nat := 0
  hankSize : Nat := 0
  hankCount : Nat := 0
  mgrRoute : Nat := 0
  memberRoute : Nat := 0
  peerMgrRoute : Nat := 0
  mirrorA : Nat := 0
  mirrorB : Nat := 0
  buddy : Nat := 0
  tickDelay : Nat := 20000
  heartbeat : Nat := 100
  missLimit : Nat := 10
  sets : List W64 := []
  entries : List W64 := []
deriving DecidableEq, Repr

/-- A manager's or root's view of its members (13 R354–R359): who reported READY and whose summary is in for the step in force, the combined summary, missed heartbeats, lost members, standbys, frequency proposals. A root keeps its hank's members and the other managers in the same lists. -/
structure Hank where
  ready : List Nat := []
  readySent : Bool := false
  sums : List Nat := []
  total : Option Summary := none
  decided : Bool := false
  misses : SMap Nat := []
  lost : List Nat := []
  standbys : List Nat := []
  props : SMap Nat := []
deriving DecidableEq, Repr

/-- A message on its way out on a VC (13 R346, R349): bytes not yet sent, whether its first flit has gone and whether its end is in, the bytes still to come in. One passed on from another link names it, with what its flits still occupy of that link's receive buffer (bytes left of each), when its first flit came in, and the latency in ns of the link crossed. -/
structure TxMsg where
  bytes : List Byte
  begun : Bool := false
  whole : Bool := true
  left : Nat := 0
  src : Option Nat := none
  bufs : List Nat := []
  since : Nat := 0
  lat : Nat := 0
deriving DecidableEq, Repr

/-- A message delivered by the link layer and not yet released (13 R349, R351): its VC, header words, body, flits, and when it was whole. -/
structure RxMsg where
  vc : Nat
  h0 : W64
  h1 : W64
  body : List Byte
  flits : Nat
  arrived : Nat := 0
deriving DecidableEq, Repr

/-- A Hawser link (chapter 13): section words; transmit SEQ, distinct flits sent, replay buffer (oldest first) and replays of its oldest; receive SEQ, next count of a flit received, tag failures in a row and the SEQ they were on; credits and messages on their way out per VC; knot-channel credits held back while a remote queue is full (11 R294); whose turn it is between data and exchange; messages being received per VC and where they are forwarded; messages awaiting release; corrected symbols per lane in the period; the key phase for which this end and the far end last installed a secret (17 R456); a retraining to carry out, and whether it goes one rate lower (R341). -/
structure LinkSt where
  words : List W64 := []
  txSeq : Nat := 0
  sent : Nat := 0
  replay : List (List Byte) := []
  retries : Nat := 0
  rxSeq : Nat := 0
  rcvd : Nat := 0
  tagFails : Nat := 0
  tagSeq : Nat := 0
  credits : List Nat := [32, 128, 128, 16]
  queues : List (List TxMsg) := [[], [], [], []]
  owed : Nat := 0
  turn : Bool := false
  part : SMap RxMsg := []
  fwd : SMap Nat := []
  inbox : List RxMsg := []
  laneCnt : List Nat := [0, 0, 0, 0, 0]
  ownPhase : Option Nat := none
  peerPhase : Option Nat := none
  retrain : Bool := false
  lower : Bool := false
deriving DecidableEq, Repr

/-- A security command in progress (17 R458): its OP, and the code and result it will end with. -/
structure SecJob where
  op : Nat
  code : Nat
  result : List Byte
deriving DecidableEq, Repr

/-- The security engine (chapter 17): OTP words as die × 4,096 + word, words that fail their check, boot flash, firmware in force, lifecycle in force, debug unlock and nonce, command in progress and secret zeroing due, DRBG draws, entropy failure, installed keys, and SPDM negotiation. -/
structure Sec where
  otp : SMap W64 := []
  otpBad : List Nat := []
  flash : List Byte := []
  booting : Bool := false
  mode : Nat := 0
  stage : Nat := 0
  keySlot : Nat := 0
  fwDigest : BitVec 512 := 0
  fwSvn : Nat := 0
  lifecycle : Nat := 0
  debug : Bool := false
  nonce : Option (List Byte) := none
  busy : Option SecJob := none
  zeroDue : Bool := false
  draws : Nat := 0
  trngFail : Bool := false
  imageKey : List Byte := []
  secrets : SMap (List Byte) := []
  spdm : Nat := 0
deriving DecidableEq, Repr

/-- The repair journal (16 R422–R424): whether it has a head, the next JSEQ, digest of the newest entry, entries in JOURNAL_OUT by slot and the slots in order of age, entries queued, and a loss to mark. -/
structure Journal where
  started : Bool := false
  jseq : Nat := 0
  prev : BitVec 512 := 0
  out : SMap (List Byte) := []
  order : List Nat := []
  queue : List (List Byte) := []
  gap : Bool := false
deriving DecidableEq, Repr

/-- Mirror data received for an entry (16 R426): step, attempt, tensor scale, bytes in, and, once the final marker is in, the bytes of the whole half. -/
structure MirRx where
  entry : Nat
  step : Nat
  attempt : Nat
  wt : Nat
  got : Nat
  total : Option Nat
deriving DecidableEq, Repr

/-- A spare marked for the next slot (16 R414, R416, 18 R463): journal kind and the unit and part concerned. -/
structure Mark where
  kind : Nat
  unit : Nat
  part : Nat
deriving DecidableEq, Repr

/-- A crash dump (16 R421). -/
structure Dump where
  reason : Nat
  attempt : Nat
  logline : Nat
  time : Nat
  records : Nat
  truncated : Nat
  body : List W64
deriving DecidableEq, Repr

/-- A committed repair not yet in OTP (16 R416, 17 R443): kind, unit, old and new physical identifiers, and the step and time of the commit (R422). -/
structure Repair where
  kind : Nat
  unit : Nat
  old : Nat
  new : Nat
  step : Nat := 0
  time : Nat := 0
deriving DecidableEq, Repr

/-- Reliability state of a die (chapter 16): marks, fenced physical clusters and the contexts for which each has failed the die, held dump, corrected errors per scratch bank (core × 32 + bank) in the period, repairs to record, knot cells moved (physical knot to cell), repairs for which OTP had no room and which hold until power is lost (R416), and whether the die as a whole has failed (01 R29, 15 R381). -/
structure DieRel where
  marks : List Mark := []
  fenced : List Nat := []
  failCtx : List (Nat × Nat) := []
  dump : Option Dump := none
  bankCe : SMap Nat := []
  toOtp : List Repair := []
  cells : SMap Nat := []
  cellsUsed : Nat := 0
  volatile : List Repair := []
  failed : Bool := false
deriving DecidableEq, Repr

/-- Power, clocks and pins (chapter 18). `latched`: off until PWR_EN is cycled; `inReset`: in RESET after a lost reference; `cond`: conditions of ALERT_STATUS that still hold; `thr`: the reasons of each die's issue throttle (bit 0 thermal, bit 1 input current, bit 2 voltage margin); telemetry in mV, mA and °C; VCORE in units of 0.5 mV; the power limit of R464 in W. -/
structure Power where
  pwrEn : Bool := true
  pwrGood : Bool := true
  resetN : Bool := false
  tripN : Bool := true
  latched : Bool := false
  inReset : Bool := false
  hbmReady : Bool := false
  refLost : List Nat := []
  refRelock : Bool := false
  cond : Nat := 0
  thr : List Nat := [0, 0]
  vin : Nat := 0
  iin : Nat := 0
  dieTemp : List Nat := [0, 0]
  baseTemp : Nat := 0
  hostTemp : Nat := 0
  vcore : List Nat := [1500, 1500]
  capLimit : Nat := 2600
deriving DecidableEq, Repr

/-- A section of a loaded container (10 R259, R260): directory index, type, instance, bytes. -/
structure ImgSec where
  index : Nat
  ty : Nat
  inst : Nat
  body : List Byte
deriving DecidableEq, Repr

/-- An image load in progress (10 R262, R263): its result code and failing section, and for a good image its sections and measurement. -/
structure LoadJob where
  code : Nat
  section_ : Nat
  secs : List ImgSec
  meas : BitVec 512
deriving DecidableEq, Repr

/-- Messages that leave the module: over the links, or to the sideband. -/
inductive OutMsg where
  | knot (route : Nat) (member die : Nat) (o : RemoteOp)
  | frag (route : Nat) (dest : Option Nat) (m : FragMsg)
  | dense (route : Nat) (dest : Nat) (m : DenseMsg)
  | peer (route member ctx gen : Nat) (runs : List (Nat × List Byte))
  | peerAck (member : Nat)
  | cell (route : Nat) (dest : Nat) (m : CellMsg)
  | ready (route dest step attempt : Nat)
  | tick (route : Nat) (dest : Option Nat) (step attempt : Nat) (hold : Bool) (elapsed : Nat)
  | summary (route dest : Nat) (m : Summary)
  | commit (route : Nat) (step attempt : Nat) (m : Summary) (k : Nat)
  | abort (route : Nat) (step attempt : Nat)
  | reissue (route : Nat) (step attempt : Nat)
  | report (route dest : Nat) (entry : List W64)
  | beat (route : Nat) (dest : Option Nat) (k : Nat) (standby : Bool)
  | mirror (route dest : Nat) (m : MirrorMsg)
  | mirrorAck (member : Nat)
  | restore (route dest : Nat) (m : MirrorMsg)
  | phase (link phase : Nat)
  | flit (link : Nat) (bytes : List Byte)
  | train (link jobId slot floor ceil proposal : Nat)
deriving DecidableEq, Repr

end Sys2Proof.Machine
end

