-- ==== Sys2Proof/Machine/Regs.lean ====
section
/-! DEFINITION. The register tables of every chapter: names, blocks, offsets, fields, access codes and reset values (00 R6, R9–R13; 01 full address map). Generated from the tables of the spec. -/

namespace Sys2Proof.Machine

/-- Every register of the spec, by its name there. Names that two windows share carry the window's prefix. -/
inductive RegName where
  | CLUSTER_MAP | MOD_ID | CROSS_LATE | QNT_STATUS | KEEP_RING | SAT_TOTAL
  | FLUSH_TOTAL | BIGHT_OVF_TOTAL | ZERO_BLK_TOTAL | NAN_BLK_TOTAL | KEEP_STALL_TOTAL | KEEP_SAT_TOTAL
  | RAVEL_TEST_SEED_LO | RAVEL_TEST_SEED_HI | RAVEL_TEST_STEP | RAVEL_TEST_STREAM | RAVEL_TEST_INDEX | RAVEL_TEST_RESULT
  | PLY_STATUS | PLY_ERR_DETAIL | OPS_TOTAL | PLY_STEP_TOTAL | BIGHT_ENTRY_TOTAL | BIGHT_STALL_TOTAL
  | FEED_STALL_TOTAL | READOUT_STALL_TOTAL | PLY_REJECT_TOTAL | ACC_FAULT_DETAIL | ACC_FAULT_RESIDUE | RESIDUE_INJECT
  | ACC_TRUNC_TOTAL | ACC_CLAMP_TOTAL | ACC_SAT_TOTAL | ACC_SPECIAL_TOTAL | RESIDUE_CHECK_TOTAL | RESIDUE_SKIP_TOTAL
  | RESIDUE_FAULT_TOTAL | EC_STATUS | EC_FLAG_DETAIL | EC_FLAG_TILE | VERDICT_TOTAL | BREACH_TOTAL
  | REPEAT_TOTAL | FLAG_TOTAL | HELD_TOTAL | EPOCH_DISCARD_TOTAL | OVERRUN_CYCLE_TOTAL | STORM_STEP_TOTAL
  | RATCHET_UP_TOTAL | RATCHET_DOWN_TOTAL | EC_LAYER_STATE | EC_LAYER_BOUND | VEC_STATUS | VEC_ERR_DETAIL
  | INSN_TOTAL | OC_CONFLICT_TOTAL | SCR_STALL_TOTAL | VEC_OOB_READ_TOTAL | VEC_OOB_WRITE_TOTAL | EMPTY_ROW_TOTAL
  | OVERSPAN_TOTAL | VEC_REJECT_TOTAL | STRAND_PC | CAP_STATUS | CAP_ERR_DETAIL | PARAM_TOTAL
  | FROZEN_TOTAL | CLIP_TOTAL | CAP_NONFINITE_TOTAL | VETO_TOTAL | MOM_SAT_TOTAL | WORK_SAT_TOTAL
  | WORK_FLUSH_TOTAL | COMMIT_TOTAL | SCHED_ETA | SCHED_TEST_STEP | SCHED_TEST_CTRL | SCHED_TEST_RESULT
  | WH_STATUS | WH_ERR_DETAIL | BUCKET_TOTAL | FRAG_SENT_TOTAL | FRAG_RECV_TOTAL | CANCEL_TOTAL
  | STALE_TOTAL | BYTES_SENT_TOTAL | WH_NONFINITE_TOTAL | MERGE_STALL_TOTAL | STEP_CTRL | STEP_STATUS
  | LOGLINE | STEP_LIMIT | IMAGE_BASE | IMG_LOAD_STATUS | STEP_REC_HEAD | IMAGE_MEAS
  | STEP_TOTAL | FAULT_STEP_TOTAL | TIMING_NR_TOTAL | MAINT_TOTAL | HANK_STATUS | ROUTE_CTRL
  | TICK_LATE_TOTAL | ROUTE_MEAS | STEP_REC | CC_STATUS | CC_ERR_DETAIL | CC_SREG
  | CC_ISSUE_TOTAL | CC_WAIT_TOTAL | KNOT_STATUS | KNOT_ERR_DETAIL | KNOT_HOST_OP | KNOT_PEEK_SEL
  | KNOT_PEEK | KNOT_TIMEOUT | TIE_TOTAL | REDUNDANT_TIE_TOTAL | REDUNDANT_UNTIE_TOTAL | TAKE_TOTAL
  | BARRIER_STALL_TOTAL | REMOTE_SENT_TOTAL | REMOTE_RECV_TOTAL | REMOTE_STALE_TOTAL | TIMEOUT_TOTAL | KNOT_XLATE
  | KNOT_ENDPOINT | KS_STATUS | LAY | LAY_MIG | REG | REG_WAIT_TOTAL
  | CH_STATUS | CH_CE_TOTAL | CH_UE_TOTAL | CH_BURST_TOTAL | POISON_LOG | POISON_HEAD
  | CE_THRESH | REFRESH_CTRL | REFRESH_HELD_TOTAL | REPAIR_CTRL | DMA_STATUS | DMA_ERR_DETAIL
  | SCR_BANK_SPARE | DESC_TOTAL | BYTES_READ_TOTAL | BYTES_WRITTEN_TOTAL | PAD_TOTAL | DMA_OOB_READ_TOTAL
  | DMA_OOB_WRITE_TOTAL | DMA_REJECT_TOTAL | LANE_CTRL | LANE_STATUS | LANE_FEC_TOTAL | LINK_STATUS
  | LINK_LATENCY | FLIT_TX_TOTAL | FLIT_RX_TOTAL | RETRY_TOTAL | CRC_ERR_TOTAL | FEC_UNCORR_TOTAL
  | CREDIT_STALL_TOTAL | MISROUTE_TOTAL | LATE_RELEASE_TOTAL | DOWN_TOTAL | ENC_STATUS | AUTH_FAIL_TOTAL
  | MOD_IRQ_SUMMARY | MOD_DECODE_DETAIL | DIE_IRQ_SUMMARY | DIE_IRQ_LINE_EN | DIE_IRQ_GROUP | CLUSTER_IRQ
  | FEED_TIED | FEED_DUE | MBOX_COMMIT | CTX_CTRL | CTX_PT | CTX_PAGES
  | CTX_DRAIN | CTX_STALE_TOTAL | CTX_DRAIN_BOUND | TETHER_LIMIT | TETHER_STATUS | TETHER_TOTAL
  | CHAFE_HEAD | CHAFE_TAIL | CHAFE_OVF_TOTAL | REL_CTRL | REL_STATUS | SPARE_REQ
  | DUMP_STATUS | DUMP_CTRL | CHAFE | DUMP_WINDOW | JOURNAL_STATUS | JOURNAL_ACK
  | JOURNAL_RESUME | JOURNAL_SUBMIT | STATE_CTRL | STATE_BASE | MIRROR_CTRL | MIRROR_STATUS
  | JOURNAL_OUT | SEC_CMD | SEC_STATUS | LIFECYCLE | FW_STATUS | OTP_STATUS
  | KEYSEL_STATUS | SEC_BUSY_TOTAL | KEY_HOLD_TOTAL | SEC_ARG | SEC_RESULT | PWR_STATUS
  | ALERT_STATUS | VOLT_BOUND | CLK_BOUND | POWER_CAP | PHASE_STATUS | THERM_STATUS
  | VOLT_HELD_US_TOTAL | CLK_HELD_TOTAL | THROTTLE_CYCLE_TOTAL | PHASE_SHED_TOTAL | CORE_STATUS | CORE_ENABLE
  | CORE_COUNT | CLUSTER_STATUS | CLUSTER_ENABLE | CLUSTER_COUNT | DIECTL_STATUS | DIECTL_ENABLE
  | DIECTL_COUNT | WHIP_STATUS | WHIP_ENABLE | WHIP_COUNT | KNOTST_STATUS | KNOTST_ENABLE
  | KNOTST_COUNT | STACK_STATUS | STACK_ENABLE | STACK_COUNT | LINKC_STATUS | LINKC_ENABLE
  | LINKC_COUNT | MODC_STATUS | MODC_ENABLE | MODC_COUNT
deriving DecidableEq, Repr

/-- The part of the module a register belongs to (00 R2). -/
inductive Part where
  | module
  | core (n : Nat)
  | ply (core p : Nat)
  | cluster (die c : Nat)
  | dieCtl (d : Nat)
  | whip (d : Nat)
  | fabric (d : Nat)
  | knotStore (d : Nat)
  | stack (s : Nat)
  | link (h : Nat)
deriving DecidableEq, Repr

/-- One register: its name, its part, and its index in a register array. -/
structure RegId where
  name : RegName
  part : Part
  idx : Nat := 0
deriving DecidableEq, Repr

/-- The access codes of 00 R11. -/
inductive Acc8 where
  | ro
  | rw
  | w1c
  | w1s
  | wo
deriving DecidableEq, Repr

/-- The register blocks of the address map (01). -/
inductive Blk where
  | mod | sec | pwr | cc | ply | qnt | ec | vec | dma | ks | teth | ccause | clus | diec | whip | fab | knot | map | stack | link | none
deriving DecidableEq, Repr

/-- A field: bits `hi:lo` and access code. -/
structure RegField where
  hi : Nat
  lo : Nat
  acc : Acc8
deriving DecidableEq, Repr


/-- One row of the register tables: place, fields, reset value (0 where the table says "from OTP", "from the image" or gives none), and whether the read value is formed from the units' state. -/
structure RegDef where
  name : RegName
  blk : Blk
  off : Nat
  count : Nat
  stride : Nat
  fields : List RegField
  reset : Nat
  computed : Bool
deriving DecidableEq, Repr

/-- Register tables, part 1. -/
def regTable0 : List RegDef := [
  ⟨.CLUSTER_MAP, .map, 0x0, 24, 8, [⟨48, 48, .ro⟩, ⟨39, 8, .ro⟩, ⟨4, 0, .ro⟩], 0, true⟩,
  ⟨.MOD_ID, .mod, 0x0, 1, 8, [⟨63, 48, .ro⟩, ⟨47, 32, .ro⟩, ⟨31, 28, .ro⟩, ⟨27, 24, .ro⟩, ⟨23, 16, .ro⟩], 0x1d7c351231030000, false⟩,
  ⟨.CROSS_LATE, .none, 0x0, 1, 8, [⟨63, 0, .ro⟩], 0, false⟩,
  ⟨.QNT_STATUS, .qnt, 0x0, 1, 8, [⟨7, 4, .ro⟩, ⟨3, 0, .ro⟩], 0, true⟩,
  ⟨.KEEP_RING, .qnt, 0x10, 4, 8, [⟨47, 32, .ro⟩, ⟨30, 16, .rw⟩, ⟨14, 0, .rw⟩], 0, false⟩,
  ⟨.SAT_TOTAL, .qnt, 0x100, 1, 8, [⟨63, 0, .ro⟩], 0, false⟩,
  ⟨.FLUSH_TOTAL, .qnt, 0x108, 1, 8, [⟨63, 0, .ro⟩], 0, false⟩,
  ⟨.BIGHT_OVF_TOTAL, .qnt, 0x110, 1, 8, [⟨63, 0, .ro⟩], 0, false⟩,
  ⟨.ZERO_BLK_TOTAL, .qnt, 0x118, 1, 8, [⟨63, 0, .ro⟩], 0, false⟩,
  ⟨.NAN_BLK_TOTAL, .qnt, 0x120, 1, 8, [⟨63, 0, .ro⟩], 0, false⟩,
  ⟨.KEEP_STALL_TOTAL, .qnt, 0x128, 1, 8, [⟨63, 0, .ro⟩], 0, false⟩,
  ⟨.KEEP_SAT_TOTAL, .qnt, 0x130, 1, 8, [⟨63, 0, .ro⟩], 0, false⟩,
  ⟨.RAVEL_TEST_SEED_LO, .qnt, 0x200, 1, 8, [⟨63, 0, .rw⟩], 0, false⟩,
  ⟨.RAVEL_TEST_SEED_HI, .qnt, 0x208, 1, 8, [⟨63, 0, .rw⟩], 0, false⟩,
  ⟨.RAVEL_TEST_STEP, .qnt, 0x210, 1, 8, [⟨63, 0, .rw⟩], 0, false⟩,
  ⟨.RAVEL_TEST_STREAM, .qnt, 0x218, 1, 8, [⟨31, 0, .rw⟩], 0, false⟩,
  ⟨.RAVEL_TEST_INDEX, .qnt, 0x220, 1, 8, [⟨47, 0, .rw⟩], 0, false⟩,
  ⟨.RAVEL_TEST_RESULT, .qnt, 0x228, 1, 8, [⟨32, 32, .ro⟩, ⟨31, 0, .ro⟩], 0, false⟩,
  ⟨.PLY_STATUS, .ply, 0x0, 1, 8, [⟨15, 12, .ro⟩, ⟨11, 11, .ro⟩, ⟨10, 9, .ro⟩, ⟨8, 8, .ro⟩, ⟨7, 7, .ro⟩, ⟨6, 6, .ro⟩, ⟨2, 0, .ro⟩], 0, true⟩,
  ⟨.PLY_ERR_DETAIL, .ply, 0x8, 1, 8, [⟨63, 63, .w1c⟩, ⟨55, 48, .ro⟩, ⟨35, 32, .ro⟩, ⟨31, 0, .ro⟩], 0, false⟩,
  ⟨.OPS_TOTAL, .ply, 0x100, 1, 8, [⟨63, 0, .ro⟩], 0, false⟩,
  ⟨.PLY_STEP_TOTAL, .ply, 0x108, 1, 8, [⟨63, 0, .ro⟩], 0, false⟩,
  ⟨.BIGHT_ENTRY_TOTAL, .ply, 0x110, 1, 8, [⟨63, 0, .ro⟩], 0, false⟩,
  ⟨.BIGHT_STALL_TOTAL, .ply, 0x118, 1, 8, [⟨63, 0, .ro⟩], 0, false⟩,
  ⟨.FEED_STALL_TOTAL, .ply, 0x120, 1, 8, [⟨63, 0, .ro⟩], 0, false⟩]

/-- Register tables, part 2. -/
def regTable1 : List RegDef := [
  ⟨.READOUT_STALL_TOTAL, .ply, 0x128, 1, 8, [⟨63, 0, .ro⟩], 0, false⟩,
  ⟨.PLY_REJECT_TOTAL, .ply, 0x130, 1, 8, [⟨63, 0, .ro⟩], 0, false⟩,
  ⟨.ACC_FAULT_DETAIL, .ply, 0x200, 1, 8, [⟨63, 63, .w1c⟩, ⟨45, 44, .ro⟩, ⟨43, 40, .ro⟩, ⟨39, 36, .ro⟩, ⟨31, 0, .ro⟩], 0, false⟩,
  ⟨.ACC_FAULT_RESIDUE, .ply, 0x208, 1, 8, [⟨47, 40, .ro⟩, ⟨31, 16, .ro⟩, ⟨15, 0, .ro⟩], 0, false⟩,
  ⟨.RESIDUE_INJECT, .ply, 0x210, 1, 8, [⟨0, 0, .w1s⟩], 0, false⟩,
  ⟨.ACC_TRUNC_TOTAL, .ply, 0x300, 1, 8, [⟨63, 0, .ro⟩], 0, false⟩,
  ⟨.ACC_CLAMP_TOTAL, .ply, 0x308, 1, 8, [⟨63, 0, .ro⟩], 0, false⟩,
  ⟨.ACC_SAT_TOTAL, .ply, 0x310, 1, 8, [⟨63, 0, .ro⟩], 0, false⟩,
  ⟨.ACC_SPECIAL_TOTAL, .ply, 0x318, 1, 8, [⟨63, 0, .ro⟩], 0, false⟩,
  ⟨.RESIDUE_CHECK_TOTAL, .ply, 0x320, 1, 8, [⟨63, 0, .ro⟩], 0, false⟩,
  ⟨.RESIDUE_SKIP_TOTAL, .ply, 0x328, 1, 8, [⟨63, 0, .ro⟩], 0, false⟩,
  ⟨.RESIDUE_FAULT_TOTAL, .ply, 0x330, 1, 8, [⟨63, 0, .ro⟩], 0, false⟩,
  ⟨.EC_STATUS, .ec, 0x0, 1, 8, [⟨14, 14, .ro⟩, ⟨13, 13, .ro⟩, ⟨12, 0, .ro⟩], 0, true⟩,
  ⟨.EC_FLAG_DETAIL, .ec, 0x8, 1, 8, [⟨63, 63, .w1c⟩, ⟨59, 58, .ro⟩, ⟨55, 48, .ro⟩, ⟨47, 40, .ro⟩, ⟨39, 32, .ro⟩, ⟨31, 0, .ro⟩], 0, false⟩,
  ⟨.EC_FLAG_TILE, .ec, 0x10, 1, 8, [⟨47, 0, .ro⟩], 0, false⟩,
  ⟨.VERDICT_TOTAL, .ec, 0x100, 1, 8, [⟨63, 0, .ro⟩], 0, false⟩,
  ⟨.BREACH_TOTAL, .ec, 0x108, 1, 8, [⟨63, 0, .ro⟩], 0, false⟩,
  ⟨.REPEAT_TOTAL, .ec, 0x110, 1, 8, [⟨63, 0, .ro⟩], 0, false⟩,
  ⟨.FLAG_TOTAL, .ec, 0x118, 1, 8, [⟨63, 0, .ro⟩], 0, false⟩,
  ⟨.HELD_TOTAL, .ec, 0x120, 1, 8, [⟨63, 0, .ro⟩], 0, false⟩,
  ⟨.EPOCH_DISCARD_TOTAL, .ec, 0x128, 1, 8, [⟨63, 0, .ro⟩], 0, false⟩,
  ⟨.OVERRUN_CYCLE_TOTAL, .ec, 0x130, 1, 8, [⟨63, 0, .ro⟩], 0, false⟩,
  ⟨.STORM_STEP_TOTAL, .ec, 0x138, 1, 8, [⟨63, 0, .ro⟩], 0, false⟩,
  ⟨.RATCHET_UP_TOTAL, .ec, 0x140, 1, 8, [⟨63, 0, .ro⟩], 0, false⟩,
  ⟨.RATCHET_DOWN_TOTAL, .ec, 0x148, 1, 8, [⟨63, 0, .ro⟩], 0, false⟩]

/-- Register tables, part 3. -/
def regTable2 : List RegDef := [
  ⟨.EC_LAYER_STATE, .ec, 0x800, 256, 8, [⟨48, 48, .ro⟩, ⟨47, 24, .ro⟩, ⟨23, 16, .ro⟩, ⟨15, 8, .ro⟩, ⟨4, 4, .ro⟩, ⟨3, 2, .ro⟩, ⟨1, 0, .ro⟩], 0, false⟩,
  ⟨.EC_LAYER_BOUND, .ec, 0x1000, 256, 8, [⟨4, 3, .rw⟩, ⟨2, 1, .rw⟩, ⟨0, 0, .rw⟩], 0, false⟩,
  ⟨.VEC_STATUS, .vec, 0x0, 1, 8, [⟨17, 16, .ro⟩, ⟨15, 0, .ro⟩], 0, true⟩,
  ⟨.VEC_ERR_DETAIL, .vec, 0x8, 1, 8, [⟨63, 63, .w1c⟩, ⟨57, 52, .ro⟩, ⟨51, 48, .ro⟩, ⟨44, 32, .ro⟩, ⟨31, 0, .ro⟩], 0, false⟩,
  ⟨.INSN_TOTAL, .vec, 0x100, 1, 8, [⟨63, 0, .ro⟩], 0, false⟩,
  ⟨.OC_CONFLICT_TOTAL, .vec, 0x108, 1, 8, [⟨63, 0, .ro⟩], 0, false⟩,
  ⟨.SCR_STALL_TOTAL, .vec, 0x110, 1, 8, [⟨63, 0, .ro⟩], 0, false⟩,
  ⟨.VEC_OOB_READ_TOTAL, .vec, 0x118, 1, 8, [⟨63, 0, .ro⟩], 0, false⟩,
  ⟨.VEC_OOB_WRITE_TOTAL, .vec, 0x120, 1, 8, [⟨63, 0, .ro⟩], 0, false⟩,
  ⟨.EMPTY_ROW_TOTAL, .vec, 0x128, 1, 8, [⟨63, 0, .ro⟩], 0, false⟩,
  ⟨.OVERSPAN_TOTAL, .vec, 0x130, 1, 8, [⟨63, 0, .ro⟩], 0, false⟩,
  ⟨.VEC_REJECT_TOTAL, .vec, 0x138, 1, 8, [⟨63, 0, .ro⟩], 0, false⟩,
  ⟨.STRAND_PC, .vec, 0x200, 16, 8, [⟨13, 13, .ro⟩, ⟨12, 0, .ro⟩], 0, true⟩,
  ⟨.CAP_STATUS, .stack, 0x800000, 1, 8, [⟨14, 12, .ro⟩, ⟨11, 0, .ro⟩], 0, true⟩,
  ⟨.CAP_ERR_DETAIL, .stack, 0x800008, 1, 8, [⟨63, 63, .w1c⟩, ⟨55, 48, .ro⟩, ⟨47, 36, .ro⟩, ⟨23, 0, .ro⟩], 0, false⟩,
  ⟨.PARAM_TOTAL, .stack, 0x800100, 1, 8, [⟨63, 0, .ro⟩], 0, false⟩,
  ⟨.FROZEN_TOTAL, .stack, 0x800108, 1, 8, [⟨63, 0, .ro⟩], 0, false⟩,
  ⟨.CLIP_TOTAL, .stack, 0x800110, 1, 8, [⟨63, 0, .ro⟩], 0, false⟩,
  ⟨.CAP_NONFINITE_TOTAL, .stack, 0x800118, 1, 8, [⟨63, 0, .ro⟩], 0, false⟩,
  ⟨.VETO_TOTAL, .stack, 0x800120, 1, 8, [⟨63, 0, .ro⟩], 0, false⟩,
  ⟨.MOM_SAT_TOTAL, .stack, 0x800128, 1, 8, [⟨63, 0, .ro⟩], 0, false⟩,
  ⟨.WORK_SAT_TOTAL, .stack, 0x800130, 1, 8, [⟨63, 0, .ro⟩], 0, false⟩,
  ⟨.WORK_FLUSH_TOTAL, .stack, 0x800138, 1, 8, [⟨63, 0, .ro⟩], 0, false⟩,
  ⟨.COMMIT_TOTAL, .stack, 0x800140, 1, 8, [⟨63, 0, .ro⟩], 0, false⟩,
  ⟨.SCHED_ETA, .stack, 0x800200, 8, 8, [⟨31, 0, .ro⟩], 0, false⟩]

/-- Register tables, part 4. -/
def regTable3 : List RegDef := [
  ⟨.SCHED_TEST_STEP, .stack, 0x800300, 1, 8, [⟨63, 0, .rw⟩], 0, false⟩,
  ⟨.SCHED_TEST_CTRL, .stack, 0x800308, 1, 8, [⟨13, 13, .rw⟩, ⟨12, 3, .rw⟩, ⟨2, 0, .rw⟩], 0, false⟩,
  ⟨.SCHED_TEST_RESULT, .stack, 0x800310, 1, 8, [⟨63, 63, .ro⟩, ⟨62, 32, .ro⟩, ⟨31, 0, .ro⟩], 0, false⟩,
  ⟨.WH_STATUS, .whip, 0x0, 1, 8, [⟨20, 16, .ro⟩, ⟨15, 12, .ro⟩, ⟨7, 0, .ro⟩], 0, true⟩,
  ⟨.WH_ERR_DETAIL, .whip, 0x8, 1, 8, [⟨63, 63, .w1c⟩, ⟨55, 48, .ro⟩, ⟨47, 40, .ro⟩, ⟨38, 24, .ro⟩, ⟨23, 0, .ro⟩], 0, false⟩,
  ⟨.BUCKET_TOTAL, .whip, 0x100, 1, 8, [⟨63, 0, .ro⟩], 0, false⟩,
  ⟨.FRAG_SENT_TOTAL, .whip, 0x108, 1, 8, [⟨63, 0, .ro⟩], 0, false⟩,
  ⟨.FRAG_RECV_TOTAL, .whip, 0x110, 1, 8, [⟨63, 0, .ro⟩], 0, false⟩,
  ⟨.CANCEL_TOTAL, .whip, 0x118, 1, 8, [⟨63, 0, .ro⟩], 0, false⟩,
  ⟨.STALE_TOTAL, .whip, 0x120, 1, 8, [⟨63, 0, .ro⟩], 0, false⟩,
  ⟨.BYTES_SENT_TOTAL, .whip, 0x128, 1, 8, [⟨63, 0, .ro⟩], 0, false⟩,
  ⟨.WH_NONFINITE_TOTAL, .whip, 0x130, 1, 8, [⟨63, 0, .ro⟩], 0, false⟩,
  ⟨.MERGE_STALL_TOTAL, .whip, 0x138, 1, 8, [⟨63, 0, .ro⟩], 0, false⟩,
  ⟨.STEP_CTRL, .mod, 0x10000, 1, 8, [⟨2, 2, .w1s⟩, ⟨1, 1, .w1s⟩, ⟨0, 0, .rw⟩], 0, false⟩,
  ⟨.STEP_STATUS, .mod, 0x10008, 1, 8, [⟨31, 16, .ro⟩, ⟨6, 6, .ro⟩, ⟨5, 5, .ro⟩, ⟨4, 4, .ro⟩, ⟨2, 0, .ro⟩], 0, true⟩,
  ⟨.LOGLINE, .mod, 0x10010, 1, 8, [⟨63, 0, .rw⟩], 0, false⟩,
  ⟨.STEP_LIMIT, .mod, 0x10018, 1, 8, [⟨63, 0, .rw⟩], 0, false⟩,
  ⟨.IMAGE_BASE, .mod, 0x10020, 1, 8, [⟨47, 0, .rw⟩], 0, false⟩,
  ⟨.IMG_LOAD_STATUS, .mod, 0x10028, 1, 8, [⟨43, 32, .ro⟩, ⟨7, 0, .ro⟩], 0, false⟩,
  ⟨.STEP_REC_HEAD, .mod, 0x10030, 1, 8, [⟨7, 0, .ro⟩], 0xff, false⟩,
  ⟨.IMAGE_MEAS, .mod, 0x10080, 8, 8, [⟨63, 0, .ro⟩], 0, false⟩,
  ⟨.STEP_TOTAL, .mod, 0x10100, 1, 8, [⟨63, 0, .ro⟩], 0, false⟩,
  ⟨.FAULT_STEP_TOTAL, .mod, 0x10108, 1, 8, [⟨63, 0, .ro⟩], 0, false⟩,
  ⟨.TIMING_NR_TOTAL, .mod, 0x10110, 1, 8, [⟨63, 0, .ro⟩], 0, false⟩,
  ⟨.MAINT_TOTAL, .mod, 0x10118, 1, 8, [⟨63, 0, .ro⟩], 0, false⟩]

/-- Register tables, part 5. -/
def regTable4 : List RegDef := [
  ⟨.HANK_STATUS, .mod, 0x10400, 1, 8, [⟨46, 32, .ro⟩, ⟨31, 18, .ro⟩, ⟨17, 11, .ro⟩, ⟨2, 2, .ro⟩, ⟨1, 0, .ro⟩], 0, true⟩,
  ⟨.ROUTE_CTRL, .mod, 0x10408, 1, 8, [⟨63, 56, .ro⟩, ⟨47, 1, .rw⟩, ⟨0, 0, .w1s⟩], 0, false⟩,
  ⟨.TICK_LATE_TOTAL, .mod, 0x10410, 1, 8, [⟨63, 0, .ro⟩], 0, false⟩,
  ⟨.ROUTE_MEAS, .mod, 0x10440, 8, 8, [⟨63, 0, .ro⟩], 0, false⟩,
  ⟨.STEP_REC, .mod, 0x11000, 1024, 8, [⟨63, 0, .ro⟩], 0, false⟩,
  ⟨.CC_STATUS, .cc, 0x0, 1, 8, [⟨34, 32, .ro⟩, ⟨31, 24, .ro⟩, ⟨13, 0, .ro⟩], 0, true⟩,
  ⟨.CC_ERR_DETAIL, .cc, 0x8, 1, 8, [⟨63, 63, .w1c⟩, ⟨39, 32, .ro⟩, ⟨13, 0, .ro⟩], 0, false⟩,
  ⟨.CC_SREG, .cc, 0x100, 32, 8, [⟨63, 0, .ro⟩], 0, true⟩,
  ⟨.CC_ISSUE_TOTAL, .cc, 0x200, 1, 8, [⟨63, 0, .ro⟩], 0, false⟩,
  ⟨.CC_WAIT_TOTAL, .cc, 0x208, 1, 8, [⟨63, 0, .ro⟩], 0, false⟩,
  ⟨.KNOT_STATUS, .knot, 0x0, 1, 8, [⟨8, 0, .ro⟩], 0, true⟩,
  ⟨.KNOT_ERR_DETAIL, .knot, 0x8, 1, 8, [⟨63, 63, .w1c⟩, ⟨62, 55, .ro⟩, ⟨54, 53, .ro⟩, ⟨52, 44, .ro⟩, ⟨43, 32, .ro⟩, ⟨31, 0, .ro⟩], 0, false⟩,
  ⟨.KNOT_HOST_OP, .knot, 0x10, 1, 8, [⟨15, 14, .wo⟩, ⟨13, 12, .wo⟩, ⟨11, 0, .wo⟩], 0, false⟩,
  ⟨.KNOT_PEEK_SEL, .knot, 0x18, 1, 8, [⟨13, 12, .rw⟩, ⟨11, 0, .rw⟩], 0, false⟩,
  ⟨.KNOT_PEEK, .knot, 0x20, 1, 8, [⟨15, 8, .ro⟩, ⟨1, 1, .ro⟩, ⟨0, 0, .ro⟩], 0, true⟩,
  ⟨.KNOT_TIMEOUT, .knot, 0x40, 4, 8, [⟨31, 0, .ro⟩], 0, false⟩,
  ⟨.TIE_TOTAL, .knot, 0x100, 1, 8, [⟨63, 0, .ro⟩], 0, false⟩,
  ⟨.REDUNDANT_TIE_TOTAL, .knot, 0x108, 1, 8, [⟨63, 0, .ro⟩], 0, false⟩,
  ⟨.REDUNDANT_UNTIE_TOTAL, .knot, 0x110, 1, 8, [⟨63, 0, .ro⟩], 0, false⟩,
  ⟨.TAKE_TOTAL, .knot, 0x118, 1, 8, [⟨63, 0, .ro⟩], 0, false⟩,
  ⟨.BARRIER_STALL_TOTAL, .knot, 0x120, 1, 8, [⟨63, 0, .ro⟩], 0, false⟩,
  ⟨.REMOTE_SENT_TOTAL, .knot, 0x128, 1, 8, [⟨63, 0, .ro⟩], 0, false⟩,
  ⟨.REMOTE_RECV_TOTAL, .knot, 0x130, 1, 8, [⟨63, 0, .ro⟩], 0, false⟩,
  ⟨.REMOTE_STALE_TOTAL, .knot, 0x138, 1, 8, [⟨63, 0, .ro⟩], 0, false⟩,
  ⟨.TIMEOUT_TOTAL, .knot, 0x140, 1, 8, [⟨63, 0, .ro⟩], 0, false⟩]

/-- Register tables, part 6. -/
def regTable5 : List RegDef := [
  ⟨.KNOT_XLATE, .knot, 0x10000, 16384, 8, [⟨63, 0, .ro⟩], 0, true⟩,
  ⟨.KNOT_ENDPOINT, .knot, 0x30000, 2048, 8, [⟨63, 0, .ro⟩], 0, true⟩,
  ⟨.KS_STATUS, .ks, 0x0, 1, 8, [⟨20, 16, .ro⟩, ⟨14, 12, .ro⟩, ⟨11, 0, .ro⟩], 0, true⟩,
  ⟨.LAY, .mod, 0x100000, 3840, 8, [⟨7, 0, .ro⟩], 0, true⟩,
  ⟨.LAY_MIG, .mod, 0x107800, 8, 8, [⟨63, 63, .ro⟩, ⟨30, 10, .ro⟩, ⟨9, 5, .ro⟩, ⟨4, 0, .ro⟩], 0, false⟩,
  ⟨.REG, .stack, 0x100, 7, 8, [⟨47, 32, .ro⟩, ⟨31, 16, .rw⟩, ⟨15, 0, .rw⟩], 0x4013c4, false⟩,
  ⟨.REG_WAIT_TOTAL, .stack, 0x200, 7, 8, [⟨63, 0, .ro⟩], 0, false⟩,
  ⟨.CH_STATUS, .stack, 0x100000, 32, 0x1000, [⟨3, 3, .ro⟩, ⟨2, 2, .ro⟩, ⟨1, 0, .ro⟩], 0, true⟩,
  ⟨.CH_CE_TOTAL, .stack, 0x100008, 32, 0x1000, [⟨63, 0, .ro⟩], 0, false⟩,
  ⟨.CH_UE_TOTAL, .stack, 0x100010, 32, 0x1000, [⟨63, 0, .ro⟩], 0, false⟩,
  ⟨.CH_BURST_TOTAL, .stack, 0x100018, 32, 0x1000, [⟨63, 0, .ro⟩], 0, false⟩,
  ⟨.POISON_LOG, .stack, 0x200000, 64, 8, [⟨63, 63, .ro⟩, ⟨30, 26, .ro⟩, ⟨25, 5, .ro⟩, ⟨4, 0, .ro⟩], 0, false⟩,
  ⟨.POISON_HEAD, .stack, 0x200200, 1, 8, [⟨5, 0, .ro⟩], 0x3f, false⟩,
  ⟨.CE_THRESH, .stack, 0x200208, 1, 8, [⟨15, 0, .rw⟩], 0x100, false⟩,
  ⟨.REFRESH_CTRL, .stack, 0x500000, 1, 8, [⟨6, 6, .ro⟩, ⟨5, 4, .ro⟩, ⟨3, 2, .rw⟩, ⟨1, 0, .rw⟩], 0x8, false⟩,
  ⟨.REFRESH_HELD_TOTAL, .stack, 0x500008, 1, 8, [⟨63, 0, .ro⟩], 0, false⟩,
  ⟨.REPAIR_CTRL, .stack, 0x600000, 1, 8, [⟨17, 17, .w1c⟩, ⟨16, 16, .w1c⟩, ⟨10, 10, .w1s⟩, ⟨9, 5, .rw⟩, ⟨4, 0, .rw⟩], 0, false⟩,
  ⟨.DMA_STATUS, .dma, 0x0, 1, 8, [⟨4, 4, .ro⟩, ⟨3, 0, .ro⟩], 0, true⟩,
  ⟨.DMA_ERR_DETAIL, .dma, 0x8, 1, 8, [⟨63, 63, .w1c⟩, ⟨55, 48, .ro⟩, ⟨31, 0, .ro⟩], 0, false⟩,
  ⟨.SCR_BANK_SPARE, .dma, 0x10, 1, 8, [⟨11, 11, .ro⟩, ⟨10, 6, .ro⟩, ⟨5, 5, .ro⟩, ⟨4, 0, .ro⟩], 0, false⟩,
  ⟨.DESC_TOTAL, .dma, 0x100, 1, 8, [⟨63, 0, .ro⟩], 0, false⟩,
  ⟨.BYTES_READ_TOTAL, .dma, 0x108, 1, 8, [⟨63, 0, .ro⟩], 0, false⟩,
  ⟨.BYTES_WRITTEN_TOTAL, .dma, 0x110, 1, 8, [⟨63, 0, .ro⟩], 0, false⟩,
  ⟨.PAD_TOTAL, .dma, 0x118, 1, 8, [⟨63, 0, .ro⟩], 0, false⟩,
  ⟨.DMA_OOB_READ_TOTAL, .dma, 0x120, 1, 8, [⟨63, 0, .ro⟩], 0, false⟩]

/-- Register tables, part 7. -/
def regTable6 : List RegDef := [
  ⟨.DMA_OOB_WRITE_TOTAL, .dma, 0x128, 1, 8, [⟨63, 0, .ro⟩], 0, false⟩,
  ⟨.DMA_REJECT_TOTAL, .dma, 0x130, 1, 8, [⟨63, 0, .ro⟩], 0, false⟩,
  ⟨.LANE_CTRL, .link, 0x0, 1, 8, [⟨23, 19, .ro⟩, ⟨18, 14, .ro⟩, ⟨13, 11, .ro⟩, ⟨10, 10, .ro⟩, ⟨9, 8, .ro⟩, ⟨3, 2, .rw⟩, ⟨1, 0, .rw⟩], 0x2008, false⟩,
  ⟨.LANE_STATUS, .link, 0x8, 1, 8, [⟨4, 0, .ro⟩], 0, false⟩,
  ⟨.LANE_FEC_TOTAL, .link, 0x10, 5, 8, [⟨63, 0, .ro⟩], 0, false⟩,
  ⟨.LINK_STATUS, .link, 0x4000, 1, 8, [⟨42, 37, .ro⟩, ⟨36, 22, .ro⟩, ⟨17, 17, .ro⟩, ⟨2, 0, .ro⟩], 0, false⟩,
  ⟨.LINK_LATENCY, .link, 0x4008, 1, 8, [⟨31, 0, .ro⟩], 0, false⟩,
  ⟨.FLIT_TX_TOTAL, .link, 0x4100, 1, 8, [⟨63, 0, .ro⟩], 0, false⟩,
  ⟨.FLIT_RX_TOTAL, .link, 0x4108, 1, 8, [⟨63, 0, .ro⟩], 0, false⟩,
  ⟨.RETRY_TOTAL, .link, 0x4110, 1, 8, [⟨63, 0, .ro⟩], 0, false⟩,
  ⟨.CRC_ERR_TOTAL, .link, 0x4118, 1, 8, [⟨63, 0, .ro⟩], 0, false⟩,
  ⟨.FEC_UNCORR_TOTAL, .link, 0x4120, 1, 8, [⟨63, 0, .ro⟩], 0, false⟩,
  ⟨.CREDIT_STALL_TOTAL, .link, 0x4128, 1, 8, [⟨63, 0, .ro⟩], 0, false⟩,
  ⟨.MISROUTE_TOTAL, .link, 0x4130, 1, 8, [⟨63, 0, .ro⟩], 0, false⟩,
  ⟨.LATE_RELEASE_TOTAL, .link, 0x4138, 1, 8, [⟨63, 0, .ro⟩], 0, false⟩,
  ⟨.DOWN_TOTAL, .link, 0x4140, 1, 8, [⟨63, 0, .ro⟩], 0, false⟩,
  ⟨.ENC_STATUS, .link, 0x8000, 1, 8, [⟨63, 32, .ro⟩, ⟨1, 1, .ro⟩, ⟨0, 0, .ro⟩], 0, false⟩,
  ⟨.AUTH_FAIL_TOTAL, .link, 0x8100, 1, 8, [⟨63, 0, .ro⟩], 0, false⟩,
  ⟨.MOD_IRQ_SUMMARY, .mod, 0x8, 1, 8, [⟨15, 8, .ro⟩, ⟨1, 1, .ro⟩, ⟨0, 0, .ro⟩], 0, true⟩,
  ⟨.MOD_DECODE_DETAIL, .mod, 0x10, 1, 8, [⟨63, 63, .w1c⟩, ⟨62, 62, .ro⟩, ⟨47, 0, .ro⟩], 0, false⟩,
  ⟨.DIE_IRQ_SUMMARY, .diec, 0x100, 1, 8, [⟨7, 0, .ro⟩], 0, true⟩,
  ⟨.DIE_IRQ_LINE_EN, .diec, 0x108, 1, 8, [⟨7, 0, .rw⟩], 0xff, false⟩,
  ⟨.DIE_IRQ_GROUP, .diec, 0x200, 8, 8, [⟨51, 32, .ro⟩, ⟨31, 28, .ro⟩, ⟨27, 27, .ro⟩, ⟨26, 26, .ro⟩, ⟨25, 25, .ro⟩, ⟨24, 24, .ro⟩, ⟨23, 0, .ro⟩], 0, true⟩,
  ⟨.CLUSTER_IRQ, .clus, 0x100, 8, 8, [⟨8, 8, .ro⟩, ⟨7, 0, .ro⟩], 0, true⟩,
  ⟨.FEED_TIED, .mod, 0x400200, 1, 8, [⟨63, 0, .ro⟩], 0, true⟩]

/-- Register tables, part 8. -/
def regTable7 : List RegDef := [
  ⟨.FEED_DUE, .mod, 0x400208, 1, 8, [⟨63, 0, .ro⟩], 0, true⟩,
  ⟨.MBOX_COMMIT, .mod, 0x400000, 64, 8, [⟨63, 16, .ro⟩, ⟨1, 1, .ro⟩, ⟨0, 0, .ro⟩], 0, false⟩,
  ⟨.CTX_CTRL, .mod, 0x200000, 4, 0x40, [⟨34, 34, .w1c⟩, ⟨33, 33, .w1s⟩, ⟨32, 32, .w1s⟩, ⟨23, 16, .ro⟩, ⟨15, 8, .rw⟩, ⟨1, 0, .ro⟩], 0, false⟩,
  ⟨.CTX_PT, .mod, 0x200008, 4, 0x40, [⟨47, 0, .rw⟩], 0, false⟩,
  ⟨.CTX_PAGES, .mod, 0x200010, 4, 0x40, [⟨17, 0, .rw⟩], 0, false⟩,
  ⟨.CTX_DRAIN, .mod, 0x200018, 4, 0x40, [⟨31, 0, .ro⟩], 0, false⟩,
  ⟨.CTX_STALE_TOTAL, .mod, 0x200020, 4, 0x40, [⟨63, 0, .ro⟩], 0, false⟩,
  ⟨.CTX_DRAIN_BOUND, .mod, 0x200100, 1, 8, [⟨31, 0, .rw⟩], 0x3e8, false⟩,
  ⟨.TETHER_LIMIT, .teth, 0x0, 1, 8, [⟨31, 0, .rw⟩], 0x2dc6c0, false⟩,
  ⟨.TETHER_STATUS, .teth, 0x8, 1, 8, [⟨4, 0, .ro⟩], 0, false⟩,
  ⟨.TETHER_TOTAL, .teth, 0x100, 1, 8, [⟨63, 0, .ro⟩], 0, false⟩,
  ⟨.CHAFE_HEAD, .diec, 0x1000, 1, 8, [⟨8, 0, .ro⟩], 0x1ff, false⟩,
  ⟨.CHAFE_TAIL, .diec, 0x1008, 1, 8, [⟨8, 0, .rw⟩], 0x1ff, false⟩,
  ⟨.CHAFE_OVF_TOTAL, .diec, 0x1010, 1, 8, [⟨63, 0, .ro⟩], 0, false⟩,
  ⟨.REL_CTRL, .diec, 0x1100, 1, 8, [⟨1, 1, .w1s⟩, ⟨0, 0, .rw⟩], 0x1, false⟩,
  ⟨.REL_STATUS, .diec, 0x1108, 1, 8, [⟨63, 60, .ro⟩, ⟨55, 31, .ro⟩, ⟨30, 30, .ro⟩], 0, false⟩,
  ⟨.SPARE_REQ, .diec, 0x1110, 1, 8, [⟨13, 13, .w1s⟩, ⟨12, 12, .rw⟩, ⟨11, 8, .rw⟩, ⟨4, 0, .rw⟩], 0, false⟩,
  ⟨.DUMP_STATUS, .diec, 0x1300, 1, 8, [⟨63, 63, .ro⟩, ⟨31, 0, .ro⟩], 0, false⟩,
  ⟨.DUMP_CTRL, .diec, 0x1308, 1, 8, [⟨1, 1, .w1s⟩, ⟨0, 0, .w1s⟩], 0, false⟩,
  ⟨.CHAFE, .diec, 0x10000, 2048, 8, [⟨63, 0, .ro⟩], 0, false⟩,
  ⟨.DUMP_WINDOW, .diec, 0x100000, 131072, 8, [⟨63, 0, .ro⟩], 0, true⟩,
  ⟨.JOURNAL_STATUS, .mod, 0x500000, 1, 8, [⟨9, 5, .ro⟩, ⟨4, 0, .ro⟩], 0, true⟩,
  ⟨.JOURNAL_ACK, .mod, 0x500008, 1, 8, [⟨4, 0, .wo⟩], 0, false⟩,
  ⟨.JOURNAL_RESUME, .mod, 0x500010, 1, 8, [⟨47, 1, .rw⟩, ⟨0, 0, .w1s⟩], 0, false⟩,
  ⟨.JOURNAL_SUBMIT, .mod, 0x500018, 1, 8, [⟨47, 1, .rw⟩, ⟨0, 0, .w1s⟩], 0, false⟩]

/-- Register tables, part 9. -/
def regTable8 : List RegDef := [
  ⟨.STATE_CTRL, .mod, 0x500020, 1, 8, [⟨2, 2, .w1c⟩, ⟨1, 1, .w1s⟩, ⟨0, 0, .w1s⟩], 0, false⟩,
  ⟨.STATE_BASE, .mod, 0x500028, 1, 8, [⟨47, 0, .rw⟩], 0, false⟩,
  ⟨.MIRROR_CTRL, .mod, 0x500030, 1, 8, [⟨63, 63, .w1s⟩, ⟨62, 62, .rw⟩, ⟨29, 14, .rw⟩, ⟨13, 0, .rw⟩], 0, false⟩,
  ⟨.MIRROR_STATUS, .mod, 0x500038, 1, 8, [⟨63, 63, .ro⟩, ⟨62, 62, .ro⟩, ⟨47, 0, .ro⟩], 0, false⟩,
  ⟨.JOURNAL_OUT, .mod, 0x501000, 1024, 8, [⟨63, 0, .ro⟩], 0, true⟩,
  ⟨.SEC_CMD, .sec, 0x0, 1, 8, [⟨63, 63, .w1s⟩, ⟨11, 8, .rw⟩, ⟨7, 0, .rw⟩], 0, false⟩,
  ⟨.SEC_STATUS, .sec, 0x8, 1, 8, [⟨8, 8, .ro⟩, ⟨7, 0, .ro⟩], 0, false⟩,
  ⟨.LIFECYCLE, .sec, 0x10, 1, 8, [⟨5, 5, .ro⟩, ⟨4, 4, .ro⟩, ⟨3, 0, .ro⟩], 0, true⟩,
  ⟨.FW_STATUS, .sec, 0x18, 1, 8, [⟨15, 8, .ro⟩, ⟨7, 4, .ro⟩, ⟨3, 2, .ro⟩, ⟨1, 0, .ro⟩], 0, true⟩,
  ⟨.OTP_STATUS, .sec, 0x20, 1, 8, [⟨29, 19, .ro⟩, ⟨18, 8, .ro⟩, ⟨7, 4, .ro⟩, ⟨3, 3, .ro⟩, ⟨2, 0, .ro⟩], 0, true⟩,
  ⟨.KEYSEL_STATUS, .sec, 0x28, 1, 8, [⟨63, 63, .ro⟩, ⟨21, 20, .ro⟩, ⟨19, 18, .ro⟩, ⟨17, 0, .ro⟩], 0, false⟩,
  ⟨.SEC_BUSY_TOTAL, .sec, 0x30, 1, 8, [⟨63, 0, .ro⟩], 0, false⟩,
  ⟨.KEY_HOLD_TOTAL, .sec, 0x38, 1, 8, [⟨63, 0, .ro⟩], 0, false⟩,
  ⟨.SEC_ARG, .sec, 0x100, 64, 8, [⟨63, 0, .rw⟩], 0, false⟩,
  ⟨.SEC_RESULT, .sec, 0x300, 64, 8, [⟨63, 0, .ro⟩], 0, false⟩,
  ⟨.PWR_STATUS, .pwr, 0x0, 1, 8, [⟨63, 48, .ro⟩, ⟨47, 32, .ro⟩, ⟨31, 16, .ro⟩, ⟨2, 0, .ro⟩], 0x1, true⟩,
  ⟨.ALERT_STATUS, .pwr, 0x8, 1, 8, [⟨7, 0, .w1c⟩], 0, false⟩,
  ⟨.VOLT_BOUND, .pwr, 0x10, 2, 8, [⟨48, 48, .ro⟩, ⟨47, 32, .ro⟩, ⟨31, 16, .rw⟩, ⟨15, 0, .rw⟩], 0x3520258, false⟩,
  ⟨.CLK_BOUND, .pwr, 0x20, 1, 8, [⟨24, 24, .ro⟩, ⟨23, 20, .ro⟩, ⟨19, 16, .ro⟩, ⟨15, 8, .rw⟩, ⟨7, 0, .rw⟩], 0xff0f0f, false⟩,
  ⟨.POWER_CAP, .pwr, 0x28, 1, 8, [⟨11, 0, .rw⟩], 0xa28, false⟩,
  ⟨.PHASE_STATUS, .pwr, 0x30, 1, 8, [⟨63, 60, .ro⟩, ⟨27, 0, .ro⟩], 0x4000000000000000, false⟩,
  ⟨.THERM_STATUS, .pwr, 0x38, 1, 8, [⟨63, 56, .ro⟩, ⟨55, 48, .ro⟩, ⟨47, 40, .ro⟩, ⟨39, 32, .ro⟩, ⟨1, 1, .ro⟩, ⟨0, 0, .ro⟩], 0, false⟩,
  ⟨.VOLT_HELD_US_TOTAL, .pwr, 0x100, 1, 8, [⟨63, 0, .ro⟩], 0, false⟩,
  ⟨.CLK_HELD_TOTAL, .pwr, 0x108, 1, 8, [⟨63, 0, .ro⟩], 0, false⟩,
  ⟨.THROTTLE_CYCLE_TOTAL, .pwr, 0x110, 1, 8, [⟨63, 0, .ro⟩], 0, false⟩]

/-- Register tables, part 10. -/
def regTable9 : List RegDef := [
  ⟨.PHASE_SHED_TOTAL, .pwr, 0x118, 1, 8, [⟨63, 0, .ro⟩], 0, false⟩,
  ⟨.CORE_STATUS, .ccause, 0x0, 1, 8, [⟨31, 0, .w1c⟩], 0, false⟩,
  ⟨.CORE_ENABLE, .ccause, 0x8, 1, 8, [⟨28, 24, .rw⟩, ⟨22, 20, .rw⟩, ⟨16, 16, .rw⟩, ⟨14, 0, .rw⟩], 0, false⟩,
  ⟨.CORE_COUNT, .ccause, 0x100, 29, 8, [⟨63, 0, .ro⟩], 0, false⟩,
  ⟨.CLUSTER_STATUS, .clus, 0x8000, 1, 8, [⟨31, 0, .w1c⟩], 0, false⟩,
  ⟨.CLUSTER_ENABLE, .clus, 0x8008, 1, 8, [⟨1, 0, .rw⟩], 0, false⟩,
  ⟨.CLUSTER_COUNT, .clus, 0x8100, 2, 8, [⟨63, 0, .ro⟩], 0, false⟩,
  ⟨.DIECTL_STATUS, .diec, 0x8000, 1, 8, [⟨31, 0, .w1c⟩], 0, false⟩,
  ⟨.DIECTL_ENABLE, .diec, 0x8008, 1, 8, [⟨21, 16, .rw⟩, ⟨14, 0, .rw⟩], 0, false⟩,
  ⟨.DIECTL_COUNT, .diec, 0x8100, 22, 8, [⟨63, 0, .ro⟩], 0, false⟩,
  ⟨.WHIP_STATUS, .whip, 0x8000, 1, 8, [⟨31, 0, .w1c⟩], 0, false⟩,
  ⟨.WHIP_ENABLE, .whip, 0x8008, 1, 8, [⟨3, 0, .rw⟩], 0, false⟩,
  ⟨.WHIP_COUNT, .whip, 0x8100, 4, 8, [⟨63, 0, .ro⟩], 0, false⟩,
  ⟨.KNOTST_STATUS, .knot, 0x8000, 1, 8, [⟨31, 0, .w1c⟩], 0, false⟩,
  ⟨.KNOTST_ENABLE, .knot, 0x8008, 1, 8, [⟨3, 0, .rw⟩], 0, false⟩,
  ⟨.KNOTST_COUNT, .knot, 0x8100, 4, 8, [⟨63, 0, .ro⟩], 0, false⟩,
  ⟨.STACK_STATUS, .stack, 0x8000, 1, 8, [⟨31, 0, .w1c⟩], 0, false⟩,
  ⟨.STACK_ENABLE, .stack, 0x8008, 1, 8, [⟨8, 0, .rw⟩], 0, false⟩,
  ⟨.STACK_COUNT, .stack, 0x8100, 9, 8, [⟨63, 0, .ro⟩], 0, false⟩,
  ⟨.LINKC_STATUS, .link, 0xC000, 1, 8, [⟨31, 0, .w1c⟩], 0, false⟩,
  ⟨.LINKC_ENABLE, .link, 0xC008, 1, 8, [⟨7, 0, .rw⟩], 0, false⟩,
  ⟨.LINKC_COUNT, .link, 0xC100, 8, 8, [⟨63, 0, .ro⟩], 0, false⟩,
  ⟨.MODC_STATUS, .mod, 0x8000, 1, 8, [⟨31, 0, .w1c⟩], 0, false⟩,
  ⟨.MODC_ENABLE, .mod, 0x8008, 1, 8, [⟨15, 0, .rw⟩], 0, false⟩,
  ⟨.MODC_COUNT, .mod, 0x8100, 16, 8, [⟨63, 0, .ro⟩], 0, false⟩]

/-- Every register of the module, in the order of the chapters. -/
def regTable : List RegDef :=
  regTable0 ++ regTable1 ++ regTable2 ++ regTable3 ++ regTable4 ++ regTable5 ++ regTable6 ++ regTable7 ++ regTable8 ++ regTable9

/-- The row of a register: the table lists the names in the order of their declaration. -/
def regDef (n : RegName) : RegDef := (regTable[n.ctorIdx]?).getD ⟨n, .none, 0, 1, 8, [], 0, false⟩

end Sys2Proof.Machine
end

