-- ==== Sys2Proof/Machine/State.lean ====
section
/-! DEFINITION. The state of the module: the command queue, the register file, every unit, memory. Plain data. Also the reasons a command can stop, and the state after reset. -/

namespace Sys2Proof.Machine

/-- Reasons the machine stops with a fault. -/
inductive Fault where
  /-- Raised by any command that names a part which 00 R2 does not number (core 384, die 2, link 40, ...): no such event exists. Safe: the model stops where no hardware event corresponds. -/
  | noSuchPart
deriving DecidableEq, Repr

/-- Reasons a command has no meaning. -/
inductive Refusal where
  /-- Raised by a dispatch arm whose command has no meaning yet. Safe. -/
  | notModelled (mnemonic : String)
deriving DecidableEq, Repr

/-- The whole machine. `pending` is the queue of waiting commands, oldest first. `regs` lists the registers written since they last took their reset value. `hbm` and `scratch` are memories in canonical form (see Ops). `waiting` holds messages that have arrived and that memory does not take yet, oldest first. -/
structure State where
  pending : List Instr := []
  clock : Nat := 0
  free : Nat := 0
  out : List OutMsg := []
  hostReply : List Nat := []
  regs : List (RegId × W64) := []
  cores : SMap Core := []
  knots : SMap KnotStore := []
  ctxs : SMap Ctx := []
  hbm : List Host.Cell := []
  scratch : List Host.Cell := []
  poison : List Nat := []
  mem : MemSys := {}
  step : StepCtl := {}
  job : Job := {}
  siteMax : SMap Fl := []
  sitePend : SMap Fl := []
  clusterMap : SMap W64 := []
  whips : SMap Whip := []
  caps : SMap Cap := []
  wMax : SMap Fl := []
  wPend : SMap Fl := []
  plan : Plan := {}
  route : RouteSec := {}
  hank : Hank := {}
  links : SMap LinkSt := []
  sec : Sec := {}
  journal : Journal := {}
  mirror : List MirRx := []
  rel : SMap DieRel := []
  pwr : Power := {}
  load : Option LoadJob := none
  hostOut : List HostAccess := []
  i3c : List (List Byte) := []
  waiting : List Instr := []
  stackReset : SMap Nat := []
deriving DecidableEq, Repr

/-- The outcome type of every meaning. -/
abbrev Out := Host.Outcome State Fault Refusal

/-- The module right after reset. -/
def State.reset : State := {}

end Sys2Proof.Machine
end

