-- ==== Sys2Proof/Machine/RegOps.lean ====
section
/-! DEFINITION. The register file and the units of State: reading and writing them. -/

namespace Sys2Proof.Machine

/- Registers (00 R9–R12). -/

/-- ENABLE bits that a chapter resets to 0, per leaf block: VEC_EMPTY_ROW, WH_STALE, KNOT_STALE, LINK_RETRY, STEP_TIMING_NR, and the die controller's VOLT_HELD and CLK_HELD (15 R384). -/
def enableReset : RegName → Nat
  | .CORE_ENABLE => 0x1F717FFF - 0x800
  | .CLUSTER_ENABLE => 0x3
  | .DIECTL_ENABLE => 0x3F7FFF - 0x6000
  | .WHIP_ENABLE => 0xB
  | .KNOTST_ENABLE => 0x7
  | .STACK_ENABLE => 0x1FF
  | .LINKC_ENABLE => 0xFF - 0x20
  | .MODC_ENABLE => 0xFFFF - 0x10
  | _ => 0

/-- Reset value of a stored register. -/
def regReset (n : RegName) : W64 := w64 ((regDef n).reset + enableReset n)

/-- A listed value of the register file, if any. -/
def regLook (l : List (RegId × W64)) (id : RegId) : Option W64 :=
  match l with
  | [] => none
  | (k, v) :: t => if k = id then some v else regLook t id

/-- Replaces or adds a listed value. -/
def regPut (l : List (RegId × W64)) (id : RegId) (v : W64) : List (RegId × W64) :=
  match l with
  | [] => [(id, v)]
  | (k, v') :: t => if k = id then (id, v) :: t else (k, v') :: regPut t id v

/-- The stored value of a register: its reset value until something writes it. -/
def State.reg (s : State) (id : RegId) : W64 := (regLook s.regs id).getD (regReset id.name)

/-- Writes a stored register. -/
def State.setReg (s : State) (id : RegId) (v : W64) : State := { s with regs := regPut s.regs id v }

/-- A register of the module without index. -/
def rid (n : RegName) (p : Part) (i : Nat := 0) : RegId := ⟨n, p, i⟩

/-- Adds `k` to a 64-bit saturating total. -/
def State.bump (s : State) (id : RegId) (k : Nat) : State :=
  if k = 0 then s else s.setReg id (satAdd (s.reg id) k)

/-- Writes a field of a stored register. -/
def State.setRegFld (s : State) (id : RegId) (hi lo v : Nat) : State := s.setReg id (setFld (s.reg id) hi lo v)

/-- Records an event in a first-event detail register unless VALID (bit 63) is 1 (15 R483). The flag says whether it was recorded. -/
def State.detail (s : State) (id : RegId) (v : W64) : State :=
  if bit (s.reg id) 63 then s else s.setReg id (setFld v 63 63 1)

/- Units. -/

/-- State of logical core n. -/
def State.core (s : State) (n : Nat) : Core := sget s.cores {} n

/-- Replaces the state of logical core n. -/
def State.setCore (s : State) (n : Nat) (c : Core) : State := { s with cores := sset s.cores n c }

/-- Applies a function to the state of core n. -/
def State.onCore (s : State) (n : Nat) (f : Core → Core) : State := s.setCore n (f (s.core n))

/-- Die of a logical core (00 R2). -/
def coreDie (n : Nat) : Nat := n / 192
/-- Cluster of a logical core within its die (00 R2). -/
def coreCluster (n : Nat) : Nat := n % 192 / 8
/-- Core within its cluster (00 R2). -/
def coreIdx (n : Nat) : Nat := n % 8

/-- Context of a logical core under the image in force. -/
def State.ctxOf (s : State) (n : Nat) : Nat := sget s.job.ctxOf 0 n

/-- A context's record. -/
def State.ctx (s : State) (c : Nat) : Ctx := sget s.ctxs {} c

/-- What the image assigns to context c is in use: c is ACTIVE and has not been torn down since the load (15 R400). -/
def State.live (s : State) (c : Nat) : Bool := decide ((s.ctx c).state = .active) && !s.job.inert.contains c

/-- Logical cores that run a stream: those of a live context (R270, R400). -/
def State.usedCores (s : State) : List Nat := s.job.used.filter fun n => s.live (s.ctxOf n)

/-- A die's knot store. -/
def State.knot (s : State) (d : Nat) : KnotStore := sget s.knots {} d

/-- Replaces a die's knot store. -/
def State.setKnot (s : State) (d : Nat) (k : KnotStore) : State := { s with knots := sset s.knots d k }

/-- The Capstan of a stack. -/
def State.cap (s : State) (st : Nat) : Cap := sget s.caps {} st
/-- Applies a function to a Capstan. -/
def State.onCap (s : State) (st : Nat) (f : Cap → Cap) : State := { s with caps := sset s.caps st (f (s.cap st)) }

/-- LOGLINE: the step s. -/
def State.logline (s : State) : Nat := (s.reg (rid .LOGLINE .module)).toNat

/-- The step controller is HELD. -/
def State.isHeld (s : State) : Bool := decide (s.step.state = .held)

/-- Core cycles per management cycle: the clock multiplier k in force (01 R30, 18 R468). -/
def State.clkK (s : State) : Nat := fld (s.reg (rid .CLK_BOUND .module)) 19 16

end Sys2Proof.Machine
end

