-- ==== Sys2Proof/Machine/LinkOps.lean ====
section
/-! DEFINITION. The link layer's sending side (13 R343–R349, R353): flits, credits, replay buffer, routes; and the one operation by which every unit sends a message. -/

namespace Sys2Proof.Machine

/-- The state of a link. -/
def State.link (s : State) (h : Nat) : LinkSt := sget s.links {} h
/-- Replaces the state of a link. -/
def State.setLink (s : State) (h : Nat) (l : LinkSt) : State := { s with links := sset s.links h l }
/-- Link register. -/
def linkR (n : RegName) (h : Nat) (i : Nat := 0) : RegId := rid n (.link h) i

/-- LINK_STATUS.STATE. -/
def State.linkState (s : State) (h : Nat) : Nat := fld (s.reg (linkR .LINK_STATUS h)) 2 0
/-- The link is up. -/
def State.linkUp (s : State) (h : Nat) : Bool := s.linkState h = 2
/-- ENC_EN of the link (R353). -/
def State.linkEnc (s : State) (h : Nat) : Bool := bit (s.reg (linkR .ENC_STATUS h)) 0
/-- KEY_PHASE in use for transmission. -/
def State.linkPhase (s : State) (h : Nat) : Nat := fld (s.reg (linkR .ENC_STATUS h)) 1 1
/-- SESSION agreed at training. -/
def State.linkSession (s : State) (h : Nat) : Nat := fld (s.reg (linkR .ENC_STATUS h)) 63 32

/-- One bit of the reflected CRC-32. -/
def crcBit (c : Nat) : Nat := if c % 2 = 1 then (c / 2) ^^^ 0xEDB88320 else c / 2
/-- One byte of the reflected CRC-32. -/
def crcByte (c : Nat) (b : Byte) : Nat := (List.range 8).foldl (fun c _ => crcBit c) (c ^^^ b.toNat)
/-- CRC-32 of IEEE 802.3 (R343). -/
def crc32 (bs : List Byte) : Nat := bs.foldl crcByte 0xFFFFFFFF ^^^ 0xFFFFFFFF

/-- The first `n` of a byte list, filled with zeros. -/
def padTo (n : Nat) (bs : List Byte) : List Byte := bs.take n ++ List.replicate (n - bs.length) 0

/-- Header word of a flit (R343). -/
def flitHead (seq ack vc kind : Nat) (nak first last : Bool) (crVc crCount phase : Nat) : Nat :=
  seq % 4096 + ack % 4096 * 2 ^ 12 + 2 ^ 24 + b01 nak * 2 ^ 25 + vc * 2 ^ 26 + kind * 2 ^ 28
    + b01 first * 2 ^ 30 + b01 last * 2 ^ 31 + crVc * 2 ^ 32 + crCount % 256 * 2 ^ 34 + phase * 2 ^ 42

/-- The 32-byte key of a link direction and phase (17 R455); direction 0 is sent by the end with the lower SLOT_ID. -/
def State.linkKey (s : State) (h phase : Nat) (tx : Bool) : List Byte :=
  let st := s.reg (linkR .LINK_STATUS h)
  let me := leBytes 2 s.route.slotId ++ leBytes 1 h
  let peer := leBytes 2 (fld st 36 22) ++ leBytes 1 (fld st 42 37)
  let lower := decide (s.route.slotId < fld st 36 22)
  let ends := if lower then me ++ peer else peer ++ me
  hkdf (sget s.sec.secrets [] phase) (leBytes 8 s.job.jobId ++ leBytes 4 (s.linkSession h))
    ([0x48, 0x41, 0x57, 0x53, 0x45, 0x52] ++ ends ++ leBytes 1 (b01 (lower != tx)) ++ leBytes 1 phase) 32

/-- Payload bytes a flit of the link carries (R343, R353). -/
def State.flitCap (s : State) (h : Nat) : Nat := if s.linkEnc h then 228 else 244

/-- Puts a flit on the wire: encrypted where the link is, with its CRC (R343, R353). -/
def State.wireFlit (s : State) (h head : Nat) (data : List Byte) : State × List Byte :=
  let l := s.link h
  let hb := leBytes 8 head
  let pay := if s.linkEnc h
    then gcmSeal (s.linkKey h (s.linkPhase h) true) (s.linkSession h) l.sent hb (padTo 228 data)
    else data
  let b := hb ++ padTo 244 pay
  let bs := b ++ leBytes 4 (crc32 b)
  let s := (s.setLink h { l with sent := l.sent + 1 }).bump (linkR .FLIT_TX_TOTAL h) 1
  ({ s with out := s.out ++ [.flit h bs] }, bs)

/-- Last SEQ received in order. -/
def LinkSt.ack (l : LinkSt) : Nat := (l.rxSeq + 4095) % 4096

/-- A control flit: acknowledgement, credits, or NAK (R343–R345). -/
def State.sendControl (s : State) (h : Nat) (nak : Bool) (crVc crCount : Nat) : State :=
  if s.linkUp h then
    (s.wireFlit h (flitHead 0 (s.link h).ack 0 2 nak false false crVc crCount (s.linkPhase h)) []).1
  else s

/-- A message can give its next flit: a full one with more to come, or its last (R346, R349). -/
def TxMsg.ready (m : TxMsg) (cap : Nat) : Bool := m.whole || decide (cap < m.bytes.length) || (decide (cap ≤ m.bytes.length) && decide (0 < m.left))

/-- A VC has a flit ready and a credit for it (R345): its oldest message's, so that no other message's flits come between (R346). -/
def LinkSt.canSend (l : LinkSt) (cap vc : Nat) : Bool :=
  ((nth l.queues [] vc).head?.any fun m => m.ready cap) && decide (0 < nth l.credits 0 vc)

/-- The VC that the sender serves next (R345): management, knot/control, then data and exchange in turn. -/
def LinkSt.nextVc (l : LinkSt) (cap : Nat) : Option Nat :=
  if l.canSend cap 3 then some 3
  else if l.canSend cap 0 then some 0
  else
    let a := if l.turn then 2 else 1
    if l.canSend cap a then some a else if l.canSend cap (3 - a) then some (3 - a) else none

/-- A die's remote queue is full: no credits go back on the knot/control channel (11 R294). -/
def State.knotShut (s : State) : Bool := [0, 1].any fun d => decide (256 ≤ (s.knot d).queue.length) || !(s.knot d).door.isEmpty

/-- Returns credits for n freed buffers of a VC, at most 255 to a flit; those of the knot channel are held back while it is shut. -/
def State.giveCredits (s : State) (h vc n : Nat) : State :=
  if vc = 0 && s.knotShut then let l := s.link h; s.setLink h { l with owed := l.owed + n }
  else
    let s := if 0 < n then s.sendControl h false vc (min n 255) else s
    if 255 < n then s.sendControl h false vc (min (n - 255) 255) else s

/-- Returns the credits held back, once there is room. -/
def State.payCredits (s : State) : State :=
  (List.range 40).foldl (fun s h =>
    let n := (s.link h).owed
    if n = 0 || s.knotShut then s else (s.setLink h { s.link h with owed := 0 }).giveCredits h 0 n) s

/-- Receive buffers that n sent bytes free: how many, and what is left of the others. -/
def eatBufs : Nat → List Nat → Nat × List Nat
  | _, [] => (0, [])
  | n, b :: t => if b ≤ n then let r := eatBufs (n - b) t; (r.1 + 1, r.2) else (0, (b - n) :: t)

/-- A message's next flit under a payload capacity: FIRST, LAST, payload, buffers freed at its source, and what remains of it. -/
def TxMsg.take (m : TxMsg) (cap : Nat) : Bool × Bool × List Byte × Nat × TxMsg :=
  let data := m.bytes.take cap
  let last := m.whole && decide (m.bytes.length ≤ cap)
  let r := if last then (m.bufs.length, []) else eatBufs data.length m.bufs
  (!m.begun, last, data, r.1, { m with bytes := m.bytes.drop cap, begun := true, bufs := r.2 })

/-- Time in ns that a message passing through has taken: the latency of the link crossed and its time here (R355). -/
def State.passed (s : State) (m : TxMsg) : Nat := m.lat + 5 * (s.clock - m.since)

/-- A flit's bytes as they leave: a knot/control message of one flit that passes through has its ELAPSED raised, if it is a TICK (R355). -/
def State.passData (s : State) (vc : Nat) (m : TxMsg) (alone : Bool) (data : List Byte) : List Byte :=
  if alone && vc = 0 && m.src.isSome then data.take 16 ++ Config.addElapsed (s.passed m) (data.drop 16) else data

/-- Sends one data flit of a VC against a credit, keeping it for replay (R344, R345); a message passed on frees the buffers it came from. -/
def State.sendData (s : State) (h vc : Nat) : State :=
  let l := s.link h
  match nth l.queues [] vc with
  | [] => s
  | m :: rest =>
    let f := m.take (s.flitCap h)
    let l := { l with queues := l.queues.set vc (if f.2.1 then rest else f.2.2.2.2 :: rest), credits := l.credits.set vc (nth l.credits 0 vc - 1)
                      turn := if vc = 1 then true else if vc = 2 then false else l.turn, txSeq := (l.txSeq + 1) % 4096 }
    let seq := (l.txSeq + 4095) % 4096
    let r := (s.setLink h l).wireFlit h (flitHead seq l.ack vc 1 false f.1 f.2.1 0 0 (s.linkPhase h)) (s.passData vc m (f.1 && f.2.1) f.2.2.1)
    let l := r.1.link h
    let s := r.1.setLink h { l with replay := l.replay ++ [r.2] }
    match m.src with
    | some g => s.giveCredits g vc f.2.2.2.1
    | none => s

/-- Sends what credits and the replay buffer allow. -/
def State.pumpGo : Nat → State → Nat → State
  | 0, s, _ => s
  | n + 1, s, h =>
    let l := s.link h
    if !s.linkUp h || decide (256 ≤ l.replay.length) then s
    else match l.nextVc (s.flitCap h) with
      | none => s
      | some vc => State.pumpGo n (s.sendData h vc) h

/-- Sends every waiting flit of a link that may go. -/
def State.pump (s : State) (h : Nat) : State :=
  State.pumpGo (((s.link h).queues.map fun q => (q.map fun m => m.bytes.length / s.flitCap h + 1).sum).sum) s h

/-- Puts a message on a VC's queue of a link, and sends what may go. -/
def State.enqueue (s : State) (h vc : Nat) (m : TxMsg) : State :=
  let l := s.link h
  (s.setLink h { l with queues := l.queues.set vc (nth l.queues [] vc ++ [m]) }).pump h

/-- Route entries that a message of a set takes: the one for its member, or every one in order (R348). -/
def RouteSec.entriesOf (r : RouteSec) (set : Nat) (dest : Option Nat) : List W64 :=
  let e := nth r.sets 0 set
  let es := ((r.entries.drop (fld e 15 0)).take (fld e 30 16))
  if r.sets.length ≤ set then [] else
  match dest with
  | some d => es.filter fun x => fld x 55 42 = d
  | none => es

/-- Members that a route set reaches. -/
def RouteSec.dests (r : RouteSec) (set : Nat) : List Nat := (r.entriesOf set none).map fun e => fld e 55 42

/-- RELEASE of a route set, in ns (R351). -/
def RouteSec.release (r : RouteSec) (set : Nat) : Nat := fld (nth r.sets 0 set) 55 32

/-- The route set by which an acknowledgement goes back to a member: the first that reaches it; the spec names none (DESIGN CHOICE, log 127). -/
def RouteSec.setTo (r : RouteSec) (member : Nat) : Option Nat := (List.range r.sets.length).find? fun k => (r.dests k).contains member

/-- Words of the message header (R348); HOP already names the hop after the first. SEND_TIME is the beat of the step timebase, and the core cycle within it. -/
def State.msgHead (s : State) (e : W64) (ctx len : Nat) : List Byte :=
  let beat := (s.clock - s.step.runAt) % 2 ^ 28 + Config.coreCycle s.clock s.out.length % max s.clkK 1 % 16 * 2 ^ 28
  leBytes 8 (fld e 41 0 + 2 ^ 42 + fld e 55 42 * 2 ^ 45) ++ leBytes 8 (s.job.member % 2 ^ 14 + len % 2 ^ 16 * 2 ^ 14 + ctx % 4 * 2 ^ 30 + beat * 2 ^ 32)

/-- Splits what a unit sends into message bodies of at most 62,448 bytes, each with the unit's own header (R348). -/
def splitBody (head : Nat → List Byte) : Nat → Nat → List Byte → List (List Byte)
  | 0, _, _ => []
  | f + 1, i, data =>
    let h := head i
    let n := max 1 (62448 - h.length)
    (h ++ data.take n) :: (if (data.drop n).isEmpty then [] else splitBody head f (i + 1) (data.drop n))

/-- All of it. -/
def bodiesOf (head : Nat → List Byte) (data : List Byte) : List (List Byte) := splitBody head (data.length + 1) 0 data

/-- Sends message bodies over a route set (R348). -/
def State.sendBodies (s : State) (set : Nat) (dest : Option Nat) (vc ctx : Nat) (bodies : List (List Byte)) : State :=
  (s.route.entriesOf set dest).foldl (fun s e =>
    let h := fld e 5 0
    if 40 ≤ h then s else
    bodies.foldl (fun s b => s.enqueue h vc { bytes := s.msgHead e ctx b.length ++ b }) s) s

/-- Fields of a summary as numbers, for a body without a layout in the spec. -/
def summaryNums (m : Summary) : List Nat :=
  m.storm ++ m.calm ++ (m.sites.map fun p => p.2.toNat) ++ (m.weights.map fun p => p.2.toNat) ++ m.vetoes ++ [m.tnr, b01 m.fault]

/-- A fragment header's bytes (09 R247). -/
def headBytes (h0 h1 h2 h3 : W64) : List Byte := leBytes 8 h0.toNat ++ leBytes 8 h1.toNat ++ leBytes 8 h2.toNat ++ leBytes 8 h3.toNat

/-- Where a message travels: route set, destination (none: every entry), VC, context (R345, R348). -/
structure Way where
  set : Nat
  dest : Option Nat
  vc : Nat
  ctx : Nat
deriving DecidableEq, Repr

/-- The way of an acknowledgement to a member (R345). -/
def RouteSec.ackWay (r : RouteSec) (member ctx : Nat) : Option Way := (r.setTo member).map fun k => { set := k, dest := some member, vc := 1, ctx := ctx }

/-- How a message travels, if it does on the links. -/
def OutMsg.way (r : RouteSec) : OutMsg → Option Way
  | .knot k m _ o => some ⟨k, some m, 0, o.ctx⟩
  | .frag k d m => some ⟨k, d, 2, fld m.h3 9 8⟩
  | .dense k d m => some ⟨k, some d, 2, fld m.h3 9 8⟩
  | .cell k d m => some ⟨k, some d, 2, fld m.h3 9 8⟩
  | .peer k m c _ _ => some ⟨k, some m, 1, c⟩
  | .peerAck m => r.ackWay m 0
  | .ready k m _ _ => some ⟨k, some m, 0, 0⟩
  | .tick k d _ _ _ _ => some ⟨k, d, 0, 0⟩
  | .summary k m _ => some ⟨k, some m, 0, 0⟩
  | .commit k _ _ _ _ => some ⟨k, none, 0, 0⟩
  | .abort k _ _ => some ⟨k, none, 0, 0⟩
  | .reissue k _ _ => some ⟨k, none, 0, 0⟩
  | .report k m _ => some ⟨k, some m, 3, 0⟩
  | .beat k d _ _ => some ⟨k, d, 3, 0⟩
  | .mirror k d m => some ⟨k, some d, 1, m.ctx⟩
  | .mirrorAck m => r.ackWay m 0
  | .restore k d m => some ⟨k, some d, 1, m.ctx⟩
  | .phase _ _ => none
  | .flit _ _ => none
  | .train _ _ _ _ _ _ => none

/-- The bodies of a message: one, or several where it is too long for one (R348). Bodies to which the spec gives no layout are uninterpreted. -/
def OutMsg.bodies : OutMsg → List (List Byte)
  | .knot _ _ die o => [Config.msgBody [1, die, b01 o.tie, o.ctx, o.knot, o.gen, o.step, o.attempt, o.srcMember, o.srcCore]]
  | .frag _ _ m => [headBytes m.h0 m.h1 m.h2 m.h3 ++ m.payload]
  | .dense _ _ m => [headBytes m.h0 m.h1 (w64 m.vals.length) m.h3 ++ Config.msgBody (2 :: m.chunk :: b01 m.second :: m.off :: m.vals)]
  | .cell _ _ m => [headBytes m.h0 m.h1 m.h2 m.h3 ++ m.cells.flatten]
  | .peer _ _ _ g runs => (runs.map fun r => bodiesOf (fun i => Config.msgBody [3, g, r.1, i]) r.2).flatten
  | .peerAck m => [Config.msgBody [12, m]]
  | .ready _ _ st at_ => [Config.msgBody [4, st, at_]]
  | .tick _ _ st at_ h el => [Config.msgBody [5, st, at_, b01 h, el]]
  | .summary _ _ x => bodiesOf (fun i => Config.msgBody [6, i]) (Config.msgBody (summaryNums x))
  | .commit _ st at_ x k => bodiesOf (fun i => Config.msgBody [7, i, st, at_, k]) (Config.msgBody (summaryNums x))
  | .abort _ st at_ => [Config.msgBody [8, st, at_]]
  | .reissue _ st at_ => [Config.msgBody [9, st, at_]]
  | .report _ _ ws => [Config.msgBody (10 :: ws.map BitVec.toNat)]
  | .beat _ _ k b => [Config.msgBody [11, k, b01 b]]
  | .mirror _ _ m => bodiesOf (fun i => Config.msgBody [13, i, m.step, m.attempt, b01 m.exch, m.unit, m.rcd, m.off, m.wt, b01 m.final, m.gen]) m.bytes
  | .mirrorAck m => [Config.msgBody [15, m]]
  | .restore _ _ m => bodiesOf (fun i => Config.msgBody [14, i, m.step, b01 m.exch, m.unit, m.rcd, m.off, m.wt, b01 m.final, m.gen]) m.bytes
  | .phase _ _ => []
  | .flit _ _ => []
  | .train _ _ _ _ _ _ => []

/-- The member to which a module reports: its manager, a manager's root, the root itself (13 R354). -/
def State.upward (s : State) : Nat :=
  if s.job.role = 0 then s.route.manager else if s.job.role = 1 then s.route.root else s.job.member

/-- Sends a message: it leaves the module, in flits where its route set has a way. -/
def State.send (s : State) (m : OutMsg) : State :=
  let s := { s with out := s.out ++ [m] }
  match m.way s.route with
  | none => s
  | some w => s.sendBodies w.set w.dest w.vc w.ctx m.bodies

end Sys2Proof.Machine
end

