-- ==== Sys2Proof/Machine/Ops.lean ====
section
/-! DEFINITION. The named operations over causes, logs and memory that every meaning uses. -/

namespace Sys2Proof.Machine

/- Causes (15 R383–R389, 16 R405, R419, R420). -/

/-- Interrupt groups in the order of 00 R14. -/
inductive Group where
  | compute | sync | memory | link | reliability | powerThermal | security | step
deriving DecidableEq, Repr

/-- Group number, as DIE_IRQ_SUMMARY numbers it. -/
def Group.num : Group → Nat
  | .compute => 0
  | .sync => 1
  | .memory => 2
  | .link => 3
  | .reliability => 4
  | .powerThermal => 5
  | .security => 6
  | .step => 7

/-- The leaf block kinds of 15 R384. -/
inductive Leaf where
  | core | cluster | dieCtl | whip | knot | stack | link | mod
deriving DecidableEq, Repr

/-- Leaf block of a part. -/
def leafOf : Part → Leaf
  | .core _ => .core
  | .ply _ _ => .core
  | .cluster _ _ => .cluster
  | .dieCtl _ => .dieCtl
  | .whip _ => .whip
  | .fabric _ => .dieCtl
  | .knotStore _ => .knot
  | .stack _ => .stack
  | .link _ => .link
  | .module => .mod

/-- STATUS register of a leaf block. -/
def Leaf.status : Leaf → RegName
  | .core => .CORE_STATUS
  | .cluster => .CLUSTER_STATUS
  | .dieCtl => .DIECTL_STATUS
  | .whip => .WHIP_STATUS
  | .knot => .KNOTST_STATUS
  | .stack => .STACK_STATUS
  | .link => .LINKC_STATUS
  | .mod => .MODC_STATUS

/-- ENABLE register of a leaf block. -/
def Leaf.enable : Leaf → RegName
  | .core => .CORE_ENABLE
  | .cluster => .CLUSTER_ENABLE
  | .dieCtl => .DIECTL_ENABLE
  | .whip => .WHIP_ENABLE
  | .knot => .KNOTST_ENABLE
  | .stack => .STACK_ENABLE
  | .link => .LINKC_ENABLE
  | .mod => .MODC_ENABLE

/-- COUNT registers of a leaf block. -/
def Leaf.count : Leaf → RegName
  | .core => .CORE_COUNT
  | .cluster => .CLUSTER_COUNT
  | .dieCtl => .DIECTL_COUNT
  | .whip => .WHIP_COUNT
  | .knot => .KNOTST_COUNT
  | .stack => .STACK_COUNT
  | .link => .LINKC_COUNT
  | .mod => .MODC_COUNT

/-- Group of each cause bit (15 R387, R388; the cause tables of 06, 08–10, 12, 13, 16–18). -/
def causeGroup : Leaf → Nat → Group
  | .core, b => if b < 16 then .compute else if b = 16 then .step else .reliability
  | .cluster, b => if b = 0 then .memory else .reliability
  | .dieCtl, b => if b ≤ 7 then .reliability else if b ≤ 15 then .powerThermal else .security
  | .whip, b => if b = 0 then .compute else if b = 2 then .link else .reliability
  | .knot, _ => .sync
  | .stack, b => if b ≤ 1 then .compute else if b = 2 then .step else if b = 4 ∨ b = 8 then .reliability
      else if b = 7 then .powerThermal else .memory
  | .link, b => if b = 0 then .reliability else if b = 7 then .security else .link
  | .mod, b => if b = 0 then .memory else if b = 2 ∨ b = 9 ∨ b = 11 then .security
      else if b = 1 ∨ b = 3 ∨ b = 4 ∨ b = 6 then .step else .reliability

/-- Causes that are faults by themselves (16 R405). KNOT_ACCESS depends on its source and LINK_DOWN on the routes in use; neither is listed. -/
def causeFault : Leaf → Nat → Bool
  | .core, b => decide (20 ≤ b)
  | .cluster, b => b = 1
  | .dieCtl, b => b = 7 || b = 9 || b = 12
  | .whip, b => b = 1 || b = 3
  | .knot, b => b = 0 || b = 2
  | .stack, b => b = 4 || b = 8
  | .link, _ => false
  | .mod, b => b = 5 || b = 7

/-- The die whose controller logs a part's causes (16 R419): module control is die A's. -/
def partDie : Part → Nat
  | .module => 0
  | .core n => coreDie n
  | .ply n _ => coreDie n
  | .cluster d _ => d
  | .dieCtl d => d
  | .whip d => d
  | .fabric d => d
  | .knotStore d => d
  | .stack s => s / 4
  | .link h => h / 20

/-- CLUSTER_MAP entry in force for logical cluster l of die d (01 R22). -/
def State.clusterEntry (s : State) (d l : Nat) : W64 := sget s.clusterMap (w64 (l + 0x7654321000)) (d * 24 + l)

/-- Physical cluster and core behind a logical core (01 R22). -/
def State.physCore (s : State) (n : Nat) : Nat × Nat :=
  let e := s.clusterEntry (coreDie n) (coreCluster n)
  (fld e 4 0, fld e (11 + 4 * coreIdx n) (8 + 4 * coreIdx n))

/-- The core's physical cluster is fenced: no access reaches it (16 R413). -/
def State.coreFenced (s : State) (n : Nat) : Bool := (sget s.rel {} (coreDie n)).fenced.contains (s.physCore n).1

/-- SOURCE, INDEX, PHYS_CLUSTER and PHYS_CORE of a chafe entry. -/
def State.chafeSource (s : State) : Part → Nat × Nat × Nat × Nat
  | .core n => let p := s.physCore n; (0, n, p.1, p.2)
  | .ply n _ => let p := s.physCore n; (0, n, p.1, p.2)
  | .cluster d c => (1, d * 24 + c, fld (s.clusterEntry d c) 4 0, 0)
  | .dieCtl d => (2, d, 0, 0)
  | .fabric d => (2, d, 0, 0)
  | .whip d => (3, d, 0, 0)
  | .knotStore d => (4, d, 0, 0)
  | .stack n => (5, n, 0, 0)
  | .link h => (6, h, 0, 0)
  | .module => (7, 0, 0, 0)

/-- The four words of a chafe entry (16 R419). -/
def State.chafeWords (s : State) (source cause group pc pk index ctx : Nat) (det : W64) : List W64 :=
  [ w64 s.clock
  , w64 (s.logline % 2 ^ 48 + s.step.attempt * 2 ^ 48)
  , w64 (source + cause * 2 ^ 4 + group * 2 ^ 12 + pc * 2 ^ 15 + pk * 2 ^ 20 + index % 512 * 2 ^ 24 + ctx % 4 * 2 ^ 33 + 2 ^ 63)
  , det ]

/-- Unretired entries of a die's chafe log (16 R420). -/
def State.chafeUsed (s : State) (d : Nat) : Nat :=
  let h := fld (s.reg (rid .CHAFE_HEAD (.dieCtl d))) 8 0
  let t := fld (s.reg (rid .CHAFE_TAIL (.dieCtl d))) 8 0
  (h + 512 - t) % 512 + (if bit (s.reg (rid .CHAFE_HEAD (.dieCtl d))) 9 then 512 else 0)

/-- Sets a cause bit and counts the occurrence, with no log entry (15 R384, R386). -/
def State.setCause (s : State) (p : Part) (b : Nat) : State :=
  let l := leafOf p
  let s := s.setReg (rid l.status p) (s.reg (rid l.status p) ||| w64 (2 ^ b))
  s.bump (rid l.count p b) 1

/-- Stores a chafe entry at CHAFE_HEAD + 1, or counts it lost when 512 entries are unretired (16 R420); the first loss raises CHAFE_FULL. Bit 9 of the stored head marks the full log, bit 10 that CHAFE_FULL was raised since. -/
def State.chafe (s : State) (d : Nat) (ws : List W64) : State :=
  let hid := rid .CHAFE_HEAD (.dieCtl d)
  if s.chafeUsed d = 512 then
    let s := s.bump (rid .CHAFE_OVF_TOTAL (.dieCtl d)) 1
    if bit (s.reg hid) 10 then s
    else (s.setRegFld hid 10 10 1).setCause (.dieCtl d) 0
  else
    let i := (fld (s.reg hid) 8 0 + 1) % 512
    let s := (ws.zipIdx).foldl (fun s p => s.setReg (rid .CHAFE (.dieCtl d) (4 * i + p.2)) p.1) s
    let s := s.setRegFld hid 8 0 i
    if i = fld (s.reg (rid .CHAFE_TAIL (.dieCtl d))) 8 0 then s.setRegFld hid 9 9 1 else s

/-- A fault (16 R405): the summary's fault bit, a chafe entry, and a report that carries the entry through the manager to the root (13 R358). -/
def State.fault (s : State) (d : Nat) (ws : List W64) : State :=
  let s := s.chafe d ws
  ({ s with step := { s.step with fault := true } }).send (.report s.route.mgrRoute s.upward ws)

/-- Raises cause `b` of a part's leaf block: STATUS, COUNT, and, for the RELIABILITY, SECURITY and POWER_THERMAL groups or a fault, the chafe log; a fault is handled under R405. -/
def State.raiseWith (s : State) (p : Part) (b ctx : Nat) (det : W64) (isFault : Bool) : State :=
  let s := s.setCause p b
  let g := causeGroup (leafOf p) b
  let src := s.chafeSource p
  let ws := s.chafeWords src.1 b g.num src.2.2.1 src.2.2.2 src.2.1 ctx det
  if isFault then s.fault (partDie p) ws
  else match g with
    | .reliability => s.chafe (partDie p) ws
    | .security => s.chafe (partDie p) ws
    | .powerThermal => s.chafe (partDie p) ws
    | _ => s

/-- Raises one cause that is a fault of each of some contexts, or of none. -/
def State.raiseFor (s : State) (p : Part) (b : Nat) (ctxs : List Nat) : State :=
  match ctxs with
  | [] => s.raiseWith p b 0 0 false
  | c :: t =>
    let src := s.chafeSource p
    t.foldl (fun s c => s.fault (partDie p) (s.chafeWords src.1 b (causeGroup (leafOf p) b).num src.2.2.1 src.2.2.2 src.2.1 c 0)) (s.raiseWith p b c 0 true)

/-- Raises a cause with its standing as a fault or not taken from the maps. -/
def State.raise (s : State) (p : Part) (b : Nat) (ctx : Nat := 0) (det : W64 := 0) : State :=
  s.raiseWith p b ctx det (causeFault (leafOf p) b)

/-- Records a first event in a detail register and raises a cause, whose log entry carries what that register then holds (16 R419). -/
def State.raiseDetail (s : State) (id : RegId) (v : W64) (p : Part) (b ctx : Nat) : State :=
  (s.detail id v).raise p b ctx ((s.detail id v).reg id)

/-- DECODE_ERROR with the first address kept in MOD_DECODE_DETAIL (15 R389). -/
def State.decodeError (s : State) (write : Bool) (addr : Nat) : State :=
  let s := s.detail (rid .MOD_DECODE_DETAIL .module) (w64 (addr % 2 ^ 48 + b01 write * 2 ^ 62))
  s.raise .module 0

/-- Marks REJECTED_OP in the step record in progress. -/
def State.markRejected (s : State) : State := { s with step := { s.step with rejected := true } }

/-- Sets TNR_REASON bits for the step in progress; each newly set reason raises STEP_TIMING_NR (10 R279). -/
def State.timingNr (s : State) (m : Nat) : State :=
  let new := m - (m &&& s.step.tnr)
  (bitsSet 8 new).foldl (fun s _ => s.raise .module 4) { s with step := { s.step with tnr := s.step.tnr ||| m } }

/-- The module has entered RUNNING for its current step and attempt, and no ABORT has stopped its units (R409). -/
def State.entered (s : State) : Bool := (s.step.state = .running || s.step.state = .draining) && !s.step.aborting

/-- Sets a timing reason for the step that is running, if one is. -/
def State.tnrNow (s : State) (m : Nat) : State := if s.entered then s.timingNr m else s

/-- A safety override marks the step it falls in (10 R279, 18 R466). -/
def State.override (s : State) : State := s.tnrNow 8

/- Memory. -/

/-- Byte of a memory: unlisted addresses read 0. -/
def memGet (m : List Host.Cell) (a : Nat) : Byte :=
  match m with
  | [] => 0
  | (k, v) :: t => if k = a then v else if a < k then 0 else memGet t a

/-- Writes a byte, keeping addresses rising and no zero listed. -/
def memSet (m : List Host.Cell) (a : Nat) (b : Byte) : List Host.Cell :=
  match m with
  | [] => if b = 0 then [] else [(a, b)]
  | (k, v) :: t =>
    if a < k then (if b = 0 then (k, v) :: t else (a, b) :: (k, v) :: t)
    else if a = k then (if b = 0 then t else (a, b) :: t)
    else (k, v) :: memSet t a b

/-- Strictly rising keys above `lo`, and no byte equal to what an unlisted address reads as. -/
def Memory.wfFrom : Nat → List Host.Cell → Bool
  | _, [] => true
  | lo, (k, v) :: t => decide (lo ≤ k) && decide (v ≠ 0) && Memory.wfFrom (k + 1) t

/-- The canonical form of a memory. -/
def Memory.wf (m : List Host.Cell) : Bool := Memory.wfFrom 0 m

/-- `n` bytes from address `a`. -/
def memRead (m : List Host.Cell) (a n : Nat) : List Byte := (List.range n).map fun i => memGet m (a + i)

/-- Writes a run of bytes from address `a`. -/
def memWrite (m : List Host.Cell) (a : Nat) : List Byte → List Host.Cell
  | [] => m
  | b :: t => memWrite (memSet m a b) (a + 1) t

/-- Bytes of one core's scratch (12 R324). -/
def scratchSize : Nat := 2 ^ 21

/-- Reads core scratch. -/
def State.scrRead (s : State) (core a n : Nat) : List Byte := memRead s.scratch (core * scratchSize + a % scratchSize) n

/-- Writes core scratch; a run never leaves the core's 2 MiB. -/
def State.scrWrite (s : State) (core a : Nat) (bs : List Byte) : State :=
  { s with scratch := memWrite s.scratch (core * scratchSize + a % scratchSize) (bs.take (scratchSize - a % scratchSize)) }

/-- Little-endian number of `n` scratch bytes. -/
def State.scrNat (s : State) (core a n : Nat) : Nat := leNat (s.scrRead core a n)

/- HBM (12 R305–R309, R322). -/

/-- Populated bytes of the HBM window: 480 GiB. -/
def hbmSize : Nat := 480 * 2 ^ 30

/-- Channel state; unlisted channels are active below C30 and spare from there (R306, no failed channel). -/
def State.chan (s : State) (c : Nat) : ChanState := sget s.mem.chans (if c % 32 < 30 then .active else .spare) c

/-- LAY[e]: the listed entry or the power-on entry of an unrepaired stack (R307). -/
def State.layEntry (s : State) (e : Nat) : Nat := sget s.mem.lay ((e % 8) * 32 + (e / 8) % 30) e

/-- How many entries below e name channel c (R308). -/
def State.layRank (s : State) (e c : Nat) : Nat := (List.range e).countP fun e' => s.layEntry e' = c

/-- Where a window address resolves before any migration redirect (R308): channel (stack × 32 + channel) and byte. -/
def State.locate (s : State) (a : Nat) : Nat × Nat :=
  let g := a / 2048
  let off := a % 2048
  let fin (e h v slot0 : Nat) : Nat × Nat :=
    let c := s.layEntry e
    (c, (slot0 + (h / v) * 16 + s.layRank e c) * 2048 + off)
  match s.mem.groups.find? fun G => decide (G.base ≤ a) && decide (a < G.base + G.size) with
  | none => fin (g % 3840) g 3840 0
  | some G =>
    let parts := if G.half then 2 else 8
    let size := G.size / 2048 / parts
    let bg := G.base / 2048
    let p := (g - bg) / size
    let h := (g - bg) % size
    let v := (List.range 3840).filter fun e => if G.half then (s.layEntry e) / 128 = p else (s.layEntry e) / 32 = p
    fin (nth v 0 (h % v.length)) h v.length ((bg / 3840) * 16)

/-- Memory key of a channel byte. -/
def chanKey (c b : Nat) : Nat := c * 2 ^ 31 + b

/-- Channels that serve an access (R322): where a read goes, and where a write goes. -/
def State.redirect (s : State) (c b : Nat) : Nat × List Nat :=
  let w := s.reg (rid .LAY_MIG .module (c / 32))
  let n := b / 2048
  let wm := fld w 30 10
  let dst := c / 32 * 32 + fld w 9 5
  if bit w 63 && decide (fld w 4 0 = c % 32) then
    if n < wm then (dst, [dst])
    else if n < wm + 64 then (c, [c, dst])
    else (c, [c])
  else (c, [c])

/-- Pieces of a window access: (address, bytes) runs that stay within a 64-byte unit. -/
def pieces : Nat → Nat → Nat → List (Nat × Nat)
  | 0, _, _ => []
  | f + 1, a, n => if n = 0 then [] else let m := min n (64 - a % 64); (a, m) :: pieces f (a + m) (n - m)

/-- Runs of `n` bytes from `a` within single 64-byte units. -/
def runsOf (a n : Nat) : List (Nat × Nat) := pieces (n / 64 + 2) a n

/-- Number of the 64-byte unit of a channel byte. -/
def unitOf (c b : Nat) : Nat := c * 2 ^ 25 + b / 64

/-- The key a window unit's content was written under, where the page has a key record. -/
def PageKey.contentKey (p : PageKey) (u : Nat) : Nat := sget p.exc p.base u

/-- The bytes that a read within one unit sees: content written under another key than the one in force reads as unpredictable bytes (17 R452, R454). -/
def State.unitRead (s : State) (a n : Nat) : List Byte :=
  let l := s.locate a
  let raw := memRead s.hbm (chanKey (s.redirect l.1 l.2).1 l.2) n
  match sfind s.mem.pages (a / 2 ^ 21) with
  | none => raw
  | some p =>
    let k := p.contentKey (a % 2 ^ 21 / 64)
    if k = p.cur then raw else (List.range n).map fun i => Config.garble k p.cur (a + i)

/-- Reads the privileged HBM window. -/
def State.hbmRead (s : State) (a n : Nat) : List Byte := ((runsOf a n).map fun p => s.unitRead p.1 p.2).flatten

/-- Units that a read of the window touches. -/
def State.hbmUnits (s : State) (a n : Nat) : List Nat :=
  (runsOf a n).map fun p => let l := s.locate p.1; unitOf (s.redirect l.1 l.2).1 l.2

/-- Some unit of the range is poisoned (R317). -/
def State.poisoned (s : State) (a n : Nat) : Bool := (s.hbmUnits a n).any fun u => s.poison.contains u

/-- Stores bytes within one unit on every channel that serves the write (R322); a whole unit clears its poison (R317), a part keeps it. -/
def State.unitStore (s : State) (a : Nat) (bs : List Byte) : State :=
  let l := s.locate a
  (s.redirect l.1 l.2).2.foldl (fun s c =>
    { s with hbm := memWrite s.hbm (chanKey c l.2) bs
             poison := if bs.length = 64 then s.poison.filter (· ≠ unitOf c l.2) else s.poison }) s

/-- One write within a 64-byte unit. Where the unit's content is under another key, a part write re-encrypts the unpredictable rest of the unit with it (R310, 17 R454). -/
def State.hbmWriteUnit (s : State) (a : Nat) (bs : List Byte) : State :=
  match sfind s.mem.pages (a / 2 ^ 21) with
  | none => s.unitStore a bs
  | some p =>
    let u := a % 2 ^ 21 / 64
    if p.contentKey u = p.cur then s.unitStore a bs
    else
      let base := a / 64 * 64
      let old := s.unitRead base 64
      let poisoned := s.poison
      let s := s.unitStore base (old.take (a - base) ++ bs ++ old.drop (a - base + bs.length))
      let s := if bs.length = 64 then s else { s with poison := poisoned }
      let p := { p with exc := if p.base = p.cur then sdel p.exc u else sset p.exc u p.cur }
      { s with mem := { s.mem with pages := sset s.mem.pages (a / 2 ^ 21) p } }

/-- Writes a byte run piece by piece. -/
def State.hbmWriteGo (s : State) : List (Nat × Nat) → List Byte → State
  | [], _ => s
  | (a, n) :: t, bs => (s.hbmWriteUnit a (bs.take n)).hbmWriteGo t (bs.drop n)

/-- Writes the privileged HBM window. -/
def State.hbmWrite (s : State) (a : Nat) (bs : List Byte) : State := s.hbmWriteGo (runsOf a bs.length) bs

/-- Little-endian number of `n` window bytes. -/
def State.hbmNat (s : State) (a n : Nat) : Nat := leNat (s.hbmRead a n)

/-- The address lies in the host region (R312). -/
def State.inHostRegion (s : State) (a : Nat) : Bool :=
  decide (s.mem.hostBase ≤ a) && decide (a < s.mem.hostBase + s.mem.hostSize * 2 ^ 30)

/- What an access costs, and what holds it (R310, R314, R315, R319). -/

/-- Runs of `n` bytes from `a` within single 512-byte bursts (R310). -/
def burstGo : Nat → Nat → Nat → List (Nat × Nat)
  | 0, _, _ => []
  | f + 1, a, n => if n = 0 then [] else let m := min n (512 - a % 512); (a, m) :: burstGo f (a + m) (n - m)

/-- The bursts of a window access. -/
def burstsOf (a n : Nat) : List (Nat × Nat) := burstGo (n / 512 + 2) a n

/-- Channels that an access of one burst uses (R322). -/
def State.burstChans (s : State) (write : Bool) (a : Nat) : List Nat :=
  let l := s.locate a
  let r := s.redirect l.1 l.2
  if write then r.2 else [r.1]

/-- Base-die cycles since power-on: eight in each management cycle (01 R31). -/
def State.baseCycle (s : State) : Nat := 8 * s.clock

/-- Units of 1/1,600 of a burst that regulator p of a stack holds now (R314): those it held, and RATE for each base-die cycle since, up to DEPTH × 1,600. -/
def State.tokenUnits (s : State) (st p : Nat) : Nat :=
  let r := s.reg (rid .REG (.stack st) p)
  let t := sget s.mem.tokens (0, 0) (7 * st + p)
  min (fld r 31 16 * 1600) (t.1 + fld r 15 0 * (s.baseCycle - t.2))

/-- Regulator p of a stack grants nothing: its RATE is 0, or its bucket holds no whole burst (R314). -/
def State.regBlocked (s : State) (st p : Nat) : Bool :=
  let r := s.reg (rid .REG (.stack st) p)
  decide (fld r 15 0 = 0) || decide (fld r 31 16 = 0)

/-- What a regulator holds is counted up to now, before its RATE or DEPTH changes. -/
def State.settleTokens (s : State) (st p : Nat) : State :=
  let k := 7 * st + p
  { s with mem := { s.mem with tokens := sset s.mem.tokens k (s.tokenUnits st p, max s.baseCycle (sget s.mem.tokens (0, 0) k).2) } }

/-- Grants n bursts to regulator p of a stack. What the bucket lacks comes in at RATE, and those cycles count in REG_WAIT_TOTAL: one burst of a command waits at a time (DESIGN CHOICE, log 123). -/
def State.takeTokens (s : State) (st p n : Nat) : State :=
  let rate := fld (s.reg (rid .REG (.stack st) p)) 15 0
  let have_ := s.tokenUnits st p
  let now := max s.baseCycle (sget s.mem.tokens (0, 0) (7 * st + p)).2
  let w := cdiv (1600 * n - have_) rate
  let s := { s with mem := { s.mem with tokens := sset s.mem.tokens (7 * st + p) (have_ + w * rate - 1600 * n, now + w) } }
  s.bump (rid .REG_WAIT_TOTAL (.stack st) p) w

/-- One burst of an access is served: counted in its channels and charged to regulator p. A write that covers a 64-byte unit only in part costs a read burst as well (R310). -/
def State.chargeBurst (s : State) (p : Nat) (write : Bool) (r : Nat × Nat) : State :=
  let k := if write && (r.1 % 64 ≠ 0 || r.2 % 64 ≠ 0) then 2 else 1
  (s.burstChans write r.1).foldl (fun s c => (s.bump (rid .CH_BURST_TOTAL (.stack (c / 32)) (c % 32)) k).takeTokens (c / 32) p k) s

/-- An access of the window is served under regulator p. -/
def State.charge (s : State) (p : Nat) (write : Bool) (a n : Nat) : State := (burstsOf a n).foldl (fun s r => s.chargeBurst p write r) s

/-- A stack answers no access: it has failed (16 R411), or its die has (15 R381). -/
def State.stackDown (s : State) (st : Nat) : Bool := sfind s.stackReset st = some 1 || (sget s.rel {} (st / 4)).failed

/-- An access of the window waits: a channel it uses is being retrained (R319), its regulator grants nothing (R314), or its stack does not answer. -/
def State.accessHeld (s : State) (p : Nat) (write : Bool) (a n : Nat) : Bool :=
  (burstsOf a n).any fun r => (s.burstChans write r.1).any fun c =>
    s.mem.retraining.contains c || s.regBlocked (c / 32) p || s.stackDown (c / 32)

/- Context accesses (R313, R396–R398). -/

/-- The unit that moves a context's data: a compute die's, or the Capstan of a stack. It decides the page-entry cache (15 R397) and the regulator (R314). -/
inductive MemPort where
  | die (d : Nat)
  | cap (st : Nat)
deriving DecidableEq, Repr

/-- Number of the port's page-entry cache, and its size (15 R397). -/
def MemPort.cache : MemPort → Nat
  | .die d => d
  | .cap st => 2 + st
def MemPort.cacheSize : MemPort → Nat
  | .die _ => 16384
  | .cap _ => 2048

/-- Regulator that the port's accesses for context c are charged to (R314). -/
def MemPort.reg (u : MemPort) (c : Nat) : Nat := match u with | .die _ => c | .cap _ => 5

/-- Page-entry caches serve a step from its entry into RUNNING on; outside a step, where the host may change entries, the table itself is read (15 R397; DEDUCED, log 124). -/
def State.cachesOn (s : State) : Bool := s.step.state = .running || s.step.state = .draining || s.step.state = .committing

/-- Cache place of a page entry. -/
def MemPort.key (u : MemPort) (c i : Nat) : Nat := (u.cache * 4 + c) * 2 ^ 18 + i

/-- Address of entry i of a context's page table (15 R396). -/
def State.entryAddr (s : State) (c i : Nat) : Nat := fld (s.reg (rid .CTX_PT .module c)) 47 0 + 8 * i

/-- The entry is in the port's cache. -/
def State.pageHit (s : State) (u : MemPort) (c i : Nat) : Option W64 := if s.cachesOn then sfind s.mem.xcache (u.key c i) else none

/-- Page entry i of a context as the port sees it: cached, or read from the table. -/
def State.pageEntry (s : State) (u : MemPort) (c i : Nat) : W64 :=
  match s.pageHit u c i with
  | some e => e
  | none => w64 (s.hbmNat (s.entryAddr c i) 8)

/-- A use of a page entry: a miss reads it, at the context's charge, and keeps it; a full cache gives up an entry that the spec does not choose (15 R397). -/
def State.pageUse (s : State) (u : MemPort) (c i : Nat) : State :=
  if (s.pageHit u c i).isSome then s else
  let e := s.pageEntry u c i
  let s := s.charge c false (s.entryAddr c i) 8
  if !s.cachesOn then s else
  let own := s.mem.xcache.filter fun p => p.1 / 2 ^ 20 = u.cache
  let m := if own.length < u.cacheSize then s.mem.xcache
    else match own[Config.cacheVictim u.cache c i % u.cacheSize]? with
      | some v => sdel s.mem.xcache v.1
      | none => s.mem.xcache
  { s with mem := { s.mem with xcache := sset m (u.key c i) e } }

/-- Context address translation (R313, R396, R398): the page entry at CTX_PT, or a translation fault. -/
def State.xlateAddr (s : State) (u : MemPort) (c a : Nat) (write : Bool) : Option Nat :=
  let pages := fld (s.reg (rid .CTX_PAGES .module c)) 17 0
  let i := a / 2 ^ 21
  if (s.ctx c).state ≠ .active ∨ pages ≤ i then none else
  let e := s.pageEntry u c i
  let pa := fld e 47 21 * 2 ^ 21 + a % 2 ^ 21
  if !bit e 0 || (write && !bit e 1) || s.inHostRegion pa || decide (hbmSize ≤ pa) then none else some pa

/-- Runs of a context range that stay within one page. -/
def pageRuns : Nat → Nat → Nat → List (Nat × Nat)
  | 0, _, _ => []
  | f + 1, a, n => if n = 0 then [] else let m := min n (2 ^ 21 - a % 2 ^ 21); (a, m) :: pageRuns f (a + m) (n - m)

/-- What a context access meets: a translation fault, a poisoned unit at a window address, or a wait, after which the command that makes the access has not run yet. -/
inductive MemErr where
  | xlate
  | poison (pa : Nat)
  | held
deriving DecidableEq, Repr

/-- The access waits. -/
def waits {α : Type} (r : Except MemErr α) : Bool := match r with | .error .held => true | _ => false

/-- Where one page's run of a context access goes, or what it meets: translation (R313), waits of the entry's read or of the access, poison. A write meets only the poison of units it covers in part (R317). -/
def State.ctxAccess (s : State) (u : MemPort) (c : Nat) (write : Bool) (p : Nat × Nat) : Except MemErr Nat :=
  let i := p.1 / 2 ^ 21
  if (s.pageHit u c i).isNone && s.accessHeld c false (s.entryAddr c i) 8 then .error .held else
  match s.xlateAddr u c p.1 write with
  | none => .error .xlate
  | some pa =>
    if s.accessHeld (u.reg c) write pa p.2 then .error .held else
    match (runsOf pa p.2).find? fun q => (!write || q.2 ≠ 64) && s.poisoned q.1 q.2 with
    | some q => .error (.poison q.1)
    | none => .ok pa

/-- Reads a context's address space: the bytes. -/
def State.ctxRead (s : State) (u : MemPort) (c a n : Nat) : Except MemErr (List Byte) :=
  (pageRuns (n / 2 ^ 21 + 2) a n).foldl (fun acc p =>
    match acc, s.ctxAccess u c false p with
    | .error e, _ => .error e
    | .ok _, .error e => .error e
    | .ok bs, .ok pa => .ok (bs ++ s.hbmRead pa p.2)) (.ok [])

/-- What a read of a context's address space does to the memory system: entries used, bursts served and charged, page by page to the first that cannot be read. -/
def State.ctxLoadGo (s : State) (u : MemPort) (c : Nat) : List (Nat × Nat) → State
  | [] => s
  | p :: t =>
    match s.ctxAccess u c false p with
    | .error _ => s
    | .ok pa => ((s.pageUse u c (p.1 / 2 ^ 21)).charge (u.reg c) false pa p.2).ctxLoadGo u c t

/-- The same for a whole read. -/
def State.ctxLoad (s : State) (u : MemPort) (c a n : Nat) : State := s.ctxLoadGo u c (pageRuns (n / 2 ^ 21 + 2) a n)

/-- Writes a context's address space. -/
def State.ctxWriteGo (s : State) (u : MemPort) (c : Nat) : List (Nat × Nat) → List Byte → Except MemErr State
  | [], _ => .ok s
  | p :: t, bs =>
    match s.ctxAccess u c true p with
    | .error e => .error e
    | .ok pa => (((s.pageUse u c (p.1 / 2 ^ 21)).charge (u.reg c) true pa p.2).hbmWrite pa (bs.take p.2)).ctxWriteGo u c t (bs.drop p.2)

/-- Writes a context's address space. -/
def State.ctxWrite (s : State) (u : MemPort) (c a : Nat) (bs : List Byte) : Except MemErr State :=
  s.ctxWriteGo u c (pageRuns (bs.length / 2 ^ 21 + 2) a bs.length) bs

/-- Channel events of a command's memory accesses (R316, R317): corrected errors count, and a count in the period above CE_THRESH raises MEM_CE_THRESHOLD once in that period; uncorrectable ones poison and log their unit. -/
def State.eccEvent (s : State) (e : EccEvent) : State :=
  let st := Part.stack (e.chan / 32)
  let ch := e.chan % 32
  if e.ue then
    let u := e.chan * 2 ^ 25 + e.unit
    let s := { s with poison := if s.poison.contains u then s.poison else u :: s.poison }
    let h := (fld (s.reg (rid .POISON_HEAD st)) 5 0 + 1) % 64
    let s := s.setReg (rid .POISON_LOG st h) (w64 (2 ^ 63 + ch * 2 ^ 26 + e.unit / 32 * 2 ^ 5 + e.unit % 32))
    let s := s.setReg (rid .POISON_HEAD st) (w64 h)
    s.bump (rid .CH_UE_TOTAL st ch) 1
  else
    let s := s.bump (rid .CH_CE_TOTAL st ch) 1
    let n := sget s.mem.cePeriod 0 e.chan + 1
    let s := { s with mem := { s.mem with cePeriod := sset s.mem.cePeriod e.chan n } }
    if fld (s.reg (rid .CE_THRESH st)) 15 0 < n ∧ !s.mem.ceRaised.contains e.chan then
      ({ s with mem := { s.mem with ceRaised := e.chan :: s.mem.ceRaised } }).raise st 3
    else s

/-- Applies a command's error events in order. -/
def State.eccEvents (s : State) (l : List EccEvent) : State := l.foldl State.eccEvent s

/- Messages and controls that memory holds (R314, R319): they keep their place in the receiving unit (DESIGN CHOICE, log 128). -/

/-- The unit and channel by which a message or control comes in that accesses memory. -/
def doorOf (i : Instr) : Option Nat :=
  match i with
  | .topkMsg d _ => some d
  | .signMsg d _ => some d
  | .cancelMsg d _ => some d
  | .finalMsg d _ => some d
  | .cellMsg d _ => some d
  | .denseMsg d _ => some d
  | .peerWrite d _ _ _ _ => some (2 + d)
  | .mirrorData _ => some 4
  | .restoreData _ => some 5
  | .mirrorRestore _ => some 6
  | .mirrorRebuild _ => some 6
  | .save => some 7
  | .restore => some 7
  | .commit _ _ _ _ _ => some 8
  | .journalResume _ => some 9
  | .journalSubmit _ => some 9
  | _ => none

/-- A message comes in: it is taken, or waits where its write is held or an earlier one of its channel waits. -/
def State.arrive (s : State) (i : Instr) (f : State → Option State) : State :=
  if s.waiting.any fun j => doorOf j = doorOf i then { s with waiting := s.waiting ++ [i] }
  else (f s).getD { s with waiting := s.waiting ++ [i] }

/- Parts that exist (00 R2). -/

/-- The command runs if its part exists; otherwise it stops. -/
def guardPart (ok : Bool) (s : State) : Out := if ok then .next s else .fault .noSuchPart

/-- Ply register of a core. -/
def plyR (n : RegName) (core p : Nat) : RegId := rid n (.ply core p)

/-- Core register. -/
def coreR (n : RegName) (core : Nat) (i : Nat := 0) : RegId := rid n (.core core) i

end Sys2Proof.Machine
end

