-- ==== Sys2Proof/Machine/Marks.lean ====
section
/-! DEFINITION. Marks for spares and the errors of core scratch and knot cells (16 R414, R417): what every unit's access may meet. -/

namespace Sys2Proof.Machine

/-- Die-controller register. -/
def dieR (n : RegName) (d : Nat) (i : Nat := 0) : RegId := rid n (.dieCtl d) i
/-- Module-control register. -/
def modR (n : RegName) (i : Nat := 0) : RegId := rid n .module i

/-- Sets a bit of ALERT_STATUS (18 R478). -/
def State.alert (s : State) (b : Nat) : State := s.setRegFld (modR .ALERT_STATUS) b b 1

/-- SPARE_EXHAUSTED of a die (bit 3), with its alert. -/
def State.spareExhausted (s : State) (d : Nat) : State := (s.raise (.dieCtl d) 3).alert 3

/-- Reliability state of a die. -/
def State.dieRel (s : State) (d : Nat) : DieRel := sget s.rel {} d
/-- Applies a function to it. -/
def State.onRel (s : State) (d : Nat) (f : DieRel → DieRel) : State := { s with rel := sset s.rel d (f (s.dieRel d)) }

/-- The die's spare cluster is in use. -/
def State.clusterUsed (s : State) (d : Nat) : Bool := bit (s.reg (dieR .REL_STATUS d)) 30
/-- The physical cluster's spare core is in use. -/
def State.coreUsed (s : State) (d p : Nat) : Bool := bit (s.reg (dieR .REL_STATUS d)) (31 + p)

/-- Marks a logical cluster for the spare cluster. -/
def State.markCluster (s : State) (d l : Nat) : State :=
  if (s.dieRel d).marks.any (fun m => m.kind = 2 && m.unit = l) then s
  else if s.clusterUsed d || (s.dieRel d).marks.any (fun m => m.kind = 2) then s.spareExhausted d
  else s.onRel d fun x => { x with marks := x.marks.filter (fun m => !(m.kind = 1 && m.unit = l)) ++ [⟨2, l, 0⟩] }

/-- Marks a logical core; a second core of a cluster marks the cluster. -/
def State.markCore (s : State) (d l k : Nat) : State :=
  let ms := (s.dieRel d).marks.filter fun m => m.kind ≤ 2 && m.unit = l
  if ms.any (fun m => m.kind = 2 || m.part = k) then s
  else if !ms.isEmpty || s.coreUsed d (fld (s.clusterEntry d l) 4 0) then s.markCluster d l
  else s.onRel d fun x => { x with marks := x.marks ++ [⟨1, l, k⟩] }

/-- Marks a scratch bank of a core: `part` is core × 32 + bank. -/
def State.markBank (s : State) (d l part : Nat) : State :=
  let r := s.reg (coreR .SCR_BANK_SPARE (d * 192 + l * 8 + part / 32))
  let ms := (s.dieRel d).marks.filter fun m => m.kind = 3 && m.unit = l && m.part / 32 = part / 32
  if ms.any fun m => m.part = part then s
  else if 2 ≤ b01 (bit r 5) + b01 (bit r 11) + ms.length then s.spareExhausted d
  else s.onRel d fun x => { x with marks := x.marks ++ [⟨3, l, part⟩] }

/-- Marks a physical knot's cell. -/
def State.markCell (s : State) (d phys : Nat) : State :=
  if (s.dieRel d).marks.any fun m => m.kind = 4 && m.part = phys then s
  else if 1024 ≤ (s.dieRel d).cellsUsed + (s.dieRel d).marks.countP (fun m => m.kind = 4) then s.spareExhausted d
  else s.onRel d fun x => { x with marks := x.marks ++ [⟨4, d, phys⟩] }

/-- An access to core scratch meets a corrected (1) or an uncorrectable (2) error at byte address a (R414). Corrected errors count per bank; the 64th of a period raises SCR_CE_THRESHOLD. Sparing after an uncorrectable one is a safety action (R417). -/
def State.scrEcc (s : State) (core a ecc : Nat) : State :=
  let line := a / 64
  let bank := (line % 32) ^^^ (line / 32 % 32)
  let d := coreDie core
  let l := coreCluster core
  if ecc = 1 then
    let k := core % 192 * 32 + bank
    let n := sget (s.dieRel d).bankCe 0 k + 1
    let s := s.onRel d fun x => { x with bankCe := sset x.bankCe k n }
    if n = 64 then s.raise (.cluster d l) 0 (s.ctxOf core) else s
  else if ecc = 2 then ((s.raise (.cluster d l) 1 (s.ctxOf core)).markBank d l (coreIdx core * 32 + bank)).override
  else s

/-- The errors that a command's accesses to a core's scratch meet, as byte address and kind (1 corrected, 2 uncorrectable), before its data is read. An uncorrectable one leaves the 64-bit word with a value the spec does not give: the word takes a free one. -/
def State.scrEvents (s : State) (core : Nat) (l : List (Nat × Nat)) : State :=
  l.foldl (fun s e =>
    if e.2 = 2 then
      let s := s.scrWrite core (e.1 / 8 * 8) (leBytes 8 (Config.freeWord s.free).toNat)
      { s with free := s.free + 1 }.scrEcc core e.1 2
    else s.scrEcc core e.1 e.2) s

/-- Those of the listed errors that lie in the scratch lines an access reads. -/
def State.scrEventsAt (s : State) (core : Nat) (lines : List Nat) (l : List (Nat × Nat)) : State :=
  s.scrEvents core (l.filter fun e => lines.contains (e.1 / 64))

end Sys2Proof.Machine
end

