-- ==== Sys2Proof/Machine/Knots.lean ====
section
/-! DEFINITION. The knot store and its operations (11 R284–R303): translation, the order of pending operations, remote operations. -/

namespace Sys2Proof.Machine

/-- Translation entry of knot k of context c on die d (R286). -/
def State.knotEntry (s : State) (d c k : Nat) : W64 := sget (s.knot d).xlate 0 (c * 4096 + k % 4096)

/-- VALID of a translation entry. -/
def kValid (e : W64) : Bool := bit e 14
/-- BARRIER of a translation entry. -/
def kBarrier (e : W64) : Bool := bit e 15
/-- PERSIST of a translation entry. -/
def kPersist (e : W64) : Bool := bit e 16
/-- PHYS of a translation entry. -/
def kPhys (e : W64) : Nat := fld e 13 0

/-- The knot store register of a die. -/
def knotR (n : RegName) (d : Nat) (i : Nat := 0) : RegId := rid n (.knotStore d) i

/-- State of a physical knot. -/
def State.isTied (s : State) (d phys : Nat) : Bool := (s.knot d).tied.contains phys

/-- Management cycles, of 5 ns, in which a change reaches every view: 20 ns (R290). -/
def viewCycles : Nat := 4

/-- The station that shows a source's changes at once: the core's own, for it and its error-control unit (R290). -/
def KSrc.station : KSrc → Option Nat
  | .core n => some n
  | .ec n => some n
  | _ => none

/-- Ties or clears a physical knot; the tied knots are kept in rising order. The change is on its way to the views. -/
def State.putKnot (s : State) (d phys : Nat) (tied : Bool) (core : Option Nat) : State :=
  let ks := s.knot d
  let l := ks.tied.filter (· ≠ phys)
  s.setKnot d { ks with tied := if tied then (l.filter (· < phys)) ++ phys :: l.filter (phys < ·) else l
                        recent := ⟨phys, tied, s.clock, core⟩ :: ks.recent.filter fun c => decide (s.clock < c.time + viewCycles) }

/-- Changes of a knot that a core's view may not show yet, newest first: those made in the last 20 ns by other stations, since the core's own last change. -/
def State.unseen (s : State) (d phys core : Nat) : List KnotChange :=
  ((s.knot d).recent.filter fun c => decide (c.phys = phys) && decide (s.clock < c.time + viewCycles)).takeWhile fun c => c.core ≠ some core

/-- A view that lacks the last `lag` of those changes shows the knot in the wanted state, now or while they arrive (R290). -/
def State.viewShows (s : State) (d phys core lag : Nat) (want : Bool) : Bool :=
  decide (s.isTied d phys = want) || ((s.unseen d phys core).take lag).any fun c => c.tied ≠ want

/-- The core's pending knot operation completes: the core passes the instruction. -/
def State.ccResume (s : State) (n : Nat) : State :=
  s.onCore n fun c => { c with cc := { c.cc with pc := c.cc.pc + 1, waiting := 0 } }

/-- The core stops at its instruction (R269, R296, R301). -/
def State.ccStop (s : State) (n : Nat) : State :=
  s.onCore n fun c => { c with cc := { c.cc with mode := .stopped, waiting := 5 } }

/-- Source order of R289, as a rank. -/
def KSrc.rank : KSrc → Nat
  | .core n => n
  | .ec n => 1000 + n
  | .whip => 2000
  | .cap s _ => 3000 + s
  | .remote _ => 4000
  | .host => 5000

/-- The pending operation that R289 serves first among those listed (arrival order breaks ties). -/
def firstPend (l : List KnotPend) : Option KnotPend :=
  l.foldl (fun best p => match best with
    | none => some p
    | some b => if p.src.rank < b.src.rank then some p else some b) none

/-- Lets a released operation's source go on. -/
def State.releaseSrc (s : State) (p : KnotPend) : State :=
  match p.src with
  | .core n => s.ccResume n
  | .cap st i => s.onCap st fun c => { c with released := i :: c.released }
  | _ => s

/-- Removes a pending operation. -/
def State.dropPend (s : State) (d : Nat) (p : KnotPend) : State :=
  let ks := s.knot d
  s.setKnot d { ks with pend := ks.pend.erase p }

/-- Releases every pending WAIT (tied) or WAITCLR (clear) of a knot. -/
def State.releaseWaits (s : State) (d phys : Nat) : State :=
  let want := if s.isTied d phys then KOp.wait else KOp.waitclr
  let ps := (s.knot d).pend.filter fun p => p.phys = phys ∧ p.op = want
  ps.foldl (fun s p => (s.dropPend d p).releaseSrc p) s

/-- Serves pending operations on a knot until none can act (R289). -/
def State.settle : Nat → State → Nat → Nat → State
  | 0, s, _, _ => s
  | f + 1, s, d, phys =>
    let s := s.releaseWaits d phys
    if s.isTied d phys then
      match firstPend ((s.knot d).pend.filter fun p => p.phys = phys ∧ (p.op = .take ∨ p.op = .untie)) with
      | none => s
      | some p =>
        let s := (s.dropPend d p).putKnot d phys false p.src.station
        let s := if p.op = .take then s.bump (knotR .TAKE_TOTAL d) 1 else s
        State.settle f (s.releaseSrc p) d phys
    else
      match firstPend ((s.knot d).pend.filter fun p => p.phys = phys ∧ p.op = .tie) with
      | none => s
      | some p =>
        let s := ((s.dropPend d p).putKnot d phys true p.src.station).bump (knotR .TIE_TOTAL d) 1
        State.settle f (s.releaseSrc p) d phys

/-- Settles with enough rounds for every pending operation. -/
def State.settleAll (s : State) (d phys : Nat) : State := State.settle ((s.knot d).pend.length + 1) s d phys

/-- Whether a knot operation took effect, must wait at the store, named no valid knot, or tried to change a persistent knot. -/
inductive KRes where
  | done
  | wait
  | unmapped
  | access
deriving DecidableEq, Repr

/-- Puts an operation on the store's pending list. -/
def State.addPend (s : State) (d : Nat) (p : KnotPend) : State :=
  let ks := s.knot d
  s.setKnot d { ks with pend := ks.pend ++ [p] }

/-- One operation reaching the store (R288, R289). Units tie without waiting, so barrier mode holds only control cores, remote operations and the host. -/
def State.knotDo (s : State) (d c k : Nat) (src : KSrc) (op : KOp) : State × KRes :=
  let e := s.knotEntry d c k
  let ph := kPhys e
  let unit := match src with | .ec _ => true | .whip => true | .cap _ _ => true | _ => false
  let barrier := kBarrier e && !unit
  let changes := op = .tie ∨ op = .untie ∨ op = .take
  let pend (s : State) := s.addPend d { src := src, op := op, ctx := c, knot := k % 4096, phys := ph }
  if !kValid e then (s, .unmapped)
  else if kPersist e ∧ changes ∧ src ≠ .host then (s, .access)
  else
    let t := s.isTied d ph
    match op with
    | .tie =>
      if !t then (((s.putKnot d ph true src.station).bump (knotR .TIE_TOTAL d) 1).settleAll d ph, .done)
      else if barrier then ((pend s).bump (knotR .BARRIER_STALL_TOTAL d) 1, .wait)
      else (s.bump (knotR .REDUNDANT_TIE_TOTAL d) 1, .done)
    | .untie =>
      if t then ((s.putKnot d ph false src.station).settleAll d ph, .done)
      else if barrier then ((pend s).bump (knotR .BARRIER_STALL_TOTAL d) 1, .wait)
      else (s.bump (knotR .REDUNDANT_UNTIE_TOTAL d) 1, .done)
    | .wait => if t then (s, .done) else (pend s, .wait)
    | .waitclr => if t then (pend s, .wait) else (s, .done)
    | .take =>
      if t then (((s.putKnot d ph false src.station).bump (knotR .TAKE_TOTAL d) 1).settleAll d ph, .done) else (pend s, .wait)

/-- KNOT_ERR_DETAIL of an event (R302). -/
def knotDetail (code ctx core knot idx : Nat) : W64 :=
  w64 (idx % 2 ^ 32 + knot % 4096 * 2 ^ 32 + core % 512 * 2 ^ 44 + ctx % 4 * 2 ^ 53 + code * 2 ^ 55)

/-- Records a knot error and raises its cause in the die's store block. -/
def State.knotError (s : State) (d bitNo code ctx core knot idx : Nat) (isFault : Bool) : State :=
  let det := knotDetail code ctx core knot idx
  let s := s.detail (knotR .KNOT_ERR_DETAIL d) det
  s.raiseWith (.knotStore d) bitNo ctx (s.reg (knotR .KNOT_ERR_DETAIL d)) isFault

/-- A knot operation of a unit or of a remote source: errors are recorded and the operation dropped (R287, R301). -/
def State.knotAct (s : State) (d c k : Nat) (src : KSrc) (op : KOp) : State :=
  let r := s.knotDo d c k src op
  match r.2 with
  | .unmapped => r.1.knotError d 2 3 c 0x1FF k 0 true
  | .access => r.1.knotError d 1 2 c 0x1FF k 0 false
  | _ => r.1

/-- Same issuing station (R293). -/
def sameStation (a b : RemoteOp) : Bool := decide (a.srcMember = b.srcMember) && decide (a.srcCore = b.srcCore)

/-- A remote operation is waiting at the store for its barrier-mode knot. -/
def KnotPend.ofStation (o : RemoteOp) (p : KnotPend) : Bool :=
  match p.src with
  | .remote o' => sameStation o o'
  | _ => false

/-- Applies a remote operation, or holds it behind its own source's waiting one (R293). -/
def State.remoteApply (s : State) (d : Nat) (o : RemoteOp) : State :=
  let ks := s.knot d
  if (ks.pend.any (KnotPend.ofStation o)) || ks.behind.any (sameStation o) then
    s.setKnot d { ks with behind := ks.behind ++ [o] }
  else s.knotAct d o.ctx o.knot (.remote o) (if o.tie then .tie else .untie)

/-- Re-examines operations held behind a waiting one: each goes on once its source waits no longer (R293). -/
def State.flushBehind : Nat → State → Nat → State
  | 0, s, _ => s
  | f + 1, s, d =>
    let ks := s.knot d
    match ks.behind.find? fun o => !(ks.pend.any (KnotPend.ofStation o)) with
    | none => s
    | some o =>
      let s := s.setKnot d { ks with behind := ks.behind.erase o }
      State.flushBehind f (s.knotAct d o.ctx o.knot (.remote o) (if o.tie then .tie else .untie)) d

/-- Every held remote operation of a die that may go on. -/
def State.flush (s : State) (d : Nat) : State := State.flushBehind ((s.knot d).behind.length) s d

/-- A unit's knot operation, and the remote operations that it lets go on. -/
def State.knotUnit (s : State) (d c k : Nat) (src : KSrc) (op : KOp) : State := (s.knotAct d c k src op).flush d

/-- (step, attempt) order. -/
def stepLt (a b : Nat × Nat) : Bool := decide (a.1 < b.1) || (decide (a.1 = b.1) && decide (a.2 < b.2))

/-- `n` entries reach their receiver on a die after their deadline: each is released on arrival, counted in CROSS_LATE, and the step's timing is not repeatable (01 R34). -/
def State.crossLate (s : State) (d n : Nat) : State := if n = 0 then s else (s.bump (rid .CROSS_LATE (.fabric d)) n).tnrNow 1

/-- A remote operation arrives at die d (R294). The flag is false when the remote queue is full and the operation stays with its sender. -/
def State.remoteArrive (s : State) (d : Nat) (o : RemoteOp) : State × Bool :=
  let cur := (s.logline, s.step.attempt)
  let me := (o.step, o.attempt)
  let recv (s : State) := s.bump (knotR .REMOTE_RECV_TOTAL d) 1
  let x := s.ctx o.ctx
  if x.state ≠ .active ∨ x.gen ≠ o.gen then ((recv s).bump (knotR .REMOTE_STALE_TOTAL d) 1, true)
  else if stepLt me cur then (((recv s).bump (knotR .REMOTE_STALE_TOTAL d) 1).raise (.knotStore d) 3 o.ctx, true)
  else if me = cur ∧ s.entered then (((recv s).remoteApply d o).flush d, true)
  else if (s.knot d).queue.length < 256 then
    let ks := (recv s).knot d
    ((recv s).setKnot d { ks with queue := ks.queue ++ [o] }, true)
  else (s, false)

/-- The die's remote queue is full, or operations stand before it. -/
def State.remoteFull (s : State) (d : Nat) : Bool := decide (256 ≤ (s.knot d).queue.length) || !(s.knot d).door.isEmpty

/-- An operation that the queue has no room for keeps its place in the link's buffer, in arrival order (R294). -/
def State.remoteMsg (s : State) (d : Nat) (o : RemoteOp) : State :=
  let r := s.remoteArrive d o
  if (s.knot d).door.isEmpty && r.2 then r.1 else let ks := s.knot d; s.setKnot d { ks with door := ks.door ++ [o] }

/-- What is pending at a store when its step ends or begins: a host operation waits on, in any step state (R303). -/
def KnotStore.hostOnly (ks : KnotStore) : KnotStore := { ks with pend := ks.pend.filter fun p => p.src = .host, behind := [] }

/-- Clears every step-scoped knot of a die and drops what waits there for the step before (R287). -/
def State.clearStepKnots (s : State) (d : Nat) : State :=
  let ks := s.knot d
  let persist := (ks.xlate.filter fun p => kValid p.2 && kPersist p.2).map fun p => kPhys p.2
  s.setKnot d { ks.hostOnly with tied := ks.tied.filter persist.contains, recent := [] }

/-- One operation of the remote queue is looked at again: one for another context generation is dropped, one for an older step is dropped and raises KNOT_STALE, one for the step in force is applied, and a later one stays (R294, 15 R398). -/
def State.queuedOp (s : State) (d : Nat) (o : RemoteOp) : State :=
  let x := s.ctx o.ctx
  let stale (s : State) := s.bump (knotR .REMOTE_STALE_TOTAL d) 1
  if x.state ≠ .active ∨ x.gen ≠ o.gen then stale s
  else if stepLt (o.step, o.attempt) (s.logline, s.step.attempt) then (stale s).raise (.knotStore d) 3 o.ctx
  else if (o.step, o.attempt) = (s.logline, s.step.attempt) then (s.remoteApply d o).flush d
  else let ks := s.knot d; s.setKnot d { ks with queue := ks.queue ++ [o] }

/-- Operations before a full queue come in as room is found. -/
def State.doorOpen (s : State) (d : Nat) : State :=
  let l := (s.knot d).door
  let ks := s.knot d
  l.foldl (fun s o => s.remoteMsg d o) (s.setKnot d { ks with door := [] })

/-- Applies the operations queued for the step just entered, in arrival order (R294); credits held back on the knot channel are returned once the queue has room. -/
def State.applyRemoteQueue (s : State) (d : Nat) : State :=
  let ks := s.knot d
  (ks.queue.foldl (fun s o => s.queuedOp d o) (s.setKnot d { ks with queue := [] })).doorOpen d

/-- Contexts whose knots a physical knot's cell serves. -/
def State.cellCtxs (s : State) (d phys : Nat) : List Nat :=
  (List.range 4).filter fun c => (s.knot d).xlate.any fun p => decide (p.1 / 4096 = c) && kValid p.2 && decide (kPhys p.2 = phys)

/-- A parity error in the cell of a knot: a fault of every context whose knots the cell serves, and a mark for a spare cell (16 R414), which is a safety action (R417). -/
def State.cellError (s : State) (d c k : Nat) : State :=
  let e := s.knotEntry d c k
  if kValid e then ((s.raiseFor (.dieCtl d) 7 (s.cellCtxs d (kPhys e))).markCell d (kPhys e)).override else s

/-- The same, where an operation's access to the store meets one. -/
def State.cellCheck (s : State) (err : Bool) (d c k : Nat) : State := if err then s.cellError d c k else s

/- Commands. -/

/-- REMOTE_KNOT_OP (R294). -/
def execRemoteKnotOp (die : Nat) (o : RemoteOp) (cellErr : Bool) (s : State) : Out :=
  if die < 2 then .next ((s.cellCheck cellErr die o.ctx o.knot).remoteMsg die o) else .fault .noSuchPart

/-- KNOT_HOST_OP acceptance (R303): valid, persistent knot; otherwise a decode error at the register's address. -/
def State.hostKnotOp (s : State) (d c k : Nat) (op : Option KOp) : State :=
  let e := s.knotEntry d c k
  if kValid e && kPersist e then
    match op with
    | none => s
    | some o => ((s.knotDo d c k .host o).1).flush d
  else s.decodeError true (0x021023000010 + d * 0x1000000000)

/-- KNOT_TIMEOUT (R296): the core's pending operation is cancelled and the core stops, a fault of its context. -/
def execKnotTimeout (core : Nat) (s : State) : Out :=
  if 384 ≤ core then .fault .noSuchPart else
  let d := coreDie core
  match (s.knot d).pend.find? fun p => p.src = .core core with
  | none => .next s
  | some p =>
    let pc := (s.core core).cc.pc
    let s := ((s.dropPend d p).ccStop core).bump (knotR .TIMEOUT_TOTAL d) 1
    .next (s.knotError d 0 1 p.ctx core p.knot pc true)

end Sys2Proof.Machine
end

