-- ==== Sys2Proof/Machine/Whipping.lean ====
section
/-! DEFINITION. Whipping units: exchange records, tile tap, error-feedback compression, fragments and tags, exact merge, BUCKET rings (09 R237–R256). -/

namespace Sys2Proof.Machine

/-- The whipping unit of a die. -/
def State.whip (s : State) (d : Nat) : Whip := sget s.whips {} d
/-- Replaces a die's whipping unit. -/
def State.setWhip (s : State) (d : Nat) (w : Whip) : State := { s with whips := sset s.whips d w }
/-- Whipping-unit register. -/
def whipR (n : RegName) (d : Nat) (i : Nat := 0) : RegId := rid n (.whip d) i

/-- An exchange record (R237). -/
structure XRec where
  mode : Nat
  spec : Bool
  owner : Bool
  f32out : Bool
  cellIn : Bool
  ctx : Nat
  k : Nat
  shift : Nat
  group : Nat
  mem : Nat
  site : Nat
  first : Nat
  elems : Nat
  knot : Nat
  outBase : Nat
  resid : Nat
  stage : Nat
  scale : Nat
  mib : Nat
  route : Nat
  inBase : Nat
deriving DecidableEq, Repr

/-- Decodes an exchange record's words (R237). -/
def xrec (ws : List W64) : XRec :=
  let w (i : Nat) := nth ws 0 i
  { mode := fld (w 0) 1 0, spec := bit (w 0) 2, owner := bit (w 0) 3, f32out := bit (w 0) 4, cellIn := bit (w 0) 5
    ctx := fld (w 0) 7 6, k := fld (w 0) 18 8, shift := fld (w 0) 21 19, group := fld (w 0) 46 32, mem := fld (w 0) 61 47
    site := fld (w 1) 23 0, first := fld (w 1) 63 24, elems := fld (w 2) 39 0, knot := fld (w 2) 51 40
    outBase := fld (w 3) 47 0, resid := fld (w 4) 47 0, stage := fld (w 5) 47 0, scale := fld (w 6) 31 0
    mib := fld (w 6) 38 32, route := fld (w 7) 15 0, inBase := fld (w 7) 63 16 }

/-- Record i of a die, if the image holds one. -/
def State.xrec? (s : State) (d i : Nat) : Option XRec := ((s.whip d).records[i]?).map xrec

/-- The record of a bridge pair (14 R374). -/
def XRec.pairs (x y : XRec) : Bool :=
  decide (x.mode ≤ 1) && y.mode = 2 && x.site = y.site && x.first = y.first && x.elems = y.elems && x.ctx = y.ctx

/-- The BUCKET record that forms a bridge pair with a compressed record, and its number. -/
def State.pairOf (s : State) (d : Nat) (x : XRec) : Option (XRec × Nat) :=
  (((s.whip d).records.map xrec).zipIdx).find? fun p => x.pairs p.1

/-- The compressed record that forms a bridge pair with a BUCKET record, and its number. -/
def State.pairFor (s : State) (d : Nat) (y : XRec) : Option (XRec × Nat) :=
  (((s.whip d).records.map xrec).zipIdx).find? fun p => p.1.pairs y

/-- The compressed record is a follower's (R374, R375). -/
def State.follows (s : State) (d : Nat) (x : XRec) : Bool := ((s.pairOf d x).map fun p => decide (p.1.group < 2)).getD false
/-- The compressed record is a bridge's (R374, R376). -/
def State.bridges (s : State) (d : Nat) (x : XRec) : Bool := ((s.pairOf d x).map fun p => decide (2 ≤ p.1.group)).getD false
/-- The record as its receiver sees it: a bridge receives every bucket, whatever RECV (R376). -/
def State.xrecv (s : State) (d : Nat) (x : XRec) : XRec := if s.bridges d x then { x with owner := false } else x

/-- Producer tile size T (R237). -/
def XRec.tileSize (x : XRec) : Nat := 2 ^ (8 + x.shift)
/-- Number of buckets B (R239). -/
def XRec.buckets (x : XRec) : Nat := cdiv x.elems 4096
/-- Elements of bucket b (R239). -/
def XRec.bucketLen (x : XRec) (b : Nat) : Nat := min 4096 (x.elems - 4096 * b)
/-- Number of producer tiles. -/
def XRec.tileCount (x : XRec) : Nat := cdiv x.elems x.tileSize
/-- Producer tiles of bucket b (R239). -/
def XRec.bucketTiles (x : XRec) (b : Nat) : List Nat :=
  (List.range (cdiv (x.bucketLen b) x.tileSize)).map fun i => x.first + b * (4096 / x.tileSize) + i
/-- The bucket that a producer tile belongs to. -/
def XRec.bucketOf (x : XRec) (tile : Nat) : Nat := (tile - x.first) / (4096 / x.tileSize)
/-- The record names this tile. -/
def XRec.names (x : XRec) (site tile : Nat) : Bool :=
  x.mode ≠ 3 && x.site = site && decide (x.first ≤ tile) && decide (tile < x.first + x.tileCount)
/-- The bucket goes to member m (R240). -/
def XRec.goesTo (x : XRec) (b m : Nat) : Bool := !x.owner || b * x.group / x.buckets = m
/-- Buckets that member m receives, in order. -/
def XRec.received (x : XRec) (m : Nat) : List Nat := (List.range x.buckets).filter fun b => x.goesTo b m
/-- F: bytes of one staging slot (R249). -/
def XRec.slotBytes (x : XRec) : Nat := if x.mode = 0 then roundUp (32 + 4 * x.k) 64 else 576
/-- Rank of a bucket among those that member m receives. -/
def XRec.rank (x : XRec) (b m : Nat) : Nat := ((x.received m).filter (· < b)).length
/-- Address of a staging slot (R249). -/
def XRec.slotAddr (x : XRec) (b sender : Nat) : Nat := x.stage + (x.rank b x.mem * x.group + sender) * x.slotBytes
/-- Residual plane i (R242). -/
def XRec.plane (x : XRec) (i : Nat) : Nat := if i % 2 = 0 then x.resid else roundUp (x.resid + 4 * x.elems) 2048

/-- A context access failed: MEM_XLATE in the accessing block, or MEM_POISON in the block of the stack that holds the unit (R313, R317, R389). -/
def State.memErr (s : State) (p : Part) (b ctx : Nat) (e : MemErr) (det : W64 := 0) : State :=
  match e with
  | .xlate => s.raise p b ctx det
  | .poison pa => s.raise (.stack ((s.locate pa).1 / 32)) 4 ctx
  | .held => s

/-- What a failed access of a unit comes to: none where it must wait. -/
def State.memFail (s : State) (p : Part) (b ctx : Nat) (e : MemErr) : Option State := if e = .held then none else some (s.memErr p b ctx e)

/-- The element at a stored position of a tile, decoded under R64. -/
def State.locElem (s : State) (l : TileLoc) (row col i : Nat) : W32 :=
  let c := fsCode l.fmt
  let n := recElems c
  let blk := if fsSquare l.fmt then row / 4 * l.dst.stride + col / 4 else row * l.dst.stride + col / n
  let pos := if fsSquare l.fmt then i else col % n + i
  let rec0 := leNat (s.scrRead l.core (l.dst.elem + blk * recBytes c) (recBytes c))
  let w := elemBits c
  let raw := bits rec0 (w * pos + w - 1) (w * pos)
  let sc := if hasScale c then s.scrNat l.core (l.dst.scale + blk) 1 else 0
  (decodeF32 c (fsVar l.fmt) raw sc l.tscale).1

/-- Element p of a tile in its block order (R239). -/
def State.tileElem (s : State) (l : TileLoc) (p : Nat) : W32 :=
  let n := if fsSquare l.fmt then 16 else recElems (fsCode l.fmt)
  let a := nth l.ats (0, 0) (p / n)
  s.locElem l a.1 a.2 (p % n)

/-- Gradient element j of bucket b. -/
def State.gradElem (s : State) (d : Nat) (x : XRec) (b j : Nat) : W32 :=
  let t := x.first + b * (4096 / x.tileSize) + j / x.tileSize
  match (s.whip d).tiles.find? fun n => n.site = x.site ∧ n.tile = t with
  | some n => s.tileElem n.loc (j % x.tileSize)
  | none => 0

/-- Every element of a tile has been written, by one quantiser operation or several. -/
def XRec.tileWhole (x : XRec) (n : WhipTile) : Bool :=
  let len := if fsSquare n.loc.fmt then 16 else recElems (fsCode n.loc.fmt)
  decide (min x.tileSize (x.elems - (n.tile - x.first) * x.tileSize) ≤ n.loc.ats.length * len)

/-- Every operation that wrote to the tile has been accepted (R241). -/
def WhipTile.accepted (n : WhipTile) : Bool := n.wait.isEmpty

/-- Every tile of a bucket has been written whole, in an epoch not cancelled, and satisfies a test. -/
def State.tilesAll (s : State) (d : Nat) (x : XRec) (b : Nat) (f : WhipTile → Bool) : Bool :=
  (x.bucketTiles b).all fun t => (s.whip d).tiles.any fun n => n.site = x.site && n.tile = t && x.tileWhole n && f n

/-- Sender state of a bucket. -/
def Whip.txOf (w : Whip) (i b : Nat) : BucketTx :=
  (w.tx.find? fun t => t.rcd = i ∧ t.bucket = b).getD { rcd := i, bucket := b, epoch := 0, sent := false, fin := false }
/-- Stores a bucket's sender state. -/
def Whip.putTx (w : Whip) (t : BucketTx) : Whip :=
  { w with tx := t :: w.tx.filter fun u => ¬(u.rcd = t.rcd ∧ u.bucket = t.bucket) }
/-- Receiver state of a slot. -/
def Whip.rxOf (w : Whip) (i b m : Nat) : SlotRx :=
  (w.rx.find? fun t => t.rcd = i ∧ t.bucket = b ∧ t.sender = m).getD
    { rcd := i, bucket := b, sender := m, h := 0, held := none, fin := false }
/-- Stores a slot's receiver state. -/
def Whip.putRx (w : Whip) (t : SlotRx) : Whip :=
  { w with rx := t :: w.rx.filter fun u => ¬(u.rcd = t.rcd ∧ u.bucket = t.bucket ∧ u.sender = t.sender) }

/-- Header of a fragment (R247). -/
def State.fragHead (s : State) (x : XRec) (i kind epoch b count scale : Nat) (payload : List Byte) : FragMsg :=
  { h0 := w64 (s.logline % 2 ^ 48 + epoch % 256 * 2 ^ 48 + kind * 2 ^ 56)
    h1 := w64 (i + b * 2 ^ 8 + x.mem * 2 ^ 32 + s.step.attempt * 2 ^ 47)
    h2 := w64 (count + scale * 2 ^ 32)
    h3 := w64 ((s.ctx x.ctx).gen + x.ctx * 2 ^ 8)
    payload := payload }

/-- Bytes of a fragment. -/
def fragBytes (m : FragMsg) : List Byte :=
  leBytes 8 m.h0.toNat ++ leBytes 8 m.h1.toNat ++ leBytes 8 m.h2.toNat ++ leBytes 8 m.h3.toNat ++ m.payload

/-- A message dropped as stale (R247, R249). -/
def State.whipStale (s : State) (d ctx : Nat) : State :=
  (s.bump (whipR .STALE_TOTAL d) 1).raise (.whip d) 2 ctx

/-- WH_PROTOCOL or WH_NONFINITE with its detail (R255). -/
def State.whipError (s : State) (d code b i sender bucket ctx : Nat) : State :=
  let det := w64 (bucket + sender * 2 ^ 24 + i * 2 ^ 40 + code * 2 ^ 48)
  s.raiseDetail (whipR .WH_ERR_DETAIL d) det (.whip d) b ctx

/-- The message belongs to another generation, step or attempt, or names no record (R247, R398). -/
def State.fragStale (s : State) (d : Nat) (m : FragMsg) : Bool :=
  let c := fld m.h3 9 8
  decide ((s.ctx c).state ≠ .active) || decide ((s.ctx c).gen ≠ fld m.h3 7 0)
    || decide (fld m.h0 47 0 ≠ s.logline % 2 ^ 48) || decide (fld m.h1 62 47 ≠ s.step.attempt)
    || (s.xrec? d (fld m.h1 7 0)).isNone

/-- Every slot of a received bucket is final and the bucket is not merged. -/
def State.mergeReady (s : State) (d i b : Nat) (x : XRec) : Bool :=
  x.mode ≤ 1 && !s.follows d x && decide (b < x.buckets) && x.goesTo b x.mem && !(s.whip d).merged.contains (i, b)
    && (List.range x.group).all fun m => ((s.whip d).rxOf i b m).fin

/-- Buckets that wait to be merged, in the order (record, bucket) in which they enter the merge store (R251). -/
def State.mergeWaits (s : State) (d : Nat) : List (Nat × Nat) :=
  (((s.whip d).records.zipIdx).map fun p => let x := s.xrecv d (xrec p.1)
    ((List.range x.buckets).filter fun b => s.mergeReady d p.2 b x && !(s.whip d).store.contains (p.2, b)).map fun b => (p.2, b)).flatten

/-- The merge store takes buckets whose slots are all final, up to 16 (R251); one whose slot has been emptied leaves it. -/
def State.storeFill (s : State) (d : Nat) : State :=
  let w := s.whip d
  let keep := w.store.filter fun p => ((s.xrec? d p.1).map (s.xrecv d)).any fun x => s.mergeReady d p.1 p.2 x
  let s := s.setWhip d { w with store := keep }
  s.setWhip d { w with store := keep ++ (s.mergeWaits d).take (16 - keep.length) }

/-- *Receiver actions* on a fragment in force (R249); none where its write to the staging area must wait. -/
def State.fragTake (s : State) (d : Nat) (m : FragMsg) : Option State :=
  let i := fld m.h1 7 0
  let b := fld m.h1 31 8
  let snd := fld m.h1 46 32
  let e := fld m.h0 55 48
  match (s.xrec? d i).map (s.xrecv d) with
  | none => some s
  | some x =>
    let w := s.whip d
    let r := w.rxOf i b snd
    let put (r : SlotRx) := (s.setWhip d (w.putRx r)).storeFill d
    match fld m.h0 59 56 with
    | 1 | 2 =>
      if e < r.h ∨ r.fin then some (s.whipStale d x.ctx)
      else
        match s.ctxWrite (.die d) x.ctx (x.slotAddr b snd) ((fragBytes m).take x.slotBytes) with
        | .error err => s.memFail (.whip d) 3 x.ctx err
        | .ok s' => some (s'.setWhip d (w.putRx { r with h := e, held := some e }))
    | 3 => some (if e < r.h then s.whipStale d x.ctx else put { r with h := e + 1, held := none, fin := false })
    | 4 => some (if r.held = some e then put { r with fin := true } else s.whipError d 1 1 i snd b x.ctx)
    | _ => some s

/-- A fragment message reaches a whipping unit (R247, R249). -/
def State.fragRecv (s : State) (d : Nat) (m : FragMsg) : Option State :=
  if s.fragStale d m then some (s.whipStale d (fld m.h3 9 8)) else s.fragTake d m

/-- Other members that receive a bucket: how many, the route set, and the destination; a follower sends only to its bridge, a bridge to none (14 R375, R376). -/
def State.fragDests (s : State) (d : Nat) (x : XRec) (b : Nat) : Nat × Nat × Option Nat :=
  match s.pairOf d x with
  | some p => if p.1.group < 2 then (1, p.1.route, none) else (0, x.route, none)
  | none => if x.owner then (b01 (!(x.goesTo b x.mem)), x.route, some (b * x.group / x.buckets)) else (x.group - 1, x.route, none)

/-- Sends a message to every receiver of a bucket; the unit's own contribution is delivered internally (R247). None where that delivery must wait. -/
def State.fragSend (s : State) (d : Nat) (x : XRec) (b : Nat) (total : Option RegName) (m : FragMsg) : Option State :=
  let t := s.fragDests d x b
  let s := match total with
    | some n => s.bump (whipR n d) t.1
    | none => s
  let s := s.bump (whipR .BYTES_SENT_TOTAL d) (t.1 * (fragBytes m).length)
  let s := if t.1 = 0 then s else s.send (.frag t.2.1 t.2.2 m)
  if s.bridges d x || (!s.follows d x && x.goesTo b x.mem) then s.fragTake d m else some s

/- Compression (R242–R246). -/

/-- Magnitude order of R244: NaN above infinity above finite values. -/
def rankGt (a b : W32) : Bool :=
  match f32 a, f32 b with
  | .nan, .nan => false
  | .nan, _ => true
  | _, .nan => false
  | x, y => y.abs.lt x.abs

/-- Inserts an element into a list ranked in descending order, behind its equals. -/
def rankInsert (p : Nat × W32) : List (Nat × W32) → List (Nat × W32)
  | [] => [p]
  | q :: t => if rankGt p.2 q.2 then p :: q :: t else q :: rankInsert p t

/-- Indices of the first min(K, length) elements in rank order. -/
def topk (k : Nat) (xs : List W32) : List Nat :=
  ((((xs.zipIdx).map fun p => (p.2, p.1)).foldl (fun l p => rankInsert p l) []).take k).map Prod.fst

/-- BF16(x) of R244, +0 for a zero. -/
def bf16Of (w : W32) : Nat :=
  let c := (FF.bf16.encode false (f32 w)).1
  if c = 0x8000 then 0 else c

/-- Residual e' = rnd(x − d), +0 where x is not finite (R242). -/
def residOf (x : W32) (d : Fl) : W32 := if (f32 x).isFin then (let r := toF32 ((f32 x).sub d); if (f32 r).isNan then 0x7FC00000 else r) else 0

/-- SIGN scale: rnd(Σ|x| / m) (R246). -/
def signScale (xs : List W32) : W32 :=
  if xs.any fun x => !(f32 x).isFin then 0x7FC00000
  else toF32 ((xs.foldl (fun (a : Fl) x => a.add (f32 x).abs) Fl.zero).div (.ofInt xs.length))

/-- The fragment and residuals of a bucket whose inputs are x (R243–R246). -/
def State.compress (s : State) (x : XRec) (i b epoch : Nat) (xs : List W32) : FragMsg × List W32 :=
  if x.mode = 0 then
    let sel := topk x.k xs
    let vals := (xs.zipIdx).map fun p => if sel.contains p.2 then bf16Of p.1 else 0
    let sent := (vals.zipIdx).filter fun p => p.1 ≠ 0
    let pay := (sent.map fun p => leBytes 4 (p.1 + p.2 * 2 ^ 16)).flatten
    (s.fragHead x i 1 epoch b sent.length 0 pay,
     (xs.zip vals).map fun p => residOf p.1 (FF.bf16.decode p.2))
  else
    let sc := signScale xs
    let neg (w : W32) : Bool := (f32 w).lt .zero
    let bitsOf := bitmap (((xs.zipIdx).filter fun p => neg p.1).map Prod.snd)
    (s.fragHead x i 2 epoch b xs.length sc.toNat (leBytes (cdiv xs.length 64 * 8) bitsOf),
     xs.map fun w => residOf w (if neg w then (f32 sc).neg else f32 sc))

/-- Splits bytes into FP32 words. -/
def words32 (bs : List Byte) : List W32 := (chunks 4 (bs.length + 1) bs).map fun c => BitVec.ofNat 32 (leNat c)

/-- Compresses and sends bucket b of record i at its current epoch; none where an access must wait. -/
def State.bucketSend (s : State) (d i b : Nat) (x : XRec) : Option State :=
  let n := x.bucketLen b
  let off := 4 * 4096 * b
  let t := (s.whip d).txOf i b
  match s.ctxRead (.die d) x.ctx (x.plane (s.logline + 1) + off) (4 * n) with
  | .error e => s.memFail (.whip d) 3 x.ctx e
  | .ok eb =>
    let g := (List.range n).map fun j => s.gradElem d x b j
    let xs := (g.zip (words32 eb)).map fun p => toF32 ((f32 p.1).add (f32 p.2))
    let r := s.compress x i b t.epoch xs
    match (s.ctxLoad (.die d) x.ctx (x.plane (s.logline + 1) + off) (4 * n)).ctxWrite (.die d) x.ctx (x.plane s.logline + off)
      ((r.2.map fun w => leBytes 4 w.toNat).flatten) with
    | .error e => s.memFail (.whip d) 3 x.ctx e
    | .ok s =>
      let bad := (xs.filter fun w => !(f32 w).isFin).length
      let s := s.bump (whipR .WH_NONFINITE_TOTAL d) bad
      let s := if bad = 0 then s else s.whipError d 2 0 i 0 b x.ctx
      let s := s.bump (whipR .BUCKET_TOTAL d) 1
      let s := s.setWhip d ((s.whip d).putTx { t with sent := true })
      s.fragSend d x b (some .FRAG_SENT_TOTAL) r.1

/-- FINAL for a sent bucket whose tiles are all accepted (R248). -/
def State.bucketFinal (s : State) (d i b : Nat) (x : XRec) : Option State :=
  let t := (s.whip d).txOf i b
  if t.sent && !t.fin && s.tilesAll d x b (·.accepted) then
    let s := s.setWhip d ((s.whip d).putTx { t with fin := true })
    s.fragSend d x b none (s.fragHead x i 4 t.epoch b 0 0 [])
  else some s

/-- The units work in the step: RUNNING or DRAINING, for an ACTIVE context (R270, R400). -/
def State.whipOn (s : State) (x : XRec) : Bool := s.entered && s.live x.ctx

/-- A cancel for (site, tile, epoch) (R248): the tile's report is withdrawn, and none of that epoch counts from then on; a bucket already compressed sends CANCEL and rises one epoch. -/
def State.whipCancel (s : State) (d site tile epoch : Nat) : State :=
  let w := s.whip d
  let s := s.setWhip d { w with tiles := w.tiles.filter fun n => ¬(n.site = site ∧ n.tile = tile ∧ n.epoch = epoch)
                                cancelled := (site, tile, epoch) :: w.cancelled }
  ((w.records.zipIdx).filter fun p => (xrec p.1).names site tile).foldl (fun s p =>
    let x := xrec p.1
    let b := x.bucketOf tile
    let t := (s.whip d).txOf p.2 b
    if t.sent && !t.fin then
      let s := s.setWhip d ((s.whip d).putTx { t with epoch := t.epoch + 1, sent := false })
      (s.fragSend d x b (some .CANCEL_TOTAL) (s.fragHead x p.2 3 t.epoch b 0 0 [])).getD s
    else s) s

/- BUCKET rings (R253). -/

/-- Bytes of one output value. -/
def XRec.outBytes (x : XRec) : Nat := if x.f32out then 4 else 2
/-- Elements of a full ring bucket. -/
def XRec.ringLen (x : XRec) : Nat := x.mib * 2 ^ 20 / x.outBytes
/-- Number of ring buckets. -/
def XRec.rings (x : XRec) : Nat := cdiv x.elems x.ringLen
/-- First element and length of chunk c of ring bucket r. -/
def XRec.chunk (x : XRec) (r c : Nat) : Nat × Nat :=
  let base := r * x.ringLen
  let len := min x.ringLen (x.elems - base)
  let q := cdiv len x.group
  (base + c * q, min q (len - c * q))

/-- Rounds to OUT_FMT with SAT_WIDE = 0; a result of −0 is written as +0 (R253, R250, 02 R62). -/
def XRec.outCode (x : XRec) (v : Fl) : Nat :=
  let c := ((if x.f32out then FF.fp32 else FF.bf16).encode false v).1
  if c = (if x.f32out then 2 ^ 31 else 2 ^ 15) then 0 else c
/-- Value of an OUT_FMT code. -/
def XRec.outVal (x : XRec) (c : Nat) : Fl := (if x.f32out then FF.fp32 else FF.bf16).decode c

/-- The bridge's merged value of an element (14 R376). -/
def State.bridgeElem (s : State) (d i g : Nat) : W32 :=
  match (s.whip d).bridged.find? fun t => t.1 = i ∧ t.2.1 = g / 4096 with
  | some t => nth t.2.2 0 (g % 4096)
  | none => 0

/-- Own values of a chunk: the gradient, or at a bridge the exact merge of its compressed record (R253, 14 R376). -/
def State.ownChunk (s : State) (d : Nat) (x : XRec) (r c : Nat) : List W32 :=
  let q := x.chunk r c
  match s.pairFor d x with
  | some p => (List.range q.2).map fun i => s.bridgeElem d p.2 (q.1 + i)
  | none => (List.range q.2).map fun i => let g := q.1 + i; s.gradElem d x (g / 4096) (g % 4096)

/-- Ring state of a record. -/
def Whip.ringOf (w : Whip) (i : Nat) : RingSt :=
  (w.rings.find? fun t => t.rcd = i).getD { rcd := i }
/-- Stores a ring state. -/
def Whip.putRing (w : Whip) (t : RingSt) : Whip := { w with rings := t :: w.rings.filter fun u => u.rcd ≠ t.rcd }

/-- A DENSE message of chunk c of ring bucket r, whose values begin at element `off` of the chunk. -/
def State.denseMsg (s : State) (x : XRec) (i r c : Nat) (second : Bool) (off : Nat) (vals : List Nat) : DenseMsg :=
  let h := s.fragHead x i 6 0 r 0 0 []
  { h0 := h.h0, h1 := h.h1, h3 := h.h3, chunk := c, second := second, off := off, vals := vals }

/-- Elements of a DENSE message at most: its COUNT has 13 bits (R247). -/
def denseMax : Nat := 8191

/-- A chunk's values in pieces that fit a message each, with the place of their first element (13 R348). -/
def densePieces {α : Type} (l : List α) : List (Nat × List α) := ((piecesOf denseMax (l.length + 1) l).zipIdx).map fun p => (denseMax * p.2, p.1)

/-- Ties DONE_KNOT of a record once in the step (R249, R251). -/
def State.whipDone (s : State) (d i : Nat) (x : XRec) : State :=
  let w := s.whip d
  if w.doneTied.contains i then s
  else (s.setWhip d { w with doneTied := i :: w.doneTied }).knotUnit d x.ctx x.knot .whip .tie

/-- Every element of a 4,096-element bucket has been written. -/
def XRec.covered (x : XRec) (written : List (Nat × Nat × Nat × Nat)) (b : Nat) : Bool :=
  (List.range (x.bucketLen b)).all fun j =>
    let g := 4096 * b + j
    written.any fun w => let a := (x.chunk w.1 w.2.1).1 + w.2.2.1; decide (a ≤ g) && decide (g < a + w.2.2.2)

/-- A bridge sends one bucket that is now whole to its followers: to the owner, or to all (14 R376). None where its read must wait. -/
def State.fanSend (s : State) (d i : Nat) (x c : XRec) (b : Nat) : Option State :=
  let t := (s.whip d).ringOf i
  let s := s.setWhip d ((s.whip d).putRing { t with fan := b :: t.fan })
  let owner := b * c.group / c.buckets
  let others := if c.owner then b01 (decide (owner ≠ c.mem)) else c.group - 1
  if others = 0 then some s else
  let a := x.outBase + 4096 * b * x.outBytes
  match s.ctxRead (.die d) x.ctx a (x.bucketLen b * x.outBytes) with
  | .error e => s.memFail (.whip d) 3 x.ctx e
  | .ok bs =>
    let vals := (chunks x.outBytes (bs.length + 1) bs).map leNat
    let s := ((s.ctxLoad (.die d) x.ctx a bs.length).bump (whipR .FRAG_SENT_TOTAL d) others).bump (whipR .BYTES_SENT_TOTAL d) (others * (32 + bs.length))
    let m := s.denseMsg c i b 0 true 0 vals
    if c.owner then some (s.send (.dense c.route owner m))
    else some (((List.range c.group).filter (· ≠ c.mem)).foldl (fun s k => s.send (.dense c.route k m)) s)

/-- Every bucket that is now whole goes to the followers. -/
def State.fanOut (s : State) (d i : Nat) (x c : XRec) : Option State :=
  let t := (s.whip d).ringOf i
  ((List.range x.buckets).filter fun b => !t.fan.contains b && x.covered t.written b).foldlM (fun s b => s.fanSend d i x c b) s

/-- Writes part of a finished chunk to OUT_BASE, at a bridge sends it on to the followers, and ties DONE_KNOT after the last. None where an access must wait. -/
def State.ringWrite (s : State) (d i : Nat) (x : XRec) (r c off : Nat) (vals : List Nat) : Option State :=
  let q := x.chunk r c
  match s.ctxWrite (.die d) x.ctx (x.outBase + (q.1 + off) * x.outBytes) ((vals.map fun v => leBytes x.outBytes v).flatten) with
  | .error e => s.memFail (.whip d) 3 x.ctx e
  | .ok s => do
    let t := (s.whip d).ringOf i
    let w := (r, c, off, vals.length)
    let t := { t with written := w :: t.written.filter (· ≠ w) }
    let s := s.setWhip d ((s.whip d).putRing t)
    let s ← match s.pairFor d x with
      | some p => s.fanOut d i x p.1
      | none => some s
    if (t.written.map fun w => w.2.2.2).sum = x.elems then s.whipDone d i x else s

/-- Sends a DENSE message to the next member of the ring. -/
def State.ringSend (s : State) (d : Nat) (x : XRec) (m : DenseMsg) : State :=
  let s := (s.bump (whipR .FRAG_SENT_TOTAL d) 1).bump (whipR .BYTES_SENT_TOTAL d) (32 + x.outBytes * m.vals.length)
  s.send (.dense x.route ((x.mem + 1) % x.group) m)

/-- Member c ends the reduction of part of chunk c: the scaled sum is written and starts its second trip. -/
def State.ringEnd (s : State) (d i : Nat) (x : XRec) (r c off : Nat) (sums : List Fl) : Option State :=
  let vals := sums.map fun v => x.outCode (v.mul (f32n x.scale))
  (s.ringWrite d i x r c off vals).map fun s => if x.group = 1 then s else s.ringSend d x (s.denseMsg x i r c true off vals)

/-- One DENSE message of a started ring (R253). -/
def State.ringTake (s : State) (d i : Nat) (x : XRec) (m : DenseMsg) : Option State :=
  let r := fld m.h1 31 8
  if m.second then
    (s.ringWrite d i x r m.chunk m.off m.vals).map fun s =>
      if (x.mem + 1) % x.group = m.chunk then s else s.ringSend d x (s.denseMsg x i r m.chunk true m.off m.vals)
  else
    let own := (s.ownChunk d x r m.chunk).drop m.off
    let sums := (m.vals.zip own).map fun p => x.outCode (rnd32 ((x.outVal p.1).add (f32 p.2)))
    if m.chunk = x.mem then s.ringEnd d i x r m.chunk m.off (sums.map x.outVal)
    else some (s.ringSend d x (s.denseMsg x i r m.chunk false m.off sums))

/-- A ring bucket may enter the ring: every tile is accepted, or at a bridge every bucket it covers is merged (R253, 14 R376). -/
def State.ringReady (s : State) (d : Nat) (x : XRec) (r : Nat) : Bool :=
  match s.pairFor d x with
  | some p =>
    let lo := r * x.ringLen
    let hi := min (lo + x.ringLen) x.elems
    decide (2 ≤ x.group) && (List.range (cdiv hi 4096 - lo / 4096)).all fun k => (s.whip d).merged.contains (p.2, lo / 4096 + k)
  | none => (List.range x.buckets).all fun b => s.tilesAll d x b (·.accepted)

/-- One ring bucket enters the ring: the member's first chunk leaves, and messages that came early are taken. -/
def State.ringEnter (s : State) (d i : Nat) (x : XRec) (r : Nat) : Option State := do
  let t := (s.whip d).ringOf i
  let mineOf (m : DenseMsg) : Bool := decide (fld m.h1 31 8 = r)
  let s := s.setWhip d ((s.whip d).putRing { t with went := r :: t.went, early := t.early.filter fun m => !mineOf m })
  let c := (x.mem + x.group - 1) % x.group
  let own := (s.ownChunk d x r c).map fun w => x.outCode (f32 w)
  let s ← (densePieces own).foldlM (fun s p =>
    if x.group = 1 then s.ringEnd d i x r c p.1 (p.2.map x.outVal)
    else some (s.ringSend d x (s.denseMsg x i r c false p.1 p.2))) s
  (t.early.filter mineOf).foldlM (fun s m => s.ringTake d i x m) s

/-- Starts the ring buckets of a BUCKET record that may enter the ring (R253); one whose accesses must wait starts later. -/
def State.ringStart (s : State) (d i : Nat) (x : XRec) : State :=
  if x.mode ≠ 2 ∨ !s.whipOn x then s
  else ((List.range x.rings).filter fun r => !((s.whip d).ringOf i).went.contains r && s.ringReady d x r).foldl
    (fun s r => (s.ringEnter d i x r).getD s) s

/-- A follower writes a bucket that its bridge sent, and ties DONE_KNOT after the last that R240 assigns to it (14 R375). None where the write must wait. -/
def State.followTake (s : State) (d i : Nat) (x c : XRec) (m : DenseMsg) : Option State :=
  let b := fld m.h1 31 8
  if !c.goesTo b c.mem then some s else
  let at_ := x.outBase + ((if c.owner then c.rank b c.mem else b) * 4096 + m.off) * x.outBytes
  match s.ctxWrite (.die d) x.ctx at_ ((m.vals.map fun v => leBytes x.outBytes v).flatten) with
  | .error e => s.memFail (.whip d) 3 x.ctx e
  | .ok s =>
    let t := (s.whip d).ringOf i
    let t := { t with fan := b :: t.fan.filter (· ≠ b) }
    let s := s.setWhip d ((s.whip d).putRing t)
    some (if (c.received c.mem).all t.fan.contains then s.whipDone d i x else s)

/-- A DENSE message that has come in (R253, 14 R375); none where a write must wait. -/
def State.denseTake (s : State) (d : Nat) (m : DenseMsg) : Option State :=
  let f : FragMsg := { h0 := m.h0, h1 := m.h1, h2 := 0, h3 := m.h3, payload := [] }
  let i := fld m.h1 7 0
  let s := s.bump (whipR .FRAG_RECV_TOTAL d) 1
  if s.fragStale d f then some (s.whipStale d (fld m.h3 9 8)) else
  match s.xrec? d i with
  | none => some s
  | some x =>
    if x.mode ≠ 2 then some s else
    let t := (s.whip d).ringOf i
    let early := s.setWhip d ((s.whip d).putRing { t with early := t.early ++ [m] })
    match s.pairFor d x with
    | some p =>
      if x.group < 2 then s.followTake d i x p.1 m
      else if t.went.contains (fld m.h1 31 8) then s.ringTake d i x m
      else some early
    | none => if t.went.contains (fld m.h1 31 8) then s.ringTake d i x m else some (early.ringStart d i x)

/-- DENSE. -/
def execDenseMsg (die : Nat) (m : DenseMsg) (s : State) : Out :=
  if 2 ≤ die then .fault .noSuchPart else .next (s.arrive (.denseMsg die m) fun s => s.denseTake die m)

/- The tile tap (R241). -/

/-- Order of stored positions: row, then column. -/
def posInsert (a : Nat × Nat) : List (Nat × Nat) → List (Nat × Nat)
  | [] => [a]
  | b :: t => if a.1 < b.1 ∨ (a.1 = b.1 ∧ a.2 ≤ b.2) then a :: b :: t else b :: posInsert a t

/-- Starts what BUCKET records of a die may. -/
def State.ringsStart (s : State) (d : Nat) : State :=
  ((s.whip d).records.zipIdx).foldl (fun s p => s.ringStart d p.2 (xrec p.1)) s

/-- Blocks of a tile, written by one operation, are reported to a die's whipping unit when a record of it names the tile (R241): they are accepted as they are written where no guard entry names the operation. A cancelled epoch counts no more (R248). -/
def State.tileReport (s : State) (d site tile epoch : Nat) (loc : TileLoc) (guard : Option Nat) : State :=
  let w := s.whip d
  if (w.records.any fun r => (xrec r).names site tile) && !w.cancelled.contains (site, tile, epoch) then
    let old := w.tiles.find? fun m => m.site = site ∧ m.tile = tile ∧ m.epoch = epoch
    let wait := (old.map fun m => m.wait.filter fun a => !loc.ats.contains (a.1, a.2.1)).getD []
    let ats := ((old.map fun m => m.loc.ats.filter fun a => !loc.ats.contains a).getD []) ++ loc.ats
    let n : WhipTile := { site := site, tile := tile, epoch := epoch, loc := { loc with ats := ats.foldr posInsert [] }
                          wait := wait ++ (match guard with | some g => loc.ats.map fun a => (a.1, a.2, g) | none => []) }
    let s := s.setWhip d { w with tiles := n :: w.tiles.filter fun m => ¬(m.site = site ∧ m.tile = tile) }
    if n.accepted then s.ringsStart d else s
  else s

/-- The error-control unit of a core accepts what guard entry g produced of a tile (R241). -/
def State.tileAccept (s : State) (d site tile epoch core g : Nat) : State :=
  let w := s.whip d
  let s := s.setWhip d { w with tiles := w.tiles.map fun n =>
    if n.site = site ∧ n.tile = tile ∧ n.epoch = epoch ∧ n.loc.core = core then { n with wait := n.wait.filter fun a => a.2.2 ≠ g } else n }
  s.ringsStart d

/- Arrivals (R249) and merge (R250, R251). -/

/-- A fragment message of one kind arrives. -/
def fragArrive (die kind : Nat) (m : FragMsg) (i : Instr) (s : State) : Out :=
  if 2 ≤ die then .fault .noSuchPart
  else if fld m.h0 59 56 ≠ kind then .next s
  else
    .next (s.arrive i fun s => (if kind ≤ 2 then s.bump (whipR .FRAG_RECV_TOTAL die) 1 else s).fragRecv die m)

/-- TOPK arrives. -/
def execTopkMsg (die : Nat) (m : FragMsg) (s : State) : Out := fragArrive die 1 m (.topkMsg die m) s
/-- SIGN arrives. -/
def execSignMsg (die : Nat) (m : FragMsg) (s : State) : Out := fragArrive die 2 m (.signMsg die m) s
/-- CANCEL arrives. -/
def execCancelMsg (die : Nat) (m : FragMsg) (s : State) : Out := fragArrive die 3 m (.cancelMsg die m) s
/-- FINAL arrives. -/
def execFinalMsg (die : Nat) (m : FragMsg) (s : State) : Out := fragArrive die 4 m (.finalMsg die m) s

/-- The contribution of a staged fragment to the cells of a bucket of n elements (R250). -/
def fragCells (n : Nat) (bs : List Byte) : List XCell :=
  let h0 := w64 (leNat (bs.take 8))
  let h2 := w64 (leNat ((bs.drop 16).take 8))
  let pay := bs.drop 32
  if fld h0 59 56 = 1 then
    let es := (words32 (pay.take (4 * fld h2 12 0))).map BitVec.toNat
    (List.range n).map fun j => (es.filter fun e => bits e 27 16 = j).foldl
      (fun c e => c.addVal (FF.bf16.decode (bits e 15 0))) {}
  else
    let sc := f32n (fld h2 63 32)
    let b := leNat (pay.take 512)
    (List.range n).map fun j => ({} : XCell).addVal (if nbit b j then sc.neg else sc)

/-- The exact sums of a bucket over its staged fragments. -/
def State.mergeCells (s : State) (d : Nat) (x : XRec) (b : Nat) : Except MemErr (List XCell) :=
  (List.range x.group).foldl (fun (acc : Except MemErr (List XCell)) m =>
    match acc with
    | .error e => .error e
    | .ok cs =>
      match s.ctxRead (.die d) x.ctx (x.slotAddr b m) x.slotBytes with
      | .error e => .error e
      | .ok bs => .ok (addCells cs (fragCells (x.bucketLen b) bs))) (.ok [])

/-- The reads of a merge are served. -/
def State.mergeLoad (s : State) (d : Nat) (x : XRec) (b : Nat) : State :=
  (List.range x.group).foldl (fun s m => s.ctxLoad (.die d) x.ctx (x.slotAddr b m) x.slotBytes) s

/-- A bucket of the merge store is merged: it leaves the store, and the next that waits comes in. -/
def State.mergeMark (s : State) (d i b : Nat) : State :=
  let w := s.whip d
  (s.setWhip d { w with merged := (i, b) :: w.merged, store := w.store.filter (· ≠ (i, b)) }).storeFill d

/-- Merges a bucket of the merge store and writes it out; none where an access must wait. A bridge's merge becomes its contribution to the ring (14 R376). A bucket whose write fails is not merged. -/
def State.bucketMerge (s : State) (d i b : Nat) (x : XRec) : Option State :=
  match s.mergeCells d x b with
  | .error e => s.memFail (.whip d) 3 x.ctx e
  | .ok cs =>
    let s1 := s.mergeLoad d x b
    match s1.pairOf d x with
    | some p =>
      let s := s1.mergeMark d i b
      let w := s.whip d
      some ((s.setWhip d { w with bridged := (i, b, cs.map XCell.toF32) :: w.bridged }).ringStart d p.2 p.1)
    | none =>
      let out := (cs.map fun c => leBytes x.outBytes (x.outCode (c.value.mul (f32n x.scale)))).flatten
      let at_ := x.outBase + (if x.owner then x.rank b x.mem else b) * 4096 * x.outBytes
      match s1.ctxWrite (.die d) x.ctx at_ out with
      | .error e => s.memFail (.whip d) 3 x.ctx e
      | .ok s =>
        let s := s.mergeMark d i b
        some (if (x.received x.mem).all fun b => (s.whip d).merged.contains (i, b) then s.whipDone d i x else s)

/-- BUCKET_MERGE (R250, R251, 14 R376); `stalls` is the cycles that buckets have waited for room in the full merge store. -/
def execBucketMerge (die rcd bucket stalls : Nat) (s : State) : Out :=
  if 2 ≤ die ∨ 256 ≤ rcd then .fault .noSuchPart else
  match (s.xrec? die rcd).map (s.xrecv die) with
  | none => .next s
  | some x =>
    if !s.whipOn x || !s.mergeReady die rcd bucket x || !(s.whip die).store.contains (rcd, bucket) then .next s else
    .next (((s.bump (whipR .MERGE_STALL_TOTAL die) (if (s.whip die).store.length = 16 then stalls else 0)).bucketMerge die rcd bucket x).getD s)

end Sys2Proof.Machine
end

