-- ==== Sys2Proof/Machine/Capstan.lean ====
section
/-! DEFINITION. Capstans and schedule engines: passes, optimisers, microprograms, clipping, veto, commit words, schedules (08 R210–R236). -/

namespace Sys2Proof.Machine

/- Records (R210, R211). -/

/-- A decoded Capstan tensor record. -/
structure CapRec where
  opt : Nat
  nest : Bool
  freeze : Nat
  momL8 : Bool
  gradF32 : Bool
  work : Nat
  keep : Nat
  clip : Nat
  sched : Nat
  tracked : Bool
  headroom : Nat
  ctx : Nat
  mprog : Nat
  gradKnot : Nat
  doneKnot : Nat
  rows : Nat
  cols : Nat
  tid : Nat
  first : Nat
  blocks : Nat
  slot0 : Nat
  slot1 : Nat
  grad : Nat
  mask : Nat
  commit : Nat
  lrScale : W32
  wd : W32
  b1 : W32
  b2 : W32
  eps : W32
  t0 : Nat
  m1t : Nat
  m2t : Nat
  wt : Nat
  k : List W32
deriving DecidableEq, Repr

/-- Decodes a Capstan record's words. -/
def capRec (ws : List W64) : CapRec :=
  let w (i : Nat) := nth ws 0 i
  let lo (i : Nat) : W32 := (w i).truncate 32
  let hi (i : Nat) : W32 := BitVec.ofNat 32 (fld (w i) 63 32)
  { opt := fld (w 0) 1 0, nest := bit (w 0) 2, freeze := fld (w 0) 4 3, momL8 := bit (w 0) 5, gradF32 := bit (w 0) 6
    work := fld (w 0) 8 7, keep := fld (w 0) 10 9, clip := fld (w 0) 14 11, sched := fld (w 0) 17 15, tracked := bit (w 0) 18
    headroom := fld (w 0) 22 19, ctx := fld (w 0) 24 23, mprog := fld (w 0) 27 25, gradKnot := fld (w 0) 39 28
    doneKnot := fld (w 0) 51 40, rows := fld (w 1) 23 0, cols := fld (w 1) 47 24, tid := fld (w 1) 63 48
    first := fld (w 2) 39 0, blocks := fld (w 2) 63 40, slot0 := fld (w 3) 47 0, slot1 := fld (w 4) 47 0
    grad := fld (w 5) 47 0, mask := fld (w 6) 47 0, commit := fld (w 7) 47 0, lrScale := lo 8, wd := hi 8, b1 := lo 9, b2 := hi 9
    eps := lo 10, t0 := (w 11).toNat, m1t := fld (w 12) 31 0, m2t := fld (w 12) 63 32, wt := fld (w 13) 31 0
    k := [hi 13, lo 14, hi 14, lo 15] }

/-- Capstan register. -/
def capR (n : RegName) (st : Nat) (i : Nat := 0) : RegId := rid n (.stack st) i

/-- Parameters of a shard. -/
def CapRec.n (r : CapRec) : Nat := 16 * r.blocks

/- Microprogram operations (R220). -/

/-- OP of a microprogram operation. -/
def mpOp (w : W32) : Nat := bits w.toNat 31 27
/-- Destination register. -/
def mpD (w : W32) : Nat := bits w.toNat 26 23

/-- Operations before END. -/
def mpBody (p : List W32) : List W32 := (p.take 32).takeWhile fun w => mpOp w ≠ 0

/-- A microprogram writes register d. -/
def mpWrites (p : List W32) (d : Nat) : Bool := (mpBody p).any fun w => mpD w = d

/-- The record has a first moment plane. -/
def CapRec.hasM1 (r : CapRec) (c : Cap) : Bool := r.opt ≠ 3 || mpWrites (nth c.mprogs [] r.mprog) 1
/-- The record has a second moment plane. -/
def CapRec.hasM2 (r : CapRec) (c : Cap) : Bool := r.opt = 1 || (r.opt = 3 && mpWrites (nth c.mprogs [] r.mprog) 2)

/-- Bytes of a moment's element plane, and of its scale plane. -/
def CapRec.momBytes (r : CapRec) : List Nat := if r.momL8 then [r.n, r.n / 16] else [2 * r.n, 0]

/-- Sizes of a slot image's planes: master; then elements and scales of M1, M2, working weight and keep copy; 0 for an absent one (R211). -/
def CapRec.planes (r : CapRec) (c : Cap) : List Nat :=
  [4 * r.n] ++ (if r.hasM1 c then r.momBytes else [0, 0]) ++ (if r.hasM2 c then r.momBytes else [0, 0])
    ++ (match r.work with | 0 => [r.n / 2, r.n / 16] | 1 => [r.n, r.n / 16] | 2 => [2 * r.n, 0] | _ => [0, 0])
    ++ (if r.keep = 0 then [0, 0] else [r.n, r.n / 16])

/-- Offset of plane i: every plane starts on a 2 KiB boundary, a scale plane as its section's elements do (R210, R211; DEDUCED, log 111). -/
def CapRec.offset (r : CapRec) (c : Cap) (i : Nat) : Nat := ((r.planes c).take i).foldl (fun a n => roundUp (a + n) 2048) 0

/-- Bytes of a slot image. -/
def CapRec.slotBytes (r : CapRec) (c : Cap) : Nat := r.offset c 9

/-- The commit word of a record. -/
def State.commitWord (s : State) (u : MemPort) (r : CapRec) : Except MemErr W64 :=
  match s.ctxRead u r.ctx r.commit 8 with
  | .ok bs => .ok (w64 (leNat bs))
  | .error e => .error e

/-- The reads of a list of planes (address, bytes) are served. -/
def State.capLoad (s : State) (st : Nat) (r : CapRec) (l : List (Nat × Nat)) : State := l.foldl (fun s p => s.ctxLoad (.cap st) r.ctx p.1 p.2) s

/-- Base of the slot that a commit word's SLOT names, and of the other one. -/
def CapRec.slotBase (r : CapRec) (slot : Bool) : Nat := if slot then r.slot1 else r.slot0

/-- A shard position beyond the tensor's rows or columns. -/
def CapRec.isPad (r : CapRec) (p : Nat) : Bool :=
  let blk := r.first + p / 16
  let per := cdiv r.cols 4
  let row := 4 * (blk / per) + p % 16 / 4
  let col := 4 * (blk % per) + p % 4
  decide (r.rows ≤ row) || decide (r.cols ≤ col)

/- Planes. -/

/-- Splits bytes into little-endian words of n bytes. -/
def wordsOf (n : Nat) (bs : List Byte) : List Nat := (chunks n (bs.length + 1) bs).map leNat

/-- The freeze mask bits of a shard. -/
def State.capMask (s : State) (st : Nat) (r : CapRec) : Except MemErr (List Bool) :=
  if r.freeze ≠ 2 then .ok (List.replicate r.n false)
  else match s.ctxRead (.cap st) r.ctx r.mask (cdiv r.n 8) with
    | .ok bs => let v := leNat bs; .ok ((List.range r.n).map (nbit v))
    | .error e => .error e

/-- A stored FP32 pattern as every reader takes it: −0 reads as +0 (02 R62). -/
def posWord (w : W32) : W32 := if w = 0x80000000 then 0 else w

/-- Bytes of the gradient plane. -/
def CapRec.gradBytes (r : CapRec) : Nat := (if r.gradF32 then 4 else 2) * r.n

/-- The gradient plane, widened to FP32. -/
def State.capGrad (s : State) (st : Nat) (r : CapRec) : Except MemErr (List W32) :=
  match s.ctxRead (.cap st) r.ctx r.grad r.gradBytes with
  | .ok bs => .ok (if r.gradF32 then (wordsOf 4 bs).map fun v => posWord (BitVec.ofNat 32 v)
      else (wordsOf 2 bs).map fun v => toF32 (FF.bf16.decode v).posZero)
  | .error e => .error e

/-- A moment's planes at their addresses, decoded exactly to FP32 (R215). -/
def State.capMom (s : State) (st : Nat) (r : CapRec) (el sc t : Nat) : Except MemErr (List W32) := do
  let es ← s.ctxRead (.cap st) r.ctx el (nth r.momBytes 0 0)
  if r.momL8 then
    let ss ← s.ctxRead (.cap st) r.ctx sc (r.n / 16)
    let scs := wordsOf 1 ss
    return ((wordsOf 1 es).zipIdx).map fun p => (decodeF32 3 false p.1 (nth scs 0 (p.2 / 16)) t).1
  else return (wordsOf 2 es).map fun v => toF32 (FF.bf16.decode v).posZero

/-- What the norm pass reads of a record: commit word, gradient, mask. -/
def CapRec.normReads (r : CapRec) : List (Nat × Nat) :=
  [(r.commit, 8), (r.grad, r.gradBytes)] ++ (if r.freeze = 2 then [(r.mask, cdiv r.n 8)] else [])

/-- What the update pass reads of a record: the same, and the master and moment planes of the slot at `src`. -/
def CapRec.updReads (r : CapRec) (c : Cap) (src : Nat) : List (Nat × Nat) :=
  r.normReads ++ (((((r.planes c).take 5).zipIdx).filter fun p => p.1 ≠ 0).map fun p => (src + r.offset c p.2, p.1))

/- Arithmetic (R215, R216). -/

/-- rnd of a product. -/
def rmul (a b : W32) : W32 := toF32 ((f32 a).mul (f32 b))
/-- rnd of a sum. -/
def radd (a b : W32) : W32 := toF32 ((f32 a).add (f32 b))
/-- rnd of a difference. -/
def rsub (a b : W32) : W32 := toF32 ((f32 a).sub (f32 b))
/-- rnd of a quotient. -/
def rdiv (a b : W32) : W32 := toF32 ((f32 a).div (f32 b))
/-- fma(a, b, c). -/
def rfma (a b c : W32) : W32 := toF32 (((f32 a).mul (f32 b)).add (f32 c))
/-- rnd of a square root. -/
def rsqrt (a : W32) : W32 := toF32 (f32 a).sqrt
/-- 1.0. -/
def one32 : W32 := 0x3F800000

/-- pow32 of R216, one bit of n per step. -/
def pow32Go : Nat → W32 → W32 → Nat → W32
  | 0, r, _, _ => r
  | f + 1, r, b, n => if n = 0 then r else pow32Go f (if n % 2 = 1 then rmul r b else r) (rmul b b) (n / 2)

/-- pow32(b, n). -/
def pow32 (b : W32) (n : Nat) : W32 := pow32Go 65 one32 b n

/-- The scalars of a record in a step (R216). -/
structure CapScal where
  eta : W32
  decay : W32
  oneB1 : W32
  oneB2 : W32
  c1 : W32
  c2 : W32
deriving DecidableEq, Repr

/-- Forms the scalars from η_s. -/
def capScal (r : CapRec) (etaS : W32) (step : Nat) : CapScal :=
  let eta := rmul r.lrScale etaS
  let t := step - r.t0 + 1
  { eta := eta, decay := rsub one32 (rmul eta r.wd), oneB1 := rsub one32 r.b1, oneB2 := rsub one32 r.b2
    c1 := rsub one32 (pow32 r.b1 t), c2 := rsub one32 (pow32 r.b2 t) }

/-- sign(x): +1, −1, +0 for zeros, NaN for NaN. -/
def sign32 (a : W32) : W32 :=
  let x := f32 a
  if x.isNan then 0x7FC00000 else if x.isZero then 0 else if x.sign then 0xBF800000 else one32

/-- The built-in optimisers (R217): new master and moments of one parameter; `g` is already clipped. -/
def capUpdate (r : CapRec) (k : CapScal) (w m v g : W32) : W32 × W32 × W32 :=
  match r.opt with
  | 0 =>
    let m' := rfma r.b1 m g
    let d := if r.nest then rfma r.b1 m' g else m'
    (rsub (rmul w k.decay) (rmul k.eta d), m', v)
  | 1 =>
    let m' := rfma r.b1 m (rmul k.oneB1 g)
    let v' := rfma r.b2 v (rmul k.oneB2 (rmul g g))
    let dn := radd (rsqrt (rdiv v' k.c2)) r.eps
    (rsub (rmul w k.decay) (rmul k.eta (rdiv (rdiv m' k.c1) dn)), m', v')
  | _ =>
    let u := sign32 (rfma r.b1 m (rmul k.oneB1 g))
    let m' := rfma r.b2 m (rmul k.oneB2 g)
    (toF32 ((f32 (rmul w k.decay)).sub ((f32 k.eta).mul (f32 u))), m', v)

/- The schedule engine (R230, R231). -/

/-- mul(x, y) of Q2.30 fractions. -/
def qmul (x y : Nat) : Nat := (x * y) >>> 30

/-- pow(g, n) of Q2.30 fractions. -/
def qpowGo : Nat → Nat → Nat → Nat → Nat
  | 0, r, _, _ => r
  | f + 1, r, g, n => if n = 0 then r else qpowGo f (if n % 2 = 1 then qmul r g else r) (qmul g g) (n / 2)

/-- cosfrac(p). -/
def cosfrac (p : Nat) : Nat :=
  if p = 2 ^ 32 then 0
  else let j := p >>> 22; let q := p % 2 ^ 22; ct j - (((ct j - ct (j + 1)) * q) >>> 22)

/-- The restart loop: position in the current period and its length; a period that no longer grows is taken modulo. -/
def restart : Nat → Nat → Nat → Nat → Nat × Nat
  | 0, u, len, _ => (u, len)
  | f + 1, u, len, mult =>
    if u < len then (u, len)
    else if mult = 1 ∨ 2 ^ 48 ≤ len then (u % len, len)
    else restart f (u - len) (min (len * mult) (2 ^ 48)) mult

/-- The fraction f of a schedule entry at a step. -/
def schedFrac (e : List W64) (step : Nat) : Nat :=
  let w (i : Nat) := nth e 0 i
  let s0 := fld (w 3) 47 0
  let warm := fld (w 0) 63 32
  let floor := fld (w 1) 61 31
  if step < s0 then 0 else
  let a := step - s0
  if a < warm then let ws := fld (w 1) 30 0; ws + (2 ^ 30 - ws) * (a + 1) / warm
  else
    let u := a - warm
    let len := fld (w 2) 31 0
    match fld (w 1) 63 62 with
    | 0 => 2 ^ 30
    | 3 => floor + qmul (2 ^ 30 - floor) (qpowGo 65 (2 ^ 30) (fld (w 2) 62 32) (u / len))
    | kind =>
      let mult := fld (w 3) 55 48
      let r := if mult = 0 then (u, len) else restart 64 u len mult
      let p := min (2 ^ 32) (2 ^ 32 * r.1 / r.2)
      let d := if kind = 1 then cosfrac p else 2 ^ 30 - p / 4
      floor + qmul (2 ^ 30 - floor) d

/-- η_s of a fraction: BASE_LR × f × 2^−30, rounded once. -/
def schedEta (e : List W64) (f : Nat) : W32 := toF32 ((f32n (fld (nth e 0 0) 31 0)).mul (.fin false f (-30)))

/-- Computes every entry of every base die for the step (in ARMED, R231). -/
def State.schedAll (s : State) : State :=
  (List.range 8).foldl (fun s st => ((s.cap st).sched.zipIdx).foldl (fun s p =>
    s.setReg (capR .SCHED_ETA st p.2) (w64 (schedEta p.1 (schedFrac p.1 s.logline)).toNat)) s) s

/-- A write to SCHED_TEST_CTRL: VALID clears and a computation starts (R236). -/
def State.schedTest (s : State) (st : Nat) (mode : Bool) (index entry : Nat) : State :=
  let s := s.setReg (capR .SCHED_TEST_CTRL st) (w64 (entry % 8 + index % 1024 * 8 + b01 mode * 2 ^ 13))
  let s := s.setRegFld (capR .SCHED_TEST_RESULT st) 63 63 0
  let res : W64 :=
    if mode then w64 (2 ^ 63 + ct (if index % 1024 = 0 ∧ entry % 8 = 1 then 1024 else index % 1024) * 2 ^ 32)
    else
      let e := nth (s.cap st).sched [] (entry % 8)
      let f := schedFrac e (s.reg (capR .SCHED_TEST_STEP st)).toNat
      w64 (2 ^ 63 + f * 2 ^ 32 + (schedEta e f).toNat)
  s.onCap st fun c => { c with test := some res }

/-- SCHED_TEST_COMPUTE: MODE 0. -/
def execSchedTestCompute (stack index entry : Nat) (s : State) : Out :=
  guardPart (decide (stack < 8)) (s.schedTest stack false index entry)
/-- SCHED_TEST_CT: MODE 1. -/
def execSchedTestCt (stack index entry : Nat) (s : State) : Out :=
  guardPart (decide (stack < 8)) (s.schedTest stack true index entry)
/-- SCHED_TEST_DONE: the result becomes valid. -/
def execSchedTestDone (stack : Nat) (s : State) : Out :=
  guardPart (decide (stack < 8)) <|
    match (s.cap stack).test with
    | none => s
    | some v => (s.setReg (capR .SCHED_TEST_RESULT stack) v).onCap stack fun c => { c with test := none }

/- Passes (R213, R214, R222–R226). -/

/-- Record i of a Capstan. -/
def State.capRec? (s : State) (st i : Nat) : Option CapRec := ((s.cap st).records[i]?).map capRec

/-- Records with their numbers. -/
def Cap.recs (c : Cap) : List (CapRec × Nat) := (c.records.map capRec).zipIdx

/-- CAP_ERR_DETAIL. -/
def capDetail (code rcd block : Nat) : W64 := w64 (block % 2 ^ 24 + rcd * 2 ^ 36 + code * 2 ^ 48)

/-- Whether a record is skipped in the step (R213); a commit word with VALID = 0 raises CAP_DESC_ERROR once per step (R229). -/
def State.capSkip (s : State) (st i : Nat) (r : CapRec) : Except MemErr (Bool × State) :=
  if r.freeze = 1 ∨ s.logline < r.t0 then .ok (true, s) else
  match s.commitWord (.cap st) r with
  | .error e => .error e
  | .ok w =>
    if bit w 1 then .ok (false, s)
    else if (s.cap st).badCommit.contains i then .ok (true, s)
    else
      let det := capDetail 1 i 0
      let s := (s.capLoad st r [(r.commit, 8)]).onCap st fun c => { c with badCommit := i :: c.badCommit }
      .ok (true, s.raiseDetail (capR .CAP_ERR_DETAIL st) det (.stack st) 0 r.ctx)

/-- The wait of record i on its GRAD_KNOT is over: the knot is tied, or a tie has released the wait (11 R288, R289). -/
def State.gradReady (s : State) (st i : Nat) (r : CapRec) : Bool :=
  let e := s.knotEntry (st / 4) r.ctx r.gradKnot
  kValid e && (s.isTied (st / 4) (kPhys e) || (s.cap st).released.contains i)

/-- The Capstan works in the step, for an ACTIVE context. -/
def State.capOn (s : State) (r : CapRec) : Bool := s.entered && s.live r.ctx

/-- Record i waits on its GRAD_KNOT at the knot store, where a tie releases it; a knot that is not mapped raises the store's error. -/
def State.gradWait (s : State) (st i : Nat) (r : CapRec) : State :=
  if (s.knot (st / 4)).pend.any fun p => p.src = .cap st i then s else s.knotUnit (st / 4) r.ctx r.gradKnot (.cap st i) .wait

/-- Marks a record's norm pass done. -/
def State.normMark (s : State) (st i : Nat) : State := s.onCap st fun c => { c with normDone := i :: c.normDone }

/-- Clipped records of a group on a Capstan. -/
def Cap.ofGroup (c : Cap) (g : Nat) : List Nat := (c.recs.filter fun p => p.1.clip = g).map Prod.snd

/-- The Capstan's cell of a group is complete: its last clipped record has passed. -/
def Cap.groupReady (c : Cap) (g : Nat) : Bool := (c.ofGroup g).all c.normDone.contains

/-- NORM_PASS (R224): the next clipped record in table order, once GRAD_KNOT is tied. -/
def State.normPass (s : State) (st i : Nat) (r : CapRec) : State :=
  match s.capSkip st i r with
  | .error e => s.memErr (.stack st) 8 r.ctx e
  | .ok (true, s) => s.normMark st i
  | .ok (false, s) =>
    if !s.gradReady st i r then s.gradWait st i r else
    match s.capGrad st r, s.capMask st r with
    | .ok gs, .ok ms =>
      let cell := ((gs.zip ms).zipIdx).foldl (fun (c : XCell) p =>
        if p.1.2 || r.isPad p.2 then c else c.addLane (rmul p.1.1 p.1.1)) (sget (s.cap st).cells {} r.clip)
      ((s.capLoad st r r.normReads).onCap st fun c => { c with cells := sset c.cells r.clip cell }).normMark st i
    | .error e, _ => s.memErr (.stack st) 8 r.ctx e
    | _, .error e => s.memErr (.stack st) 8 r.ctx e

/-- The clip factor of a group from its returned cell (R225). -/
def clipFactor (cell : XCell) (mx : W32) : Option W32 × Bool :=
  let nrm := rsqrt cell.toF32
  if !(f32 nrm).isFin then (none, false)
  else if (f32 mx).lt (f32 nrm) then (some (rdiv mx nrm), true)
  else (some one32, false)

/-- Inputs of an update pass: master as stored, moments, gradient, mask, and the bases of the committed and the inactive slot. -/
structure CapIn where
  ws : List W32
  ms : List W32
  vs : List W32
  gs : List W32
  frozen : List Bool
  src : Nat
  dst : Nat
deriving DecidableEq, Repr

/-- Reads the committed slot, gradient and mask of a record. -/
def State.capRead (s : State) (st : Nat) (r : CapRec) : Except MemErr CapIn := do
  let c := s.cap st
  let cw ← s.commitWord (.cap st) r
  let src := r.slotBase (bit cw 0)
  let mb ← s.ctxRead (.cap st) r.ctx src (4 * r.n)
  let ms ← if r.hasM1 c then s.capMom st r (src + r.offset c 1) (src + r.offset c 2) r.m1t else .ok (List.replicate r.n 0)
  let vs ← if r.hasM2 c then s.capMom st r (src + r.offset c 3) (src + r.offset c 4) r.m2t else .ok (List.replicate r.n 0)
  let gs ← s.capGrad st r
  let fr ← s.capMask st r
  return { ws := words32 mb, ms := ms, vs := vs, gs := gs, frozen := fr, src := src, dst := r.slotBase (!bit cw 0) }

/-- Bytes of a moment's element plane and of its scale plane, and its saturations (R218). -/
def momPlane (r : CapRec) (t : Nat) (xs : List W32) : List Byte × List Byte × Nat :=
  if r.momL8 then
    let q : QSpec := { qspecOf 0 0 with dst := 3, tscale := t }
    let bs := (chunks 16 (xs.length + 1) xs).map fun l =>
      quantBlock q t (fun _ => 0) { row := 0, col := 0, els := l.map fun x => { x := f32 x, pad := false, idx := 0, k := 0 } } []
    ((bs.map fun b => b.1.codes.map (BitVec.ofNat 8)).flatten, bs.map (fun b => BitVec.ofNat 8 b.1.scale), (bs.map fun b => b.2.sat).sum)
  else
    let cs := xs.map fun x => FF.bf16.encode true (f32 x).posZero
    ((cs.map fun c => leBytes 2 (if c.1 = 0x8000 then 0 else c.1)).flatten, [], cs.countP (·.2))

/-- Square blocks of a weight under a tensor scale: bytes of the element plane and of the scale plane, saturated, flushed (R219). -/
def workPlane (dst t : Nat) (xs : List W32) : List Byte × List Byte × Nat × Nat :=
  if fsCode dst = 5 then
    let cs := xs.map fun x => FF.bf16.encode true (f32 x).posZero
    ((cs.map fun c => leBytes 2 (if c.1 = 0x8000 then 0 else c.1)).flatten, [], cs.countP (·.2), 0)
  else
    let q : QSpec := { qspecOf 0 0 with dst := dst, tscale := t }
    let bs := (chunks 16 (xs.length + 1) xs).map fun l =>
      quantBlock q t (fun _ => 0) { row := 0, col := 0, els := l.map fun x => { x := f32 x, pad := false, idx := 0, k := 0 } } []
    let c := fsCode dst
    ((bs.map fun b => leBytes (recBytes c) (packCodes16 (elemBits c) b.1.codes)).flatten, bs.map (fun b => BitVec.ofNat 8 b.1.scale),
     (bs.map fun b => b.2.sat).sum, (bs.map fun b => b.2.flushed).sum)
where
  /-- Packs a block's codes (R52). -/
  packCodes16 (w : Nat) (l : List Nat) : Nat := l.foldr (fun c acc => c % 2 ^ w + acc * 2 ^ w) 0

/-- A run of context writes, stopping at the first error. -/
def State.ctxWrites (s : State) (u : MemPort) (ctx : Nat) : List (Nat × List Byte) → Except MemErr State
  | [] => .ok s
  | (a, bs) :: t => match s.ctxWrite u ctx a bs with
    | .ok s => s.ctxWrites u ctx t
    | .error e => .error e

/-- Vetoes a record on this Capstan, once: CAP_NONFINITE with its detail (R226). -/
def State.capVeto (s : State) (st i ctx code block : Nat) : State :=
  if (s.cap st).vetoed.contains i then s else
  let det := capDetail code i block
  let s := s.onCap st fun c => { c with vetoed := i :: c.vetoed }
  (s.bump (capR .CAP_NONFINITE_TOTAL st) 1).raiseDetail (capR .CAP_ERR_DETAIL st) det (.stack st) 1 ctx

/-- Marks a record's update pass done and ties its DONE_KNOT. -/
def State.updMark (s : State) (st i : Nat) (r : CapRec) : State :=
  (s.onCap st fun c => { c with updDone := i :: c.updDone, mp := none }).knotUnit (st / 4) r.ctx r.doneKnot (.cap st i) .tie

/-- The master plane an update pass leaves: a frozen parameter keeps its bits (R223); any other is written as a tensor output, with +0 for a zero and the canonical NaN (02 R62, R63). -/
def CapIn.master (x : CapIn) (outs : List (W32 × W32 × W32)) : List W32 := (outs.zip x.frozen).map fun p => if p.2 then p.1.1 else tensorF32 p.1.1

/-- Ends an update pass: veto, planes of the inactive slot, totals, maxima, DONE_KNOT (R217–R219, R223, R226). None where a write must wait. -/
def State.capFinish (s : State) (st i : Nat) (r : CapRec) (x : CapIn) (outs : List (W32 × W32 × W32)) : Option State :=
  let c := s.cap st
  let ws := x.master outs
  let ms := outs.map (·.2.1)
  let vs := outs.map (·.2.2)
  let bad := ((outs.zip x.frozen).zipIdx).find? fun p => !p.1.2 &&
    (!(f32 p.1.1.1).isFin || (r.hasM1 c && !(f32 p.1.1.2.1).isFin) || (r.hasM2 c && !(f32 p.1.1.2.2).isFin))
  let s := if r.clip ≠ 15 ∧ sget c.clip (some one32) r.clip = none then s.capVeto st i r.ctx 2 0 else s
  let s := match bad with
    | some p => s.capVeto st i r.ctx 3 (p.2 / 16)
    | none => s
  let m1 := momPlane r r.m1t ms
  let m2 := momPlane r r.m2t vs
  let dstW := if r.work = 0 then 0x20 else if r.work = 1 then 0x23 else 0x45
  let t := if r.tracked then trackedScale (sget s.wMax .zero r.tid) dstW r.headroom else r.wt
  let wk := workPlane dstW t ws
  let kp := workPlane (if r.keep = 1 then 0x23 else 0x24) t ws
  let runs := [(x.dst, (ws.map fun w => leBytes 4 w.toNat).flatten)]
    ++ (if r.hasM1 c then [(x.dst + r.offset c 1, m1.1), (x.dst + r.offset c 2, m1.2.1)] else [])
    ++ (if r.hasM2 c then [(x.dst + r.offset c 3, m2.1), (x.dst + r.offset c 4, m2.2.1)] else [])
    ++ (if r.work ≠ 3 then [(x.dst + r.offset c 5, wk.1), (x.dst + r.offset c 6, wk.2.1)] else [])
    ++ (if r.keep ≠ 0 then [(x.dst + r.offset c 7, kp.1), (x.dst + r.offset c 8, kp.2.1)] else [])
  match s.ctxWrites (.cap st) r.ctx runs with
  | .error e => s.memFail (.stack st) 8 r.ctx e
  | .ok s =>
    let frozen := x.frozen.count true
    let b (n : RegName) (k : Nat) (s : State) : State := s.bump (capR n st) k
    let s := b .PARAM_TOTAL (r.n - frozen) (b .FROZEN_TOTAL frozen
      (b .MOM_SAT_TOTAL ((if r.hasM1 c then m1.2.2 else 0) + (if r.hasM2 c then m2.2.2 else 0))
      (b .WORK_SAT_TOTAL ((if r.work ≠ 3 then wk.2.2.1 else 0) + (if r.keep ≠ 0 then kp.2.2.1 else 0))
      (b .WORK_FLUSH_TOTAL ((if r.work ≠ 3 then wk.2.2.2 else 0) + (if r.keep ≠ 0 then kp.2.2.2 else 0)) s))))
    let mx := ws.foldl (fun a w => if (f32 w).isFin then Fl.maxMag a (f32 w) else a) (sget s.wPend .zero r.tid)
    let s := if r.tracked then { s with wPend := sset s.wPend r.tid mx } else s
    some ((s.onCap st fun c => { c with processed := c.processed ++ [i] }).updMark st i r)

/-- The passes before this record's update are done (R213): all norm passes; for a clipped record every unclipped update; and every earlier record of its own pass. -/
def Cap.updTurn (c : Cap) (i : Nat) (r : CapRec) : Bool :=
  (c.recs.all fun p => p.1.clip = 15 || c.normDone.contains p.2)
    && (c.recs.all fun p =>
      if r.clip = 15 then p.1.clip ≠ 15 || decide (i ≤ p.2) || c.updDone.contains p.2
      else p.1.clip = 15 && c.updDone.contains p.2 || (p.1.clip ≠ 15 && (decide (i ≤ p.2) || c.updDone.contains p.2)))

/-- The clip factor in force for a record; a vetoed group's is unstated and so free (its slot is abandoned). -/
def State.clipOf (s : State) (st : Nat) (r : CapRec) : W32 :=
  if r.clip = 15 then one32
  else match sget (s.cap st).clip (some one32) r.clip with
    | some c => c
    | none => Config.vetoClip s.logline st r.clip

/-- Starts a record's update pass: a built-in optimiser runs through; a microprogram begins at its first parameter (R217, R220). -/
def State.updatePass (s : State) (st i : Nat) (r : CapRec) : State :=
  match s.capSkip st i r with
  | .error e => s.memErr (.stack st) 8 r.ctx e
  | .ok (true, s) => s.updMark st i r
  | .ok (false, s) =>
    if r.clip = 15 && !s.gradReady st i r then s.gradWait st i r
    else if r.clip ≠ 15 && (sfind (s.cap st).clip r.clip).isNone then s
    else
      match s.capRead st r with
      | .error e => s.memErr (.stack st) 8 r.ctx e
      | .ok x =>
        let c := s.clipOf st r
        let s0 := s
        let s := s.capLoad st r (r.updReads (s.cap st) x.src)
        if r.opt = 3 then
          s.onCap st fun k => { k with mp := some { rcd := i, c := c, p := 0, pc := 0, regs := [], outs := [] } }
        else
          let k := capScal r (BitVec.ofNat 32 (s.reg (capR .SCHED_ETA st r.sched)).toNat) s.logline
          let outs := ((x.ws.zip (x.ms.zip x.vs)).zip (x.gs.zip x.frozen)).map fun p =>
            if p.2.2 then (p.1.1, p.1.2.1, p.1.2.2) else capUpdate r k (posWord p.1.1) p.1.2.1 p.1.2.2 (rmul c p.2.1)
          (s.capFinish st i r x outs).getD s0

/-- UPDATE_PASS. -/
def execUpdatePass (stack rcd : Nat) (s : State) : Out :=
  guardPart (decide (stack < 8) && decide (rcd < 4096)) <|
    match s.capRec? stack rcd with
    | none => s
    | some r =>
      let c := s.cap stack
      if !s.capOn r ∨ c.updDone.contains rcd ∨ c.mp.isSome ∨ !c.updTurn rcd r then s else s.updatePass stack rcd r

/- Microprograms (R220). -/

/-- Value of a source code for a parameter. -/
def mpSrc (r : CapRec) (k : CapScal) (w m v g : W32) (regs : List W32) (c : Nat) : W32 :=
  if c < 16 then nth regs 0 c
  else match c with
    | 16 => w
    | 17 => m
    | 18 => v
    | 19 => g
    | 20 => k.eta
    | 21 => k.decay
    | 22 => k.c1
    | 23 => k.c2
    | 24 => r.b1
    | 25 => r.b2
    | 26 => k.oneB1
    | 27 => k.oneB2
    | 28 => r.eps
    | 34 => one32
    | c => if 29 ≤ c ∧ c ≤ 32 then nth r.k 0 (c - 29) else 0

/-- VMIN or VMAX rules for a microprogram. -/
def mpMinMax (greater : Bool) (a b : W32) : W32 :=
  let x := f32 a
  let y := f32 b
  if x.isNan || y.isNan then 0x7FC00000
  else if x.isZero && y.isZero then (if greater then a &&& b else a ||| b)
  else if (if greater then y.lt x else x.lt y) then a else b

/-- Result of an operation other than END. -/
def mpResult (op : Nat) (a b c : W32) : W32 :=
  match op with
  | 0x01 => radd a b
  | 0x02 => rsub a b
  | 0x03 => rmul a b
  | 0x04 => rfma a b c
  | 0x05 => rdiv a b
  | 0x06 => rsqrt a
  | 0x07 => mpMinMax false a b
  | 0x08 => mpMinMax true a b
  | 0x09 => toF32 (f32 a).abs
  | 0x0A => toF32 (f32 a).neg
  | 0x0B => sign32 a
  | 0x0C => if (f32 a).lt .zero then b else c
  | _ => a

/-- Passes over frozen parameters from p on: they keep their values. -/
def mpFrozen (x : CapIn) : Nat → Nat → List (W32 × W32 × W32) → Nat × List (W32 × W32 × W32)
  | 0, p, outs => (p, outs)
  | f + 1, p, outs =>
    if nth x.frozen false p then mpFrozen x f (p + 1) ((nth x.ws 0 p, nth x.ms 0 p, nth x.vs 0 p) :: outs) else (p, outs)

/-- One operation of the microprogram in progress, if its OP is the one named. END, or the 32nd operation, ends the parameter; the last parameter ends the pass. -/
def execMp (op stack : Nat) (s : State) : Out :=
  guardPart (decide (stack < 8)) <|
    let c := s.cap stack
    match c.mp with
    | none => s
    | some u =>
      match s.capRec? stack u.rcd with
      | none => s
      | some r =>
        match s.capRead stack r with
        | .error e => s.memErr (.stack stack) 8 r.ctx e
        | .ok x =>
          let f := mpFrozen x (r.n - u.p) u.p u.outs
          let p := f.1
          let prog := nth c.mprogs [] r.mprog
          let w := if u.pc < 32 then nth prog 0 u.pc else 0
          if r.n ≤ p then (s.capFinish stack u.rcd r x f.2.reverse).getD s
          else if mpOp w ≠ op then s
          else
            let k := capScal r (BitVec.ofNat 32 (s.reg (capR .SCHED_ETA stack r.sched)).toNat) s.logline
            let w0 := posWord (nth x.ws 0 p)
            let m0 := nth x.ms 0 p
            let v0 := nth x.vs 0 p
            let regs := if u.pc = 0 then [w0, m0, v0] ++ List.replicate 13 0 else u.regs
            let src (hi lo : Nat) : W32 := mpSrc r k w0 m0 v0 (rmul u.c (nth x.gs 0 p)) regs (bits w.toNat hi lo)
            let regs := if op = 0 then regs else regs.set (mpD w) (mpResult op (src 22 17) (src 16 11) (src 10 5))
            if op ≠ 0 ∧ u.pc < 31 then s.onCap stack fun c => { c with mp := some { u with p := p, pc := u.pc + 1, regs := regs, outs := f.2 } }
            else
              let outs := (nth regs 0 0, nth regs 0 1, nth regs 0 2) :: f.2
              let g := mpFrozen x (r.n - (p + 1)) (p + 1) outs
              if r.n ≤ g.1 then (s.capFinish stack u.rcd r x g.2.reverse).getD s
              else s.onCap stack fun c => { c with mp := some { u with p := g.1, pc := 0, regs := [], outs := g.2 } }

/-- END. -/
def execMpEnd (stack : Nat) (s : State) : Out := execMp 0x00 stack s
/-- ADD. -/
def execMpAdd (stack : Nat) (s : State) : Out := execMp 0x01 stack s
/-- SUB. -/
def execMpSub (stack : Nat) (s : State) : Out := execMp 0x02 stack s
/-- MUL. -/
def execMpMul (stack : Nat) (s : State) : Out := execMp 0x03 stack s
/-- FMA. -/
def execMpFma (stack : Nat) (s : State) : Out := execMp 0x04 stack s
/-- DIV. -/
def execMpDiv (stack : Nat) (s : State) : Out := execMp 0x05 stack s
/-- SQRT. -/
def execMpSqrt (stack : Nat) (s : State) : Out := execMp 0x06 stack s
/-- MIN. -/
def execMpMin (stack : Nat) (s : State) : Out := execMp 0x07 stack s
/-- MAX. -/
def execMpMax (stack : Nat) (s : State) : Out := execMp 0x08 stack s
/-- ABS. -/
def execMpAbs (stack : Nat) (s : State) : Out := execMp 0x09 stack s
/-- NEG. -/
def execMpNeg (stack : Nat) (s : State) : Out := execMp 0x0A stack s
/-- SIGN. -/
def execMpSign (stack : Nat) (s : State) : Out := execMp 0x0B stack s
/-- SELNEG. -/
def execMpSelneg (stack : Nat) (s : State) : Out := execMp 0x0C stack s
/-- MOV. -/
def execMpMov (stack : Nat) (s : State) : Out := execMp 0x0D stack s

/- Commit words (R227). -/

/-- Writes the commit words of a Capstan's processed records that no veto holds, in table order. -/
def State.capCommit (s : State) (st : Nat) (vetoed : Nat → Bool) : State :=
  let c := s.cap st
  ((c.recs.filter fun p => c.processed.contains p.2)).foldl (fun s p =>
    let r := p.1
    if vetoed r.tid then s else
    match s.commitWord (.cap st) r with
    | .error e => s.memErr (.stack st) 8 r.ctx e
    | .ok w =>
      let v := b01 (!bit w 0) + 2 + s.logline % 2 ^ 48 * 2 ^ 16
      match s.ctxWrite (.cap st) r.ctx r.commit (leBytes 8 v) with
      | .error e => s.memErr (.stack st) 8 r.ctx e
      | .ok s => s.bump (capR .COMMIT_TOTAL st) 1) s

/-- A commit word that the step's commit would write cannot be written yet, or not be read. -/
def State.capCommitHeld (s : State) (st : Nat) (vetoed : Nat → Bool) : Bool :=
  let c := s.cap st
  c.recs.any fun p => c.processed.contains p.2 && !vetoed p.1.tid
    && [false, true].any fun w => waits (s.ctxAccess (.cap st) p.1.ctx w (p.1.commit, 8))

/-- TENSOR_IDs vetoed on this module in the step. -/
def State.localVetoes (s : State) : List Nat :=
  ((List.range 8).map fun st => let c := s.cap st; (c.recs.filter fun p => c.vetoed.contains p.2).map fun p => p.1.tid).flatten

/-- Clears a Capstan's progress at the start of a step. -/
def Cap.fresh (c : Cap) : Cap :=
  { c with cells := [], handed := [], clip := [], released := [], normDone := [], updDone := [], processed := [], vetoed := [], badCommit := [], mp := none }

/-- Every Capstan starts its step; records of contexts that are not live are skipped (15 R400). -/
def State.capsFresh (s : State) : State :=
  s.caps.foldl (fun s p => s.onCap p.1 fun c =>
    let skip := (c.recs.filter fun r => !s.live r.1.ctx).map Prod.snd
    { c.fresh with normDone := skip, updDone := skip }) s

/-- Every record of every Capstan has been handled (R214). -/
def State.capsDone (s : State) : Bool :=
  (List.range 8).all fun st => let c := s.cap st; c.recs.all fun p => c.updDone.contains p.2

end Sys2Proof.Machine
end

