-- ==== Sys2Proof/Machine/Quantiser.lean ====
section
/-! DEFINITION. A core's quantiser as a unit: ladder format, tensor scale, block and bight-plane writes, keep rings, totals, damage delivery, and the ravel test port (03 R65–R98; 06 R158). -/

namespace Sys2Proof.Machine

/- The ladder (06 R157, R158). -/

/-- Site entry of a core; unlisted sites name no layer. -/
def Core.site (c : Core) (site : Nat) : W64 := sget c.ec.sites 0xFF000000 site

/-- Layer that governs a site, if the image defines it. -/
def Core.siteLayer (c : Core) (site : Nat) : Option Nat :=
  let l := fld (c.site site) 31 24
  if l = 255 ∨ (sfind c.ec.layers l).isNone then none else some l

/-- Layer record n of a core. -/
def Core.layer (c : Core) (n : Nat) : EcLayer := sget c.ec.layers {} n

/-- Format code of a rung (*Rungs*). -/
def EcLayer.rungCode (l : EcLayer) (r : Nat) : Nat :=
  let w := nth l.words 0 0
  match r with
  | 0 => 0
  | 1 => 1 + fld w 5 5
  | 2 => 3 + fld w 6 6
  | _ => 5

/-- A format specifier rewritten to rung r (R158). -/
def EcLayer.rewrite (l : EcLayer) (r spec : Nat) : Nat :=
  let c := fsCode spec
  if isLashed c ∨ c = 5 then
    let keep := spec - bits spec 3 0 - 2 ^ 5 * bits spec 5 5 - 2 ^ 6 * bits spec 6 6
    let shape := if r < 3 then bits spec 5 5 else 0
    let sat := if r < 3 then 0 else if c = 5 then bits spec 6 6 else 1
    keep + l.rungCode r + 2 ^ 5 * shape + 2 ^ 6 * sat
  else spec

/-- The low word of a QSPEC with DST_FMT through the ladder of its site's layer. Where the rung's format is not lashed the operation writes no bight, since BIGHT_LIMIT goes with lashed formats only (R68; DEDUCED, log 119). -/
def Core.ladder (c : Core) (lo hi : W64) : W64 :=
  match c.siteLayer (fld hi 55 32) with
  | none => lo
  | some n =>
    let l := c.layer n
    let w := setFld lo 7 0 (l.rewrite l.rung (fld lo 7 0))
    if isLashed (fsCode (fld lo 7 0)) && !isLashed (fsCode (fld w 7 0)) then setFld w 15 14 0 else w

/-- The word of a QSPEC holding its first break, as written or as it runs at its site's rung: the ladder can give a BF16 QSPEC, whose TSCALE no rule checks, a format that uses it (R69). -/
def Core.qspecBreak (c : Core) (ring : Nat → Nat) (lo hi : W64) : Option Nat :=
  (qspecBad lo hi ring).or (qspecBad (c.ladder lo hi) hi ring)

/- Seed and tensor scale (R69–R71). -/

/-- Committed maximum of a site's tracked slot; sites that do not take part read 0. -/
def State.trackMax (s : State) (c : Core) (site : Nat) : Fl :=
  let e := c.site site
  if bit e 32 then sget s.siteMax .zero (fld e 44 33) else .zero

/-- Raises the pending maximum of a tracked site. -/
def State.trackRaise (s : State) (c : Core) (site : Nat) (m : Fl) : State :=
  let e := c.site site
  if bit e 32 then
    let k := fld e 44 33
    { s with sitePend := sset s.sitePend k (Fl.maxMag (sget s.sitePend .zero k) m) }
  else s

/-- Size of keep ring r in lines (R98). -/
def State.ringSize (s : State) (core r : Nat) : Nat := fld (s.reg (coreR .KEEP_RING core r)) 30 16
/-- First line of keep ring r. -/
def State.ringBase (s : State) (core r : Nat) : Nat := fld (s.reg (coreR .KEEP_RING core r)) 14 0

/- Writing blocks (R52, R81, R105). -/

/-- Packs element codes of w bits, element i at bit w × i (R52). -/
def packCodes (w : Nat) (l : List Nat) : Nat := l.foldr (fun c acc => c % 2 ^ w + acc * 2 ^ w) 0

/-- Byte run at a destination: scratch, or the context's HBM. -/
def State.destWrite (s : State) (d : QDest) (a : Nat) (bs : List Byte) : Except MemErr State :=
  if d.hbm then s.ctxWrite (.die (coreDie d.core)) (s.ctxOf d.core) a bs else .ok (s.scrWrite d.core a bs)

/-- Block number of a stored position (R105). -/
def blockNo (fmt stride row col : Nat) : Nat :=
  let c := fsCode fmt
  if fsSquare fmt then row / 4 * stride + col / 4 else row * stride + col / recElems c

/-- The byte runs of one coded block: element record, completed with code 0 unless the format is BF16 or FP32, and scale byte. A 16-element run written to an MX destination so gives a whole 32-element record whose other elements are code 0 (DESIGN CHOICE, log 116: the spec does not say how 16 columns or lanes fill an MX record). -/
def blockRuns (fmt : Nat) (d : QDest) (b : QOut) : List (Nat × List Byte) :=
  let c := fsCode fmt
  let w := elemBits c
  let n := blockNo fmt d.stride b.row b.col
  if isWide c then
    [(d.elem + n * recBytes c + b.col % 16 * (w / 8), leBytes (b.codes.length * w / 8) (packCodes w b.codes))]
  else
    (d.elem + n * recBytes c, leBytes (recBytes c) (packCodes w b.codes)) ::
      (if hasScale c then [(d.scale + n, leBytes 1 b.scale)] else [])

/-- Index of the bight tile that begins at a stored position (R81). -/
def bightTileNo (fmt stride row col : Nat) : Nat :=
  if fsSquare fmt then row / 16 * (stride / 4) + col / 16 else row / 16 * stride + col / 16

/-- A bight entry word. -/
def bightWord (p : Nat × Bool × Nat) : Nat := p.2.2 % 2 ^ 16 + p.1 % 16 * 2 ^ 16 + b01 p.2.1 * 2 ^ 20

/-- The record of one bight tile of up to 16 blocks: count word, entries, zero fill. -/
def bightRun (fmt cap : Nat) (d : QDest) (base : Nat) (tile : List QOut) : List (Nat × List Byte) :=
  match tile with
  | [] => []
  | b :: _ =>
    let counts := (tile.zipIdx).foldl (fun a p => a + p.1.bights.length * 4 ^ p.2) 0
    let es := (tile.map fun b => b.bights.map bightWord).flatten
    let rec0 := leBytes 4 counts ++ (es.map (leBytes 4)).flatten
    let size := (cap + 1) * 4
    [(base + bightTileNo fmt d.stride b.row b.col * size, rec0 ++ leBytes (size - rec0.length) 0)]

/-- Every byte run of an operation's coded blocks. -/
def opRuns (q : QSpec) (d : QDest) (bs : List QOut) : List (Nat × List Byte) :=
  (bs.map (blockRuns q.dst d)).flatten ++
    (match d.bight with
     | some base => if q.bLimit = 0 then [] else ((chunks 16 (bs.length + 1) bs).map (bightRun q.dst q.bCap d base)).flatten
     | none => [])

/-- Writes byte runs in order; a run that meets a translation fault or poison is not written, and the first such event is kept. A run that must wait makes the whole command wait. -/
def State.writeRuns (s : State) (d : QDest) (l : List (Nat × List Byte)) : State × Option MemErr :=
  l.foldl (fun acc p =>
    match acc.1.destWrite d p.1 p.2 with
    | .ok s => (s, acc.2)
    | .error e => (acc.1, if e = .held then some .held else acc.2.or (some e))) (s, none)

/- Keep rings (R93–R95, R98). -/

/-- Lines of a keep entry of n blocks. -/
def keepLines (fmt n : Nat) : Nat :=
  let c := keepCode fmt
  1 + cdiv (n * recBytes c) 64 + (if hasScale c then cdiv n 64 else 0)

/-- Line of the ring at which an entry begins, if no unreleased entry is overwritten (R94, R95). -/
def State.keepPlace (s : State) (core ring lines : Nat) : Option Nat :=
  let size := s.ringSize core ring
  let q := (s.core core).qnt
  let h := nth q.heads 0 ring
  let at0 := if size < h + lines then 0 else h
  let clash := q.keeps.any fun k => k.ring = ring && decide (k.first < at0 + lines) && decide (at0 < k.first + k.lines)
  if size < lines ∨ clash then none else some at0

/-- Bytes of a keep entry (*Keep entry header*, then its planes). -/
def keepBytes (q : QSpec) (t tile epoch step : Nat) (bs : List QOut) : List Byte :=
  let c := keepCode q.keepFmt
  let w0 := q.site + q.dir * 2 ^ 24 + c * 2 ^ 26 + b01 (q.twistN ≠ 0) * 2 ^ 30 + epoch % 256 * 2 ^ 32 + b01 q.stoch * 2 ^ 40
  let head := leBytes 8 w0 ++ leBytes 8 tile ++ leBytes 8 step ++ leBytes 8 (t + bs.length % 2 ^ 16 * 2 ^ 32) ++ leBytes 32 0
  let pad (l : List Byte) : List Byte := l ++ leBytes ((64 - l.length % 64) % 64) 0
  let el := (bs.map fun b => leBytes (recBytes c) (packCodes (elemBits c) b.codes)).flatten
  let sc := if hasScale c then bs.map fun b => (BitVec.ofNat 8 b.scale : Byte) else []
  head ++ pad el ++ pad sc

/- One operation (R65–R71, R90–R95). -/

/-- Adds a record's counts to the quantiser totals (R92). -/
def State.damageTotals (s : State) (core : Nat) (d : Damage) : State :=
  ((((s.bump (coreR .SAT_TOTAL core) d.sat).bump (coreR .FLUSH_TOTAL core) d.flushed).bump (coreR .BIGHT_OVF_TOTAL core) d.bightOvf).bump
    (coreR .ZERO_BLK_TOTAL core) d.zeroBlk).bump (coreR .NAN_BLK_TOTAL core) d.nanBlk

/-- Applies a function to a core's quantiser. -/
def State.onQnt (s : State) (core : Nat) (f : Quantiser → Quantiser) : State :=
  s.onCore core fun c => { c with qnt := f c.qnt }

/-- Applies a function to the damage records waiting at a core's error-control unit. -/
def State.onEcInbox (s : State) (core : Nat) (f : List DamageMsg → List DamageMsg) : State :=
  s.onCore core fun c => { c with ec := { c.ec with inbox := f c.ec.inbox } }

/-- What an operation comes to: the state after it, and the first memory event its writes met; `none` when its port stalls on a keep ring. -/
abbrev QRun := Option (State × Option MemErr)

/-- Runs one quantiser operation at a port: format (through the ladder unless `fixed`), tensor scale, arithmetic, keep entry, writes, totals, and the damage record to the error-control unit. TSCALE_MODE 1 raises the site's pending maximum for a BF16 or FP32 destination too, which R69 leaves open (DESIGN CHOICE, log 118). -/
def State.runQOp (s : State) (core : Nat) (o : QOp) (fixed : Bool := false) : QRun :=
  let c := s.core core
  let lo := if fixed then o.lo else c.ladder o.lo o.hi
  let q := qspecOf lo o.hi
  let t := outTscale q (s.trackMax c q.site)
  let r := quantOp q t s.job.seed s.logline o.walk o.rows
  let dmg := r.damage.add { sat := min o.preSat 0x1FFF }
  let lines := keepLines q.keepFmt r.keep.length
  let place := if q.keepFmt = 0 then some 0 else s.keepPlace core q.keepRing lines
  match place with
  | none => none
  | some p =>
    let e : Option KeepEntry := if q.keepFmt = 0 then none
      else some { ring := q.keepRing, first := p, lines := lines, site := q.site, tile := o.tile, epoch := o.epoch }
    let s := match e with
      | none => s
      | some k =>
        let s := s.scrWrite core ((s.ringBase core q.keepRing + p) * 64) (keepBytes q t o.tile o.epoch s.logline r.keep)
        (s.bump (coreR .KEEP_SAT_TOTAL core) r.keepSat).onQnt core fun u =>
          { u with keeps := u.keeps ++ [k], heads := setNth u.heads q.keepRing (p + lines) }
    let w := s.writeRuns o.dst (opRuns q o.dst r.blocks)
    let s := w.1.damageTotals core dmg
    let s := if q.tracked then s.trackRaise c q.site r.maxMag else s
    let bs := formBlocks q.dst o.walk (twistRows q s.job.seed s.logline o.rows).1
    let m : DamageMsg := { site := q.site, dir := q.dir, tile := o.tile, epoch := o.epoch, dmg := dmg, accTrunc := o.accTrunc
                           accSat := o.accSat, keep := e, blocks := bs, lo := o.lo, hi := o.hi, dst := o.dst, guard := o.guard, last := o.last }
    let s := s.onEcInbox core (· ++ [m])
    let loc : TileLoc := { core := o.dst.core, fmt := q.dst, tscale := t, dst := o.dst, ats := r.blocks.map fun b => (b.row, b.col) }
    let s := if o.dst.hbm then s else [0, 1].foldl (fun s d => s.tileReport d q.site o.tile o.epoch loc o.guard) s
    some (s, w.2)

/-- Port p of a core is stalled on its keep ring (R95). -/
def State.portStalled (s : State) (core port : Nat) : Bool := nth (s.core core).qnt.stalled false port

/-- The operation at the head of a port has run: the port is no longer stalled (R95). -/
def State.portRan (s : State) (core port : Nat) (rest : List QOp) : State :=
  s.onQnt core fun u => { u with ports := setNth u.ports port rest, stalled := setNth u.stalled port false }

/-- A stall on a keep ring begins: counted once per stalled operation (R95). -/
def State.keepStall (s : State) (core port : Nat) : State :=
  if s.portStalled core port then s
  else (s.bump (coreR .KEEP_STALL_TOTAL core) 1).onQnt core fun u => { u with stalled := setNth u.stalled port true }

/- The ravel test port (R89). -/

/-- A write to an input register of the port: VALID clears, and a running computation restarts. -/
def State.ravelInput (s : State) (core : Nat) (n : RegName) (v : W64) : State :=
  (s.setReg (coreR n core) v).setRegFld (coreR .RAVEL_TEST_RESULT core) 32 32 0

/-- The register of a selector of RAVEL_TEST_INPUT: SEED_LO, SEED_HI, STEP, STREAM. -/
def ravelSel (sel : Nat) : RegName :=
  match sel with
  | 0 => .RAVEL_TEST_SEED_LO
  | 1 => .RAVEL_TEST_SEED_HI
  | 2 => .RAVEL_TEST_STEP
  | _ => .RAVEL_TEST_STREAM

/-- A write to SEED_LO, SEED_HI, STEP or STREAM; STREAM keeps 32 bits. -/
def execRavelTestInput (core sel : Nat) (value : W64) (s : State) : Out :=
  guardPart (decide (core < 384) && decide (sel < 4))
    (s.ravelInput core (ravelSel sel) (if sel = 3 then w64 (fld value 31 0) else value))

/-- A write to INDEX: starts, or restarts, a computation. -/
def execRavelTestIndex (core : Nat) (value : W64) (s : State) : Out :=
  guardPart (decide (core < 384))
    ((s.ravelInput core .RAVEL_TEST_INDEX (w64 (fld value 47 0))).onQnt core fun q => { q with testRun := true })

/-- The 12 ns of a running computation end: VALID and VALUE. -/
def execRavelTestDone (core : Nat) (s : State) : Out :=
  guardPart (decide (core < 384)) <|
    if (s.core core).qnt.testRun then
      let g (n : RegName) : Nat := (s.reg (coreR n core)).toNat
      let v := ravel (g .RAVEL_TEST_SEED_LO + g .RAVEL_TEST_SEED_HI * 2 ^ 64) (g .RAVEL_TEST_STEP) (g .RAVEL_TEST_STREAM) (g .RAVEL_TEST_INDEX)
      (s.setReg (coreR .RAVEL_TEST_RESULT core) (w64 (2 ^ 32 + v.toNat))).onQnt core fun q => { q with testRun := false }
    else s

end Sys2Proof.Machine
end

