-- ==== Sys2Proof/Machine/StepOps.lean ====
section
/-! DEFINITION. Step-cycle operations that units call: completion of an operation, entry into DRAINING. -/

namespace Sys2Proof.Machine

/-- An operation completes for its control core (R267). Re-issued operations have no place there (R161). -/
def State.complete (s : State) (core : Nat) (m : OpMsg) : State :=
  if m.reissue then s else
  s.onCore core fun c => { c with cc := { c.cc with
    inFlight := c.cc.inFlight.filter fun o => o.tag ≠ m.tag } }

/-- Launches queued beyond those running (R177): begun by no strand core, and every one of their strand cores has an earlier launch to end. -/
def Vector16.queued (v : Vector16) : Nat :=
  ((v.queue.zipIdx).filter fun p =>
    let mask := bitsSet 16 (fld (nth p.1.msg.words 0 0) 19 4)
    p.1.pend = mask && mask.all fun t => (sget v.strands {} t).launch.isSome || (v.queue.take p.2).any fun l => l.pend.contains t).length

/-- PLY_ERR_DETAIL of a rejection (R124). -/
def plyDetail (code word idx : Nat) : W64 := w64 (idx % 2 ^ 32 + word * 2 ^ 32 + code * 2 ^ 48)

/-- Cause bit of a ply rejection code (R121). -/
def plyCause (code : Nat) : Nat := if code = 1 then 0 else if code = 2 then 2 else 3

/-- A rejection on a ply: total, detail, cause, and the step's REJECTED_OP mark (R121, R124). -/
def State.plyReject (s : State) (core p code word idx : Nat) : State :=
  let det := plyDetail code word idx
  ((s.bump (plyR .PLY_REJECT_TOTAL core p) 1).raiseDetail (plyR .PLY_ERR_DETAIL core p) det (.core core) (plyCause code) (s.ctxOf core)).markRejected

/-- Discards the sums a core still holds, each counted as a CHAIN rejection (R120). The spec does not say on which plies a rope's held sum counts, nor what the detail then names: the model counts it on every ply that holds it, with WORD 0 and the INDEX of the operation that left the sum (DESIGN CHOICE, log 120). -/
def State.dropHeld (s : State) (core : Nat) : State :=
  let c := s.core core
  let held := ((c.plies.zipIdx).map fun p => (p.1.slots.filterMap (·.held)).map fun m => (p.2, m)).flatten
  let s := held.foldl (fun s h => s.plyReject core h.1 6 0 h.2.idx) s
  s.onCore core fun c => { c with plies := c.plies.map fun p =>
    { p with slots := p.slots.map fun sl => if sl.held.isSome then { sl with held := none, tile := {} } else sl } }

/-- Keep entries that no guard names are released at DRAINING (R164). -/
def State.releaseUnguarded (s : State) (core : Nat) : State :=
  s.onCore core fun c =>
    let named (k : KeepEntry) : Bool := c.ec.guards.any fun g =>
      let w (i : Nat) := nth g.words 0 i
      let inR (site base cnt : Nat) : Bool := decide (k.site = site) && decide (base ≤ k.tile) && decide (k.tile < base + cnt)
      (bit (w 0) 40 && inR (fld (w 1) 23 0) (fld (w 2) 47 0) (fld (w 1) 63 48)) ||
      (bit (w 0) 41 && inR (fld (w 1) 47 24) (fld (w 3) 47 0) (fld (w 2) 63 48))
    { c with qnt := { c.qnt with keeps := c.qnt.keeps.filter named } }

/-- Entry into DRAINING (R270): held sums discarded, unguarded keep entries released. -/
def State.enterDraining (s : State) : State :=
  let s := { s with step := { s.step with state := .draining, drainAt := s.clock } }
  s.usedCores.foldl (fun s n => (s.dropHeld n).releaseUnguarded n) s

end Sys2Proof.Machine
end

