-- ==== Sys2Proof/Machine/ErrorControl.lean ====
section
/-! DEFINITION. Error control and automatic fall-back: verdicts, decisions, staging, re-issue, acceptance, slack (06 R152–R174). -/

namespace Sys2Proof.Machine

/- Thresholds (R153, R154). -/

/-- The metric bitmap of a combined record under a layer's thresholds; strictly greater breaches. -/
def EcLayer.breaches (l : EcLayer) (d : Damage) (accTrunc accSat : Nat) : Nat :=
  let w (i : Nat) := nth l.words 0 i
  let m (i v t : Nat) : Nat := if t < v then 2 ^ i else 0
  m 0 d.sat (fld (w 1) 12 0) + m 1 d.flushed (fld (w 1) 25 13) + m 2 d.bightOvf (fld (w 1) 34 26)
    + m 3 d.qer (fld (w 0) 63 48) + m 4 d.zeroBlk (fld (w 1) 43 35) + m 5 d.nanBlk (fld (w 1) 52 44)
    + m 6 accTrunc (fld (w 2) 15 0) + m 7 accSat (fld (w 2) 31 16)

/-- The repeatable metrics' bits of a bitmap (R153). -/
def repeatableMask : Nat := 0x0F
/-- The flag-only metrics' bits. -/
def flagOnlyMask : Nat := 0xF0

/-- Applies a function to a core's error-control unit. -/
def State.onEc (s : State) (core : Nat) (f : ErrCtl → ErrCtl) : State := s.onCore core fun c => { c with ec := f c.ec }

/-- Applies a function to a layer's state. -/
def State.onLayer (s : State) (core n : Nat) (f : EcLayer → EcLayer) : State :=
  s.onEc core fun e => { e with layers := sset e.layers n (f (sget e.layers {} n)) }

/-- Applies a function to a guard's state. -/
def State.onGuard (s : State) (core g : Nat) (f : GuardSt → GuardSt) : State :=
  s.onEc core fun e => { e with guards := e.guards.modify g f }

/- Guard entries (R155). -/

/-- Word i of a guard entry. -/
def GuardSt.w (g : GuardSt) (i : Nat) : W64 := nth g.words 0 i
/-- ISSUE_INDEX. -/
def GuardSt.index (g : GuardSt) : Nat := fld (g.w 0) 31 0
/-- OCCURRENCE. -/
def GuardSt.occurrence (g : GuardSt) : Nat := fld (g.w 3) 63 48
/-- LAYER. -/
def GuardSt.layer (g : GuardSt) : Nat := fld (g.w 0) 39 32
/-- CHAIN_LEN. -/
def GuardSt.chainLen (g : GuardSt) : Nat := fld (g.w 0) 49 42
/-- KNOT. -/
def GuardSt.knot (g : GuardSt) : Nat := fld (g.w 0) 61 50

/-- A guarded operand: site, first producer tile, count. Operand 0 is A, 1 is B. -/
def GuardSt.range (g : GuardSt) (o : Nat) : Option (Nat × Nat × Nat) :=
  if o = 0 then (if bit (g.w 0) 40 then some (fld (g.w 1) 23 0, fld (g.w 2) 47 0, fld (g.w 1) 63 48) else none)
  else (if bit (g.w 0) 41 then some (fld (g.w 1) 47 24, fld (g.w 3) 47 0, fld (g.w 2) 63 48) else none)

/-- A tile lies in a range. -/
def inRange (r : Nat × Nat × Nat) (site tile : Nat) : Bool :=
  decide (r.1 = site) && decide (r.2.1 ≤ tile) && decide (tile < r.2.1 + r.2.2)

/-- The guard names a producer tile. -/
def GuardSt.names (g : GuardSt) (site tile : Nat) : Bool :=
  [0, 1].any fun o => match g.range o with | some r => inRange r site tile | none => false

/-- EPOCH of a ply descriptor (04 R119). -/
def opEpoch (m : OpMsg) : Nat := fld (nth m.words 0 0) 60 53

/-- The operation belongs to a discarded epoch of its guard (R162). -/
def State.staleOp (s : State) (core : Nat) (m : OpMsg) : Bool :=
  match m.guard with
  | none => false
  | some g => match (s.core core).ec.guards[g]? with
    | none => false
    | some gs => decide (gs.epoch ≠ opEpoch m)

/- Keep release (R95, R164). -/

/-- Releases keep entries that satisfy a test. -/
def State.dropKeeps (s : State) (core : Nat) (f : KeepEntry → Bool) : State :=
  s.onCore core fun c => { c with qnt := { c.qnt with keeps := c.qnt.keeps.filter fun k => !f k } }

/-- Releases the keep entries whose naming guards have all been accepted. -/
def State.releaseAccepted (s : State) (core : Nat) : State :=
  let gs := (s.core core).ec.guards
  s.dropKeeps core fun k =>
    let ns := gs.filter fun g => g.names k.site k.tile
    !ns.isEmpty && ns.all (·.accepted)

/- Flags (R159, R172). -/

/-- Raises EC_FLAG or EC_HELD for a consumer, with EC_NAN beside a flag that NAN_BLOCKS breaches; the first event since VALID was cleared keeps its detail. -/
def State.ecFlag (s : State) (core kind metrics layer epoch idx tile : Nat) : State :=
  let det := w64 (idx % 2 ^ 32 + epoch % 256 * 2 ^ 32 + layer * 2 ^ 40 + metrics * 2 ^ 48 + kind * 2 ^ 58)
  let x := s.ctxOf core
  let s := if bit (s.reg (coreR .EC_FLAG_DETAIL core)) 63 then s
    else (s.detail (coreR .EC_FLAG_DETAIL core) det).setReg (coreR .EC_FLAG_TILE core) (w64 (tile % 2 ^ 48))
  if kind = 3 then (s.bump (coreR .HELD_TOTAL core) 1).raise (.core core) 5 x det
  else
    let s := (s.bump (coreR .FLAG_TOTAL core) 1).raise (.core core) 4 x det
    if nbit metrics 5 then s.raise (.core core) 6 x det else s

/- Slack (R165). -/

/-- Adds to a layer's repeat cost in the step; an overrun that begins or grows is counted, and marks the step. -/
def State.ecCost (s : State) (core layer cost : Nat) : State :=
  let l := (s.core core).layer layer
  let slack := fld (nth l.words 0 0) 47 24
  let before := l.cost - slack
  let after := l.cost + cost - slack
  let s := s.onLayer core layer fun l => { l with cost := l.cost + cost }
  if after = 0 then s else
  let s := s.bump (coreR .OVERRUN_CYCLE_TOTAL core) (after - before)
  if 0 < before then s
  else ({ s with step := { s.step with slack := true } }).raise (.core core) 16 (s.ctxOf core)

/- Judged tiles of a range. -/

/-- The judged record of a producer tile. -/
def Core.tileRec (c : Core) (site tile : Nat) : Option TileRec :=
  c.ec.tiles.find? fun t => t.site = site ∧ t.tile = tile ∧ t.judged.isSome

/-- Records of a range, in tile order; the flag says that every tile is judged. -/
def Core.rangeTiles (c : Core) (r : Nat × Nat × Nat) : List TileRec × Bool :=
  let ts := (List.range r.2.2).map fun i => c.tileRec r.1 (r.2.1 + i)
  (ts.filterMap id, ts.all Option.isSome)

/-- Breach bitmap of a tile's combined record under a layer's thresholds. -/
def TileRec.bitmap (l : EcLayer) (t : TileRec) : Nat := l.breaches t.dmg t.accTrunc t.accSat

/-- Highest rung that a tile's keep copies can serve, if it has them (R157). -/
def TileRec.keepTop (t : TileRec) : Option Nat :=
  if t.parts.isEmpty ∨ t.parts.any (·.keep.isNone) then none
  else some ((t.parts.map fun p => if fld p.lo 33 32 = 3 then 3 else 2).foldl min 3)

/- Staging (R160). -/

/-- Values of a keep entry's blocks: the elements of each written block, read back from the ring and decoded under R64; the entry's tensor scale and rounding, and how many elements saturated in decoding. -/
def State.keepVals (s : State) (core : Nat) (m : DamageMsg) (k : KeepEntry) : List QBlk × Nat × Bool × Nat :=
  let base := (s.ringBase core k.ring + k.first) * 64
  let w0 := w64 (s.scrNat core base 8)
  let t := s.scrNat core (base + 24) 4
  let n := s.scrNat core (base + 28) 2
  let c := fld w0 29 26
  let rb := recBytes c
  let el := base + 64
  let sc := el + roundUp (n * rb) 64
  let blk (j : Nat) (b : QBlk) : QBlk × Nat :=
    let raw := s.scrNat core (el + j * rb) rb
    let scale := if hasScale c then s.scrNat core (sc + j) 1 else 0
    let w := elemBits c
    let rs := (b.els.zipIdx).map fun p =>
      let v := decodeF32 c false (bits raw (w * p.2 + w - 1) (w * p.2)) scale t
      (({ p.1 with x := f32 v.1 } : QElem), b01 (v.2 && !p.1.pad))
    (({ b with els := rs.map Prod.fst } : QBlk), (rs.map Prod.snd).sum)
  let bs := (m.blocks.zipIdx).map fun p => blk p.2 p.1
  (bs.map Prod.fst, t, bit w0 40, (bs.map Prod.snd).sum)

/-- Row pieces of a square block, for a destination without blocks. -/
def unsquare (b : QBlk) : List QBlk :=
  ((chunks 4 5 b.els).zipIdx).map fun p => { row := b.row + p.2, col := b.col, els := p.1 }

/-- Requantises one part of a producer tile at rung r into the staging shadow: damage and blocks staged. -/
def State.stagePart (s : State) (core : Nat) (l : EcLayer) (r : Nat) (m : DamageMsg) : State × Damage × Nat :=
  match m.keep with
  | none => (s, {}, 0)
  | some k =>
    let v := s.keepVals core m k
    let q0 := qspecOf m.lo m.hi
    let q : QSpec := { q0 with dst := l.rewrite r q0.dst, stoch := v.2.2.1, twistN := 0, signs := false, bLimit := 0
                               tracked := false, tscale := v.2.1, keepFmt := 0 }
    let d : QDest := { hbm := false, core := core, elem := fld (nth l.words 0 2) 46 32 * 64
                       scale := fld (nth l.words 0 2) 61 47 * 64, bight := none, stride := m.dst.stride }
    let bs := if fsSquare q0.dst ∧ 3 ≤ r then (v.1.map unsquare).flatten else v.1
    let u (i : Nat) : Nat := (ravel s.job.seed s.logline (streamId q.dir 0 q.site) i).toNat
    let out := quantTile q v.2.1 u bs
    let w := s.writeRuns d (opRuns q d out.1)
    let dmg := out.2.add { sat := min v.2.2.2 0x1FFF }
    (w.1.damageTotals core dmg, dmg, m.blocks.length)

/-- Requantises a producer tile at rung r into the shadow of its guard's layer, once in the step; a breach is residual (R160, R167). -/
def State.stageTile (s : State) (core gi r : Nat) (t : TileRec) : State :=
  match (s.core core).ec.guards[gi]? with
  | none => s
  | some g =>
    if t.staged.contains (g.layer, r) then s else
    let l := (s.core core).layer g.layer
    let f := t.parts.foldl (fun (acc : State × Damage × Nat) m =>
      let x := acc.1.stagePart core l r m
      (x.1, acc.2.1.add x.2.1, acc.2.2 + x.2.2)) (s, {}, 0)
    let b := l.breaches f.2.1 0 0
    let s := f.1.onEc core fun e => { e with tiles := e.tiles.map fun u =>
      if u.site = t.site ∧ u.tile = t.tile ∧ u.epoch = t.epoch then { u with staged := (g.layer, r) :: u.staged } else u }
    let s := (s.ecCost core g.layer f.2.2).bump (coreR .VERDICT_TOTAL core) 1
    if b = 0 then s else
    let s := (s.bump (coreR .BREACH_TOTAL core) 1).onLayer core g.layer fun l => { l with residual := true }
    s.ecFlag core 2 b g.layer g.epoch g.index t.tile

/- Epoch discard and re-issue (R161, R162). -/

/-- Drops what a discarded epoch of guard gi still has ahead of its first block-step, its held sum, its records, keep entries and reports. -/
def State.discardEpoch (s : State) (core gi : Nat) (g : GuardSt) : State :=
  let mine (m : OpMsg) : Bool := m.guard = some gi && opEpoch m = g.epoch
  let c := s.core core
  let dropped := (c.plyInbox.filter mine) ++ ((c.plies.map fun p => p.queue.filter mine).flatten)
  let s := dropped.foldl (fun s m => s.complete core m) s
  let sl (x : PlySlot) : PlySlot := match x.held with
    | some h => if mine h then { x with held := none, tile := {} } else x
    | none => x
  let s := s.onCore core fun c => { c with
    plyInbox := c.plyInbox.filter fun m => !mine m
    plies := c.plies.map fun p => { p with queue := p.queue.filter fun m => !mine m, slots := p.slots.map sl } }
  let recs := c.ec.inbox.filter fun m => m.guard = some gi ∧ m.epoch = g.epoch
  let parts := (c.ec.tiles.filter fun t => t.guard = some gi ∧ t.epoch = g.epoch).map (·.parts)
  let gone := (recs ++ parts.flatten).filterMap (·.keep)
  let s := s.dropKeeps core fun k => gone.contains k
  let s := s.onEc core fun e => { e with
    inbox := e.inbox.filter fun m => ¬(m.guard = some gi ∧ m.epoch = g.epoch)
    tiles := e.tiles.filter fun t => ¬(t.guard = some gi ∧ t.epoch = g.epoch) }
  let s := match g.chain.getLast? with
    | some m => [0, 1].foldl (fun (s : State) d => s.whipCancel d (fld (nth m.words 0 10) 55 32) (nth m.words 0 13).toNat g.epoch) s
    | none => s
  s.bump (coreR .EPOCH_DISCARD_TOTAL core) 1

/-- Period r of a class of formats (*Operand classes*); EXPAND operands run at 4. -/
def classPeriod (c : Nat) : Nat :=
  match c with
  | 0x0 | 0xC | 0x7 | 0x8 => 1
  | 0x1 | 0x2 | 0xD => 2
  | 0x5 => 16
  | _ => 4

/-- Block-step period of a descriptor (R100, R103). -/
def opPeriod (ws : List W64) : Nat :=
  let w0 := nth ws 0 0
  let b := if fld w0 31 30 = 0 then classPeriod (fsCode (fld w0 23 16)) else 4
  max (classPeriod (fsCode (fld w0 15 8))) b

/-- KB of a descriptor. -/
def opKb (ws : List W64) : Nat := fld (nth ws 0 0) 52 37

/-- The operand fields of a re-issued operation: a climbing operand names the staging shadow at rung + 1 without a bight; another guarded operand keeps its rung's format (R158, R161). An operand whose format climbs from lashed to BF16 is read without a bight plane, since none is written for BF16 (DEDUCED, log 119). -/
def reissueOperand (l : EcLayer) (g : GuardSt) (climb : Nat → Bool) (o : Nat) (ws : List W64) : List W64 :=
  match g.range o with
  | none => ws
  | some _ =>
    let lo := 8 + 8 * o
    let w0 := nth ws 0 0
    let r := if climb o then l.rung + 1 else l.rung
    let old := fld w0 (lo + 7) lo
    let new := l.rewrite r old
    let ws := ws.set 0 (setFld w0 (lo + 7) lo new)
    let w := nth ws 0 (1 + 2 * o)
    let wide := isLashed (fsCode old) && !isLashed (fsCode new)
    if climb o then
      let w := setFld (setFld (setFld w 14 0 (fld (nth l.words 0 2) 46 32)) 29 15 (fld (nth l.words 0 2) 61 47)) 45 45 0
      ws.set (1 + 2 * o) w
    else if wide then ws.set (1 + 2 * o) (setFld w 45 45 0)
    else ws

/-- The descriptors of a re-issued chain. -/
def reissueChain (l : EcLayer) (g : GuardSt) (climb : Nat → Bool) : List OpMsg :=
  g.chain.map fun m =>
    let ws := reissueOperand l g climb 1 (reissueOperand l g climb 0 m.words)
    let ws := ws.set 0 (setFld (nth ws 0 0) 60 53 (g.epoch + 1))
    { m with words := ws, reissue := true }

/- Acceptance (R163, R164). -/

/-- accept(c): once the read-out of the current epoch has completed, ties the tile-final knot, marks the tile accepted, and releases keep entries. -/
def State.ecAccept (s : State) (core gi : Nat) : State :=
  match (s.core core).ec.guards[gi]? with
  | none => s
  | some g =>
    if !g.decided ∨ !g.readOut ∨ g.accepted then s else
    let s := s.onGuard core gi fun g => { g with accepted := true }
    let s := s.knotUnit (coreDie core) (s.ctxOf core) g.knot (.ec core) .tie
    let s := match g.chain.getLast? with
      | some m => [0, 1].foldl (fun (s : State) d => s.tileAccept d (fld (nth m.words 0 10) 55 32) (nth m.words 0 13).toNat g.epoch core gi) s
      | none => s
    s.releaseAccepted core

/-- A consumer's read-out completed: in the current epoch it may be accepted. -/
def State.ecReadOut (s : State) (core : Nat) (m : OpMsg) : State :=
  match m.guard with
  | none => s
  | some gi =>
    if s.staleOp core m then s
    else (s.onGuard core gi fun g => { g with readOut := true }).ecAccept core gi

/- Decision (R159). -/

/-- OR of the breach bitmaps of tiles within a class of metrics, given as a mask, and the lowest tile that breaches one of them. -/
def breachSummary (l : EcLayer) (mask : Nat) (ts : List TileRec) : Nat × Nat :=
  let ts := ts.filter fun t => t.bitmap l &&& mask ≠ 0
  (ts.foldl (fun a t => a ||| (t.bitmap l &&& mask)) 0,
    ((ts.map (·.tile)).foldl (fun (a : Option Nat) n => some (min n (a.getD n))) none).getD 0)

/-- Effective ceiling of a guarded operand (R157). -/
def effCeil (l : EcLayer) (ts : List TileRec) : Nat :=
  match ts.foldl (fun (acc : Option Nat) t => match acc, t.keepTop with
    | some a, some b => some (min a b)
    | _, _ => none) (some 3) with
  | none => l.rung
  | some k => min l.ceil k

/-- The guarded operands of a consumer with the judged tiles of their ranges. -/
def Core.guardOps (c : Core) (g : GuardSt) : List (Nat × List TileRec) :=
  [0, 1].filterMap fun o => (g.range o).map fun r => (o, (c.rangeTiles r).1)

/-- The operands of a consumer that climb: in REPEAT mode, those that breach a repeatable metric below their effective ceiling (R159). -/
def Core.climbers (c : Core) (g : GuardSt) : List (Nat × List TileRec) :=
  let l := c.layer g.layer
  if l.mode = 0 then [] else
  (c.guardOps g).filter fun p => decide ((breachSummary l repeatableMask p.2).1 ≠ 0) && decide (l.rung < effCeil l p.2)

/-- decide(c) for guard gi, its ranges judged and its chain issued; the thresholds are those of the guard's layer, which governs its operands (R155). -/
def State.ecDecide (s : State) (core gi : Nat) (g : GuardSt) : State :=
  let c := s.core core
  let l := c.layer g.layer
  let ops := c.guardOps g
  let flag (mask kind : Nat) (ts : List TileRec) (s : State) : State :=
    let b := breachSummary l mask ts
    s.ecFlag core kind b.1 g.layer g.epoch g.index b.2
  let s := (ops.filter fun p => (breachSummary l flagOnlyMask p.2).1 ≠ 0).foldl (fun s p => flag flagOnlyMask 1 p.2 s) s
  let rep := ops.filter fun p => (breachSummary l repeatableMask p.2).1 ≠ 0
  let s := s.onGuard core gi fun g => { g with decided := true }
  if rep.isEmpty then s.ecAccept core gi else
  let s := s.onLayer core g.layer fun l => { l with breached := true }
  if l.mode = 0 then (flag repeatableMask 0 (rep.map (·.2)).flatten s).ecAccept core gi else
  let up := c.climbers g
  let stay := rep.filter fun p => !decide (l.rung < effCeil l p.2)
  let s := stay.foldl (fun s p => flag repeatableMask (if l.rung = l.ceil then 3 else 1) p.2 s) s
  if up.isEmpty then s.ecAccept core gi else
  let s := up.foldl (fun s p => p.2.foldl (fun s t =>
    match (s.core core).tileRec t.site t.tile with
    | some t => s.stageTile core gi (l.rung + 1) t
    | none => s) s) s
  let climb (o : Nat) : Bool := up.any fun p => p.1 = o
  let chain := reissueChain l g climb
  let s := s.discardEpoch core gi g
  let s := s.onGuard core gi fun g => { g with epoch := (g.epoch + 1) % 256, reissued := true, readOut := false, chain := chain }
  let s := s.onCore core fun c => { c with plyInbox := chain ++ c.plyInbox }
  let s := s.ecCost core g.layer ((chain.map fun m => opPeriod m.words * opKb m.words).sum)
  s.bump (coreR .REPEAT_TOTAL core) 1

/-- The consumer named first comes before the other: lower ISSUE_INDEX, then lower OCCURRENCE. -/
def GuardSt.before (a b : GuardSt) : Bool :=
  decide (a.index < b.index) || (decide (a.index = b.index) && decide (a.occurrence < b.occurrence))

/-- Puts a numbered guard entry among entries already in order. -/
def guardInsert (x : GuardSt × Nat) : List (GuardSt × Nat) → List (GuardSt × Nat)
  | [] => [x]
  | y :: t => if y.1.before x.1 then y :: guardInsert x t else x :: y :: t

/-- Numbers of the guard entries in the order of ISSUE_INDEX and OCCURRENCE, so that of several events of one moment the one with the lowest ISSUE_INDEX is recorded (R172). -/
def ErrCtl.guardOrder (e : ErrCtl) : List Nat := (e.guards.zipIdx.foldr guardInsert []).map Prod.snd

/-- A consumer is ready to be decided: its chain issued, its ranges judged, and the DMA-load port, which its staging would take, not stalled (R95, R159, R160). -/
def State.ecReady (s : State) (core : Nat) (g : GuardSt) : Bool :=
  let c := s.core core
  let judged := [0, 1].all fun o => match g.range o with | some r => (c.rangeTiles r).2 | none => true
  !g.decided && decide (g.chain.length = g.chainLen) && judged && ((c.climbers g).isEmpty || !s.portStalled core 2)

/-- Decides every guarded consumer that has become ready, in the order of R172. -/
def State.ecPoll (s : State) (core : Nat) : State :=
  (s.core core).ec.guardOrder.foldl (fun s gi =>
    match (s.core core).ec.guards[gi]? with
    | none => s
    | some g => if s.ecReady core g then s.ecDecide core gi g else s) s

/- Damage records (R152). -/

/-- A record joins its producer tile; the last one has the tile judged, for the totals, under its site's layer. A tile counts once as judged, and once as breaching. -/
def State.ecRecord (s : State) (core : Nat) (m : DamageMsg) : State :=
  let c := s.core core
  let old := c.ec.tiles.find? fun t => t.site = m.site ∧ t.tile = m.tile ∧ t.epoch = m.epoch
  let t : TileRec := match old with
    | some t => { t with dmg := t.dmg.add m.dmg, accTrunc := min (t.accTrunc + m.accTrunc) 0xFFFF
                         accSat := min (t.accSat + m.accSat) 0xFFFF, parts := t.parts ++ [m] }
    | none => { site := m.site, tile := m.tile, epoch := m.epoch, dmg := m.dmg, accTrunc := m.accTrunc, accSat := m.accSat
                parts := [m], guard := m.guard, judged := none }
  let rest := c.ec.tiles.filter fun u => ¬(u.site = m.site ∧ u.tile = m.tile)
  let put (s : State) (t : TileRec) : State := s.onEc core fun e => { e with tiles := rest ++ [t] }
  if !m.last then put s t else
  match c.siteLayer m.site with
  | none => put s { t with judged := some 0 }
  | some n =>
    let b := t.bitmap (c.layer n)
    let s := (put s { t with judged := some b }).bump (coreR .VERDICT_TOTAL core) (b01 t.judged.isNone)
    if b = 0 ∨ t.judged.getD 0 ≠ 0 then s else s.bump (coreR .BREACH_TOTAL core) 1

/-- DAMAGE_RECORD: the unit takes the oldest record delivered to it. -/
def execDamageRecord (core : Nat) (s : State) : Out :=
  guardPart (decide (core < 384)) <|
    match (s.core core).ec.inbox with
    | [] => s
    | m :: t =>
      let s := s.onEc core fun e => { e with inbox := t }
      let stale := match m.guard with
        | none => false
        | some g => match (s.core core).ec.guards[g]? with
          | none => false
          | some gs => decide (gs.epoch ≠ m.epoch)
      if stale then s.dropKeeps core fun k => m.keep = some k
      else (s.ecRecord core m).ecPoll core

/- Bounds (R170, R173). -/

/-- EC_LAYER_BOUND write: in HELD and within the image's limits it sets MODE, START_RUNG, CEIL_RUNG and the rung; otherwise a decode error at `addr`. -/
def State.layerBound (s : State) (core n : Nat) (v : W64) (addr : Nat) : State :=
  let c := s.core core
  let start := fld v 2 1
  let ceil := fld v 4 3
  match sfind c.ec.layers n with
  | none => s.decodeError true addr
  | some l =>
    if !s.isHeld ∨ ceil < start ∨ fld (nth l.words 0 0) 4 3 < ceil ∨ start < fld (nth l.words 0 3) 1 0 then s.decodeError true addr
    else s.onLayer core n fun l => { l with mode := fld v 0 0, start := start, ceil := ceil, rung := start, storm := 0, calm := 0, held := false }

end Sys2Proof.Machine
end

