-- ==== Sys2Proof/Machine/PlyDesc.lean ====
section
/-! DEFINITION. Ply operation descriptors: fields, members, and the checks with their rejection codes (04 R102–R121). -/

namespace Sys2Proof.Machine

/-- An operand or the destination of a ply descriptor: format specifier, feed mode, operand words, logical extent. -/
structure Opnd where
  spec : Nat
  feed : Nat
  elem : Nat
  scale : Nat
  bight : Nat
  hasB : Bool
  cap : Nat
  row : Nat
  col : Nat
  stride : Nat
  kext : Nat
deriving DecidableEq, Repr

/-- A decoded ply descriptor (*Ply operation descriptor*). -/
structure PlyDesc where
  kind : Nat
  rope : Nat
  ply : Nat
  a : Opnd
  b : Opnd
  d : Opnd
  group : Nat
  expand : Nat
  preload : Nat
  readout : Bool
  quad : Nat
  kb : Nat
  epoch : Nat
  ta : Nat
  tb : Nat
  twa : Nat
  twb : Nat
  qlo : W64
  qhi : W64
  preLine : Nat
  preStride : Nat
  preFmt : Nat
  expLine : Nat
  stageElem : Nat
  stageScale : Nat
  reqStoch : Bool
  tile : Nat
  reqSite : Nat
  reqRows : Nat
  reqSrc : Nat
deriving DecidableEq, Repr

/-- Operand words (*Operand words*). -/
def opndOf (spec feed : Nat) (w v : W64) (kext : Nat) : Opnd :=
  { spec := spec, feed := feed, elem := fld w 14 0, scale := fld w 29 15, bight := fld w 44 30, hasB := bit w 45
    cap := fld w 51 46, row := fld v 19 0, col := fld v 39 20, stride := fld v 59 40, kext := kext }

/-- Decodes a ply descriptor. -/
def plyDesc (ws : List W64) : PlyDesc :=
  let w (i : Nat) := nth ws 0 i
  { kind := fld (w 0) 3 0, rope := fld (w 0) 5 4, ply := fld (w 0) 7 6
    a := opndOf (fld (w 0) 15 8) (fld (w 0) 25 24) (w 1) (w 2) (fld (w 15) 19 0)
    b := opndOf (fld (w 0) 23 16) (fld (w 0) 27 26) (w 3) (w 4) (fld (w 15) 39 20)
    d := opndOf (fld (w 9) 7 0) 0 (w 5) (w 6) 0
    group := fld (w 0) 29 28, expand := fld (w 0) 31 30, preload := fld (w 0) 33 32, readout := bit (w 0) 34
    quad := fld (w 0) 36 35, kb := fld (w 0) 52 37, epoch := fld (w 0) 60 53
    ta := fld (w 7) 31 0, tb := fld (w 7) 63 32, twa := fld (w 8) 31 0, twb := fld (w 8) 63 32
    qlo := w 9, qhi := w 10, preLine := fld (w 11) 14 0, preStride := fld (w 11) 34 15, preFmt := fld (w 11) 42 35
    expLine := fld (w 12) 14 0, stageElem := fld (w 12) 29 15, stageScale := fld (w 12) 44 30, reqStoch := bit (w 12) 45
    tile := (w 13).toNat, reqSite := fld (w 14) 23 0, reqRows := fld (w 14) 43 24, reqSrc := fld (w 14) 51 44 }

/-- Packed mode (R113). -/
def PlyDesc.packed (p : PlyDesc) : Bool := p.kind = 2
/-- Member plies of an operation (R112). -/
def PlyDesc.members (p : PlyDesc) : List Nat :=
  if p.rope = 1 then [p.ply, p.ply + 1].filter (· < 4) else if p.rope = 2 then [0, 1, 2, 3] else [p.ply]
/-- Slot of a ply that an operation uses. -/
def PlyDesc.slot (p : PlyDesc) : Nat := if p.packed then p.quad else 0
/-- Output rows and columns of one member (R113). -/
def PlyDesc.side (p : PlyDesc) : Nat := if p.packed then 8 else 16
/-- Rows of A that the whole operation reads. -/
def PlyDesc.rows (p : PlyDesc) : Nat := if p.packed then 8 else if p.rope = 0 then 16 else 32
/-- Columns of B that the whole operation reads. -/
def PlyDesc.cols (p : PlyDesc) : Nat := if p.packed then 8 else if p.rope = 2 then 32 else 16
/-- First A row of member m. -/
def PlyDesc.rowOff (p : PlyDesc) (m : Nat) : Nat := if p.rope = 1 then 16 * (m - p.ply) else if p.rope = 2 then m / 2 * 16 else 0
/-- First B column of member m. -/
def PlyDesc.colOff (p : PlyDesc) (m : Nat) : Nat := if p.rope = 2 then m % 2 * 16 else 0

/- Checks (R121). A check lists the words of the fields that fail it. -/

/-- `w` when the condition fails the check. -/
def failIf (c : Prop) [Decidable c] (w : Nat) : List Nat := if c then [w] else []

/-- 0x01 FORMAT. Every format specifier of the descriptor is checked, REQ_SRC_FMT also where no operand is REQ_T (R121). -/
def PlyDesc.badFormat (p : PlyDesc) (ring : Nat → Nat) : List Nat :=
  let q := qspecOf p.qlo p.qhi
  let n := twistSize q.twistN
  let req (o : Opnd) (t : Nat) := if o.feed = 2 then failIf (¬ tscaleOk t) 7 else []
  failIf (¬ specOk p.reqSrc) 14 ++ failIf (¬ specOk p.a.spec ∨ ¬ specOk p.b.spec ∨ fsCode p.a.spec = 6 ∨ fsCode p.b.spec = 6) 0
    ++ (match qspecBad p.qlo p.qhi ring with | some i => [9 + i] | none => [])
    ++ failIf (q.twistN ≠ 0 ∧ (p.packed ∨ p.cols < n)) 9
    ++ failIf (q.twistN ≠ 0 ∧ p.d.col % n ≠ 0) 6
    ++ req p.a p.ta ++ req p.b p.tb

/-- 0x02 TWIST (R77). -/
def PlyDesc.badTwist (p : PlyDesc) : List Nat :=
  let na := bits p.twa 2 0
  let nb := bits p.twb 2 0
  failIf ((na ≠ 0 ∨ nb ≠ 0) ∧ bits p.twa 29 0 ≠ bits p.twb 29 0) 8
    ++ failIf ((na ≠ 0 ∧ p.a.feed ≠ 0) ∨ (nb ≠ 0 ∧ p.b.feed ≠ 0)) 8

/-- Integer classes I4 and I8. -/
def isIntClass (c : Nat) : Bool := isInt c
/-- Operand B is of class X: LUT4, or INT4 or UINT4 through the expander. -/
def PlyDesc.classX (p : PlyDesc) : Bool :=
  let c := fsCode p.b.spec
  isLut c || ((c = 7 || c = 8) && (p.expand = 1 || p.expand = 2))

/-- 0x03 PAIR (R103, R104). -/
def PlyDesc.badPair (p : PlyDesc) : List Nat :=
  let ia := isIntClass (fsCode p.a.spec)
  let ib := isIntClass (fsCode p.b.spec)
  failIf (if p.classX then ia = true else ia ≠ ib) 0

/-- 0x04 PLACEMENT (R112, R113, R115, R260). A B origin row that is no multiple of 16 under EXPAND breaks both R115 (this code) and R119 (0x07): the earlier check of the table gives the code, and the word named is the origin's, word 4 (DESIGN CHOICE, log 120). -/
def PlyDesc.badPlace (p : PlyDesc) (mask : Nat) : List Nat :=
  let ca := fsCode p.a.spec
  let cb := fsCode p.b.spec
  let on3 : Bool := (p.rope = 0 && p.ply = 3) || (p.rope = 1 && p.ply = 2)
  failIf (p.rope = 3 ∨ (p.rope = 1 ∧ p.ply % 2 = 1) ∨ (p.rope = 2 ∧ p.ply ≠ 0)) 0
    ++ failIf (p.packed ∧ (p.rope ≠ 0 ∨ p.expand ≠ 0)) 0
    ++ failIf (¬ p.packed ∧ p.quad ≠ 0) 0
    ++ failIf (p.expand = 3) 0
    ++ failIf ((p.expand = 1 ∨ p.expand = 2) ∧ (¬ on3 ∨ p.b.feed ≠ 0 ∨ isIntClass ca ∨ isLut ca
        ∨ (p.expand = 1 ∧ ¬ isLut cb) ∨ (p.expand = 2 ∧ cb ≠ 7 ∧ cb ≠ 8))) 0
    ++ failIf (isLut ca ∨ (isLut cb ∧ (p.expand ≠ 1 ∨ ¬ on3))) 0
    ++ failIf (p.members.any fun m => !nbit mask m) 0
    ++ failIf (p.expand ≠ 0 ∧ p.b.row % 16 ≠ 0) 4

/-- *Feed modes* accepts the operand (source and target of a REQ_T operand apart). -/
def feedOk (o : Opnd) : Bool :=
  let c := fsCode o.spec
  match o.feed with
  | 0 => true
  | 1 => (isLashed c && fsSquare o.spec) || isInt c || c = 5
  | 2 => isLashed c && !fsSquare o.spec
  | _ => false

/-- 0x05 FEED (R106, R113). A packed destination of FP32, an integer or an MX format breaks R113 too; the table names only a line-blocked one, and the model gives it the same code and word 9 (DESIGN CHOICE, log 120). -/
def PlyDesc.badFeed (p : PlyDesc) : List Nat :=
  let sc := fsCode p.reqSrc
  let q := qspecOf p.qlo p.qhi
  let c := fsCode q.dst
  failIf (¬ feedOk p.a ∨ ¬ feedOk p.b ∨ (p.a.feed = 2 ∧ p.b.feed = 2)) 0
    ++ failIf ((p.a.feed = 2 ∨ p.b.feed = 2) ∧ (fsSquare p.reqSrc ∨ (sc ≠ 3 ∧ sc ≠ 4 ∧ sc ≠ 5))) 14
    ++ failIf (p.packed ∧ ¬ (c = 5 ∨ (isLashed c ∧ fsSquare q.dst))) 9
    ++ failIf (p.packed ∧ q.bLimit ≠ 0) 9

/-- Bytes of operand scratch (R109). -/
def operandScratch : Nat := 0x6000 * 64

/-- The planes of a stored region end within operand scratch: element plane, scale plane, and the bight plane when asked for; `r1`, `c1` are the last row and column touched. -/
def planesOk (spec elem scale bight cap stride r1 c1 : Nat) (withB : Bool) : Bool :=
  let c := fsCode spec
  let n := blockNo spec stride r1 c1
  decide (elem * 64 + (n + 1) * recBytes c ≤ operandScratch)
    && (!hasScale c || decide (scale * 64 + (n + 1) ≤ operandScratch))
    && (!withB || decide (bight * 64 + (bightTileNo spec stride r1 c1 + 1) * (cap + 1) * 4 ≤ operandScratch))

/-- Reduction-axis and outer origins of an operand. -/
def Opnd.redOrigin (o : Opnd) : Nat := if o.feed = 0 then o.col else o.row
/-- Outer-axis origin. -/
def Opnd.outOrigin (o : Opnd) : Nat := if o.feed = 0 then o.row else o.col

/-- Words of an operand that break 0x07: alignment (second word), and bight fields or extents (first word). -/
def PlyDesc.badOpnd (p : PlyDesc) (o : Opnd) (n w : Nat) : List Nat :=
  let spec := if o.feed = 2 then p.reqSrc else o.spec
  let c := fsCode spec
  let red := if isMx c then 32 else 16
  let last := 16 * p.kb - 1
  let ext := if o.feed = 0 then (o.row + n - 1, o.col + last)
    else if o.feed = 1 then (o.row + last, o.col + n - 1)
    else (max o.row (min (o.row + last + 1) p.reqRows - 1), o.col + n - 1)
  failIf (o.redOrigin % red ≠ 0 ∨ (fsSquare spec ∧ o.outOrigin % 4 ≠ 0) ∨ (o.hasB ∧ fsSquare spec ∧ o.stride % 4 ≠ 0)) (w + 1)
    ++ failIf (o.hasB ∧ (¬ isLashed c ∨ 33 ≤ o.cap)) w
    ++ failIf (p.kb ≠ 0 ∧ ¬ planesOk spec o.elem o.scale o.bight o.cap o.stride ext.1 ext.2 o.hasB) w
    ++ failIf (o.feed = 2 ∧ (operandScratch < p.stageElem * 64 + n * p.kb * recBytes (fsCode o.spec)
        ∨ operandScratch < p.stageScale * 64 + n * p.kb)) 12

/-- Bytes of a preload value. -/
def PlyDesc.preBytes (p : PlyDesc) : Nat := if p.preFmt = 5 then 2 else 4

/-- Words of the destination that break 0x07. -/
def PlyDesc.badDest (p : PlyDesc) : List Nat :=
  let q := qspecOf p.qlo p.qhi
  let c := fsCode q.dst
  let d := p.d
  let colAl := if isWide c then 8 else if isMx c then 32 else if fsSquare q.dst then 4 else 16
  failIf (d.hasB ≠ decide (q.bLimit ≠ 0) ∨ (q.bLimit ≠ 0 ∧ d.cap ≠ q.bCap)) 5
    ++ failIf (d.col % colAl ≠ 0 ∨ (fsSquare q.dst ∧ d.row % 4 ≠ 0)
        ∨ (q.bLimit ≠ 0 ∧ (d.row % 16 ≠ 0 ∨ d.col % 16 ≠ 0 ∨ (fsSquare q.dst ∧ d.stride % 4 ≠ 0)))) 6
    ++ failIf (p.readout ∧ ¬ planesOk q.dst d.elem d.scale d.bight q.bCap d.stride (d.row + p.rows - 1) (d.col + p.cols - 1)
        (decide (q.bLimit ≠ 0))) 5

/-- 0x07 RANGE: extents, alignment, reserved encodings and bits. -/
def PlyDesc.badRange (p : PlyDesc) (ws : List W64) : List Nat :=
  let w (i : Nat) := nth ws 0 i
  let mx (o : Opnd) : Bool := o.feed = 0 && isMx (fsCode o.spec)
  let pre := if p.preload = 1 then p.cols * p.preBytes else ((p.rows - 1) * p.preStride + p.cols) * p.preBytes
  let exp := if p.expand = 1 then 16 * (p.b.row / 16 + 1) else 2 * (p.b.row + 16)
  let tw (t : Nat) : Bool := decide (5 ≤ bits t 2 0) || bits t 5 4 = 3 || bits t 31 30 ≠ 0
  failIf (p.kb = 0 ∨ p.group = 3 ∨ fld (w 0) 63 61 ≠ 0 ∨ ((mx p.a ∨ mx p.b) ∧ p.kb % 2 = 1)) 0
    ++ p.badOpnd p.a p.rows 1 ++ p.badOpnd p.b p.cols 3 ++ p.badDest
    ++ failIf (fld (w 1) 63 52 ≠ 0) 1 ++ failIf (fld (w 2) 63 60 ≠ 0) 2 ++ failIf (fld (w 3) 63 52 ≠ 0) 3
    ++ failIf (fld (w 4) 63 60 ≠ 0) 4 ++ failIf (fld (w 5) 63 52 ≠ 0) 5 ++ failIf (fld (w 6) 63 60 ≠ 0) 6
    ++ failIf (tw p.twa ∨ tw p.twb) 8
    ++ failIf ((p.preFmt ≠ 5 ∧ p.preFmt ≠ 6) ∨ fld (w 11) 63 43 ≠ 0) 11
    ++ failIf ((p.preload = 1 ∨ p.preload = 2) ∧ operandScratch < p.preLine * 64 + pre) 11
    ++ failIf (p.expand ≠ 0 ∧ operandScratch < p.expLine * 64 + exp) 12
    ++ failIf (fld (w 12) 63 46 ≠ 0) 12 ++ failIf (fld (w 14) 63 52 ≠ 0) 14 ++ failIf (fld (w 15) 63 40 ≠ 0) 15

/-- Operations of a ply in order: held or running ones by slot, then the queue. -/
def Ply.ops (y : Ply) : List OpMsg :=
  ((y.slots.map fun sl => sl.held.toList ++ (sl.run.map (·.msg)).toList).flatten) ++ y.queue

/-- The operation that a slot will hold a sum of, when everything accepted so far has run. -/
def Ply.holds (y : Ply) (q : Nat) : Option OpMsg :=
  let rel (m : OpMsg) : Bool := let p := plyDesc m.words; !p.packed || p.quad = q
  match (y.ops.filter rel).getLast? with
  | some m => if (plyDesc m.words).readout then none else some m
  | none => none

/-- 0x06 CHAIN (R120): while any slot of a member ply holds a sum, the operation must be its continuation. -/
def PlyDesc.badChain (p : PlyDesc) (c : Core) : List Nat :=
  let hs := (p.members.map fun m => [0, 1, 2, 3].filterMap fun q => (nth c.plies {} m).holds q).flatten
  let mism (m : OpMsg) : List Nat :=
    let h := plyDesc m.words
    if p.preload ≠ 3 ∨ h.kind ≠ p.kind ∨ h.rope ≠ p.rope ∨ h.ply ≠ p.ply ∨ h.quad ≠ p.quad then [0]
    else failIf (h.ta ≠ p.ta ∨ h.tb ≠ p.tb) 7
  (hs.map mism).flatten ++ failIf (p.preload = 3 ∧ hs = []) 0

/-- The first failing code of a descriptor, with the lowest word that holds a failing field. A reserved PRE_FMT breaks it whatever PRELOAD is (R121). -/
def plyCheck (c : Core) (ring : Nat → Nat) (ws : List W64) : Option (Nat × Nat) :=
  let p := plyDesc ws
  let checks := [(1, p.badFormat ring), (2, p.badTwist), (3, p.badPair), (4, p.badPlace c.ec.plyMask), (5, p.badFeed),
                 (6, p.badChain c), (7, p.badRange ws)]
  match checks.find? fun k => !k.2.isEmpty with
  | some (code, l) => some (code, l.foldl min 15)
  | none => none

end Sys2Proof.Machine
end

