-- ==== Sys2Proof/Machine/Ply.lean ====
section
/-! DEFINITION. Plies and the long accumulator: acceptance, block-steps, read-out, residue (04 R99–R125, 05 R126–R151). -/

namespace Sys2Proof.Machine

/- Operand slots. -/

/-- What an operand presents at one reduction position: no product (padding), an element under its block scale, or a bight value in the place of its element (R110, R130). -/
inductive Slot where
  | none
  | elem (x : Fl)
  | bight (x : Fl)
deriving DecidableEq, Repr

/-- The value a slot brings to a product. -/
def Slot.val : Slot → Option Fl
  | .none => .none
  | .elem x => some x
  | .bight x => some x

/-- Raw element code at a stored position and its block's scale code (R52, R105). -/
def State.rawAt (s : State) (core spec elem scale stride row col : Nat) : Nat × Nat :=
  let c := fsCode spec
  let n := blockNo spec stride row col
  let pos := if fsSquare spec then row % 4 * 4 + col % 4 else col % recElems c
  let w := elemBits c
  (bits (s.scrNat core (elem * 64 + n * recBytes c) (recBytes c)) (w * pos + w - 1) (w * pos),
   if hasScale c then s.scrNat core (scale * 64 + n) 1 else 0)

/-- Bight entries of the block at a stored position: none for a count of 3, which reads the block as NaN (R81). The reserved count of an earlier block stands for no entries (DEDUCED). -/
def State.bightOf (s : State) (core spec plane cap stride row col : Nat) : Option (List (Nat × Nat)) :=
  let base := plane * 64 + bightTileNo spec stride row col * (cap + 1) * 4
  let j := if fsSquare spec then row / 4 % 4 * 4 + col / 4 % 4 else row % 16
  let w := s.scrNat core base 4
  let cnt (i : Nat) : Nat := bits w (2 * i + 1) (2 * i)
  if cnt j = 3 then .none else
  let start := ((List.range j).map fun i => if cnt i = 3 then 0 else cnt i).sum
  some ((List.range (cnt j)).map fun i =>
    let e := s.scrNat core (base + 4 + 4 * (start + i)) 4
    (bits e 19 16, bits e 15 0))

/-- The bight value at a position: `none` when the block reads as NaN, else its entry if it has one. -/
def State.bightAt (s : State) (core : Nat) (o : Opnd) (spec row col sc : Nat) : Option (Option Nat) :=
  if !o.hasB then some .none else
  match s.bightOf core spec o.bight o.cap o.stride row col with
  | .none => .none
  | some es =>
    if sc = 0xFF then some .none else
    let pos := if fsSquare spec then row % 4 * 4 + col % 4 else col % 16
    some ((es.find? fun e => e.1 = pos).map Prod.snd)

/-- A stored element as a slot. -/
def State.slotAt (s : State) (core : Nat) (o : Opnd) (row col : Nat) : Slot :=
  let c := fsCode o.spec
  let r := s.rawAt core o.spec o.elem o.scale o.stride row col
  match s.bightAt core o o.spec row col r.2 with
  | .none => .elem .nan
  | some (some v) => .bight (FF.bf16.decode v).posZero
  | some .none => .elem (elemScaled c (fsVar o.spec) r.1 r.2)

/-- The expanded weight element of channel n (R116, R117). -/
def State.expandAt (s : State) (core : Nat) (p : PlyDesc) (row col : Nat) : Slot :=
  let c := fsCode p.b.spec
  let code := (s.rawAt core p.b.spec p.b.elem p.b.scale p.b.stride row col).1
  if p.expand = 1 then
    .elem (FF.e4m3.decode (s.scrNat core (p.expLine * 64 + p.b.row / 16 * 16 + code) 1)).posZero
  else
    let sc := s.scrNat core (p.expLine * 64 + 2 * row) 1
    let zb := s.scrNat core (p.expLine * 64 + 2 * row + 1) 1
    let z : Int := if c = 7 then sext 4 zb else (zb % 16 : Nat)
    let v : Int := (if c = 7 then sext 4 code else (code : Int)) - z
    if sc = 0 then .elem .zero else .elem (((Fl.ofInt v).mul (ue5m3 sc)).posZero)

/-- The staged operand of a REQ_T operation as an operand of its own (R108). -/
def PlyDesc.staged (p : PlyDesc) (o : Opnd) : Opnd :=
  { o with elem := p.stageElem, scale := p.stageScale, hasB := false, row := 0, col := 0, stride := p.kb }

/-- The slot of an operand at outer position `i` and reduction position `k` of the operation (R106, R119, R130). -/
def State.feed (s : State) (core : Nat) (p : PlyDesc) (o : Opnd) (isB : Bool) (i k : Nat) : Slot :=
  let g := o.redOrigin + k
  if o.feed = 2 then
    if p.reqRows ≤ g then .none else s.slotAt core (p.staged o) i k
  else if o.kext ≠ 0 ∧ o.kext ≤ g then .none
  else if isB && p.expand ≠ 0 then s.expandAt core p (o.row + i) (o.col + k)
  else if o.feed = 0 then s.slotAt core o (o.row + i) (o.col + k)
  else s.slotAt core o (o.row + k) (o.col + i)

/- Accumulators (R126–R136, R145). -/

/-- Truncates toward zero to a multiple of 2^−96 after the clamp to 2^127 (R131): the integer in units of 2^−96, and whether it was truncated or clamped. -/
def accEntry (neg : Bool) (m : Nat) (e : Int) : Int × Bool × Bool :=
  let sg (v : Nat) : Int := if neg then -(v : Int) else v
  if m = 0 then (0, false, false)
  else if !magLt m e 1 127 then (sg (2 ^ 223), false, true)
  else
    let k := e + 96
    if 0 ≤ k then (sg (m <<< k.toNat), false, false)
    else let d := (-k).toNat; (sg (m >>> d), decide (m % 2 ^ d ≠ 0), false)

/-- Residue of an integer modulo 65,535 (R145). -/
def resOf (i : Int) : Nat := (i % 65535).toNat

/-- Enters one exact value: flags first, then the sum and the residue (R131, R136). The counts say whether it was truncated or clamped. -/
def Acc.enter (a : Acc) (x : Fl) : Acc × Nat × Nat :=
  match x with
  | .nan => ({ a with nan := true }, 0, 0)
  | .inf n => (if n then { a with ninf := true } else { a with pinf := true }, 0, 0)
  | .fin n m e =>
    let r := accEntry n m e
    ({ a with sum := a.sum + BitVec.ofInt 256 r.1, res := (a.res + resOf r.1) % 65535
              inexact := a.inexact || r.2.1 || r.2.2 }, b01 r.2.1, b01 r.2.2)

/-- Enters a list of values. -/
def Acc.enterAll (a : Acc) (l : List Fl) : Acc × Nat × Nat :=
  l.foldl (fun acc x => let r := acc.1.enter x; (r.1, acc.2.1 + r.2.1, acc.2.2 + r.2.2)) (a, 0, 0)

/-- Products of a row of A with a column of B over one block-step (R99, R110). -/
def products (xs ys : List Slot) : List Fl :=
  (xs.zip ys).filterMap fun p => match p.1.val, p.2.val with
    | some x, some y => some (x.mul y)
    | _, _ => none

/-- Block-steps between a clear and a read-out beyond which NAN is set (R134). -/
def accLimit : Nat := 2 ^ 27

/-- One block-step of a member over its tile of accumulators. -/
def AccTile.blockStep (t : AccTile) (as bs : List (List Slot)) : AccTile × Nat × Nat :=
  let prods := (as.map fun xs => bs.map fun ys => products xs ys).flatten
  let rs := (t.accs.zip prods).map fun p => p.1.enterAll p.2
  let tr := (rs.map fun r => r.2.1).sum
  let cl := (rs.map fun r => r.2.2).sum
  let steps := t.steps + 1
  let past := decide (accLimit < steps)
  ({ accs := rs.map fun r => if past then { r.1 with nan := true } else r.1
     trunc := t.trunc + tr, clamp := t.clamp + cl, steps := steps }, tr, cl)

/-- A cleared tile of n accumulators. -/
def AccTile.clear (n : Nat) : AccTile := { accs := List.replicate n {} }

/-- Preload value for output (i, j) of the whole operation (R120, R139). -/
def State.preload (s : State) (core : Nat) (p : PlyDesc) (i j : Nat) : List Fl :=
  let sz := p.preBytes
  let ff := if p.preFmt = 5 then FF.bf16 else FF.fp32
  let rd (e : Nat) : List Fl := [ff.decode (s.scrNat core (p.preLine * 64 + e * sz) sz)]
  if p.preload = 1 then rd j else if p.preload = 2 then rd (i * p.preStride + j) else []

/-- A tile with its preload entered (R139). -/
def State.preTile (s : State) (core : Nat) (p : PlyDesc) (m : Nat) : AccTile × Nat × Nat :=
  let n := p.side
  let rs := ((List.range n).map fun i => (List.range n).map fun j =>
    ({} : Acc).enterAll (s.preload core p (p.rowOff m + i) (p.colOff m + j))).flatten
  let tr := (rs.map fun r => r.2.1).sum
  let cl := (rs.map fun r => r.2.2).sum
  ({ accs := rs.map Prod.fst, trunc := tr, clamp := cl, steps := 0 }, tr, cl)

/- Ply plumbing. -/

/-- Ply p of a core. -/
def State.ply (s : State) (core p : Nat) : Ply := nth (s.core core).plies {} p

/-- Applies a function to a ply. -/
def State.onPly (s : State) (core p : Nat) (f : Ply → Ply) : State :=
  s.onCore core fun c => { c with plies := c.plies.modify p f }

/-- Slot q of a ply. -/
def Ply.slot (y : Ply) (q : Nat) : PlySlot := nth y.slots {} q

/-- Applies a function to a slot of a ply. -/
def State.onSlot (s : State) (core p q : Nat) (f : PlySlot → PlySlot) : State :=
  s.onPly core p fun y => { y with slots := y.slots.modify q f }

/- Acceptance (R114, R121, R155, R158). -/

/-- The guard entry whose consumer chain an operation begins or continues. -/
def guardOf (c : Core) (m : OpMsg) : Option Nat :=
  if m.reissue then m.guard else
  let p := plyDesc m.words
  let begins (g : GuardSt) : Bool := g.index = m.idx && g.occurrence = m.occ && g.chain.isEmpty
  let goesOn (g : GuardSt) : Bool := p.preload = 3 && decide (g.chain.length < g.chainLen) &&
    (match g.chain.getLast? with
     | some l => let h := plyDesc l.words; h.ply = p.ply && h.quad = p.quad && h.kind = p.kind && !h.readout
     | none => false)
  match (c.ec.guards.zipIdx).find? fun g => begins g.1 with
  | some g => some g.2
  | none => ((c.ec.guards.zipIdx).find? fun g => goesOn g.1).map Prod.snd

/-- A descriptor with the formats of its guarded operands at their layer's rung (R158). Its QSPEC stays as written: the quantiser takes it through the ladder. -/
def ladderWords (c : Core) (g : Option Nat) (ws : List W64) : List W64 :=
  match g.bind fun i => c.ec.guards[i]? with
  | none => ws
  | some g =>
    let l := c.layer g.layer
    reissueOperand l g (fun _ => false) 1 (reissueOperand l g (fun _ => false) 0 ws)

/-- A descriptor as it runs: its QSPEC through the ladder of its site, and no destination bight where the rung's format has none (R158). -/
def rungWords (c : Core) (ws : List W64) : List W64 :=
  let lo := c.ladder (nth ws 0 9) (nth ws 0 10)
  let ws' := ws.set 9 lo
  if fld lo 15 14 = 0 ∧ fld (nth ws 0 9) 15 14 ≠ 0 then ws'.set 5 (setFld (nth ws 0 5) 45 45 0) else ws'

/-- The checks of R121 on a descriptor as written, then as it runs at its sites' rungs. -/
def plyVerdict (c : Core) (ring : Nat → Nat) (orig ws : List W64) : Option (Nat × Nat) :=
  (plyCheck c ring orig).or (plyCheck c ring (rungWords c ws))

/-- A ply takes a descriptor from the core's in-box: it joins every member's queue, or is rejected with its code (R121). A rejected rope descriptor counts on the ply that PLY names, and on no other member (DESIGN CHOICE, log 120). -/
def State.plyAccept (s : State) (core : Nat) (m : OpMsg) : State :=
  let c := s.core core
  let g := guardOf c m
  let ws := if m.reissue then m.words else ladderWords c g m.words
  let p := plyDesc ws
  let s := s.onCore core fun c => { c with plyInbox := c.plyInbox.erase m }
  match plyVerdict c (s.ringSize core) m.words ws with
  | some e => (s.plyReject core p.ply e.1 e.2 m.idx).complete core m
  | none =>
    let m' : OpMsg := { m with words := ws, guard := g }
    let s := p.members.foldl (fun s k => s.onPly core k fun y => { y with queue := y.queue ++ [m'] }) s
    match g with
    | none => s
    | some gi =>
      if m.reissue then s else
      (s.onGuard core gi fun g => { g with chain := g.chain ++ [{ m with guard := some gi }]
                                           epoch := if g.chain.isEmpty then p.epoch else g.epoch }).ecPoll core

/-- The plies that a descriptor in the in-box will use. -/
def msgMembers (m : OpMsg) : List Nat := (plyDesc m.words).members

/-- A re-issued operation waits while a member holds, or will hold, a sum that is not its own chain's (R161). -/
def reissueWaits (c : Core) (m : OpMsg) : Bool :=
  m.reissue && (msgMembers m).any fun k => [0, 1, 2, 3].any fun q =>
    match (nth c.plies {} k).holds q with
    | some h => !(h.reissue && h.guard = m.guard)
    | none => false

/-- Acceptance of the next descriptor of one kind for a ply, when no earlier one shares a member and every member has room (R114, R161). -/
def execPlyAccept (kind core ply : Nat) (s : State) : Out :=
  guardPart (decide (core < 384) && decide (ply < 4)) <|
    let c := s.core core
    let inbox := c.plyInbox.filter fun m => !reissueWaits c m
    let mine (m : OpMsg) : Bool := let p := plyDesc m.words; p.kind = kind && p.ply = ply
    match inbox.find? mine with
    | none => s
    | some m =>
      let ms := msgMembers m
      let room := ms.all fun k => decide ((nth c.plies {} k).queue.length < 4)
      let blocked := (inbox.takeWhile fun m => !mine m).any fun b => (msgMembers b).any ms.contains
      if !room || blocked then s else s.plyAccept core m

/-- MATMUL (R119–R121). -/
def execMatmul (core ply : Nat) (s : State) : Out := execPlyAccept 1 core ply s
/-- PACKED (R113). -/
def execPacked (core ply : Nat) (s : State) : Out := execPlyAccept 2 core ply s

/- REQ_T staging (R108). -/

/-- Source element of a REQ_T operand, decoded under R64; a bight entry's value × the tensor-scale field takes its place. -/
def State.reqSource (s : State) (core : Nat) (p : PlyDesc) (o : Opnd) (t row col : Nat) : Fl :=
  let c := fsCode p.reqSrc
  let r := s.rawAt core p.reqSrc o.elem o.scale o.stride row col
  match s.bightAt core o p.reqSrc row col r.2 with
  | none => .nan
  | some (some v) => (FF.bf16.decode v).mul (f32n t)
  | some none => f32 (decodeF32 c false r.1 r.2 t).1

/-- Whether the decoding of a REQ_T source element saturated (R64). -/
def State.reqSat (s : State) (core : Nat) (p : PlyDesc) (o : Opnd) (t row col : Nat) : Bool :=
  let r := s.rawAt core p.reqSrc o.elem o.scale o.stride row col
  match s.bightAt core o p.reqSrc row col r.2 with
  | some none => (decodeF32 (fsCode p.reqSrc) false r.1 r.2 t).2
  | _ => false

/-- The quantiser operation that stages block-step kb of a REQ_T operand. -/
def State.reqOp (s : State) (core : Nat) (p : PlyDesc) (m : OpMsg) (o : Opnd) (t n kb : Nat) : QOp :=
  let pp := roundUp p.reqRows 16
  let el (i j : Nat) : QElem :=
    let k := o.row + 16 * kb + j
    if p.reqRows ≤ k then { x := .zero, pad := true, idx := 0, k := k }
    else { x := s.reqSource core p o t k (o.col + i), pad := false, idx := (o.col + i) * pp + k, k := k }
  { lo := w64 (o.spec + b01 p.reqStoch * 2 ^ 8), hi := w64 (t + p.reqSite * 2 ^ 32 + 2 * 2 ^ 56)
    rows := (List.range n).map fun i => { row := i, col := 16 * kb, els := (List.range 16).map (el i) }
    dst := { hbm := false, core := core, elem := p.stageElem * 64, scale := p.stageScale * 64, bight := none, stride := p.kb }
    tile := p.tile, epoch := p.epoch, accTrunc := 0, accSat := 0, plies := [], quad := 0
    signal := none, launch := none, guard := m.guard, last := kb + 1 = p.kb
    preSat := ((List.range n).map fun i => (List.range 16).countP fun j =>
      decide (o.row + 16 * kb + j < p.reqRows) && s.reqSat core p o t (o.row + 16 * kb + j) (o.col + i)).sum }

/-- A REQ_T operation waits while the DMA-load port, which it shares, is stalled on a keep ring (R95, R108). -/
def State.reqBlocked (s : State) (core : Nat) (p : PlyDesc) : Bool :=
  (p.a.feed = 2 || p.b.feed = 2) && s.portStalled core 2

/-- Stages block-step kb of an operation's REQ_T operand, if it has one. -/
def State.reqStage (s : State) (core : Nat) (p : PlyDesc) (m : OpMsg) (kb : Nat) : State :=
  let go (o : Opnd) (t n : Nat) : State :=
    match s.runQOp core (s.reqOp core p m o t n kb) true with
    | some r => r.1
    | none => s
  if p.a.feed = 2 then go p.a p.ta p.rows else if p.b.feed = 2 then go p.b p.tb p.cols else s

/- Block-steps (R99–R101, R111). -/

/-- Number of bight entries among an operand's slots. -/
def bightCount (l : List (List Slot)) : Nat := (l.map fun r => r.countP fun x => match x with | .bight _ => true | _ => false).sum

/-- Slots of one operand over a block-step: `n` outer positions from `off`. -/
def State.feedBlock (s : State) (core : Nat) (p : PlyDesc) (o : Opnd) (isB : Bool) (off n kb : Nat) : List (List Slot) :=
  (List.range n).map fun i => (List.range 16).map fun j => s.feed core p o isB (off + i) (16 * kb + j)

/-- Cycles a block-step waits for its bight queues: occupancy, entries, size, entries retired per cycle (R111). -/
def bightWait (occ n size ret : Nat) : Nat := cdiv (occ + n - size) ret

/-- Executes block-step run.kb of an operation on every member. `feedStalls` and `gap` are the cycles before it in which it was not granted (R118) and in which none was ready to enter; the bight queues retire entries in those too. -/
def State.blockStep (s : State) (core : Nat) (p : PlyDesc) (m : OpMsg) (kb feedStalls gap : Nat) : State :=
  let s := s.reqStage core p m kb
  let size := if p.packed then 16 else 64
  let ret := if p.packed then 4 else 16
  let r := opPeriod m.words
  let n := p.side
  let q := p.slot
  let ops := p.members.map fun k =>
    (k, s.feedBlock core p p.a false (p.rowOff k) n kb, s.feedBlock core p p.b true (p.colOff k) n kb)
  let occ (k : Nat) : Nat × Nat :=
    let sl := (s.ply core k).slot q
    (sl.queA - ret * (feedStalls + gap), sl.queB - ret * (feedStalls + gap))
  let wait := (ops.map fun o => max (bightWait (occ o.1).1 (bightCount o.2.1) size ret)
    (bightWait (occ o.1).2 (bightCount o.2.2) size ret)).foldl max 0
  ops.foldl (fun s o =>
    let k := o.1
    let na := bightCount o.2.1
    let nb := bightCount o.2.2
    let sl := (s.ply core k).slot q
    let t0 := if kb ≠ 0 then (sl.tile, 0, 0)
      else if p.preload = 3 then (sl.tile, 0, 0)
      else s.preTile core p k
    let t := t0.1.blockStep o.2.1 o.2.2
    let left (x y : Nat) : Nat := (x - ret * wait) + y - ret * r
    let s := s.onSlot core k q fun sl => { sl with
      tile := t.1, held := none
      run := sl.run.map fun u => { u with kb := kb + 1 }
      queA := left (occ k).1 na, queB := left (occ k).2 nb }
    let b (n : RegName) (v : Nat) (s : State) : State := s.bump (plyR n core k) v
    b .PLY_STEP_TOTAL 1 (b .BIGHT_ENTRY_TOTAL (na + nb) (b .BIGHT_STALL_TOTAL wait (b .FEED_STALL_TOTAL feedStalls
      (b .ACC_TRUNC_TOTAL (t0.2.1 + t.2.1) (b .ACC_CLAMP_TOTAL (t0.2.2 + t.2.2) s)))))) s

/-- The end of accumulation (R120, R122): a sum that is held completes at once (one of a discarded epoch is dropped, R162); one that is read out waits for its buffer. -/
def State.accDone (s : State) (core : Nat) (p : PlyDesc) (m : OpMsg) : State :=
  let q := p.slot
  if p.readout then
    p.members.foldl (fun s k => s.onSlot core k q fun sl => { sl with run := sl.run.map fun u => { u with done := true } }) s
  else
    let stale := s.staleOp core m
    let s := p.members.foldl (fun s k =>
      (s.onSlot core k q fun sl => if stale then { sl with run := none, held := none, tile := {} }
        else { sl with run := none, held := some m }).bump (plyR .OPS_TOTAL core k) 1) s
    s.complete core m

/-- The operation that slot q of a ply may begin next: in issue order, with MATMUL and packed operations apart (R114). -/
def State.nextOp (s : State) (core ply q : Nat) : Option OpMsg :=
  let y := s.ply core ply
  let idle (k : Nat) (q : Nat) : Bool := ((s.ply core k).slot q).run.isNone
  let m? : Option OpMsg := match y.queue.head? with
    | none => none
    | some h =>
      if !(plyDesc h.words).packed then some h
      else (y.queue.takeWhile fun m => (plyDesc m.words).packed).find? fun m => (plyDesc m.words).quad = q
  m?.bind fun m =>
    let p := plyDesc m.words
    if p.packed then (if idle ply q && !((y.slot 0).run.any fun u => !(plyDesc u.msg.words).packed) then some m else none)
    else if q = 0 && p.ply = ply && (p.members.all fun k =>
        (s.ply core k).queue.head? = some m && [0, 1, 2, 3].all (idle k)) then some m
    else none

/-- BLOCK_STEP (R99): the next block-step of the operation in a slot, or the first of the operation that may begin there; `feedStalls` is the cycles it was not granted (R118), `gap` the cycles in which the slot was ready for no block-step (R111), `ecc` the scratch errors its feeds meet (16 R414). -/
def execBlockStep (core ply quad feedStalls gap : Nat) (ecc : List (Nat × Nat)) (s : State) : Out :=
  guardPart (decide (core < 384) && decide (ply < 4) && decide (quad < 4)) <|
    match ((s.ply core ply).slot quad).run with
    | some u =>
      let p := plyDesc u.msg.words
      if u.done ∨ p.ply ≠ ply ∨ s.reqBlocked core p then s else
      let s := (s.scrEvents core ecc).blockStep core p u.msg u.kb feedStalls gap
      if u.kb + 1 = p.kb then s.accDone core p u.msg else s
    | none =>
      match s.nextOp core ply quad with
      | none => s
      | some m =>
        let p := plyDesc m.words
        if s.reqBlocked core p then s else
        let s := p.members.foldl (fun s k =>
          (s.onPly core k fun y => { y with queue := y.queue.erase m }).onSlot core k p.slot fun sl =>
            { sl with run := some { msg := m, kb := 0, done := false } }) s
        let s := (s.scrEvents core ecc).blockStep core p m 0 feedStalls gap
        if p.kb = 1 then s.accDone core p m else s

/- Read-out (R141–R149). -/

/-- Residue checks of one member's tile: failing outputs as (index, expected, observed), outputs checked, outputs skipped. `inject` flips bit 0 of the first expected value. -/
def residueCheck (t : AccTile) (inject : Bool) : List (Nat × Nat × Nat) × Nat × Nat :=
  let skip (a : Acc) : Bool := a.nan || a.pinf || a.ninf || a.inexact
  let cs := (t.accs.zipIdx).filter fun p => !skip p.1
  let fails := ((cs.zipIdx).filterMap fun p =>
    let exp := if inject && p.2 = 0 then p.1.1.res ^^^ 1 else p.1.1.res
    let obs := resOf p.1.1.sum.toInt
    if exp = obs then none else some (p.1.2, exp, obs))
  (fails, cs.length, t.accs.length - cs.length)

/-- Value of an output before the read-out factor, whether its window saturated, and whether a flag decides it (R137, R141). -/
def Acc.resolve (a : Acc) : Fl × Bool × Bool :=
  if a.nan || (a.pinf && a.ninf) then (.nan, false, true)
  else if a.pinf then (.inf false, false, true)
  else if a.ninf then (.inf true, false, true)
  else
    let v := a.sum.toInt
    let hi : Int := 2 ^ 191 - 1
    let lo : Int := -(2 ^ 191)
    if hi < v then (.ofInt hi (-96), true, false)
    else if v < lo then (.ofInt lo (-96), true, false)
    else (.ofInt v (-96), false, false)

/-- The tensor scale a format reads with; `none` if it is invalid (R43, R46). -/
def readScale (spec t : Nat) : Option Fl :=
  if isWide (fsCode spec) then some (.fin false 1 0) else if tscaleOk t then some (f32n t) else none

/-- Read-out factor f = t_A × t_B × 2^−τ (R141). -/
def PlyDesc.factor (p : PlyDesc) : Option Fl :=
  let tau : Int := if bits p.twa 2 0 ≠ 0 ∧ bits p.twb 2 0 ≠ 0 then 3 + bits p.twa 2 0 else 0
  match readScale p.a.spec p.ta, readScale p.b.spec p.tb with
  | some x, some y => some ((x.mul y).mul (.fin false 1 (-tau)))
  | _, _ => none

/-- Stored row width in elements, from which a read-out counts element indices (R88). For an MX destination it is 32 × STRIDE, since R105 counts its STRIDE in 32-element records; R88 itself names 16 × STRIDE (DESIGN CHOICE, log 116). -/
def rowWidth (spec stride : Nat) : Nat := if fsSquare spec then 4 * stride else recElems (fsCode spec) * stride

/-- The quantiser operation of a tile whose members resolved to `outs` (output (i, j) of the operation); `lo` is the QSPEC's low word at its site's rung, and the operation carries it as written. -/
def PlyDesc.readOp (p : PlyDesc) (core : Nat) (m : OpMsg) (lo : W64) (out : Nat → Nat → Fl) (trunc sat : Nat) : QOp :=
  let q := qspecOf lo p.qhi
  let wd := rowWidth q.dst p.d.stride
  let el (i j : Nat) : QElem := { x := out i j, pad := false, idx := (p.d.row + i) * wd + p.d.col + j, k := p.d.col + j }
  { lo := p.qlo, hi := p.qhi
    rows := (List.range p.rows).map fun i => { row := p.d.row + i, col := p.d.col, els := (List.range p.cols).map (el i) }
    dst := { hbm := false, core := core, elem := p.d.elem * 64, scale := p.d.scale * 64
             bight := if q.bLimit = 0 then none else some (p.d.bight * 64), stride := p.d.stride }
    tile := p.tile, epoch := p.epoch, accTrunc := min trunc 0xFFFF, accSat := min sat 0xFFFF
    plies := p.members, quad := p.quad, signal := some m, launch := none, guard := m.guard, last := true }

/-- Residue results on a member: totals, ARM, and on a failure the detail and the fault (R147–R150). -/
def State.residueEvents (s : State) (core k : Nat) (p : PlyDesc) (m : OpMsg) (r : List (Nat × Nat × Nat) × Nat × Nat) : State :=
  let s := (s.bump (plyR .RESIDUE_CHECK_TOTAL core k) r.2.1).bump (plyR .RESIDUE_SKIP_TOTAL core k) r.2.2
  let s := if r.2.1 = 0 then s else s.setRegFld (plyR .RESIDUE_INJECT core k) 0 0 0
  match r.1 with
  | [] => s
  | (i, exp, obs) :: _ =>
    let s := s.bump (plyR .RESIDUE_FAULT_TOTAL core k) 1
    let row := i / p.side
    let col := i % p.side
    let det := w64 (m.idx % 2 ^ 32 + col * 2 ^ 36 + row * 2 ^ 40 + p.quad * 2 ^ 44)
    let s := if bit (s.reg (plyR .ACC_FAULT_DETAIL core k)) 63 then s
      else (s.detail (plyR .ACC_FAULT_DETAIL core k) det).setReg (plyR .ACC_FAULT_RESIDUE core k)
        (w64 (obs + exp * 2 ^ 16 + min r.1.length 255 * 2 ^ 40))
    s.raise (.core core) 20 (s.ctxOf core) (s.reg (plyR .ACC_FAULT_DETAIL core k))

/-- Moves a tile to the read-out buffer, resolves and checks it, and passes it to the quantiser's ply port (R141). -/
def State.readOut (s : State) (core : Nat) (p : PlyDesc) (m : OpMsg) : State :=
  let q := p.slot
  let tiles := p.members.map fun k => (k, ((s.ply core k).slot q).tile)
  let inj (k : Nat) : Bool := bit (s.reg (plyR .RESIDUE_INJECT core k)) 0
  let chk := tiles.map fun t => (t.1, residueCheck t.2 (inj t.1))
  let s := p.members.foldl (fun s k =>
    (s.onSlot core k q fun sl => { sl with run := none, held := none, tile := {} }).bump (plyR .OPS_TOTAL core k) 1) s
  let lo := (s.core core).ladder p.qlo p.qhi
  let s := chk.foldl (fun s c => s.residueEvents core c.1 p m c.2) s
  if chk.any fun c => !c.2.1.isEmpty then s.complete core m else
  let f := p.factor
  let badT (spec t : Nat) : Bool := (readScale spec t).isNone
  let s := if badT p.a.spec p.ta then s.raise (.core core) 1 (s.ctxOf core) else s
  let s := if badT p.b.spec p.tb then s.raise (.core core) 1 (s.ctxOf core) else s
  let res := tiles.map fun t => (t.1, t.2.accs.map Acc.resolve)
  let sats (l : List (Fl × Bool × Bool)) : Nat := if f.isNone then 0 else l.countP (·.2.1)
  let s := res.foldl (fun s r => (s.bump (plyR .ACC_SAT_TOTAL core r.1) (sats r.2)).bump (plyR .ACC_SPECIAL_TOTAL core r.1)
    (r.2.countP (·.2.2))) s
  let out (i j : Nat) : Fl :=
    let k := (p.members.find? fun k => decide (p.rowOff k ≤ i) && decide (i < p.rowOff k + p.side)
      && decide (p.colOff k ≤ j) && decide (j < p.colOff k + p.side)).getD p.ply
    let l := ((res.find? fun r => r.1 = k).map Prod.snd).getD []
    let x := (nth l (.zero, false, false) ((i - p.rowOff k) * p.side + (j - p.colOff k))).1
    match f with
    | none => .nan
    | some f => x.mul f
  let trunc := (tiles.map fun t => t.2.trunc).sum
  let sat := (tiles.map fun t => t.2.clamp).sum + (res.map fun r => sats r.2).sum
  let o := p.readOp core m lo out trunc sat
  s.onQnt core fun u => { u with ports := u.ports.modify 0 (· ++ [o]) }

/-- Ply k's read-out buffer holds a tile that has not yet gone through the quantiser (R123). -/
def State.bufferBusy (s : State) (core k : Nat) : Bool := (nth (s.core core).qnt.ports [] 0).any fun o => o.plies.contains k

/-- READ_OUT (R123, R141): the sum of a finished slot moves, or waits one cycle for an occupied read-out buffer, which counts on each member whose own buffer is occupied. -/
def execReadOut (core ply quad : Nat) (s : State) : Out :=
  guardPart (decide (core < 384) && decide (ply < 4) && decide (quad < 4)) <|
    match ((s.ply core ply).slot quad).run with
    | none => s
    | some u =>
      let p := plyDesc u.msg.words
      if !u.done ∨ p.ply ≠ ply then s else
      let busy := p.members.filter (s.bufferBusy core)
      if !busy.isEmpty then busy.foldl (fun s k => s.bump (plyR .READOUT_STALL_TOTAL core k) 1) s
      else s.readOut core p u.msg

/-- RESIDUE_INJECT write (R150), in HELD only; otherwise a decode error at `addr`. -/
def State.residueInject (s : State) (core ply : Nat) (addr : Nat) : State :=
  if s.isHeld then s.setRegFld (plyR .RESIDUE_INJECT core ply) 0 0 1 else s.decodeError true addr

/- The quantiser's ports (R65, R67, R95). -/

/-- What follows the writes of an operation: completion of its ply operation and its consumer's read-out, or one operation less for its launch or transfer. -/
def State.qopDone (s : State) (core port : Nat) (o : QOp) : State :=
  let s := match o.signal with
    | some m => (s.complete core m).ecReadOut core m
    | none => s
  match o.launch with
  | none => s
  | some t => s.onCore core fun c =>
    if port = 1 then { c with vec := { c.vec with queue := c.vec.queue.map fun l => if l.msg.tag = t then { l with qops := l.qops - 1 } else l } }
    else { c with dma := c.dma.map fun r => if r.msg.tag = t then { r with qops := r.qops - 1 } else r }

/-- QUANTISER_OPERATION: the oldest operation waiting at a port runs, or stalls on its keep ring, or waits while memory holds its writes. A keep entry that no guard names is released at once when it comes in DRAINING (R164). -/
def execQuantiserOperation (core port : Nat) (s : State) : Out :=
  guardPart (decide (core < 384) && decide (port < 4)) <|
    match nth (s.core core).qnt.ports [] port with
    | [] => s
    | o :: t =>
      match s.runQOp core o with
      | none => s.keepStall core port
      | some r =>
        if r.2 = some .held then s else
        let s := r.1.portRan core port t
        let s := match r.2 with
          | some e => s.memErr (.core core) 22 (s.ctxOf core) e
          | none => s
        let s := s.qopDone core port o
        if s.step.state = .draining then s.releaseUnguarded core else s

end Sys2Proof.Machine
end

