-- ==== Sys2Proof/Machine/Func.lean ====
section
/-! DEFINITION. The function stage (07 R192, R193): each result is a free choice among the FP32 values within the stated bound of the exact result, which is enclosed here to far below an ulp; special inputs give the results of the table. -/

namespace Sys2Proof.Machine

/-- Fraction bits of the fixed-point enclosures. -/
def fxP : Nat := 320
/-- ln 2 with 320 fraction bits. -/
def fxLn2 : Int := 0xb17217f7d1cf79abc9e3b39803f2f6af40f343267298b62d8a0d175b8baafa2be7b876206debac98
/-- π with 600 fraction bits. -/
def fxPi : Int := 0x3243f6a8885a308d313198a2e03707344a4093822299f31d0082efa98ec4e6c89452821e638d01377be5466cf34e90c6cc0ac29b7c97c50dd3f84d5b5b54709179216d5d98979fb1bd1310b

/-- A finite value as an integer of `p` fraction bits. -/
def toFx (p : Nat) (neg : Bool) (m : Nat) (e : Int) : Int :=
  let k := e + p
  let v : Int := if 0 ≤ k then ((m <<< k.toNat : Nat) : Int) else ((m >>> (-k).toNat : Nat) : Int)
  if neg then -v else v

/-- An integer of `p` fraction bits as a value. -/
def ofFx (p : Nat) (i : Int) : Fl := .ofInt i (-(p : Int))

/-- Product of two fixed-point numbers. -/
def fxMul (a b : Int) : Int := a * b / 2 ^ fxP

/-- Taylor sum of e^r, `n` more terms from term t of index k. -/
def fxExpGo : Nat → Int → Int → Nat → Int
  | 0, _, _, _ => 0
  | n + 1, r, t, k => t + fxExpGo n r (fxMul t r / (k + 1)) (k + 1)

/-- e^x for x of 320 fraction bits, |x| below 2^9, as a value. -/
def fxExp (x : Int) : Fl :=
  let k := x / fxLn2
  .fin false (fxExpGo 75 (x - k * fxLn2) (2 ^ fxP) 0).toNat (k - fxP)

/-- Terms y^(2k+1) / (2k+1) of atanh y. -/
def fxAtanhGo : Nat → Int → Int → Nat → Int
  | 0, _, _, _ => 0
  | n + 1, y2, t, k => t / k + fxAtanhGo n y2 (fxMul t y2) (k + 2)

/-- ln of a positive value m × 2^e. -/
def fxLn (m : Nat) (e : Int) : Int :=
  let s := nbits m - 1
  let x := toFx fxP false m (-(s : Int))
  let y := (x - 2 ^ fxP) * 2 ^ fxP / (x + 2 ^ fxP)
  2 * fxAtanhGo 110 (fxMul y y) y 1 + (e + s) * fxLn2

/-- Alternating terms of erf's series: t_n / (2n + 1) with t_(n+1) = −t_n x² / (n + 1). -/
def fxErfGo : Nat → Int → Int → Nat → Int
  | 0, _, _, _ => 0
  | n + 1, x2, t, k => t / (2 * k + 1) + fxErfGo n x2 (-(fxMul t x2) / (k + 1)) (k + 1)

/-- Terms of sin or cos: t, then −t r² / ((k + 1)(k + 2)). -/
def fxTrigGo : Nat → Int → Int → Nat → Int
  | 0, _, _, _ => 0
  | n + 1, r2, t, k => t + fxTrigGo n r2 (-(fxMul t r2) / ((k + 1) * (k + 2))) (k + 2)

/-- |x| modulo 2π with 320 fraction bits. -/
def fxReduce (m : Nat) (e : Int) : Int := (toFx 600 false m e) % (2 * fxPi) / 2 ^ 280

/-- e^x, also where it under- or overflows every format. -/
def exactExp (neg : Bool) (m : Nat) (e : Int) : Fl :=
  if !magLt m e 1 9 then (if neg then .zero else .fin false 1 512) else fxExp (toFx fxP neg m e)

/-- The exact result of each function-stage operation at a finite input, enclosed far below an ulp; OP as in the table. -/
def exactFunc (op : Nat) (neg : Bool) (m : Nat) (e : Int) : Fl :=
  let x : Fl := .fin neg m e
  let one : Fl := .fin false 1 0
  let sg (v : Fl) : Fl := if neg then v.neg else v
  match op with
  | 0x00 => one.div x
  | 0x03 => one.div x.sqrt
  | 0x04 => if !magLt m e 1 9 then (if neg then .zero else .fin false 1 512)
      else fxExp (fxMul (toFx fxP neg m e) fxLn2)
  | 0x05 => exactExp neg m e
  | 0x06 => (ofFx fxP (fxLn m e)).div (ofFx fxP fxLn2)
  | 0x07 => ofFx fxP (fxLn m e)
  | 0x08 =>
    let t := exactExp true (2 * m) e
    sg ((one.sub t).div (one.add t))
  | 0x09 => one.div (one.add (exactExp (!neg) m e))
  | 0x0A =>
    if !magLt m e 6 0 then sg one
    else
      let v := toFx fxP false m e
      let s := fxErfGo 230 (fxMul v v) v 0
      sg ((ofFx fxP (2 * s)).div ((ofFx 600 fxPi).sqrt))
  | 0x0B => let r := fxReduce m e; sg (ofFx fxP (fxTrigGo 70 (fxMul r r) r 1))
  | _ => let r := fxReduce m e; ofFx fxP (fxTrigGo 70 (fxMul r r) (2 ^ fxP) 0)

/-- The largest FP32 code, ordered as a signed magnitude, whose value does not exceed x. -/
def ordFloor (x : Fl) : Int :=
  match x with
  | .fin neg m e =>
    let f := FF.fp32
    let k := min (f.floorMag m e) f.maxMag
    let v := f.magVal k
    if !neg then (k : Int) else if magLt v.1 v.2 m e then -((k : Int) + 1) else -(k : Int)
  | _ => 0

/-- The FP32 word of an ordered code; 0 is +0. -/
def ordWord (i : Int) : W32 := BitVec.ofNat 32 (if i < 0 then 2 ^ 31 + i.natAbs else i.natAbs)

/-- Exponent of an ulp at a value (R192). -/
def ulpExp (m : Nat) (e : Int) : Int := if m = 0 then -149 else max (-149) (e + nbits m - 24)

/-- A free choice, by `key`, among the FP32 values within b ulp of v, or within 2^−22 where `abs` is set; an overflow is an infinity. -/
def pickWithin (b : Nat) (abs : Bool) (v : Fl) (key : Nat) : W32 :=
  match v with
  | .fin neg m e =>
    if FF.fp32.infMag ≤ FF.fp32.encMag m e then toF32 (.inf neg)
    else
      let w : Fl := if abs then .fin false 1 (-22) else .fin false b (ulpExp m e)
      let hi := ordFloor (v.add w)
      let lo := -ordFloor ((v.sub w).neg)
      ordWord (lo + ((key % ((hi - lo).toNat + 1) : Nat) : Int))
  | x => toF32 x

/-- Bound of an operation in ulp. -/
def funcBound (op : Nat) : Nat := if op = 0x00 ∨ op = 0x03 ∨ op = 0x04 ∨ op = 0x06 then 1 else 2

/-- Special inputs of the function stage (R193), and −0 and negative inputs where the table names them. VRSQ of +infinity is +0 (DEDUCED: the exact result). -/
def funcSpecial (op : Nat) (x : Fl) : Option Fl :=
  match x with
  | .nan => some .nan
  | .inf n =>
    match op with
    | 0x00 => some (.fin n 0 0)
    | 0x03 => some (if n then .nan else .zero)
    | 0x04 | 0x05 => some (if n then .zero else .inf false)
    | 0x06 | 0x07 => some (if n then .nan else .inf false)
    | 0x08 | 0x0A => some (.fin n 1 0)
    | 0x09 => some (if n then .zero else .fin false 1 0)
    | _ => some .nan
  | .fin n m _ =>
    match op with
    | 0x00 => if m = 0 then some (.inf n) else none
    | 0x03 => if m = 0 then some (.inf n) else if n then some .nan else none
    | 0x06 | 0x07 => if m = 0 then some (.inf true) else if n then some .nan else none
    | _ => none

/-- A function-stage result other than VDIV and VSQRT. -/
def funcStage (op : Nat) (w : W32) : W32 :=
  match funcSpecial op (f32 w) with
  | some r => toF32 r
  | none =>
    match f32 w with
    | .fin n m e =>
      let half : Fl := .fin false 1 (-1)
      let abs := (op = 0x06 || op = 0x07) && half.le (f32 w) && (f32 w).le (.fin false 2 0)
      pickWithin (funcBound op) abs (exactFunc op n m e) (Config.fnChoice op w)
    | x => toF32 x

/-- E of R200: VEXP. -/
def vexp (w : W32) : W32 := funcStage 0x05 w

/-- E of an exact difference, which R200 and R201 round nowhere: VEXP's own result where it is an FP32 number, else a free choice within VEXP's bound (DEDUCED, log 121). -/
def vexpOf (x : Fl) : W32 :=
  if x.isNan || (rnd32 x).beq x then vexp (toF32 x) else
  match x with
  | .fin n m e => pickWithin (funcBound 0x05) false (exactExp n m e) (Config.expChoice (onGrid n m e (-149)))
  | x => toF32 x

end Sys2Proof.Machine
end

