-- ==== Sys2Proof/Machine/VecOps.lean ====
section
/-! DEFINITION. Vector-engine state operations: launches, strand fetch, lanes, guards, reduction states, tensor slots (07 R175–R207). -/

namespace Sys2Proof.Machine

/- Launches (R175–R179). -/

/-- Applies a function to a core's vector engine. -/
def State.onVec (s : State) (core : Nat) (f : Vector16 → Vector16) : State := s.onCore core fun c => { c with vec := f c.vec }

/-- Word i of a launch descriptor. -/
def OpMsg.w (m : OpMsg) (i : Nat) : W64 := nth m.words 0 i
/-- STRAND_MASK. -/
def OpMsg.strands (m : OpMsg) : List Nat := bitsSet 16 (fld (m.w 0) 19 4)

/-- A tensor slot (*Tensor slot*). -/
structure TSlot where
  elem : Nat
  scale : Nat
  fmt : Nat
  wrap : Bool
  exact : Bool
  dim : Nat
  tscale : Nat
  fill : Nat
deriving DecidableEq, Repr

/-- Tensor slot j of a launch. -/
def OpMsg.tslot (m : OpMsg) (j : Nat) : TSlot :=
  let a := m.w (6 + 2 * j)
  let b := m.w (7 + 2 * j)
  { elem := fld a 14 0, scale := fld a 29 15, fmt := fld a 37 30, wrap := bit a 38, exact := bit a 39, dim := fld a 63 40
    tscale := fld b 31 0, fill := fld b 63 32 }

/-- The slot's planes end within core scratch. -/
def TSlot.inScratch (t : TSlot) : Bool :=
  let c := fsCode t.fmt
  if t.exact then decide (t.elem * 64 + t.dim * 64 ≤ scratchSize)
  else decide (t.elem * 64 + cdiv t.dim 16 * recBytes c ≤ scratchSize)
    && (!hasScale c || decide (t.scale * 64 + cdiv t.dim 16 ≤ scratchSize))

/-- Formats that a launch's slot may name. -/
def slotFmtOk (f : Nat) : Bool := specOk f && !isLut (fsCode f) && !isMx (fsCode f)

/-- A launch's QSPEC breaks R68 as written or as it runs at its site's rung (R69), or its twist does not fit the one block of a VSTQ, which to a square block writes rows of four (R74). -/
def launchQBad (c : Core) (ring : Nat → Nat) (lo hi : W64) : Bool :=
  (c.qspecBreak ring lo hi).isSome || decide (2 ≤ fld lo 12 10) || (fld lo 12 10 ≠ 0 && fsSquare (fld lo 7 0))

/-- The first failing check of a launch (R178): code 0x01 format, 0x02 range or reserved field, 0x03 strand mask or QSPEC with a bight. EXACT with a format other than FP32, and a reserved format specifier, break the launch on an unused slot too. -/
def launchBad (c : Core) (ring : Nat → Nat) (m : OpMsg) : Option Nat :=
  let slots := [0, 1, 2, 3].map m.tslot
  let used := slots.filter fun t => t.dim ≠ 0
  let q (i : Nat) : Bool := launchQBad c ring (m.w i) (m.w (i + 1))
  if q 2 || q 4 || slots.any (fun t => !specOk t.fmt) || used.any (fun t => !slotFmtOk t.fmt) then some 1
  else if fld (m.w 0) 63 42 ≠ 0 ∨ fld (m.w 1) 63 48 ≠ 0 ∨ m.w 15 ≠ 0
      ∨ slots.any (fun t => t.exact && fsCode t.fmt ≠ 6) ∨ used.any (fun t => !t.inScratch) then some 2
  else if m.strands = [] ∨ fld (m.w 2) 15 14 ≠ 0 ∨ fld (m.w 4) 15 14 ≠ 0 then some 3
  else none

/-- VEC_ERR_DETAIL (R208). -/
def vecDetail (code strand pc idx : Nat) : W64 := w64 (idx % 2 ^ 32 + pc * 2 ^ 32 + strand * 2 ^ 48 + code * 2 ^ 52)

/-- A launch is done: its result words become readable. -/
def State.launchDone (s : State) (core : Nat) (m : OpMsg) : State :=
  (s.onCore core fun c => { c with cc := { c.cc with
    results := c.cc.results.map fun r => if r.tag = m.tag then { r with done := true } else r } }).complete core m

/-- VLAUNCH (R177, R178): the engine accepts or rejects the oldest launch issued to it. -/
def execVlaunch (core : Nat) (s : State) : Out :=
  guardPart (decide (core < 384)) <|
    match (s.core core).vec.inbox with
    | [] => s
    | m :: t =>
      match launchBad (s.core core) (s.ringSize core) m with
      | some code =>
        let s := s.onVec core fun v => { v with inbox := t }
        let det := vecDetail code 0 0 m.idx
        let s := (s.bump (coreR .VEC_REJECT_TOTAL core) 1).raiseDetail (coreR .VEC_ERR_DETAIL core) det (.core core) (if code = 1 then 0 else 7) (s.ctxOf core)
        s.markRejected.launchDone core m
      | none =>
        s.onVec core fun v => { v with inbox := t, queue := v.queue ++ [{ msg := m, pend := m.strands, ended := [], qops := 0 }] }

/-- The vector tiles that a launch wrote have had their last record (R152): a record still undelivered becomes the last, else the tile is judged. -/
def State.vecTileEnd (s : State) (core site tile epoch : Nat) : State :=
  let mine (m : DamageMsg) : Bool := m.site = site && m.tile = tile && m.epoch = epoch
  let rev := (s.core core).ec.inbox.reverse
  match rev.findIdx? mine with
  | some i => s.onEc core fun e => { e with inbox := (rev.modify i fun m => { m with last := true }).reverse }
  | none =>
    match (s.core core).ec.tiles.find? fun t => t.site = site ∧ t.tile = tile ∧ t.epoch = epoch ∧ t.judged.isNone with
    | none => s
    | some t => match t.parts.getLast? with
      | none => s
      | some m =>
        let s := s.onEc core fun e => { e with tiles := e.tiles.map fun u =>
          if u = t then { t with parts := t.parts.dropLast } else u }
        (s.ecRecord core { m with last := true, dmg := {}, accTrunc := 0, accSat := 0 }).ecPoll core

/-- LAUNCH_COMPLETE (R179): the oldest launch whose strand cores have all ended and whose quantiser operations have all delivered. -/
def execLaunchComplete (core : Nat) (s : State) : Out :=
  guardPart (decide (core < 384)) <|
    match (s.core core).vec.queue.find? fun l => l.qops = 0 ∧ l.msg.strands.all l.ended.contains with
    | none => s
    | some l =>
      let s := s.onVec core fun v => { v with queue := v.queue.erase l }
      let s := [2, 4].foldl (fun s i =>
        s.vecTileEnd core (fld (l.msg.w (i + 1)) 55 32) (l.msg.w 14).toNat (fld (l.msg.w 0) 41 34)) s
      s.launchDone core l.msg

/- Strand cores (R180, R184–R186). -/

/-- Strand core t of a core. -/
def State.strand (s : State) (core t : Nat) : Strand := sget (s.core core).vec.strands {} t
/-- Applies a function to a strand core. -/
def State.onStrand (s : State) (core t : Nat) (f : Strand → Strand) : State :=
  s.onVec core fun v => { v with strands := sset v.strands t (f (sget v.strands {} t)) }

/-- Instruction i of a kernel store; unsupplied places hold END. -/
def Vector16.insn (v : Vector16) (i : Nat) : W64 := sget v.kernel 0x0040000000000000 i

/-- CLASS. -/
def vCls (w : W64) : Nat := fld w 63 60
/-- OP. -/
def vOp (w : W64) : Nat := fld w 59 54
/-- VD. -/
def vVd (w : W64) : Nat := fld w 53 49
/-- VA. -/
def vVa (w : W64) : Nat := fld w 48 44
/-- VB. -/
def vVb (w : W64) : Nat := fld w 43 39
/-- VC. -/
def vVc (w : W64) : Nat := fld w 38 34
/-- PG. -/
def vPg (w : W64) : Nat := fld w 33 31
/-- PZ. -/
def vPz (w : W64) : Bool := bit w 30
/-- BS. -/
def vBs (w : W64) : Bool := bit w 29
/-- FMT. -/
def vFmt (w : W64) : Nat := fld w 28 21
/-- SLOT. -/
def vSlot (w : W64) : Nat := fld w 20 18
/-- IMM, signed. -/
def vImm (w : W64) : Int := sext 18 (fld w 17 0)

/-- Number of operations that a class defines below its gaps, as a list of OPs (*Instruction classes*, *Function-stage accuracy*). -/
def vDefined (cls : Nat) : List Nat :=
  match cls with
  | 0 => List.range 7
  | 1 => List.range 5
  | 2 => List.range 10
  | 3 => List.range 13
  | 4 => [0, 1, 2, 3, 8, 0x10, 0x11, 0x12, 0x13]
  | 5 => [0, 1, 2, 8, 9, 0xA, 0xB, 0xC, 0xD, 0xE, 0xF, 0x10, 0x11, 0x12, 0x13]
  | 6 => List.range 4
  | 7 => List.range 10
  | 8 => List.range 3
  | _ => []

/-- An instruction with a reserved CLASS, OP or field, or a branch or LOOP whose target lies outside the kernel store (R185, R186). -/
def vIllegal (w : W64) : Bool :=
  let br := vCls w = 0 && (vOp w = 2 || vOp w = 3 || vOp w = 5)
  !(vDefined (vCls w)).contains (vOp w) || (if vCls w = 5 then !specOk (vFmt w) else vFmt w ≠ 0)
    || (br && (decide (vImm w < 0) || decide (8191 < vImm w)))

/-- The launch a strand core runs, after beginning the next one that includes it where it runs none (R177). -/
def State.beginLaunch (s : State) (core t : Nat) : State :=
  if (s.strand core t).launch.isSome then s else
  match (s.core core).vec.queue.find? fun l => l.pend.contains t with
  | none => s
  | some l =>
    let s := s.onVec core fun v => { v with queue := v.queue.map fun k =>
      if k = l then { l with pend := l.pend.filter (· ≠ t) } else k }
    s.onStrand core t fun x => { x with launch := some l.msg.tag, pc := fld (l.msg.w 0) 32 20 }

/-- A strand core ends its launch. -/
def State.endLaunch (s : State) (core t : Nat) : State :=
  match (s.strand core t).launch with
  | none => s
  | some g =>
    (s.onVec core fun v => { v with queue := v.queue.map fun l => if l.msg.tag = g then { l with ended := l.ended ++ [t] } else l }).onStrand
      core t fun x => { x with launch := none }

/-- VEC_ILLEGAL: the instruction is not executed and ends the strand core's launch (R186). -/
def State.vecIllegal (s : State) (core t : Nat) (m : OpMsg) : State :=
  let det := vecDetail 0x10 t (s.strand core t).pc m.idx
  let s := (s.raiseDetail (coreR .VEC_ERR_DETAIL core) det (.core core) 8 (s.ctxOf core)).markRejected
  s.endLaunch core t

/-- Moves to the next instruction; the 13-bit pc wraps. -/
def Strand.adv (x : Strand) : Strand := { x with pc := (x.pc + 1) % 8192 }

/-- Runs the instruction at a strand core's pc if it is the one named by class and OP. `f` gets the launch and the word, and leaves the pc to the caller's choice. -/
def vecRun (core t cls op : Nat) (s : State) (f : OpMsg → W64 → State → State) : Out :=
  guardPart (decide (core < 384) && decide (t < 16)) <|
    let s' := s.beginLaunch core t
    match (s'.strand core t).launch with
    | none => s
    | some g =>
      match (s'.core core).vec.queue.find? fun l => l.msg.tag = g with
      | none => s
      | some l =>
        let w := (s'.core core).vec.insn (s'.strand core t).pc
        if vIllegal w then (s'.bump (coreR .INSN_TOTAL core) 1).vecIllegal core t l.msg
        else if vCls w ≠ cls ∨ vOp w ≠ op then s
        else f l.msg w (s'.bump (coreR .INSN_TOTAL core) 1)

/- Lanes (R180–R182). -/

/-- Sixteen zero lanes. -/
def zeroLanes : List W32 := List.replicate 16 0

/-- Vector register. -/
def Strand.reg (x : Strand) (n : Nat) : List W32 := sget x.v zeroLanes n
/-- Predicate register; p0 reads as all ones. -/
def Strand.pred (x : Strand) (n : Nat) : Nat := if n = 0 then 0xFFFF else sget x.p 0 n
/-- Lane l is active under an instruction's guard. -/
def Strand.active (x : Strand) (w : W64) (l : Nat) : Bool := nbit (x.pred (vPg w)) l
/-- Lane l of a register. -/
def lane (v : List W32) (l : Nat) : W32 := nth v 0 l

/-- Broadcast slot j of a launch, as a lane. -/
def bcastLane (m : OpMsg) (j : Nat) : W32 := (nth m.bcast 0 j).truncate 32

/-- Source VB, or its broadcast slot in every lane. -/
def Strand.srcB (x : Strand) (m : OpMsg) (w : W64) : List W32 :=
  if vBs w then List.replicate 16 (bcastLane m (vVb w % 8)) else x.reg (vVb w)

/-- Writes VD under the guard: inactive lanes are +0 with PZ, else keep their value (R182). -/
def Strand.putV (x : Strand) (w : W64) (f : Nat → W32) : Strand :=
  let old := x.reg (vVd w)
  { x with v := sset x.v (vVd w) ((List.range 16).map fun l => if x.active w l then f l else if vPz w then 0 else lane old l) }

/-- Writes predicate VD[2:0] under the guard; writes to p0 are discarded. -/
def Strand.putP (x : Strand) (w : W64) (f : Nat → Bool) : Strand :=
  let d := vVd w % 8
  if d = 0 then x else
  let old := x.pred d
  { x with p := sset x.p d (bitmap ((List.range 16).filter fun l =>
      if x.active w l then f l else if vPz w then false else nbit old l)) }

/-- Active lanes. -/
def Strand.lanes (x : Strand) (w : W64) : List Nat := (List.range 16).filter (x.active w)

/- Reduction states (R194–R201). -/

/-- Reduction state SLOT[1:0]. -/
def Strand.red (x : Strand) (w : W64) : RedState := sget x.r {} (vSlot w % 4)
/-- Replaces it. -/
def Strand.putR (x : Strand) (w : W64) (r : RedState) : Strand := { x with r := sset x.r (vSlot w % 4) r }

/-- The exact part of a state as a cell. -/
def RedState.cell (r : RedState) : XCell := { sum := r.sum, nan := r.nan, pinf := r.pinf, ninf := r.ninf, terms := r.terms }
/-- Replaces the exact part. -/
def RedState.withCell (r : RedState) (c : XCell) : RedState :=
  { r with sum := c.sum, nan := c.nan, pinf := c.pinf, ninf := c.ninf, terms := c.terms }

/-- The attention span (R199). -/
def attnSpan : Nat := 2 ^ 20
/-- The position counter has passed the span. -/
def RedState.overSpan (r : RedState) : Bool := decide (attnSpan < r.n)

/-- FP32 addition, rounded. -/
def fadd (a b : W32) : W32 := toF32 ((f32 a).add (f32 b))

/-- One level of the fall-back tree. -/
def treeLevel : List W32 → List W32
  | a :: b :: t => fadd a b :: treeLevel t
  | l => l

/-- The fall-back tree over sixteen lanes (R196). -/
def treeSum (l : List W32) : W32 := lane (treeLevel (treeLevel (treeLevel (treeLevel l)))) 0

/-- VMAX (greater = true) or VMIN: NaN from either input; of opposite zeros, +0 or −0. -/
def vMinMax (greater : Bool) (a b : W32) : W32 :=
  let x := f32 a
  let y := f32 b
  if x.isNan || y.isNan then 0x7FC00000
  else if x.isZero && y.isZero then (if greater then a &&& b else a ||| b)
  else if (if greater then y.lt x else x.lt y) then a else b

/- Tensor slots (R189, R203, R204). -/

/-- An element of a slot, below DIM: raw bits and scale. -/
def State.slotRaw (s : State) (core : Nat) (t : TSlot) (e : Nat) : Nat × Nat :=
  let c := fsCode t.fmt
  let w := elemBits c
  let r := s.scrNat core (t.elem * 64 + e / 16 * recBytes c) (recBytes c)
  (bits r (w * (e % 16) + w - 1) (w * (e % 16)), if hasScale c then s.scrNat core (t.scale * 64 + e / 16) 1 else 0)

/-- An element of a slot as an FP32 lane: decoded under R64, FP32 copied raw when `raw`, a cell resolved and rounded in an EXACT slot. -/
def State.slotLane (s : State) (core : Nat) (t : TSlot) (raw : Bool) (e : Nat) : W32 :=
  if t.exact then (XCell.ofBytes (s.scrRead core (t.elem * 64 + 64 * e) 64)).toF32
  else
    let r := s.slotRaw core t e
    if raw && fsCode t.fmt = 6 then BitVec.ofNat 32 r.1
    else (decodeF32 (fsCode t.fmt) (fsVar t.fmt) r.1 r.2 t.tscale).1

/-- Scratch lines that an access to element e of a slot touches: its element line, and its scale plane's. -/
def TSlot.lines (t : TSlot) (e : Nat) : List Nat :=
  if t.exact then [t.elem + e] else
  let c := fsCode t.fmt
  ((t.elem * 64 + e / 16 * recBytes c + e % 16 * elemBits c / 8) / 64) :: (if hasScale c then [(t.scale * 64 + e / 16) / 64] else [])

/-- A read of elements of a slot: an invalid tensor scale that the decoding would use raises TSCALE_INVALID (02 R46). -/
def State.slotTscale (s : State) (core : Nat) (t : TSlot) (es : List Nat) : State :=
  if es.isEmpty || t.exact || isWide (fsCode t.fmt) || tscaleOk t.tscale then s else s.raise (.core core) 1 (s.ctxOf core)

/-- A signed index resolved against a slot (R203). -/
def resolveIdx (wrap : Bool) (dim : Nat) (w : W32) : Option Nat :=
  let i := w.toInt
  let i := if i < 0 ∧ wrap then i + dim else i
  if 0 ≤ i ∧ i < dim then some i.toNat else none

/-- VEC_OOB with its counts (R191, R207). -/
def State.vecOob (s : State) (core : Nat) (write : Bool) (n : Nat) : State :=
  if n = 0 then s
  else (s.bump (coreR (if write then .VEC_OOB_WRITE_TOTAL else .VEC_OOB_READ_TOTAL) core) n).raise (.core core) 9 (s.ctxOf core)

/-- The cache line of VLD and its kin: lane 0 of VA, unsigned, plus IMM; none beyond 8,191. -/
def cacheLine (x : Strand) (w : W64) : Option Nat :=
  let l : Int := ((lane (x.reg (vVa w)) 0).toNat : Int) + vImm w
  if 0 ≤ l ∧ l < 8192 then some l.toNat else none

/-- Scratch byte address of an operand-cache line. -/
def cacheAddr (l : Nat) : Nat := (0x6000 + l) * 64

end Sys2Proof.Machine
end

