-- ==== Sys2Proof/Machine/Vector.lean ====
section
/-! DEFINITION. Strand instructions: each command runs the instruction at a strand core's pc if it is the one the command names (07 R183–R207). `stalls` is the cycles an access waited for a bank or port (R188). -/

namespace Sys2Proof.Machine

/-- A state change of the strand core alone, then the next instruction. -/
def vecLocal (core t cls op : Nat) (s : State) (f : OpMsg → W64 → Strand → Strand) : Out :=
  vecRun core t cls op s fun m w s => s.onStrand core t fun x => (f m w x).adv

/-- A branch. -/
def Strand.branch (x : Strand) (w : W64) (taken : Bool) : Strand := if taken then { x with pc := (vImm w).toNat } else x.adv

/- CONTROL. -/

/-- NOP. -/
def execVecNop (core strand : Nat) (s : State) : Out := vecLocal core strand 0 0x00 s fun _ _ x => x
/-- END (R179). -/
def execStrandEnd (core strand : Nat) (s : State) : Out := vecRun core strand 0 0x01 s fun _ _ s => s.endLaunch core strand
/-- BR. -/
def execBr (core strand : Nat) (s : State) : Out :=
  vecRun core strand 0 0x02 s fun _ w s => s.onStrand core strand fun x => x.branch w true
/-- BRANY: any active lane of p[VA[2:0]] is 1. -/
def execBrany (core strand : Nat) (s : State) : Out :=
  vecRun core strand 0 0x03 s fun _ w s => s.onStrand core strand fun x => x.branch w ((x.lanes w).any fun l => nbit (x.pred (vVa w % 8)) l)
/-- LSET: IMM[15:0], or bits [15:0] of a broadcast slot. -/
def execLset (core strand : Nat) (s : State) : Out :=
  vecLocal core strand 0 0x04 s fun m w x =>
    { x with l := sset x.l (vVd w % 4) (if vBs w then (bcastLane m (vVb w % 8)).toNat % 2 ^ 16 else fld w 15 0) }
/-- LOOP: l := l − 1 modulo 2^16, branch if not zero. -/
def execVecLoop (core strand : Nat) (s : State) : Out :=
  vecRun core strand 0 0x05 s fun _ w s => s.onStrand core strand fun x =>
    let v := (sget x.l 0 (vVd w % 4) + 2 ^ 16 - 1) % 2 ^ 16
    { x with l := sset x.l (vVd w % 4) v }.branch w (v ≠ 0)
/-- VOUT: result word IMM[2:0] := lane 0 of VA, where lane 0 is active. -/
def execVout (core strand : Nat) (s : State) : Out :=
  vecRun core strand 0 0x06 s fun m w s =>
    let x := s.strand core strand
    let s := if x.active w 0 then s.onCore core fun c => { c with cc := { c.cc with results := c.cc.results.map fun r =>
        if r.tag = m.tag then { r with words := sset r.words (fld w 2 0) (lane (x.reg (vVa w)) 0) } else r } } else s
    s.onStrand core strand Strand.adv

/- ARITH (R181). -/

/-- A lane-wise operation on VA, VB and VC. -/
def vecLanes (core t cls op : Nat) (s : State) (f : W64 → W32 → W32 → W32 → W32) : Out :=
  vecLocal core t cls op s fun m w x =>
    let a := x.reg (vVa w)
    let b := x.srcB m w
    let c := x.reg (vVc w)
    x.putV w fun l => f w (lane a l) (lane b l) (lane c l)

/-- VADD. -/
def execVadd (core strand : Nat) (s : State) : Out := vecLanes core strand 2 0x00 s fun _ a b _ => fadd a b
/-- VSUB. -/
def execVsub (core strand : Nat) (s : State) : Out := vecLanes core strand 2 0x01 s fun _ a b _ => toF32 ((f32 a).sub (f32 b))
/-- VMUL. -/
def execVmul (core strand : Nat) (s : State) : Out := vecLanes core strand 2 0x02 s fun _ a b _ => toF32 ((f32 a).mul (f32 b))
/-- VFMA: VA × VB + VC with one rounding. -/
def execVfma (core strand : Nat) (s : State) : Out :=
  vecLanes core strand 2 0x03 s fun _ a b c => toF32 (((f32 a).mul (f32 b)).add (f32 c))
/-- VFMS: VA × VB − VC with one rounding. -/
def execVfms (core strand : Nat) (s : State) : Out :=
  vecLanes core strand 2 0x04 s fun _ a b c => toF32 (((f32 a).mul (f32 b)).sub (f32 c))
/-- VMIN. -/
def execVmin (core strand : Nat) (s : State) : Out := vecLanes core strand 2 0x05 s fun _ a b _ => vMinMax false a b
/-- VMAX. -/
def execVmax (core strand : Nat) (s : State) : Out := vecLanes core strand 2 0x06 s fun _ a b _ => vMinMax true a b
/-- VABS; a NaN is made canonical. -/
def execVabs (core strand : Nat) (s : State) : Out := vecLanes core strand 2 0x07 s fun _ a _ _ => toF32 (f32 a).abs
/-- VNEG; a NaN is made canonical. -/
def execVneg (core strand : Nat) (s : State) : Out := vecLanes core strand 2 0x08 s fun _ a _ _ => toF32 (f32 a).neg
/-- VMOV: raw bits of VA. -/
def execVmov (core strand : Nat) (s : State) : Out := vecLanes core strand 2 0x09 s fun _ a _ _ => a

/- FUNC (R192, R193). -/

/-- A function-stage operation on VA. -/
def vecFunc (core t op : Nat) (s : State) : Out := vecLanes core t 3 op s fun _ a _ _ => funcStage op a

/-- VRCP. -/
def execVrcp (core strand : Nat) (s : State) : Out := vecFunc core strand 0x00 s
/-- VDIV, correctly rounded. -/
def execVdiv (core strand : Nat) (s : State) : Out := vecLanes core strand 3 0x01 s fun _ a b _ => toF32 ((f32 a).div (f32 b))
/-- VSQRT, correctly rounded. -/
def execVsqrt (core strand : Nat) (s : State) : Out := vecLanes core strand 3 0x02 s fun _ a _ _ => toF32 (f32 a).sqrt
/-- VRSQ. -/
def execVrsq (core strand : Nat) (s : State) : Out := vecFunc core strand 0x03 s
/-- VEXP2. -/
def execVexp2 (core strand : Nat) (s : State) : Out := vecFunc core strand 0x04 s
/-- VEXP. -/
def execVexp (core strand : Nat) (s : State) : Out := vecFunc core strand 0x05 s
/-- VLOG2. -/
def execVlog2 (core strand : Nat) (s : State) : Out := vecFunc core strand 0x06 s
/-- VLOG. -/
def execVlog (core strand : Nat) (s : State) : Out := vecFunc core strand 0x07 s
/-- VTANH. -/
def execVtanh (core strand : Nat) (s : State) : Out := vecFunc core strand 0x08 s
/-- VSIGM. -/
def execVsigm (core strand : Nat) (s : State) : Out := vecFunc core strand 0x09 s
/-- VERF. -/
def execVerf (core strand : Nat) (s : State) : Out := vecFunc core strand 0x0A s
/-- VSIN. -/
def execVsin (core strand : Nat) (s : State) : Out := vecFunc core strand 0x0B s
/-- VCOS. -/
def execVcos (core strand : Nat) (s : State) : Out := vecFunc core strand 0x0C s

/- COMPARE. -/

/-- A lane-wise test of VA and VB to a predicate. -/
def vecTest (core t cls op : Nat) (s : State) (f : W32 → W32 → Bool) : Out :=
  vecLocal core t cls op s fun m w x =>
    let a := x.reg (vVa w)
    let b := x.srcB m w
    x.putP w fun l => f (lane a l) (lane b l)

/-- VCEQ. -/
def execVceq (core strand : Nat) (s : State) : Out := vecTest core strand 4 0x00 s fun a b => (f32 a).beq (f32 b)
/-- VCLT. -/
def execVclt (core strand : Nat) (s : State) : Out := vecTest core strand 4 0x01 s fun a b => (f32 a).lt (f32 b)
/-- VCLE. -/
def execVcle (core strand : Nat) (s : State) : Out := vecTest core strand 4 0x02 s fun a b => (f32 a).le (f32 b)
/-- VCUN, unordered. -/
def execVcun (core strand : Nat) (s : State) : Out := vecTest core strand 4 0x03 s fun a b => (f32 a).isNan || (f32 b).isNan
/-- VSEL: p[VC[2:0]] ? VA : VB. -/
def execVsel (core strand : Nat) (s : State) : Out :=
  vecLocal core strand 4 0x08 s fun m w x =>
    let a := x.reg (vVa w)
    let b := x.srcB m w
    let p := x.pred (vVc w % 8)
    x.putV w fun l => if nbit p l then lane a l else lane b l

/-- A predicate operation on p[VA[2:0]] and p[VB[2:0]]. -/
def vecPred (core t op : Nat) (s : State) (f : Bool → Bool → Bool) : Out :=
  vecLocal core t 4 op s fun _ w x =>
    let a := x.pred (vVa w % 8)
    let b := x.pred (vVb w % 8)
    x.putP w fun l => f (nbit a l) (nbit b l)

/-- PAND. -/
def execPand (core strand : Nat) (s : State) : Out := vecPred core strand 0x10 s fun a b => a && b
/-- POR. -/
def execPor (core strand : Nat) (s : State) : Out := vecPred core strand 0x11 s fun a b => a || b
/-- PXOR. -/
def execPxor (core strand : Nat) (s : State) : Out := vecPred core strand 0x12 s fun a b => xor a b
/-- PNOT. -/
def execPnot (core strand : Nat) (s : State) : Out := vecPred core strand 0x13 s fun a _ => !a

/- CONVERT. -/

/-- FP32 to int32: nearest-even, saturating, NaN to 0. -/
def cvtI (w : W32) : W32 :=
  match f32 w with
  | .nan => 0
  | .inf n => if n then 0x80000000 else 0x7FFFFFFF
  | .fin n m e =>
    let k := if 0 ≤ e then (if 64 < e ∧ m ≠ 0 then 2 ^ 40 else m <<< e.toNat) else roundShift m (-e).toNat
    let v : Int := if n then -(k : Int) else k
    BitVec.ofInt 32 (max (-(2 ^ 31)) (min (2 ^ 31 - 1) v))

/-- VCVTI. -/
def execVcvti (core strand : Nat) (s : State) : Out := vecLanes core strand 5 0x00 s fun _ a _ _ => cvtI a
/-- VCVTF. -/
def execVcvtf (core strand : Nat) (s : State) : Out := vecLanes core strand 5 0x01 s fun _ a _ _ => toF32 (.ofInt a.toInt)
/-- VRBF: rounds to BF16 precision under FMT.SAT_WIDE. -/
def execVrbf (core strand : Nat) (s : State) : Out :=
  vecLanes core strand 5 0x02 s fun w a _ _ => BitVec.ofNat 32 ((FF.bf16.encode (fsSat (vFmt w)) (f32 a)).1 * 2 ^ 16)
/-- VIADD. -/
def execViadd (core strand : Nat) (s : State) : Out := vecLanes core strand 5 0x08 s fun _ a b _ => a + b
/-- VISUB. -/
def execVisub (core strand : Nat) (s : State) : Out := vecLanes core strand 5 0x09 s fun _ a b _ => a - b
/-- VIMUL, low 32 bits. -/
def execVimul (core strand : Nat) (s : State) : Out := vecLanes core strand 5 0x0A s fun _ a b _ => a * b
/-- VAND. -/
def execVand (core strand : Nat) (s : State) : Out := vecLanes core strand 5 0x0B s fun _ a b _ => a &&& b
/-- VOR. -/
def execVor (core strand : Nat) (s : State) : Out := vecLanes core strand 5 0x0C s fun _ a b _ => a ||| b
/-- VXOR. -/
def execVxor (core strand : Nat) (s : State) : Out := vecLanes core strand 5 0x0D s fun _ a b _ => a ^^^ b

/-- A shift of VA by VB. The spec states no result for an amount of 32 or more: that lane takes a free value, a function of the operands (R280). -/
def vecShift (core t op : Nat) (s : State) (f : W32 → Nat → W32) : Out :=
  vecLanes core t 5 op s fun _ a b _ => if b.toNat < 32 then f a b.toNat else Config.shiftOver op a b

/-- VSHL. -/
def execVshl (core strand : Nat) (s : State) : Out := vecShift core strand 0x0E s fun a k => a <<< k
/-- VSHRA, arithmetic. -/
def execVshra (core strand : Nat) (s : State) : Out := vecShift core strand 0x0F s fun a k => a.sshiftRight k
/-- VSHRL, logical. -/
def execVshrl (core strand : Nat) (s : State) : Out := vecShift core strand 0x10 s fun a k => a >>> k
/-- VIMIN, signed. -/
def execVimin (core strand : Nat) (s : State) : Out := vecLanes core strand 5 0x11 s fun _ a b _ => if a.slt b then a else b
/-- VIMAX, signed. -/
def execVimax (core strand : Nat) (s : State) : Out := vecLanes core strand 5 0x12 s fun _ a b _ => if a.slt b then b else a
/-- VICLT, signed, to p[VD[2:0]]. -/
def execViclt (core strand : Nat) (s : State) : Out := vecTest core strand 5 0x13 s fun a b => a.slt b

/- PERMUTE. -/

/-- VPERM. -/
def execVperm (core strand : Nat) (s : State) : Out :=
  vecLocal core strand 6 0x00 s fun m w x =>
    let a := x.reg (vVa w)
    let b := x.srcB m w
    x.putV w fun l => lane a ((lane b l).toNat % 16)
/-- VBLANE. -/
def execVblane (core strand : Nat) (s : State) : Out :=
  vecLocal core strand 6 0x01 s fun _ w x => let a := x.reg (vVa w); x.putV w fun _ => lane a (fld w 3 0)
/-- VIOTA: l + 16 × strand + IMM. -/
def execViota (core strand : Nat) (s : State) : Out :=
  vecLocal core strand 6 0x02 s fun _ w x => x.putV w fun l => BitVec.ofInt 32 ((l + 16 * strand : Nat) + vImm w)
/-- VROT: VA[(l + IMM) mod 16]. -/
def execVrot (core strand : Nat) (s : State) : Out :=
  vecLocal core strand 6 0x03 s fun _ w x =>
    let a := x.reg (vVa w)
    x.putV w fun l => lane a (((l : Int) + vImm w) % 16).toNat

/- MEMORY (R187–R191). -/

/-- Stall cycles of an operand-cache or quantiser-port access. -/
def State.ocStall (s : State) (core n : Nat) : State := s.bump (coreR .OC_CONFLICT_TOTAL core) n
/-- Stall cycles of an access through a tensor slot to scratch lines: `scr` cycles waited for operand scratch and `oc` for the operand cache, each only where a line lies there. -/
def State.slotStall (s : State) (core : Nat) (lines : List Nat) (scr oc : Nat) : State :=
  (s.bump (coreR .SCR_STALL_TOTAL core) (if lines.any (· < 0x6000) then scr else 0)).bump
    (coreR .OC_CONFLICT_TOTAL core) (if lines.any (0x6000 ≤ ·) then oc else 0)

/-- VLD: a cache line into VD; beyond the cache, zero and VEC_OOB (R187). `ecc` are the errors met in the line (16 R414). -/
def execVld (core strand stalls : Nat) (ecc : List (Nat × Nat)) (s : State) : Out :=
  vecRun core strand 1 0x00 s fun _ w s =>
    let x := s.strand core strand
    let s := s.ocStall core stalls
    match cacheLine x w with
    | some n =>
      let s := s.scrEventsAt core [0x6000 + n] ecc
      let ws := words32 (s.scrRead core (cacheAddr n) 64)
      s.onStrand core strand fun x => (x.putV w (lane ws)).adv
    | none => (s.vecOob core false (min 1 (x.lanes w).length)).onStrand core strand fun x => (x.putV w fun _ => 0).adv

/-- VST and VSTR: the active lanes of VD to a cache line, normalised or raw. -/
def vecStore (core strand op stalls : Nat) (raw : Bool) (s : State) : Out :=
  vecRun core strand 1 op s fun _ w s =>
    let x := s.strand core strand
    let v := x.reg (vVd w)
    let s := s.ocStall core stalls
    let s := match cacheLine x w with
      | some n => (x.lanes w).foldl (fun (s : State) l =>
          s.scrWrite core (cacheAddr n + 4 * l) (leBytes 4 (if raw then lane v l else tensorF32 (lane v l)).toNat)) s
      | none => s.vecOob core true (min 1 (x.lanes w).length)
    s.onStrand core strand Strand.adv

/-- VST. -/
def execVst (core strand stalls : Nat) (s : State) : Out := vecStore core strand 0x01 stalls false s
/-- VSTR. -/
def execVstr (core strand stalls : Nat) (s : State) : Out := vecStore core strand 0x02 stalls true s

/-- Block lane 0 of VA + IMM of a slot, if it starts below DIM (R189, R191). -/
def slotBlock (x : Strand) (w : W64) (t : TSlot) : Option Nat :=
  let b : Int := ((lane (x.reg (vVa w)) 0).toNat : Int) + vImm w
  if 0 ≤ b ∧ b * 16 < t.dim then some b.toNat else none

/-- VLDQ: a decoded block of a tensor slot; elements at or beyond DIM read FILL. -/
def execVldq (core strand scr oc : Nat) (ecc : List (Nat × Nat)) (s : State) : Out :=
  vecRun core strand 1 0x03 s fun m w s =>
    let x := s.strand core strand
    let t := m.tslot (vSlot w / 2)
    let fill : W32 := BitVec.ofNat 32 t.fill
    match slotBlock x w t with
    | some b =>
      let es := ((x.lanes w).map fun l => 16 * b + l).filter (· < t.dim)
      let s := s.scrEventsAt core (es.flatMap t.lines) ecc
      let s0 := s
      ((s.slotStall core (es.flatMap t.lines) scr oc).slotTscale core t es).onStrand core strand fun x =>
        (x.putV w fun l => if 16 * b + l < t.dim then s0.slotLane core t false (16 * b + l) else fill).adv
    | none => (s.vecOob core false (min 1 (x.lanes w).length)).onStrand core strand fun x => (x.putV w fun _ => fill).adv

/-- Rows of the block that VSTQ sends: elements 16b to 16b + 15, those at or beyond DIM padding. Their element index and reduction index are their numbers in the slot (DESIGN CHOICE, log 117). To an MX destination the sixteen lanes are elements 0–15 of record b, which is completed with code 0 (DESIGN CHOICE, log 116). -/
def vstqRows (dst b dim : Nat) (v : List W32) : List QRow :=
  let el (l : Nat) : QElem := { x := f32 (lane v l), pad := decide (dim ≤ 16 * b + l), idx := 16 * b + l, k := 16 * b + l }
  if fsSquare dst then (List.range 4).map fun r => { row := r, col := 4 * b, els := (List.range 4).map fun c => el (4 * r + c) }
  else [{ row := 0, col := recElems (fsCode dst) * b, els := (List.range 16).map el }]

/-- VSTQ: VB's lanes to the quantiser's vector port as one block under QSPEC slot SLOT[0]. -/
def execVstq (core strand stalls : Nat) (s : State) : Out :=
  vecRun core strand 1 0x04 s fun m w s =>
    let x := s.strand core strand
    let t := m.tslot (vSlot w / 2)
    let qi := 2 + 2 * (vSlot w % 2)
    let s := s.ocStall core stalls
    let s := match slotBlock x w t with
      | none => s.vecOob core true 1
      | some b =>
        let dst := fld ((s.core core).ladder (m.w qi) (m.w (qi + 1))) 7 0
        let o : QOp := { lo := m.w qi, hi := m.w (qi + 1), rows := vstqRows dst b t.dim (x.srcB m w)
                         dst := { hbm := false, core := core, elem := t.elem * 64, scale := t.scale * 64, bight := none, stride := 0 }
                         tile := (m.w 14).toNat, epoch := fld (m.w 0) 41 34, accTrunc := 0, accSat := 0, plies := [], quad := 0
                         signal := none, launch := some m.tag, guard := none, last := false }
        (s.onQnt core fun u => { u with ports := u.ports.modify 1 (· ++ [o]) }).onVec core fun v =>
          { v with queue := v.queue.map fun (l : Launch) => if l.msg.tag = m.tag then { l with qops := l.qops + 1 } else l }
    s.onStrand core strand Strand.adv

/- REDUCE (R194–R202). -/

/-- A change of the named reduction state. -/
def vecRed (core t op : Nat) (s : State) (f : OpMsg → W64 → Strand → RedState → RedState) : Out :=
  vecLocal core t 7 op s fun m w x => x.putR w (f m w x (x.red w))

/-- RED_PATH of a launch: the fall-back tree. -/
def OpMsg.tree (m : OpMsg) : Bool := bit (m.w 0) 33

/-- RCLR. -/
def execRclr (core strand : Nat) (s : State) : Out := vecRed core strand 0x00 s fun _ _ _ _ => {}

/-- RADD on either path (R195, R196). -/
def RedState.radd (r : RedState) (tree : Bool) (ls : List Nat) (v : List W32) : RedState :=
  if tree then { r with tree := fadd r.tree (treeSum ((List.range 16).map fun l => if ls.contains l then lane v l else 0)) }
  else r.withCell (ls.foldl (fun c l => c.addLane (lane v l)) r.cell)

/-- RADD. -/
def execRadd (core strand : Nat) (s : State) : Out :=
  vecRed core strand 0x01 s fun m w x r => r.radd m.tree (x.lanes w) (x.reg (vVa w))

/-- An update that advances the position counter, unless it would pass the span: then NAN and VEC_OVERSPAN (R199). -/
def vecSpan (core t op : Nat) (s : State) (f : OpMsg → W64 → Strand → RedState → RedState) : Out :=
  vecRun core t 7 op s fun m w s =>
    let x := s.strand core t
    let r := x.red w
    if attnSpan < r.n + 16 then
      let s := s.onStrand core t fun x => (x.putR w { r with nan := true, n := min (r.n + 16) (2 ^ 21 - 1) }).adv
      (s.bump (coreR .OVERSPAN_TOTAL core) 1).raise (.core core) 10 (s.ctxOf core)
    else s.onStrand core t fun x => (x.putR w { f m w x r with n := r.n + 16 }).adv

/-- Folds lanes into M, which RCLR left at the identity of the operation that folds: −infinity for RMAX, +infinity for RMIN (R194). -/
def RedState.fold (r : RedState) (greater : Bool) (ls : List Nat) (v : List W32) : RedState :=
  let ident : W32 := if greater then 0xFF800000 else 0x7F800000
  { r with m := some (ls.foldl (fun a l => vMinMax greater a (lane v l)) (r.m.getD ident)) }

/-- RMAX. -/
def execRmax (core strand : Nat) (s : State) : Out :=
  vecSpan core strand 0x02 s fun _ w x r => r.fold true (x.lanes w) (x.reg (vVa w))
/-- RMIN. -/
def execRmin (core strand : Nat) (s : State) : Out :=
  vecRed core strand 0x03 s fun _ w x r => r.fold false (x.lanes w) (x.reg (vVa w))

/-- RARG on one lane: the largest value and its position, ties to the lower; the first NaN stays. -/
def RedState.argLane (r : RedState) (v : List W32) (l : Nat) : RedState :=
  let a := lane v l
  let take : RedState := { r with m := some (if (f32 a).isNan then 0x7FC00000 else a), pos := r.n + l }
  match r.m with
  | none => take
  | some b => if (f32 b).isNan then r else if (f32 a).isNan || (f32 b).lt (f32 a) then take else r

/-- RARG. -/
def execRarg (core strand : Nat) (s : State) : Out :=
  vecSpan core strand 0x04 s fun _ w x r => (x.lanes w).foldl (fun r l => r.argLane (x.reg (vVa w)) l) r

/-- rnd(S) of R200 and R201: the exact sum alone, whatever the flags. -/
def RedState.sum32 (r : RedState) : W32 := toF32 (.ofInt r.sum.toInt (-149))

/-- RSOFT (R200). -/
def RedState.rsoft (r : RedState) (tree : Bool) (ls : List Nat) (v : List W32) : RedState :=
  let xs := ls.map fun l => lane v l
  let r := { r with nan := r.nan || xs.any (fun a => (f32 a).isNan), p := r.p + xs.countP (fun a => a = 0x7F800000)
                    live := r.live || xs.any (fun a => a ≠ 0xFF800000) }
  let fin := ls.filter fun l => (f32 (lane v l)).isFin
  match fin with
  | [] => r
  | _ =>
    let old := r.m.getD 0xFF800000
    let m' := fin.foldl (fun a l => if (f32 a).lt (f32 (lane v l)) then lane v l else a) old
    let up := (f32 old).lt (f32 m')
    let scale := vexpOf ((f32 old).sub (f32 m'))
    let term (l : Nat) : W32 := vexpOf ((f32 (lane v l)).sub (f32 m'))
    if tree then
      let t := if up && !(f32 r.tree).isZero then toF32 ((f32 r.tree).mul (f32 scale)) else r.tree
      { r with m := some m', tree := fadd t (treeSum ((List.range 16).map fun l => if fin.contains l then term l else 0)) }
    else
      let c : XCell := if up && r.sum ≠ 0 then { r.cell with sum := 0 }.addVal (rnd32 ((f32 r.sum32).mul (f32 scale))) else r.cell
      { r.withCell (fin.foldl (fun c l => c.addVal (f32 (term l))) c) with m := some m' }

/-- RSOFT. -/
def execRsoft (core strand : Nat) (s : State) : Out :=
  vecSpan core strand 0x05 s fun m w x r => r.rsoft m.tree (x.lanes w) (x.reg (vVa w))

/-- The result of RREAD (R195–R199): 0 the sum, 1 M, 2 the position, 3 the term count. -/
def RedState.read (r : RedState) (tree : Bool) (sel : Nat) : W32 :=
  if r.overSpan then 0x7FC00000 else
  match sel with
  | 0 => if tree then r.tree else r.cell.toF32
  | 1 => r.m.getD 0xFF800000
  | 2 => BitVec.ofNat 32 r.pos
  | _ => BitVec.ofNat 32 (min r.terms (2 ^ 31 - 1))

/-- RREAD: the result in lane 0 of VD; the other lanes keep their value. -/
def execRread (core strand : Nat) (s : State) : Out :=
  vecLocal core strand 7 0x06 s fun m w x =>
    let old := x.reg (vVd w)
    let v := (x.red w).read m.tree (fld w 1 0)
    x.putV w fun l => if l = 0 then v else lane old l

/-- The cell that RXPORT writes (R198). -/
def RedState.export (r : RedState) (tree : Bool) : XCell :=
  let c := if tree then ({ terms := r.terms } : XCell).addVal (f32 r.tree) else r.cell
  { c with nan := c.nan || r.overSpan }

/-- RXPORT: the state as a cell, to a cache line. -/
def execRxport (core strand stalls : Nat) (s : State) : Out :=
  vecRun core strand 7 0x07 s fun m w s =>
    let x := s.strand core strand
    let s := s.ocStall core stalls
    let s := match cacheLine x w with
      | some n => s.scrWrite core (cacheAddr n) ((x.red w).export m.tree).toBytes
      | none => s.vecOob core true 1
    s.onStrand core strand Strand.adv

/-- A cell added into a state (R198). -/
def RedState.import (r : RedState) (tree : Bool) (c : XCell) : RedState :=
  if tree then { r with tree := fadd r.tree c.toF32 } else r.withCell (r.cell.add c)

/-- RIMPORT: a cell of a cache line into the state. -/
def execRimport (core strand stalls : Nat) (ecc : List (Nat × Nat)) (s : State) : Out :=
  vecRun core strand 7 0x08 s fun m w s =>
    let x := s.strand core strand
    let s := s.ocStall core stalls
    match cacheLine x w with
    | some n =>
      let s := s.scrEventsAt core [0x6000 + n] ecc
      let c := XCell.ofBytes (s.scrRead core (cacheAddr n) 64)
      s.onStrand core strand fun x => (x.putR w ((x.red w).import m.tree c)).adv
    | none => (s.vecOob core false 1).onStrand core strand Strand.adv

/-- The output of one lane of VSMX (*Softmax row cases*). -/
def RedState.smx (r : RedState) (tree : Bool) (a : W32) : W32 :=
  if r.nan || r.overSpan then 0x7FC00000
  else if !r.live then 0
  else if 0 < r.p then (if a = 0x7F800000 then toF32 ((Fl.fin false 1 0).div (.ofInt r.p)) else 0)
  else if a = 0xFF800000 then 0
  else
    let s32 := if tree then r.tree else r.sum32
    toF32 ((f32 (vexpOf ((f32 a).sub (f32 (r.m.getD 0xFF800000))))).div (f32 s32))

/-- VSMX (R201): inactive lanes are +0; the first to find an empty row on a state counts it. -/
def execVsmx (core strand : Nat) (s : State) : Out :=
  vecRun core strand 7 0x09 s fun m w s =>
    let x := s.strand core strand
    let r := x.red w
    let a := x.reg (vVa w)
    let out := (List.range 16).map fun l => if x.active w l then r.smx m.tree (lane a l) else 0
    let empty := !(r.nan || r.overSpan) && !r.live
    let s := s.onStrand core strand fun x =>
      ({ x with v := sset x.v (vVd w) out }.putR w { r with emptySeen := r.emptySeen || empty }).adv
    if empty && !r.emptySeen then (s.bump (coreR .EMPTY_ROW_TOTAL core) 1).raise (.core core) 11 (s.ctxOf core) else s

/- GATHER (R203–R207). -/

/-- VGATH. -/
def execVgath (core strand scr oc : Nat) (ecc : List (Nat × Nat)) (s : State) : Out :=
  vecRun core strand 8 0x00 s fun m w s =>
    let x := s.strand core strand
    let t := m.tslot (vSlot w / 2)
    let ix := x.reg (vVa w)
    let res (l : Nat) : Option Nat := resolveIdx t.wrap t.dim (lane ix l)
    let es := (x.lanes w).filterMap res
    let s := ((s.slotStall core (es.flatMap t.lines) scr oc).slotTscale core t es).scrEventsAt core (es.flatMap t.lines) ecc
    let vals := (List.range 16).map fun l => match res l with
      | some e => s.slotLane core t true e
      | none => BitVec.ofNat 32 t.fill
    let s := s.vecOob core false ((x.lanes w).countP fun l => (res l).isNone)
    s.onStrand core strand fun x => (x.putV w (lane vals)).adv

/-- VEC_DESC_ERROR of a strand core at an instruction (R206). -/
def State.vecDescError (s : State) (core t : Nat) (m : OpMsg) : State :=
  let det := vecDetail 0x04 t (s.strand core t).pc m.idx
  s.raiseDetail (coreR .VEC_ERR_DETAIL core) det (.core core) 7 (s.ctxOf core)

/-- VSCAT: the highest lane of one element wins. A slot that is neither FP32 nor BF16, or is EXACT, is written nothing (DESIGN CHOICE). -/
def execVscat (core strand scr oc : Nat) (s : State) : Out :=
  vecRun core strand 8 0x01 s fun m w s =>
    let x := s.strand core strand
    let t := m.tslot (vSlot w / 2)
    let s := if t.exact || !isWide (fsCode t.fmt) then s.vecDescError core strand m else
      let ix := x.reg (vVa w)
      let v := x.srcB m w
      let n := if fsCode t.fmt = 6 then 4 else 2
      let code (a : W32) : Nat := if fsCode t.fmt = 6 then (tensorF32 a).toNat
        else let c := (FF.bf16.encode (fsSat t.fmt) (f32 a)).1; if c = 0x8000 then 0 else c
      let res (l : Nat) : Option Nat := resolveIdx t.wrap t.dim (lane ix l)
      let s := s.slotStall core (((x.lanes w).filterMap res).flatMap t.lines) scr oc
      let s := (x.lanes w).foldl (fun s l => match res l with
        | some e => s.scrWrite core (t.elem * 64 + n * e) (leBytes n (code (lane v l)))
        | none => s) s
      s.vecOob core true ((x.lanes w).countP fun l => (res l).isNone)
    s.onStrand core strand Strand.adv

/-- VSCADD: exact adds into cells; a slot that is not EXACT gets VEC_DESC_ERROR. -/
def execVscadd (core strand scr oc : Nat) (ecc : List (Nat × Nat)) (s : State) : Out :=
  vecRun core strand 8 0x02 s fun m w s =>
    let x := s.strand core strand
    let t := m.tslot (vSlot w / 2)
    let s := if !t.exact then s.vecDescError core strand m else
      let ix := x.reg (vVa w)
      let v := x.srcB m w
      let res (l : Nat) : Option Nat := resolveIdx t.wrap t.dim (lane ix l)
      let lines := ((x.lanes w).filterMap res).flatMap t.lines
      let s := (s.slotStall core lines scr oc).scrEventsAt core lines ecc
      let s := (x.lanes w).foldl (fun s l => match res l with
        | some e =>
          let a := t.elem * 64 + 64 * e
          s.scrWrite core a ((XCell.ofBytes (s.scrRead core a 64)).addLane (lane v l)).toBytes
        | none => s) s
      s.vecOob core true ((x.lanes w).countP fun l => (res l).isNone)
    s.onStrand core strand Strand.adv

end Sys2Proof.Machine
end

