-- ==== Sys2Proof/Machine/Dma.lean ====
section
/-! DEFINITION. A core's DMA engine: descriptor checks, copy and conversion walks, padding, gather and scatter, peer writes, completion (12 R326–R334). -/

namespace Sys2Proof.Machine

/- The descriptor (R326). -/

/-- One dimension: extent, strides in records, and padding positions. -/
structure DmaDim where
  count : Nat
  src : Int
  dst : Int
  lo : Nat
  hi : Nat
deriving DecidableEq, Repr

/-- One side of a transfer: HBM or scratch, whose scratch, its plane bases and its format specifier. -/
structure DmaSide where
  hbm : Bool
  core : Nat
  elem : Int
  scale : Int
  spec : Nat
deriving DecidableEq, Repr

/-- A decoded DMA descriptor; `dims` always has five entries. -/
structure DmaDesc where
  kind : Nat
  dir : Nat
  quant : Bool
  ndim : Nat
  wrap : Bool
  idxOp : Nat
  epoch : Nat
  target : Nat
  peer : Bool
  versioned : Bool
  capStack : Nat
  capRec : Nat
  src : DmaSide
  dst : DmaSide
  idxBase : Nat
  dstBight : Nat
  indexLine : Nat
  indexCount : Nat
  tail : Nat
  dims : List DmaDim
  fill : Nat
  tscale : Nat
  qlo : W64
  qhi : W64
  tile : Nat
  member : Nat
  route : Nat
deriving DecidableEq, Repr

/-- A dimension word with its padding field (*Dimension word*). -/
def dmaDim (w pad : W64) (d : Nat) : DmaDim :=
  { count := if fld w 15 0 = 0 then 65536 else fld w 15 0
    src := sext 24 (fld w 39 16), dst := sext 24 (fld w 63 40)
    lo := fld pad (12 * d + 5) (12 * d), hi := fld pad (12 * d + 11) (12 * d + 6) }

/-- A dimension that the descriptor does not use. -/
def DmaDim.one : DmaDim := ⟨1, 0, 0, 0, 0⟩

/-- Decodes the sixteen words of a descriptor issued by a core. -/
def dmaDesc (core : Nat) (ws : List W64) : DmaDesc :=
  let w (i : Nat) : W64 := nth ws 0 i
  let w0 := w 0
  let dir := fld w0 5 4
  let target := fld w0 46 37
  let tgt := if (dir = 0 ∨ dir = 2) ∧ target ≠ 0x3FF then target else core
  { kind := fld w0 3 0, dir := dir, quant := bit w0 6, ndim := fld w0 25 23, wrap := bit w0 26, idxOp := fld w0 28 27
    epoch := fld w0 36 29, target := tgt, peer := bit w0 47, versioned := bit w0 48, capStack := fld w0 63 61, capRec := fld w0 60 49
    src := { hbm := dir = 0 || dir = 3, core := core, elem := fld (w 1) 47 0, scale := fld (w 2) 47 0, spec := fld w0 14 7 }
    dst := { hbm := dir = 1 || dir = 3, core := tgt, elem := fld (w 3) 47 0, scale := fld (w 4) 47 0, spec := fld w0 22 15 }
    idxBase := fld (w 1) 63 48 + fld (w 2) 63 48 * 2 ^ 16 + fld (w 3) 63 48 * 2 ^ 32
    dstBight := fld (w 5) 47 0, indexLine := fld (w 5) 14 0, indexCount := fld (w 5) 38 15
    tail := if fld w0 3 0 = 4 then fld (w 5) 53 48 else 0
    dims := (List.range 5).map fun d => if d < fld w0 25 23 then dmaDim (w (6 + d)) (w 11) d else .one
    fill := fld (w 12) 31 0, tscale := fld (w 12) 63 32, qlo := w 13, qhi := w 14
    tile := fld (w 15) 47 0, member := fld (w 15) 13 0, route := fld (w 15) 63 48 }

/-- Dimension d. -/
def DmaDesc.dim (p : DmaDesc) (d : Nat) : DmaDim := nth p.dims .one d

/-- INDEXED descriptor. -/
def DmaDesc.indexed (p : DmaDesc) : Bool := p.kind = 5

/-- Raw transfer (R330). -/
def DmaDesc.raw (p : DmaDesc) : Bool := !p.quant && p.src.spec = p.dst.spec

/-- Scatter-add. -/
def DmaDesc.adds (p : DmaDesc) : Bool := p.indexed && p.idxOp = 2

/-- The padded side is the source (R328). -/
def DmaDesc.store (p : DmaDesc) : Bool := p.dir = 1

/-- The destination's square blocks are each taken from four rows of d1 (R330). A source record gives its sixteen elements in stored order, whatever its shape (DESIGN CHOICE, log 117). -/
def DmaDesc.squares (p : DmaDesc) : Bool := !p.raw && fsSquare p.dst.spec

/-- Elements along d0 of a source record. -/
def DmaDesc.ws (p : DmaDesc) : Nat := recElems (fsCode p.src.spec)

/-- Elements along d0 of a destination record. -/
def DmaDesc.wd (p : DmaDesc) : Nat := if p.squares then 4 else recElems (fsCode p.dst.spec)

/-- Extents d1 to d4 without padding; the index list replaces d1 of an INDEXED descriptor. -/
def DmaDesc.counts (p : DmaDesc) : List Nat :=
  if p.indexed then [p.indexCount, 1, 1, 1] else [1, 2, 3, 4].map fun d => (p.dim d).count

/-- Padding before and after on dimension d (an INDEXED descriptor has two dimensions). -/
def DmaDesc.padLo (p : DmaDesc) (d : Nat) : Nat := if p.indexed && decide (2 ≤ d) then 0 else (p.dim d).lo
def DmaDesc.padHi (p : DmaDesc) (d : Nat) : Nat := if p.indexed && decide (2 ≤ d) then 0 else (p.dim d).hi

/-- Some padding position exists. -/
def DmaDesc.padded (p : DmaDesc) : Bool := [0, 1, 2, 3, 4].any fun d => p.padLo d + p.padHi d ≠ 0

/-- Extents d1 to d4 on the padded side. -/
def DmaDesc.padCounts (p : DmaDesc) : List Nat := (p.counts.zipIdx).map fun c => p.padLo (c.2 + 1) + c.1 + p.padHi (c.2 + 1)

/-- Extents d1 to d4 of the destination window. -/
def DmaDesc.dstCounts (p : DmaDesc) : List Nat := if p.store then p.counts else p.padCounts

/-- Extents d1 to d4 of the source window. -/
def DmaDesc.srcCounts (p : DmaDesc) : List Nat := if p.store then p.padCounts else p.counts

/-- Elements of the data along d0. -/
def DmaDesc.dataW (p : DmaDesc) : Nat := (p.dim 0).count * p.ws

/-- Elements of the destination window along d0. -/
def DmaDesc.rowW (p : DmaDesc) : Nat := if p.store then p.dataW else (p.padLo 0 + p.padHi 0) * p.wd + p.dataW

/-- Records of the source window along d0. -/
def DmaDesc.srcRecs (p : DmaDesc) : Nat := (p.dim 0).count + (if p.store then p.padLo 0 + p.padHi 0 else 0)

/-- Records of the destination window along d0. -/
def DmaDesc.dstRecs (p : DmaDesc) : Nat := p.rowW / p.wd

/-- Strides of d1 to d4 in source records: rows of a scatter lie densely in scratch (R333). -/
def DmaDesc.srcStrides (p : DmaDesc) : List Int :=
  if p.indexed && decide (p.idxOp ≠ 0) then [(p.srcRecs : Int), 0, 0, 0] else [1, 2, 3, 4].map fun d => (p.dim d).src

/-- Strides of d1 to d4 in destination records: rows of a gather lie densely in scratch. -/
def DmaDesc.dstStrides (p : DmaDesc) : List Int :=
  if p.indexed && decide (p.idxOp = 0) then [(p.dstRecs : Int), 0, 0, 0] else [1, 2, 3, 4].map fun d => (p.dim d).dst

/- Checks (R330, R334). Codes: 1 format, 2 reserved field or combination, 3 address. -/

/-- Offset of an outer position. -/
def dotStride (l : List Nat) (st : List Int) : Int := ((l.zip st).map fun p => (p.1 : Int) * p.2).sum

/-- Least and greatest outer offset over the given extents. -/
def offRange (counts : List Nat) (st : List Int) : Int × Int :=
  (counts.zip st).foldl (fun a p =>
    let e := ((p.1 - 1 : Nat) : Int) * p.2
    (a.1 + min 0 e, a.2 + max 0 e)) (0, 0)

/-- Every position of outer extents, the first coordinate fastest. -/
def walkPos : List Nat → List (List Nat)
  | [] => [[]]
  | n :: t => ((walkPos t).map fun r => (List.range n).map fun i => i :: r).flatten

/-- The HBM side's extents where indices choose rows. -/
def DmaDesc.idxCounts (p : DmaDesc) : List Nat := [(p.dim 1).count, 1, 1, 1]

/-- Least and greatest record offset on a side. -/
def DmaDesc.srcRange (p : DmaDesc) : Int × Int :=
  let r := if p.indexed && decide (p.idxOp = 0) then offRange p.idxCounts p.srcStrides else offRange p.srcCounts p.srcStrides
  (r.1, r.2 + p.srcRecs - 1)
/-- The same for the destination; square blocks count rows of d1 by fours. -/
def DmaDesc.dstRange (p : DmaDesc) : Int × Int :=
  let cs := if p.squares then (p.dstCounts.head?.getD 4 / 4) :: p.dstCounts.tail else p.dstCounts
  let r := if p.indexed && decide (p.idxOp ≠ 0) then offRange p.idxCounts p.dstStrides else offRange cs p.dstStrides
  (r.1, r.2 + p.dstRecs - 1)

/-- Bytes of a destination record; scatter-add writes sixteen cells. -/
def DmaDesc.dstRecBytes (p : DmaDesc) : Nat := if p.adds then 1024 else recBytes (fsCode p.dst.spec)

/-- A side's planes lie where they may (R327). -/
def DmaSide.ok (d : DmaSide) (rb : Nat) (r : Int × Int) : Bool :=
  let top : Int := if d.hbm then 2 ^ 48 else 2 ^ 21
  let inside (base : Int) (n : Nat) : Bool := decide (0 ≤ base + r.1 * n) && decide (base + (r.2 + 1) * n ≤ top)
  decide (d.elem % 4 = 0) && inside d.elem rb && (!hasScale (fsCode d.spec) || inside d.scale 1)

/-- The destination's rows and columns of an outer position with bight entries: row and column of block records under the stride of R81. -/
def DmaDesc.bightAt (p : DmaDesc) (outer : List Nat) : Int × Int :=
  let s := (p.dim 1).dst
  let o := dotStride (0 :: outer) p.dstStrides
  (o / s, o % s)

/-- Where each sweep of d1 begins at the destination: block row and block column. -/
def DmaDesc.sweeps (p : DmaDesc) : List (Int × Int) := (walkPos p.dstCounts.tail).map p.bightAt

/-- Block rows that one sweep of d1 covers at the destination. -/
def DmaDesc.sweepRows (p : DmaDesc) : Nat := p.dstCounts.head?.getD 0 / (if p.squares then 4 else 1)

/-- No two of the sweeps share a block: no bight tile is written by two operations (03 R81). -/
def DmaDesc.apart (p : DmaDesc) : List (Int × Int) → Bool
  | [] => true
  | a :: t =>
    let h := p.sweepRows
    let w := p.dstRecs
    t.all (fun b => !(decide (a.1 < b.1 + h) && decide (b.1 < a.1 + h) && decide (a.2 < b.2 + w) && decide (b.2 < a.2 + w))) && p.apart t

/-- The destination forms whole bight tiles, each of them written once (R330; 03 R81). -/
def DmaDesc.wholeTiles (p : DmaDesc) : Bool :=
  let s := (p.dim 1).dst
  let rows := p.dstCounts.head?.getD 0
  let unit : Int := if p.squares then 4 else 16
  decide (0 < s) && decide (rows % 16 = 0) && decide (0 ≤ p.dstRange.1) &&
    (!p.squares || (decide (s % 4 = 0) && decide (p.rowW % 16 = 0))) &&
    (p.sweeps.all fun a => decide (a.1 % unit = 0) && (!p.squares || decide (a.2 % 4 = 0)) && decide (a.2 + p.dstRecs ≤ s)) &&
    p.apart p.sweeps

/-- Elements of the destination's stored row, as the stride of d1 gives it; 0 where it gives none. -/
def DmaDesc.axisW (p : DmaDesc) : Nat := p.wd * (p.dstStrides.head?.getD 0).natAbs

/-- Reduction index of the first element of each destination row: IDX_BASE counts along the tensor with the reduction axis innermost (03 R88), and the stored row is taken as that axis, as a ply takes it (DEDUCED, log 122). -/
def DmaDesc.redBase (p : DmaDesc) : Nat := if p.axisW = 0 then p.idxBase else p.idxBase % p.axisW

/-- Format breaks (R47, R48, R68). A twist's groups begin at multiples of n of the reduction axis and fill the row segment (03 R74). -/
def DmaDesc.badFormat (p : DmaDesc) (c : Core) (ring : Nat → Nat) : Bool :=
  let q := qspecOf p.qlo p.qhi
  !specOk p.src.spec || !specOk p.dst.spec ||
    (p.quant && ((c.qspecBreak ring p.qlo p.qhi).isSome
      || (p.rowW % twistSize q.twistN ≠ 0) || (p.redBase % twistSize q.twistN ≠ 0)
      || ((q.stoch || (decide (q.twistN ≠ 0) && q.signs)) && decide (2 ^ 48 ≤ p.idxBase + p.rowW * p.dstCounts.foldl (· * ·) 1))))

/-- Reserved bits and forbidden combinations (R326–R334). `same` says that a core belongs to the issuing core's context. -/
def DmaDesc.badField (p : DmaDesc) (ws : List W64) (same : Nat → Bool) : Bool :=
  let q := qspecOf p.qlo p.qhi
  let bl := p.quant && decide (q.bLimit ≠ 0)
  decide (p.ndim = 0) || decide (5 < p.ndim) || decide (fld (nth ws 0 4) 63 48 ≠ 0) || decide (fld (nth ws 0 11) 63 60 ≠ 0)
    || decide (fld (nth ws 0 5) 63 (if p.indexed then 39 else 54) ≠ 0)
    || (p.indexed && (p.idxOp = 3 || p.indexCount = 0 || decide (p.dir ≠ (if p.idxOp = 0 then 0 else 1)) || bl))
    || (p.adds && (p.src.spec ≠ 6 || p.dst.spec ≠ 6 || p.quant || p.peer || p.padded))
    || (p.peer && (!p.store && decide (p.dir ≠ 3) || p.quant))
    || (p.versioned && !p.src.hbm)
    || (p.quant && decide (q.dst ≠ p.dst.spec))
    || (!p.raw && !p.quant && !isWide (fsCode p.dst.spec))
    || (!p.raw && isLut (fsCode p.src.spec))
    || decide (384 ≤ p.target) || !same p.target
    || decide ((if p.store then p.wd else p.ws) < p.tail)
    || decide (p.dataW % p.wd ≠ 0)
    || (p.squares && ((p.dim 1).count % 4 ≠ 0 || decide (p.dstCounts.head?.getD 0 % 4 ≠ 0)))
    || (bl && !p.wholeTiles)

/-- The bight plane of a destination that forms whole tiles ends where the side does (R327; 03 R81). -/
def DmaDesc.bightOk (p : DmaDesc) : Bool :=
  let s := (p.dim 1).dst
  let per : Int := if p.squares then 4 else 16
  let last := (p.sweeps.map fun a =>
    if p.squares then (a.1 + p.sweepRows - 1) / per * (s / 4) + (a.2 + p.dstRecs - 1) / 4
    else (a.1 + p.sweepRows - 1) / per * s + a.2 + p.dstRecs - 1).foldl max 0
  decide ((p.dstBight : Int) + (last + 1) * (((qspecOf p.qlo p.qhi).bCap + 1) * 4 : Nat) ≤ if p.dst.hbm then 2 ^ 48 else 2 ^ 21)

/-- Least and greatest record offset at the destination in the format `fmt` that the ladder gives: rows of square blocks lie by their stride where that format has no block shapes. -/
def DmaDesc.rungRange (p : DmaDesc) (fmt : Nat) : Int × Int :=
  let r := p.dstRange
  let st : Int := (p.dim 1).dst.natAbs
  if p.squares && !fsSquare fmt && decide (st ≠ 0) then
    let b := min 0 r.1 / st * st
    (4 * b, 4 * b + ((r.2 - b) / st * 4 + 3) * st + (r.2 - b) % st / 4)
  else r

/-- Address breaks (R327), at the format of the site's rung too. -/
def DmaDesc.badAddr (p : DmaDesc) (c : Core) : Bool :=
  let fmt := fld (c.ladder p.qlo p.qhi) 7 0
  (p.quant && !({ p.dst with spec := fmt }).ok (recBytes (fsCode fmt)) (p.rungRange fmt)) ||
  (p.quant && decide ((qspecOf p.qlo p.qhi).bLimit ≠ 0) && !p.bightOk) || !p.src.ok (recBytes (fsCode p.src.spec)) p.srcRange || !p.dst.ok p.dstRecBytes p.dstRange
    || (p.indexed && decide (2 ^ 21 < p.indexLine * 64 + 4 * p.indexCount))

/-- The code of the first check that fails. -/
def DmaDesc.check (p : DmaDesc) (c : Core) (ws : List W64) (ring : Nat → Nat) (same : Nat → Bool) : Option Nat :=
  if p.badFormat c ring then some 1 else if p.badField ws same then some 2 else if p.badAddr c then some 3 else none

/- Reading and writing. -/

/-- A byte run of a side. -/
def State.dmaRead (s : State) (d : DmaSide) (a : Int) (n : Nat) : Except MemErr (List Byte) :=
  if d.hbm then s.ctxRead (.die (coreDie d.core)) (s.ctxOf d.core) a.toNat n else .ok (s.scrRead d.core a.toNat n)

/-- What that read does to the memory system. -/
def State.dmaLoad (s : State) (d : DmaSide) (a : Int) (n : Nat) : State :=
  if d.hbm then s.ctxLoad (.die (coreDie d.core)) (s.ctxOf d.core) a.toNat n else s

/-- Writes a byte run of a side. -/
def State.dmaWrite (s : State) (d : DmaSide) (a : Int) (bs : List Byte) : Except MemErr State :=
  if d.hbm then s.ctxWrite (.die (coreDie d.core)) (s.ctxOf d.core) a.toNat bs else .ok (s.scrWrite d.core a.toNat bs)

/-- A run of n consecutive records: element bytes and scale bytes. -/
def State.dmaRecs (s : State) (d : DmaSide) (off : Int) (n : Nat) : Except MemErr (List Byte × List Byte) := do
  let rb := recBytes (fsCode d.spec)
  let e ← s.dmaRead d (d.elem + off * rb) (n * rb)
  let c ← if hasScale (fsCode d.spec) then s.dmaRead d (d.scale + off) n else .ok []
  return (e, c)

/-- What the reads of a record run do to the memory system. -/
def State.dmaRecsLoad (s : State) (d : DmaSide) (off : Int) (n : Nat) : State :=
  let rb := recBytes (fsCode d.spec)
  let s := s.dmaLoad d (d.elem + off * rb) (n * rb)
  if hasScale (fsCode d.spec) then s.dmaLoad d (d.scale + off) n else s

/-- Elements of a record run, decoded under R64, with the saturations counted. -/
def decodeRecs (spec t : Nat) (r : List Byte × List Byte) : List (Fl × Bool) :=
  let c := fsCode spec
  let w := elemBits c
  let one (p : List Byte × Nat) : List (Fl × Bool) :=
    let raw := leNat p.1
    let sc := if hasScale c then (nth r.2 0 p.2).toNat else 0
    (List.range (recElems c)).map fun i =>
      let v := decodeF32 c (fsVar spec) (bits raw (w * i + w - 1) (w * i)) sc t
      (f32 v.1, v.2)
  (((chunks (recBytes c) (r.1.length + 1) r.1).zipIdx).map one).flatten

/-- Code of a value in BF16 or FP32 (R59, R61–R63). -/
def wideCode (spec : Nat) (x : Fl) : Nat :=
  if fsCode spec = 6 then (tensorF32 (BitVec.ofNat 32 (FF.fp32.encode (fsSat spec) x).1)).toNat
  else let c := (FF.bf16.encode (fsSat spec) x).1; if c = 0x8000 then 0 else c

/-- Element code and scale of every encoding of a format that reads, under R64, as the value FILL. -/
def fillCodes (spec fill t : Nat) : List (Nat × Nat) :=
  let c := fsCode spec
  if isLut c then [] else
  ((List.range (if hasScale c then 256 else 1)).flatMap fun sc => (List.range (2 ^ elemBits c)).map fun e => (e, sc)).filter fun p =>
    (decodeF32 c (fsVar spec) p.1 p.2 t).1 = tensorF32 (BitVec.ofNat 32 fill)

/-- Element code and scale of a record all of whose elements are FILL, outside the wide formats: a zero block where FILL is zero; otherwise an encoding that reads as FILL, which of them left open, or free bits where none does (DESIGN CHOICE, log 125). -/
def fillCode (spec fill t : Nat) : Nat × Nat :=
  let c := fsCode spec
  if fill % 2 ^ 31 = 0 ∧ !isLut c then (0, if isMx c then 0x7F else 0) else
  let k := Config.fillChoice spec fill t
  match fillCodes spec fill t with
  | [] => (k % 2 ^ elemBits c, k / 2 ^ elemBits c % 256)
  | l => nth l (0, 0) (k % l.length)

/-- Bytes of n records all of whose elements are FILL, for a raw transfer (R328, R333). -/
def fillRecs (spec fill t n : Nat) : List Byte × List Byte :=
  let c := fsCode spec
  let code := if fsCode spec = 6 then (tensorF32 (BitVec.ofNat 32 fill)).toNat else wideCode spec (f32n fill)
  if isWide c then ((List.replicate (n * recElems c) (leBytes (elemBits c / 8) code)).flatten, [])
  else
    let e := fillCode spec fill t
    ((List.replicate n (leBytes (recBytes c) (packCodes (elemBits c) (List.replicate (recElems c) e.1)))).flatten
    , if hasScale c then List.replicate n (BitVec.ofNat 8 e.2) else [])

/-- The source row of a destination position: `pad` for a padding row, `out` for a row out of bounds, or its record offset. -/
inductive DmaRow where
  | pad
  | out
  | at (off : Int)
deriving DecidableEq, Repr

/-- Index i of the list, resolved against DIM[1] of the HBM side (R203, R333). -/
def State.dmaIdx (s : State) (p : DmaDesc) (i : Nat) : Option Nat :=
  resolveIdx p.wrap (p.dim 1).count (BitVec.ofNat 32 (s.scrNat p.src.core (p.indexLine * 64 + 4 * i) 4))

/-- Where the row of a destination position comes from; `none` coordinate means padding. -/
def State.dmaSrcRow (s : State) (p : DmaDesc) (pos : List Nat) : DmaRow :=
  let co (c : Nat × Nat) : Option Nat :=
    if p.store then some (c.1 + p.padLo (c.2 + 1))
    else if c.1 < p.padLo (c.2 + 1) then none
    else if nth p.counts 0 c.2 ≤ c.1 - p.padLo (c.2 + 1) then none
    else some (c.1 - p.padLo (c.2 + 1))
  let cs := (pos.zipIdx).map co
  if cs.any Option.isNone then .pad else
  let cs := cs.filterMap id
  if p.indexed && decide (p.idxOp = 0) then
    match s.dmaIdx p (cs.head?.getD 0) with
    | none => .out
    | some r => .at ((r : Int) * (p.dim 1).src)
  else .at (dotStride cs p.srcStrides + (if p.store then p.padLo 0 else 0))

/-- Destination record offset of a row; `none` where a scatter's index is out of bounds. -/
def State.dmaDstRow (s : State) (p : DmaDesc) (pos : List Nat) : Option Int :=
  if p.indexed && decide (p.idxOp ≠ 0) then (s.dmaIdx p (pos.head?.getD 0)).map fun r => (r : Int) * (p.dim 1).dst
  else if p.squares then some (dotStride (pos.head?.getD 0 / 4 :: pos.tail) p.dstStrides)
  else some (dotStride pos p.dstStrides)

/-- Linear number of a row in the destination window. -/
def DmaDesc.rowNo (p : DmaDesc) (pos : List Nat) : Nat :=
  ((pos.zip p.dstCounts).reverse).foldl (fun a c => a * c.2 + c.1) 0

/-- The elements of a destination row for a converting transfer (R328–R330), each with whether its decoding saturated (02 R64). The element index counts the destination window's positions in record order, for square-blocked sources and destinations too (DESIGN CHOICE, log 117); the reduction index is that of the stored row. -/
def State.dmaRow (s : State) (p : DmaDesc) (pos : List Nat) : Except MemErr (List (QElem × Bool)) := do
  let fillE (n : Nat) : List (Fl × Bool × Bool) := List.replicate n (f32n p.fill, false, false)
  let n := (p.dim 0).count
  let body ← match s.dmaSrcRow p pos with
    | .pad => .ok (fillE p.rowW)
    | .out => .ok (fillE p.rowW)
    | .at off => do
      let r ← s.dmaRecs p.src off n
      let vs := decodeRecs p.src.spec p.tscale r
      let last := if p.tail = 0 then p.dataW else p.dataW - (if p.store then p.wd else p.ws) + p.tail
      let data := (vs.zipIdx).map fun v => (v.1.1, v.1.2, decide (last ≤ v.2))
      .ok (if p.store then data else fillE (p.padLo 0 * p.wd) ++ data ++ fillE (p.padHi 0 * p.wd))
  let base := p.idxBase + p.rowNo pos * p.rowW
  return (body.zipIdx).map fun e => ({ x := e.1.1, pad := e.1.2.2, idx := base + e.2, k := p.redBase + e.2 }, e.1.2.1 && !e.1.2.2)

/-- The reads behind one destination row are served. -/
def State.dmaServeRow (s : State) (p : DmaDesc) (r : DmaRow) : State :=
  match r with
  | .at off => s.dmaRecsLoad p.src off (p.dim 0).count
  | _ => s

/-- Destination positions in walk order. -/
def DmaDesc.rows (p : DmaDesc) : List (List Nat) := walkPos p.dstCounts

/- Totals and errors. -/

/-- A byte run read or written counts. -/
def State.dmaCount (s : State) (core : Nat) (rd wr : Nat) : State :=
  (s.bump (coreR .BYTES_READ_TOTAL core) rd).bump (coreR .BYTES_WRITTEN_TOTAL core) wr

/-- DMA_ERR_DETAIL of an event. -/
def dmaDetail (code idx : Nat) : W64 := w64 (idx % 2 ^ 32 + code * 2 ^ 48)

/-- Bytes of n records of a format, scales included. -/
def recsBytes (spec n : Nat) : Nat := n * (recBytes (fsCode spec) + b01 (hasScale (fsCode spec)))

/-- Records of padding synthesised or skipped (R328). -/
def DmaDesc.padRecs (p : DmaDesc) : Nat :=
  let all := p.padCounts.foldl (· * ·) 1
  let inner := p.counts.foldl (· * ·) 1
  if p.store then all * p.srcRecs - inner * (p.dim 0).count
  else (all * p.rowW - inner * p.dataW) / recElems (fsCode p.dst.spec)

/-- Rows out of bounds (R333). -/
def State.dmaOob (s : State) (p : DmaDesc) : Nat :=
  if p.indexed then (List.range p.indexCount).countP fun i => (s.dmaIdx p i).isNone else 0

/-- Counts of a walk: padding, out-of-bounds rows, bytes. -/
def State.dmaTotals (s : State) (core : Nat) (p : DmaDesc) : State :=
  let oob := s.dmaOob p
  let rows := p.counts.foldl (· * ·) 1 - oob
  let out := if p.indexed && decide (p.idxOp ≠ 0) then p.indexCount - oob else p.dstCounts.foldl (· * ·) 1
  let wr := if p.adds then out * p.dstRecs * 1024 else recsBytes p.dst.spec (out * p.rowW / recElems (fsCode p.dst.spec))
  let rd := recsBytes p.src.spec (rows * (p.dim 0).count) + (if p.adds then wr else 0) + (if p.indexed then 4 * p.indexCount else 0)
  let s := (s.bump (coreR .PAD_TOTAL core) p.padRecs).dmaCount core rd wr
  (List.range oob).foldl (fun s _ =>
    (s.bump (coreR (if p.idxOp = 0 then .DMA_OOB_READ_TOTAL else .DMA_OOB_WRITE_TOTAL) core) 1).raise (.core core) 14 (s.ctxOf core)) s

/-- The rejection of a descriptor (R334): it completes at once and moves nothing. -/
def State.dmaReject (s : State) (core : Nat) (m : OpMsg) (code : Nat) : State :=
  let det := dmaDetail code m.idx
  let s := ((s.bump (coreR .DMA_REJECT_TOTAL core) 1).raiseDetail (coreR .DMA_ERR_DETAIL core) det
    (.core core) (if code = 1 then 0 else 13) (s.ctxOf core)).markRejected
  (s.onCore core fun c => { c with dma := c.dma.filter fun r => r.msg.tag ≠ m.tag }).complete core m

/-- A memory event of a walk (R313, R317): the cause, and the first event's detail. -/
def State.dmaMemErr (s : State) (core : Nat) (m : OpMsg) (e : MemErr) : State :=
  if e = .held then s else
  let code := if e = .xlate then 0x10 else 0x11
  let s := s.detail (coreR .DMA_ERR_DETAIL core) (dmaDetail code m.idx)
  s.memErr (.core core) 22 (s.ctxOf core) e (s.reg (coreR .DMA_ERR_DETAIL core))

/- The walk. -/

/-- What a walk has made so far: the state, byte runs for a peer, rows for the quantiser with their saturations, and the event that ended it. -/
structure DmaAcc where
  s : State
  runs : List (Nat × List Byte) := []
  err : Option MemErr := none

/-- Adds byte runs at the destination, in order; for a peer they are collected. -/
def DmaAcc.put (a : DmaAcc) (p : DmaDesc) : List (Int × List Byte) → DmaAcc
  | [] => a
  | (ad, bs) :: t =>
    if bs.isEmpty then a.put p t
    else if p.peer then ({ a with runs := a.runs ++ [(ad.toNat, bs)] } : DmaAcc).put p t
    else match a.s.dmaWrite p.dst ad bs with
      | .ok s => ({ a with s := s } : DmaAcc).put p t
      | .error e => { a with err := some e }

/-- One destination row of a raw transfer: copied records with padding around them (R330). -/
def State.dmaRawRow (s : State) (p : DmaDesc) (pos : List Nat) : Except MemErr (List Byte × List Byte) :=
  match s.dmaSrcRow p pos with
  | .pad => .ok (fillRecs p.dst.spec p.fill p.tscale p.dstRecs)
  | .out => .ok (fillRecs p.dst.spec p.fill p.tscale p.dstRecs)
  | .at off => do
    let r ← s.dmaRecs p.src off (p.dim 0).count
    if p.store then return r else
    let a := fillRecs p.dst.spec p.fill p.tscale (p.padLo 0)
    let b := fillRecs p.dst.spec p.fill p.tscale (p.padHi 0)
    return (a.1 ++ r.1 ++ b.1, a.2 ++ r.2 ++ b.2)

/-- One row of a transfer without the quantiser: read, converted if its formats differ, written. -/
def DmaAcc.row (a : DmaAcc) (p : DmaDesc) (pos : List Nat) : DmaAcc :=
  if a.err.isSome then a else
  match a.s.dmaDstRow p pos with
  | none => a
  | some off =>
    let rb := recBytes (fsCode p.dst.spec)
    let b : DmaAcc := { a with s := a.s.dmaServeRow p (a.s.dmaSrcRow p pos) }
    if p.raw then
      match a.s.dmaRawRow p pos with
      | .error e => { a with err := some e }
      | .ok r => b.put p [(p.dst.elem + off * rb, r.1), (p.dst.scale + off, r.2)]
    else
      match a.s.dmaRow p pos with
      | .error e => { a with err := some e }
      | .ok r =>
        let n := elemBits (fsCode p.dst.spec) / 8
        b.put p [(p.dst.elem + off * rb, (r.map fun e => leBytes n (wideCode p.dst.spec e.1.x)).flatten)]

/-- One row of a scatter-add: each element adds exactly into its cell (R206, R333). -/
def DmaAcc.addRow (a : DmaAcc) (p : DmaDesc) (pos : List Nat) : DmaAcc :=
  if a.err.isSome then a else
  match a.s.dmaDstRow p pos, a.s.dmaSrcRow p pos with
  | some off, .at so =>
    let go : Except MemErr State := do
      let r ← a.s.dmaRecs p.src so (p.dim 0).count
      let vs := (chunks 4 (r.1.length + 1) r.1).map fun b => (BitVec.ofNat 32 (leNat b) : W32)
      let base := p.dst.elem + off * 1024
      let cs ← a.s.dmaRead p.dst base (64 * vs.length)
      let cells := (chunks 64 (cs.length + 1) cs).map XCell.ofBytes
      ((a.s.dmaServeRow p (.at so)).dmaLoad p.dst base (64 * vs.length)).dmaWrite p.dst base ((cells.zip vs).map fun c => (c.1.addLane c.2).toBytes).flatten
    match go with
    | .ok s => { a with s := s }
    | .error e => { a with err := some e }
  | _, _ => a

/- Quantiser operations (R330). -/

/-- A strip of destination blocks along d0: element row and column of its first block counted from the plane base, and its element rows (one, or four for square blocks), each element with whether its decoding saturated. -/
structure DmaLine where
  row : Nat
  col : Nat
  rows : List (List (QElem × Bool))
deriving DecidableEq, Repr

/-- Splits strips into operations of `per` elements along d0, in order. -/
def packLines (per : Nat) : Nat → Nat → List DmaLine → List DmaLine → List (List DmaLine)
  | 0, _, cur, _ => if cur.isEmpty then [] else [cur.reverse]
  | _ + 1, _, cur, [] => if cur.isEmpty then [] else [cur.reverse]
  | f + 1, room, cur, l :: t =>
    let n := (l.rows.head?.getD []).length
    if room = 0 then cur.reverse :: packLines per f per [] (l :: t)
    else if n ≤ room then packLines per f (room - n) (l :: cur) t
    else
      let a : DmaLine := { l with rows := l.rows.map (List.take room) }
      let b : DmaLine := { l with col := l.col + room, rows := l.rows.map (List.drop room) }
      ((a :: cur).reverse) :: packLines per f per [] (b :: t)

/-- A strip as rows of a quantiser operation. -/
def DmaLine.qrows (l : DmaLine) : List QRow := (l.rows.zipIdx).map fun r => { row := l.row + r.2, col := l.col, els := r.1.map Prod.fst }

/-- Elements of a strip whose decoding saturated. -/
def DmaLine.sats (l : DmaLine) : Nat := (l.rows.map fun r => r.countP Prod.snd).sum

/-- A destination row with its record offset. -/
abbrev DmaOut := Int × List (QElem × Bool)

/-- Rows that reach the quantiser in walk order, with their offsets; ends at the first memory event. -/
def State.dmaLines (s : State) (p : DmaDesc) : List (List Nat) → Except MemErr (List DmaOut)
  | [] => .ok []
  | pos :: t => do
    let rest (x : List DmaOut) : Except MemErr (List DmaOut) := do
      let r ← s.dmaLines p t
      return x ++ r
    match s.dmaDstRow p pos with
    | none => rest []
    | some off => do
      let r ← s.dmaRow p pos
      rest [(off, r)]

/-- A strip at a record offset from `base`: its place under plane stride `st` (03 R81, 04 R105), or, with stride 0, along one row. -/
def DmaDesc.strip (p : DmaDesc) (st : Nat) (base off : Int) (rows : List (List (QElem × Bool))) : DmaLine :=
  let o := (off - base).toNat
  if st = 0 then { row := 0, col := p.wd * o, rows := rows }
  else { row := o / st * (if p.squares then 4 else 1), col := p.wd * (o % st), rows := rows }

/-- Joins rows into strips: each row, or four rows of d1 for square blocks. -/
def DmaDesc.strips (p : DmaDesc) (st : Nat) (base : Int) (l : List DmaOut) : List DmaLine :=
  if p.squares then
    (chunks 4 (l.length + 1) l).map fun g => p.strip st base ((g.head?.map Prod.fst).getD 0) (g.map Prod.snd)
  else l.map fun r => p.strip st base r.1 [r.2]

/-- The quantiser operation of some strips; the source saturations of its elements travel with it (02 R64). -/
def DmaDesc.qop (p : DmaDesc) (m : OpMsg) (d : QDest) (l : List DmaLine) (walk last : Bool) : QOp :=
  { lo := p.qlo, hi := p.qhi, rows := (l.map DmaLine.qrows).flatten, dst := d, tile := p.tile, epoch := p.epoch, accTrunc := 0, accSat := 0
    plies := [], quad := 0, signal := none, launch := some m.tag, guard := none, last := last, walk := walk
    preSat := (l.map DmaLine.sats).sum }

/-- Operations of 256 blocks in walk order; `fmt` is the destination format that the ladder gives. Square blocks keep their place under the stride of d1, so that a rung without block shapes stores their rows by it (06 R158). To an MX format 256 blocks are 256 records of 32 elements (DESIGN CHOICE, log 116). -/
def DmaDesc.walkOps (p : DmaDesc) (m : OpMsg) (fmt : Nat) (l : List DmaOut) : List QOp :=
  let st := if p.squares then (p.dim 1).dst.natAbs else 0
  let lo := min 0 p.dstRange.1
  let base := if st = 0 then lo else lo / st * st
  let lines := p.strips st base l
  let ops := packLines (256 * p.wd) (lines.length + (lines.map fun x => (x.rows.head?.getD []).length / p.wd).sum + 2) (256 * p.wd) [] lines
  let at_ := if p.squares && !fsSquare fmt then 4 * base else base
  let d : QDest := { hbm := p.dst.hbm, core := p.dst.core, elem := (p.dst.elem + at_ * recBytes (fsCode fmt)).toNat
                     scale := (p.dst.scale + at_).toNat, bight := none, stride := st }
  (ops.zipIdx).map fun o => p.qop m d o.1 true (o.2 + 1 = ops.length)

/-- Operations of whole bight tiles: bands of 16 rows of d1, each cut into up to 16 tiles. -/
def DmaDesc.tileOps (p : DmaDesc) (m : OpMsg) (l : List DmaOut) : List QOp :=
  let s := (p.dim 1).dst.toNat
  let d : QDest := { hbm := p.dst.hbm, core := p.dst.core, elem := p.dst.elem.toNat, scale := p.dst.scale.toNat
                     bight := some p.dstBight, stride := s }
  let bands := (chunks 16 (l.length + 1) l).map (p.strips s 0)
  let cut (b : List DmaLine) : List (List DmaLine) :=
    (List.range (cdiv p.rowW 256)).map fun i => b.map fun r =>
      { r with col := r.col + 256 * i, rows := r.rows.map fun e => (e.drop (256 * i)).take 256 }
  let ops := (bands.map cut).flatten
  (ops.zipIdx).map fun o => p.qop m d o.1 false (o.2 + 1 = ops.length)

/-- Sends a transfer's operations to its port: 2 on load, 3 on store (R65, R330). -/
def State.dmaQuant (s : State) (core : Nat) (m : OpMsg) (p : DmaDesc) : State × Option MemErr :=
  match s.dmaLines p p.rows with
  | .error e => (s, some e)
  | .ok l =>
    let fmt := fld ((s.core core).ladder p.qlo p.qhi) 7 0
    let ops := if (qspecOf p.qlo p.qhi).bLimit = 0 then p.walkOps m fmt l else p.tileOps m l
    let port := if p.store then 3 else 2
    let s := p.rows.foldl (fun s pos => if (s.dmaDstRow p pos).isSome then s.dmaServeRow p (s.dmaSrcRow p pos) else s) s
    (s.onCore core fun c => { c with
      qnt := { c.qnt with ports := c.qnt.ports.modify port (· ++ ops) }
      dma := c.dma.map fun r => if r.msg.tag = m.tag then { r with qops := ops.length } else r }, none)

/-- The walk without the quantiser; a peer's writes leave as messages that each await an acknowledgement (R331). -/
def State.dmaPlain (s : State) (core : Nat) (m : OpMsg) (p : DmaDesc) : State × Option MemErr :=
  let a := p.rows.foldl (fun (a : DmaAcc) pos => if p.adds then a.addRow p pos else a.row p pos) { s := s }
  let out : OutMsg := .peer p.route p.member (s.ctxOf core) (s.ctx (s.ctxOf core)).gen a.runs
  let s := if a.runs.isEmpty then a.s else
    (a.s.send out).onCore core fun c =>
      { c with dma := c.dma.map fun r => if r.msg.tag = m.tag then { r with acks := out.bodies.length } else r }
  (s, a.err)

/-- The slot base that a versioned source adds (R332); `none` where the commit word is not valid. -/
def State.dmaVersion (s : State) (core : Nat) (p : DmaDesc) : Except MemErr (Option DmaDesc) :=
  if !p.versioned then .ok (some p) else
  match s.capRec? p.capStack p.capRec with
  | none => .ok none
  | some r => do
    let w ← s.commitWord (.die (coreDie core)) r
    if !bit w 1 then return none
    let b : Int := r.slotBase (bit w 0)
    return some { p with src := { p.src with elem := p.src.elem + b, scale := p.src.scale + b } }

/-- A conversion reads records under an invalid tensor scale: its values are NaN, and TSCALE_INVALID is raised (02 R46). -/
def State.dmaTscale (s : State) (core : Nat) (p : DmaDesc) : State :=
  if p.raw || isWide (fsCode p.src.spec) || tscaleOk p.tscale || !(p.rows.any fun pos =>
      (s.dmaDstRow p pos).isSome && match s.dmaSrcRow p pos with | .at _ => true | _ => false) then s
  else s.raise (.core core) 1 (s.ctxOf core)

/-- Runs the oldest descriptor that has not been walked (R326, R331). One that memory holds has not run; one whose target core is fenced writes nothing and never completes (16 R413). -/
def State.dmaWalk (s : State) (core : Nat) (m : OpMsg) : State :=
  let p0 := dmaDesc core m.words
  let ctx := s.ctxOf core
  let same (n : Nat) : Bool := s.job.used.contains n && s.ctxOf n = ctx || n = core
  let mark (s : State) := s.onCore core fun c =>
    { c with dma := c.dma.map fun r => if r.msg.tag = m.tag then { r with walked := true } else r }
  match s.dmaVersion core p0 with
  | .error e => if e = .held then s else (mark s).dmaMemErr core m e
  | .ok none => s.dmaReject core m 4
  | .ok (some p) =>
    match p.check (s.core core) m.words (s.ringSize core) same with
    | some code => s.dmaReject core m code
    | none =>
      if !p.dst.hbm && s.coreFenced p.target then
        s.onCore core fun c => { c with dma := c.dma.map fun r => if r.msg.tag = m.tag then { r with walked := true, lost := true } else r }
      else
      let s1 := ((mark s).dmaTotals core p).dmaTscale core p
      let r := if p.quant then s1.dmaQuant core m p else s1.dmaPlain core m p
      match r.2 with
      | none => r.1
      | some e => if e = .held then s else r.1.dmaMemErr core m e

/-- The descriptor that may run: the oldest not walked, once no earlier one still has writes at the quantiser (R331). -/
def Core.dmaNext (c : Core) : Option OpMsg :=
  if c.dma.any fun r => r.walked && decide (r.qops ≠ 0) then none
  else (c.dma.find? fun r => !r.walked).map (·.msg)

/-- A DMA descriptor runs when it is the next one and of the named kind and operation; `ecc` lists the memory errors met, `scr` the scratch errors, and `late` counts the entries that crossed the fabric late (01 R34). -/
def execDma (core : Nat) (want : Nat → Nat → Bool) (ecc : List EccEvent) (scr : List (Nat × Nat)) (late : Nat) (s : State) : Out :=
  guardPart (decide (core < 384)) <|
    match (s.core core).dmaNext with
    | none => s
    | some m =>
      let w0 := nth m.words 0 0
      if want (fld w0 3 0) (fld w0 28 27) then (((s.eccEvents ecc).scrEvents core scr).dmaWalk core m).crossLate (coreDie core) late else s

/-- COPY (R327–R331). -/
def execCopy (core : Nat) (ecc : List EccEvent) (scr : List (Nat × Nat)) (late : Nat) (s : State) : Out :=
  execDma core (fun k _ => k = 4) ecc scr late s
/-- Gather (R333); an INDEXED descriptor with the reserved IDX_OP 3 is rejected here too. -/
def execDmaGather (core : Nat) (ecc : List EccEvent) (scr : List (Nat × Nat)) (late : Nat) (s : State) : Out :=
  execDma core (fun k o => k = 5 && (o = 0 || o = 3)) ecc scr late s
/-- Scatter-store (R333). -/
def execDmaScatterStore (core : Nat) (ecc : List EccEvent) (scr : List (Nat × Nat)) (late : Nat) (s : State) : Out :=
  execDma core (fun k o => k = 5 && o = 1) ecc scr late s
/-- Scatter-add (R333). -/
def execDmaScatterAdd (core : Nat) (ecc : List EccEvent) (scr : List (Nat × Nat)) (late : Nat) (s : State) : Out :=
  execDma core (fun k o => k = 5 && o = 2) ecc scr late s

/-- Peer acknowledgements settle the oldest descriptors that wait for them. -/
def takeAcks : Nat → List DmaRun → List DmaRun
  | _, [] => []
  | n, r :: t => { r with acks := r.acks - n } :: takeAcks (n - r.acks) t

/-- `acks` peer acknowledgements have arrived; the oldest walked descriptor with nothing outstanding completes (R334). `late` counts the entries that crossed the fabric late (01 R34). -/
def State.dmaComplete (s : State) (core acks late : Nat) : State :=
  let s := (s.crossLate (coreDie core) late).onCore core fun c => { c with dma := takeAcks acks c.dma }
  match (s.core core).dma.find? fun r => r.walked && r.acks = 0 && r.qops = 0 && !r.lost with
  | none => s
  | some r =>
    ((s.onCore core fun c => { c with dma := c.dma.filter fun x => x.msg.tag ≠ r.msg.tag }).bump (coreR .DESC_TOTAL core) 1).complete core r.msg

/-- PEER_WRITE (R331): runs written into a context by another module's DMA engine arrive, are written and acknowledged. A transaction of another generation, or for a context that is not ACTIVE, is dropped and counted (R398). A run that meets a translation fault or poison is not written; the cause is raised at the die's whipping unit, which serves the exchange. -/
def execPeerWrite (die member ctx gen : Nat) (runs : List (Nat × List Byte)) (s : State) : Out :=
  guardPart (decide (die < 2) && decide (ctx < 4)) <|
    s.arrive (.peerWrite die member ctx gen runs) fun s =>
      if (s.ctx ctx).state ≠ .active ∨ (s.ctx ctx).gen ≠ gen then some (s.bump (rid .CTX_STALE_TOTAL .module ctx) 1)
      else
        (runs.foldlM (fun (s : State) (r : Nat × List Byte) =>
          match s.ctxWrite (.die die) ctx r.1 r.2 with
          | .ok s => some s
          | .error e => s.memFail (.whip die) 3 ctx e) s).map fun (s : State) => s.send (.peerAck member)

end Sys2Proof.Machine
end

