-- ==== Sys2Proof/Machine/ControlCore.lean ====
section
/-! DEFINITION. Control-core instructions (10 R264–R269) and the knot instructions of a core (11 R288–R293). Each command runs the instruction at the core's pc if it is the one the command names. -/

namespace Sys2Proof.Machine

/- Fields (R265). -/

/-- OP. -/
def ccOp (w : W64) : Nat := fld w 63 58
/-- SD. -/
def ccSd (w : W64) : Nat := fld w 57 53
/-- SA. -/
def ccSa (w : W64) : Nat := fld w 52 48
/-- SB. -/
def ccSb (w : W64) : Nat := fld w 47 43
/-- EXT. -/
def ccExt (w : W64) : Nat := fld w 42 32
/-- IMM, sign-extended. -/
def ccImm (w : W64) : W64 := (w.truncate 32 : BitVec 32).signExtend 64
/-- IMM as an instruction index. -/
def ccTarget (w : W64) : Nat := fld w 31 0

/-- The operation codes that R265 defines. -/
def ccDefined : List Nat :=
  [0x00, 0x01, 0x02, 0x03, 0x04, 0x05, 0x06, 0x07, 0x08, 0x09, 0x0A, 0x0B, 0x0C, 0x0D, 0x10, 0x11,
   0x18, 0x19, 0x1A, 0x1B, 0x1C, 0x20, 0x21, 0x22, 0x28, 0x29, 0x2A, 0x2B, 0x2C, 0x2D, 0x2E]

/-- Register sn; s0 reads 0 (R264). -/
def ControlCore.get (c : ControlCore) (n : Nat) : W64 := if n = 0 then 0 else sget c.sregs 0 n

/-- Writes sn; writes to s0 are discarded (R264). -/
def ControlCore.put (c : ControlCore) (n : Nat) (v : W64) : ControlCore :=
  if n = 0 then c else { c with sregs := sset c.sregs n v }

/-- Moves to the next instruction. -/
def ControlCore.adv (c : ControlCore) : ControlCore := { c with pc := c.pc + 1, waiting := 0 }

/-- Applies a function to a core's control core. -/
def State.onCC (s : State) (n : Nat) (f : ControlCore → ControlCore) : State :=
  s.onCore n fun c => { c with cc := f c.cc }

/-- R269: the core stops, CC_ILLEGAL is raised and the instruction recorded; a fault of the core's context. -/
def State.ccIllegal (s : State) (n code : Nat) : State :=
  let pc := (s.core n).cc.pc
  let det := w64 (pc % 2 ^ 14 + code * 2 ^ 32)
  (s.ccStop n).raiseDetail (coreR .CC_ERR_DETAIL n) det (.core n) 21 (s.ctxOf n)

/-- The core waits at its instruction, one cycle of CC_WAIT_TOTAL. -/
def State.ccWait (s : State) (n why : Nat) : State :=
  (s.onCC n fun c => { c with waiting := why }).bump (coreR .CC_WAIT_TOTAL n) 1

/-- The core has a knot operation pending at the store. -/
def State.knotPending (s : State) (n : Nat) : Bool :=
  (s.knot (coreDie n)).pend.any fun p => p.src = .core n

/-- Runs the instruction at a running core's pc when its OP is `op`. Running past the stream, or a reserved OP, stops the core (R269); another instruction at the pc means that the named one does not execute. -/
def ccRun (n op : Nat) (s : State) (f : W64 → State → State) : Out :=
  if 384 ≤ n then .fault .noSuchPart else
  let c := (s.core n).cc
  if c.mode ≠ .running ∨ s.knotPending n then .next s else
  match c.stream[c.pc]? with
  | none => .next (s.ccIllegal n 2)
  | some w =>
    if !(ccDefined.contains (ccOp w)) then .next (s.ccIllegal n 1)
    else if ccOp w ≠ op then .next s
    else .next (f w s)

/-- sD := v, then the next instruction. -/
def ccSet (n : Nat) (v : ControlCore → W64 → W64) (w : W64) (s : State) : State :=
  s.onCC n fun c => (c.put (ccSd w) (v c w)).adv

/-- Branches to IMM when taken; a target beyond the stream stops the core (R269). -/
def ccBranch (n : Nat) (taken : Bool) (w : W64) (s : State) : State :=
  if !taken then s.onCC n ControlCore.adv
  else if (s.core n).cc.stream.length ≤ ccTarget w then s.ccIllegal n 2
  else s.onCC n fun c => { c with pc := ccTarget w, waiting := 0 }

/-- Shift amount (sB + IMM) mod 64. -/
def ccShift (c : ControlCore) (w : W64) : Nat := (c.get (ccSb w) + ccImm w).toNat % 64

/-- NOP. -/
def execCcNop (core : Nat) (s : State) : Out := ccRun core 0x00 s fun _ s => s.onCC core ControlCore.adv

/-- STEPEND: ends the core's stream; the last used core to end moves the module to DRAINING (R270). -/
def execStepend (core : Nat) (s : State) : Out :=
  ccRun core 0x01 s fun _ s =>
    let s := s.onCC core fun c => { c with mode := .ended, waiting := 6 }
    if s.step.state = .running ∧ s.usedCores.all (fun n => (s.core n).cc.mode = .ended) then s.enterDraining else s

/-- ADDI. -/
def execAddi (core : Nat) (s : State) : Out := ccRun core 0x02 s (ccSet core fun c w => c.get (ccSa w) + ccImm w)
/-- ADD. -/
def execCcAdd (core : Nat) (s : State) : Out := ccRun core 0x03 s (ccSet core fun c w => c.get (ccSa w) + c.get (ccSb w))
/-- SUB. -/
def execCcSub (core : Nat) (s : State) : Out := ccRun core 0x04 s (ccSet core fun c w => c.get (ccSa w) - c.get (ccSb w))
/-- MUL: low 64 bits. -/
def execCcMul (core : Nat) (s : State) : Out := ccRun core 0x05 s (ccSet core fun c w => c.get (ccSa w) * c.get (ccSb w))
/-- AND. -/
def execCcAnd (core : Nat) (s : State) : Out := ccRun core 0x06 s (ccSet core fun c w => c.get (ccSa w) &&& c.get (ccSb w))
/-- OR. -/
def execCcOr (core : Nat) (s : State) : Out := ccRun core 0x07 s (ccSet core fun c w => c.get (ccSa w) ||| c.get (ccSb w))
/-- XOR. -/
def execCcXor (core : Nat) (s : State) : Out := ccRun core 0x08 s (ccSet core fun c w => c.get (ccSa w) ^^^ c.get (ccSb w))
/-- SHL. -/
def execShl (core : Nat) (s : State) : Out := ccRun core 0x09 s (ccSet core fun c w => c.get (ccSa w) <<< ccShift c w)
/-- SHR. -/
def execShr (core : Nat) (s : State) : Out := ccRun core 0x0A s (ccSet core fun c w => c.get (ccSa w) >>> ccShift c w)
/-- SRA. -/
def execSra (core : Nat) (s : State) : Out := ccRun core 0x0B s (ccSet core fun c w => (c.get (ccSa w)).sshiftRight (ccShift c w))
/-- LI: IMM zero-extended (DEDUCED: it is sign-extended where it is added). -/
def execLi (core : Nat) (s : State) : Out := ccRun core 0x0C s (ccSet core fun _ w => w64 (fld w 31 0))
/-- LIH: upper half from IMM, lower half kept. -/
def execLih (core : Nat) (s : State) : Out := ccRun core 0x0D s (ccSet core fun c w => setFld (c.get (ccSd w)) 63 32 (fld w 31 0))

/-- The `i`-th aligned word of the constant store; beyond its 8,192 words the value is free, one value for one place (R280). -/
def State.poolWord (s : State) (n i : Nat) : W64 :=
  if i < 8192 then nth (s.core n).cc.pool 0 i else Config.poolPast n i

/-- LDC: 8 aligned bytes of the constant store; a misaligned address stops the core (R265, R269). -/
def execLdc (core : Nat) (s : State) : Out :=
  ccRun core 0x10 s fun w s =>
    let a := ((s.core core).cc.get (ccSa w) + ccImm w).toNat
    if a % 8 ≠ 0 then s.ccIllegal core 3
    else
      let v := s.poolWord core (a / 8)
      s.onCC core fun c => (c.put (ccSd w) v).adv

/-- GETS: LOGLINE, ATTEMPT, logical core id, MEMBER or context; a selector above 4 stops the core. -/
def execGets (core : Nat) (s : State) : Out :=
  ccRun core 0x11 s fun w s =>
    let put (v : Nat) := s.onCC core fun c => (c.put (ccSd w) (w64 v)).adv
    match ccExt w with
    | 0 => put s.logline
    | 1 => put s.step.attempt
    | 2 => put core
    | 3 => put s.job.member
    | 4 => put (s.ctxOf core)
    | _ => s.ccIllegal core 1

/-- BEQ. -/
def execBeq (core : Nat) (s : State) : Out :=
  ccRun core 0x18 s fun w s => let c := (s.core core).cc; ccBranch core (c.get (ccSa w) = c.get (ccSb w)) w s
/-- BNE. -/
def execBne (core : Nat) (s : State) : Out :=
  ccRun core 0x19 s fun w s => let c := (s.core core).cc; ccBranch core (c.get (ccSa w) ≠ c.get (ccSb w)) w s
/-- BLT, signed. -/
def execBlt (core : Nat) (s : State) : Out :=
  ccRun core 0x1A s fun w s => let c := (s.core core).cc; ccBranch core ((c.get (ccSa w)).slt (c.get (ccSb w))) w s
/-- BLTU, unsigned. -/
def execBltu (core : Nat) (s : State) : Out :=
  ccRun core 0x1B s fun w s => let c := (s.core core).cc; ccBranch core ((c.get (ccSa w)).ult (c.get (ccSb w))) w s

/-- LOOP: sD := sD − 1; branch if not zero. On s0 the discarded write leaves 0, which never branches (DEDUCED). A target beyond the stream stops the core with sD unchanged. -/
def execCcLoop (core : Nat) (s : State) : Out :=
  ccRun core 0x1C s fun w s =>
    let c := (s.core core).cc
    let c' := c.put (ccSd w) (c.get (ccSd w) - 1)
    let taken := c'.get (ccSd w) ≠ 0
    if taken ∧ c.stream.length ≤ ccTarget w then s.ccIllegal core 2
    else ccBranch core taken w (s.onCC core fun _ => c')

/-- Unit named by a descriptor's KIND (R266). -/
def unitOfKind (k : Nat) : Option Nat :=
  if k = 1 ∨ k = 2 then some 0 else if k = 3 then some 1 else if k = 4 ∨ k = 5 then some 2 else none

/-- The target unit's queue is full (R114, R177; 12 *DMA*). -/
def State.unitFull (s : State) (n : Nat) (words : List W64) : Bool :=
  let c := s.core n
  let w0 := nth words 0 0
  match unitOfKind (fld w0 3 0) with
  | some 0 =>
    let p := fld w0 7 6
    decide (4 ≤ (nth c.plies {} p).queue.length + (c.plyInbox.filter fun m => fld (nth m.words 0 0) 7 6 = p).length)
  | some 1 => decide (2 ≤ c.vec.queued + c.vec.inbox.length)
  | some _ => decide (8 ≤ (c.dma.filter fun r => !r.walked).length)
  | none => false

/-- The descriptor that ISSUE sends: sixteen constant-store words with up to two patches (R266). -/
def State.issueWords (s : State) (n : Nat) (w : W64) (a : Nat) : List W64 :=
  let c := (s.core n).cc
  let ws := (List.range 16).map fun i => s.poolWord n (a / 8 + i)
  let ext := ccExt w
  let add (ws : List W64) (i : Nat) (v : W64) := ws.set i (nth ws 0 i + v)
  let ws := if nbit ext 4 then add ws (bits ext 3 0) (c.get (ccSb w)) else ws
  if nbit ext 9 then add ws (bits ext 8 5) (c.get ((ccSb w + 1) % 32)) else ws

/-- Broadcast values sampled at issue (R176). -/
def sampleBcast (c : ControlCore) (words : List W64) : List W64 :=
  let w1 := nth words 0 1
  (List.range 8).map fun j => if bit w1 (40 + j) then c.get (fld w1 (5 * j + 4) (5 * j)) else 0

/-- ISSUE (R266, R267): waits at the in-flight limit or a full queue, else sends the patched descriptor to its unit and writes the tag to sD. -/
def execIssue (core : Nat) (s : State) : Out :=
  ccRun core 0x20 s fun w s =>
    let c := (s.core core).cc
    let a := (c.get (ccSa w) + ccImm w).toNat
    if a % 64 ≠ 0 then s.ccIllegal core 3 else
    let ws := s.issueWords core w a
    match unitOfKind (fld (nth ws 0 0) 3 0) with
    | none => s.ccIllegal core 1
    | some u =>
      if 128 ≤ c.inFlight.length || s.unitFull core ws then s.ccWait core 1 else
      let tag := c.issues % 2 ^ 16
      let occ := sget c.occ 0 c.pc
      let m : OpMsg := { words := ws, idx := c.pc, occ := occ, tag := tag, reissue := false
                         bcast := if u = 1 then sampleBcast c ws else [] }
      let res := if u = 1 then (({ tag := tag, done := false, words := [] } : LaunchRes) :: c.results).take 16 else c.results
      let cc0 : ControlCore := { c with issues := c.issues + 1, occ := sset c.occ c.pc (occ + 1)
                                        inFlight := c.inFlight ++ [{ tag := tag, unit := u }], results := res }
      let cc := (cc0.put (ccSd w) (w64 tag)).adv
      let s := (s.onCC core fun _ => cc).bump (coreR .CC_ISSUE_TOTAL core) 1
      s.onCore core fun k =>
        if u = 0 then { k with plyInbox := k.plyInbox ++ [m] }
        else if u = 1 then { k with vec := { k.vec with inbox := k.vec.inbox ++ [m] } }
        else { k with dma := k.dma ++ [{ msg := m, walked := false, acks := 0, qops := 0 }] }

/-- FENCE: waits until no operation issued to a selected unit is in flight. -/
def execFence (core : Nat) (s : State) : Out :=
  ccRun core 0x21 s fun w s =>
    if (s.core core).cc.inFlight.any (fun o => nbit (ccExt w) o.unit) then s.ccWait core 2
    else s.onCC core ControlCore.adv

/-- VRES (R267): a result word of one of the 16 most recent launches; any other tag returns 0 and raises CC_ERROR. -/
def execVres (core : Nat) (s : State) : Out :=
  ccRun core 0x22 s fun w s =>
    let c := (s.core core).cc
    match c.results.find? fun r => w64 r.tag = c.get (ccSa w) with
    | some r =>
      if r.done then s.onCC core fun c => (c.put (ccSd w) (w64 (sget r.words 0 (bits (ccExt w) 2 0)).toNat)).adv
      else s.ccWait core 4
    | none =>
      let det := w64 (c.pc % 2 ^ 14 + 0x10 * 2 ^ 32)
      let s := s.raiseDetail (coreR .CC_ERR_DETAIL core) det (.core core) 12 (s.ctxOf core)
      s.onCC core fun c => (c.put (ccSd w) 0).adv

/-- What a waiting operation waits for, and whether the core's view, which may lack the last `lag` changes, already shows it (R290). TAKE and the others complete only at the store. -/
def State.viewDone (s : State) (core k lag : Nat) (op : KOp) : Bool :=
  let d := coreDie core
  let e := s.knotEntry d (s.ctxOf core) k
  kValid e && match op with
    | .wait => s.viewShows d (kPhys e) core lag true
    | .waitclr => s.viewShows d (kPhys e) core lag false
    | _ => false

/-- A knot operation of the core on knot (sA + IMM) mod 4,096 of its context on its own die; `err` says that its knot's cell fails its parity, `lag` how many recent changes its station's view lacks. -/
def ccKnot (core : Nat) (op : KOp) (err : Bool) (lag : Nat) (w : W64) (s : State) : State :=
  let c := (s.core core).cc
  let k := (c.get (ccSa w) + ccImm w).toNat % 4096
  let d := coreDie core
  let x := s.ctxOf core
  let s := s.cellCheck err d x k
  if s.viewDone core k lag op then s.ccResume core else
  let r := s.knotDo d x k (.core core) op
  match r.2 with
  | .done => (r.1.ccResume core).flush d
  | .wait => (r.1.onCC core fun c => { c with waiting := 3 })
  | .unmapped => (r.1.ccStop core).knotError d 2 3 x core k c.pc true
  | .access => (r.1.ccStop core).knotError d 1 2 x core k c.pc true

/-- TIE (R288). -/
def execTie (core : Nat) (cellErr : Bool) (s : State) : Out := ccRun core 0x28 s (ccKnot core .tie cellErr 0)
/-- UNTIE (R288). -/
def execUntie (core : Nat) (cellErr : Bool) (s : State) : Out := ccRun core 0x29 s (ccKnot core .untie cellErr 0)
/-- WAIT (R288, R290). -/
def execWait (core : Nat) (cellErr : Bool) (lag : Nat) (s : State) : Out := ccRun core 0x2A s (ccKnot core .wait cellErr lag)
/-- WAITCLR (R288, R290). -/
def execWaitclr (core : Nat) (cellErr : Bool) (lag : Nat) (s : State) : Out := ccRun core 0x2B s (ccKnot core .waitclr cellErr lag)
/-- TAKE (R288). -/
def execTake (core : Nat) (cellErr : Bool) (s : State) : Out := ccRun core 0x2C s (ccKnot core .take cellErr 0)

/-- RTIE and RUNTIE (R292, R293): the station holds the operation behind every earlier write of the core; a seventeenth stops the core. -/
def ccRemote (core : Nat) (tie : Bool) (w : W64) (s : State) : State :=
  let c := s.core core
  let d := coreDie core
  let k := (c.cc.get (ccSa w) + ccImm w).toNat % 4096
  match (s.knot d).endpoints[ccExt w]? with
  | none => (s.ccStop core).knotError d 2 4 (s.ctxOf core) core (ccExt w) c.cc.pc true
  | some e =>
    if !bit e 33 then (s.ccStop core).knotError d 2 4 (s.ctxOf core) core (ccExt w) c.cc.pc true
    else if 16 ≤ c.held.length then s.ccWait core 3
    else
      let h : HeldRemote := { endpoint := e, tie := tie, knot := k, fence := c.cc.inFlight.map (·.tag) }
      (s.onCore core fun c => { c with held := c.held ++ [h] }).onCC core ControlCore.adv

/-- RTIE. -/
def execRtie (core : Nat) (s : State) : Out := ccRun core 0x2D s (ccRemote core true)
/-- RUNTIE. -/
def execRuntie (core : Nat) (s : State) : Out := ccRun core 0x2E s (ccRemote core false)

/-- The held remote operation as it travels (R294). -/
def State.remoteOf (s : State) (core : Nat) (h : HeldRemote) : RemoteOp :=
  { tie := h.tie, ctx := fld h.endpoint 16 15, knot := h.knot, gen := (s.ctx (s.ctxOf core)).gen
    step := s.logline, attempt := s.step.attempt, srcMember := s.job.member, srcCore := core }

/-- REMOTE_SEND (R293): the oldest held operation leaves once every write issued before it is acknowledged; one for the module itself is applied at its die. -/
def execRemoteSend (core : Nat) (s : State) : Out :=
  if 384 ≤ core then .fault .noSuchPart else
  let c := s.core core
  match c.held with
  | [] => .next s
  | h :: t =>
    if h.fence.any fun g => c.cc.inFlight.any (·.tag = g) then .next s else
    let o := s.remoteOf core h
    let sent (s : State) := (s.onCore core fun c => { c with held := t }).bump (knotR .REMOTE_SENT_TOTAL (coreDie core)) 1
    let die := fld h.endpoint 14 14
    if fld h.endpoint 13 0 = s.job.member then
      let r := s.remoteArrive die o
      if r.2 then .next (sent r.1) else .next s
    else
      let s := sent s
      .next (s.send (.knot (fld h.endpoint 32 17) (fld h.endpoint 13 0) die o))

end Sys2Proof.Machine
end

