-- ==== Sys2Proof/Machine/Exchange.lean ====
section
/-! DEFINITION. Exact cells across the job (09 R252), the clip norms that return to the Capstans (08 R225), and the commands that start a record's work. -/

namespace Sys2Proof.Machine

/-- Members of this module's hank that take part in a record's group. -/
def State.cellMembers (s : State) (x : XRec) : List Nat :=
  if s.route.present then ((List.range s.route.hankSize).map (· + s.route.hankFirst)).filter (· < x.group) else [x.mem]

/-- The other hank managers of a record's group. -/
def State.cellPeers (s : State) (x : XRec) : List Nat :=
  if s.route.present then ((s.route.dests s.route.peerMgrRoute).filter fun m => decide (m < x.group) && decide (m ≠ x.mem)) else []

/-- The module is a manager (13 R354). -/
def State.isManager (s : State) : Bool := decide (1 ≤ s.job.role)

/-- Cells that a CELL record combines. -/
def XRec.cellCount (x : XRec) : Nat := if x.cellIn then x.elems else 1

/-- Combination state of a CELL record. -/
def Whip.cellOf (w : Whip) (i : Nat) : CellJob := (w.cells.find? fun j => j.rcd = i).getD { rcd := i }
/-- Stores a combination state. -/
def Whip.putCell (w : Whip) (j : CellJob) : Whip := { w with cells := j :: w.cells.filter fun k => k.rcd ≠ j.rcd }
/-- Applies a function to a combination state. -/
def State.onCell (s : State) (d i : Nat) (f : CellJob → CellJob) : State := s.setWhip d ((s.whip d).putCell (f ((s.whip d).cellOf i)))

/-- Adds a piece of cells at its place. -/
def addPiece (n : Nat) (l : List XCell) (first : Nat) (cs : List XCell) : List XCell :=
  addCells (addCells (List.replicate n ({ } : XCell)) l) (List.replicate first ({ } : XCell) ++ cs)

/-- Every sender's pieces are in. -/
def pieceDone (n : Nat) (got : List (Nat × Nat × Nat)) (from_ : List Nat) : Bool :=
  from_.all fun m => decide (n ≤ ((got.filter fun g => g.1 = m).map fun g => g.2.2).sum)

/-- Sends a record's cells to a member, at most 975 to a message (13 R348). -/
def State.cellSend (s : State) (d : Nat) (x : XRec) (i leg route dest : Nat) (cs : List XCell) : State :=
  ((piecesOf 975 (cs.length + 1) cs).zipIdx).foldl (fun s p =>
    let h := s.fragHead x i 5 0 (975 * p.2) p.1.length 0 []
    let s := (s.bump (whipR .FRAG_SENT_TOTAL d) 1).bump (whipR .BYTES_SENT_TOTAL d) (32 + 64 * p.1.length)
    s.send (.cell route dest { h0 := h.h0, h1 := h.h1, h2 := h.h2, h3 := h.h3, leg := leg, cells := p.1.map XCell.toBytes })) s

/-- The result reaches the member: it waits for the Capstans or is written to OUT_BASE, and DONE_KNOT is tied (R252). None where the write must wait. -/
def State.cellDone (s : State) (d i : Nat) (x : XRec) (res : List XCell) : Option State :=
  let s := s.onCell d i fun j => { j with res := res, done := true }
  if x.cellIn then
    match s.ctxWrite (.die d) x.ctx x.outBase ((res.map XCell.toBytes).flatten) with
    | .error e => s.memFail (.whip d) 3 x.ctx e
    | .ok s => some (s.whipDone d i x)
  else some (s.whipDone d i x)

/-- A manager goes on once its hank's cells, and then every hank's, are in (R252). -/
def State.cellManage (s : State) (d i : Nat) (x : XRec) : Option State :=
  let n := x.cellCount
  let j := (s.whip d).cellOf i
  let s :=
    if !j.sentHank && pieceDone n j.hankGot (s.cellMembers x) then
      let s := s.onCell d i fun j => { j with sentHank := true, jobSum := addPiece n j.jobSum 0 j.hankSum, jobGot := (x.mem, 0, n) :: j.jobGot }
      (s.cellPeers x).foldl (fun s m => s.cellSend d x i 1 s.route.peerMgrRoute m j.hankSum) s
    else s
  let j := (s.whip d).cellOf i
  if j.sentHank && !j.done && pieceDone n j.jobGot (x.mem :: s.cellPeers x) then
    let s := ((s.cellMembers x).filter (· ≠ x.mem)).foldl (fun s m => s.cellSend d x i 2 s.route.memberRoute m j.jobSum) s
    s.cellDone d i x j.jobSum
  else some s

/-- The module's own cells are formed: they go to the manager, or into the manager's own sum (R252). -/
def State.cellMine (s : State) (d i : Nat) (x : XRec) (cs : List XCell) : Option State :=
  let s := s.onCell d i fun j => { j with mine := true, own := cs }
  if s.isManager then
    (s.onCell d i fun j => { j with hankSum := addPiece x.cellCount j.hankSum 0 cs, hankGot := (x.mem, 0, x.cellCount) :: j.hankGot }).cellManage d i x
  else some (s.cellSend d x i 0 s.route.mgrRoute s.route.manager cs)

/-- Stacks whose Capstan has records of a clip group in ACTIVE contexts. -/
def State.groupStacks (s : State) (g : Nat) : List Nat :=
  (List.range 8).filter fun st => (s.cap st).recs.any fun p => p.1.clip = g && s.live p.1.ctx

/-- A Capstan hands complete group cells to the CELL records of die A's unit, those of S4–S7 by way of die B's (R225, R252). -/
def State.handGroups (s : State) (st : Nat) : State :=
  ((List.range 15).filter fun g => let c := s.cap st; !(c.ofGroup g).isEmpty && c.groupReady g && !c.handed.contains g).foldl (fun s g =>
    let cell := sget (s.cap st).cells {} g
    let s := s.onCap st fun c => { c with handed := g :: c.handed }
    (((s.whip 0).records.map xrec).zipIdx).foldl (fun s p =>
      let x := p.1
      if x.mode = 3 && !x.cellIn && x.site % 16 = g && s.whipOn x then
        let s := s.onCell 0 p.2 fun j => { j with capsIn := st :: j.capsIn, own := addPiece 1 j.own 0 [cell] }
        let j := (s.whip 0).cellOf p.2
        if !j.mine && (s.groupStacks g).all j.capsIn.contains then (s.cellMine 0 p.2 x j.own).getD s else s
      else s) s) s

/-- NORM_PASS (R224, R225). -/
def execNormPass (stack rcd : Nat) (s : State) : Out :=
  guardPart (decide (stack < 8) && decide (rcd < 4096)) <|
    match s.capRec? stack rcd with
    | none => s
    | some r =>
      let c := s.cap stack
      let first := c.recs.all fun p => p.1.clip = 15 || decide (rcd ≤ p.2) || c.normDone.contains p.2
      if !s.capOn r ∨ r.clip = 15 ∨ c.normDone.contains rcd ∨ !first then s else (s.normPass stack rcd r).handGroups stack

/-- CLIP_NORM (R225): the job-wide cell of a group returns to a Capstan, which forms the clip factor or marks the group vetoed. -/
def execClipNorm (stack group : Nat) (s : State) : Out :=
  guardPart (decide (stack < 8) && decide (group < 15)) <|
    let c := s.cap stack
    let job := (((s.whip 0).records.map xrec).zipIdx).find? fun p =>
      p.1.mode = 3 && !p.1.cellIn && p.1.site % 16 = group && ((s.whip 0).cellOf p.2).done
    match job with
    | none => s
    | some p =>
      if !s.entered || (sfind c.clip group).isSome then s else
      let cell := nth ((s.whip 0).cellOf p.2).res ({ } : XCell) 0
      let f := clipFactor cell ((nth c.groups 0 group).truncate 32)
      let s := if f.2 then s.bump (capR .CLIP_TOTAL stack) 1 else s
      s.onCap stack fun c => { c with clip := sset c.clip group f.1 }

/-- A CELL message that has come in (R247, R252); none where a write must wait. -/
def State.cellRecv (s : State) (die : Nat) (m : CellMsg) : Option State :=
  let f : FragMsg := { h0 := m.h0, h1 := m.h1, h2 := m.h2, h3 := m.h3, payload := [] }
  let i := fld m.h1 7 0
  let s := s.bump (whipR .FRAG_RECV_TOTAL die) 1
  if s.fragStale die f then some (s.whipStale die (fld m.h3 9 8)) else
  match s.xrec? die i with
  | none => some s
  | some x =>
    if x.mode ≠ 3 then some s else
    let n := x.cellCount
    let first := fld m.h1 31 8
    let cs := m.cells.map XCell.ofBytes
    let piece := (fld m.h1 46 32, first, cs.length)
    match m.leg with
    | 0 => (s.onCell die i fun j => { j with hankGot := piece :: j.hankGot, hankSum := addPiece n j.hankSum first cs }).cellManage die i x
    | 1 => (s.onCell die i fun j => { j with jobGot := piece :: j.jobGot, jobSum := addPiece n j.jobSum first cs }).cellManage die i x
    | _ =>
      let s := s.onCell die i fun j => { j with resGot := piece :: j.resGot, res := addPiece n j.res first cs }
      let j := (s.whip die).cellOf i
      if !j.done && decide (n ≤ (j.resGot.map fun g => g.2.2).sum) then s.cellDone die i x j.res else some s

/-- CELL. -/
def execCellMsg (die : Nat) (m : CellMsg) (s : State) : Out :=
  if 2 ≤ die then .fault .noSuchPart else .next (s.arrive (.cellMsg die m) fun s => s.cellRecv die m)

/-- A CELL record with CELL_SRC = 1 takes its cells from IN_BASE (R252). -/
def State.cellTake (s : State) (d i : Nat) (x : XRec) : Option State :=
  if ((s.whip d).cellOf i).mine then some s else
  match s.ctxRead (.die d) x.ctx x.inBase (64 * x.elems) with
  | .error e => s.memFail (.whip d) 3 x.ctx e
  | .ok bs => (s.ctxLoad (.die d) x.ctx x.inBase (64 * x.elems)).cellMine d i x ((chunks 64 (bs.length + 1) bs).map XCell.ofBytes)

/-- The next thing that a bucket's state allows: a compression and its sends, then FINAL; none where an access must wait. -/
def State.bucketGo (s : State) (d i b : Nat) (x : XRec) : Option State := do
  let ready := s.tilesAll d x b fun n => x.spec || n.accepted
  let s ← if !((s.whip d).txOf i b).sent && ready then s.bucketSend d i b x else some s
  s.bucketFinal d i b x

/-- BUCKET_COMPRESS (R242–R248): the bucket goes on as far as its state allows; while memory holds an access, nothing happens. On a BUCKET record the unit starts the rings that may start, and on a CELL record with CELL_SRC = 1 it takes its input cells. -/
def execBucketCompress (die rcd bucket : Nat) (s : State) : Out :=
  if 2 ≤ die ∨ 256 ≤ rcd then .fault .noSuchPart else
  match s.xrec? die rcd with
  | none => .next s
  | some x =>
    if !s.whipOn x then .next s
    else if x.mode = 3 then .next (if x.cellIn then (s.cellTake die rcd x).getD s else s)
    else if x.mode = 2 then .next (s.ringStart die rcd x)
    else if x.buckets ≤ bucket then .next s
    else .next ((s.bucketGo die rcd bucket x).getD s)

/-- Clears a whipping unit's progress at the start of a step. -/
def Whip.fresh (w : Whip) : Whip := { records := w.records }

/-- A record still has work in the step (R270): a bucket to send or write, a ring to end, cells to combine. Records of contexts that are not ACTIVE are skipped (15 R400). -/
def State.xrecBusy (s : State) (d i : Nat) (x : XRec) : Bool :=
  let w := s.whip d
  if !s.live x.ctx then false
  else if x.mode ≤ 1 then
    ((List.range x.buckets).any fun b => !(w.txOf i b).fin)
      || (!s.follows d x && ((s.xrecv d x).received x.mem).any fun b => !w.merged.contains (i, b))
  else !w.doneTied.contains i

/-- Every exchange has reached DONE_KNOT (R270). -/
def State.whipsDone (s : State) : Bool :=
  (List.range 2).all fun d => ((s.whip d).records.zipIdx).all fun p => !s.xrecBusy d p.2 (xrec p.1)

end Sys2Proof.Machine
end

