-- ==== Sys2Proof/Machine/Memory.lean ====
section
/-! DEFINITION. The memory system outside the cores' DMA: host accesses to the HBM window, the key-owner table, migration, retraining, patrol scrub, refresh (12 R306–R323, 15 R381, 17 R451–R454). -/

namespace Sys2Proof.Machine

/-- The host die can reach the module: powered, out of reset, firmware running (15 R381, 18 R465, R479). -/
def State.hostUp (s : State) : Bool := s.pwr.pwrGood && s.pwr.resetN && !s.pwr.inReset && s.sec.mode = 1

/-- A value returned to the host die. -/
def State.reply (s : State) (v : Nat) : State := { s with hostReply := s.hostReply ++ [v] }

/-- An access left without an answer until it is served or times out (R381). -/
def State.hold (s : State) (a : HostAccess) : State := { s with hostOut := s.hostOut ++ [a] }

/- Host accesses to the HBM window (R27, R28, R308, R317). -/

/-- Stack of a window byte after redirection. -/
def State.stackOf (s : State) (a : Nat) : Nat := let l := s.locate a; (s.redirect l.1 l.2).1 / 32

/-- Two accesses share a byte. -/
def accessMeets (a b : HostAccess) : Bool := decide (a.addr < b.addr + b.size) && decide (b.addr < a.addr + a.size)

/-- A host access of the window waits: memory holds it under the host die's regulator (R314, R315, R319, R378), or an earlier one that waits shares a byte with it (01 R28). -/
def State.hostWaits (s : State) (a : HostAccess) : Bool :=
  decide (a.addr + a.size ≤ hbmSize) && (s.accessHeld 4 a.write a.addr a.size || s.hostOut.any (accessMeets a))

/-- What a privileged read returns: a poisoned unit's 8-byte words read all ones (R317). -/
def State.hostBytes (s : State) (a n : Nat) : List Byte :=
  ((runsOf a n).map fun p => if s.poisoned p.1 p.2 then List.replicate p.2 (0xFF : Byte) else s.hbmRead p.1 p.2).flatten

/-- Raises MEM_POISON_HOST for every poisoned unit read. -/
def State.hostPoison (s : State) (a n : Nat) : State :=
  ((runsOf a n).filter fun p => s.poisoned p.1 p.2).foldl (fun s p => s.raise (.stack (s.stackOf p.1)) 5) s

/-- Serves a host access to the window, charged to the host die's regulator (R314). A write of part of a unit reads it first (R310, R317). -/
def State.hostHbm (s : State) (a : HostAccess) : State :=
  if hbmSize < a.addr + a.size then
    let s := s.decodeError a.write a.addr
    if a.write then s else s.reply 0
  else if a.write then
    let part := (runsOf a.addr a.size).filter fun p => p.2 ≠ 64
    ((part.foldl (fun s p => s.hostPoison p.1 p.2) s).charge 4 true a.addr a.size).hbmWrite a.addr (leBytes a.size a.data)
  else ((s.hostPoison a.addr a.size).charge 4 false a.addr a.size).reply (leNat (s.hostBytes a.addr a.size))

/-- HOST_HBM_ACCESS; `ecc` lists the errors met. An access waits while the HBM is not ready or memory holds it, and behind an earlier one to the same bytes. -/
def execHostHbmAccess (a : HostAccess) (ecc : List EccEvent) (s : State) : Out :=
  .next <|
    if 2 ^ 39 ≤ a.addr then s
    else if !s.hostUp || !s.pwr.hbmReady || s.hostWaits a then s.hold a
    else (s.eccEvents ecc).hostHbm a

/-- Serves the held window accesses that may go, in order (R28). -/
def State.serveHeld (s : State) : State :=
  if !s.hostUp || !s.pwr.hbmReady then s
  else s.hostOut.foldl (fun s a => if decide (2 ^ 39 ≤ a.addr) || s.hostWaits a then s.hold a else s.hostHbm a) { s with hostOut := [] }

/-- HOST_ACCESS_TIMEOUT (R381): the oldest unanswered access completes with all ones, or is discarded if a write. -/
def execHostAccessTimeout (s : State) : Out :=
  .next <| match s.hostOut with
    | [] => s
    | a :: t =>
      let s := { s with hostOut := t }
      if a.write then s else s.reply (2 ^ (8 * a.size) - 1)

/- The key-owner table (17 R452–R454). -/

/-- Window pages that a context's table maps with VALID = 1 (15 R396); the host region belongs to no context (12 R312, 15 R399, 17 R452). -/
def State.ctxPages (s : State) (c : Nat) : List Nat :=
  let pt := fld (s.reg (rid .CTX_PT .module c)) 47 0
  ((List.range (fld (s.reg (rid .CTX_PAGES .module c)) 17 0)).map fun i => w64 (s.hbmNat (pt + 8 * i) 8)).filterMap
    fun e => if bit e 0 && !s.inHostRegion (fld e 47 21 * 2 ^ 21) then some (fld e 47 21) else none

/-- Pages with their owners: those of every ACTIVE context. -/
def State.owners (s : State) : List (Nat × Nat) :=
  ((List.range 4).filter fun c => (s.ctx c).state = .active).flatMap fun c => (s.ctxPages c).map fun p => (p, c)

/-- A page that two ACTIVE contexts map: page, lower and higher context. -/
def ownerConflict (o : List (Nat × Nat)) : Option (Nat × Nat × Nat) :=
  (o.findSome? fun p => (o.find? fun q => q.1 = p.1 ∧ p.2 < q.2).map fun q => (p.1, p.2, q.2))

/-- Key of a context's pages; a context without an installed key stays under the host key. -/
def State.ctxKey (s : State) (c : Nat) : Nat := ((s.ctx c).key).getD 0

/-- A page's record with another key in force; none where it says nothing. -/
def PageKey.rekey (p : PageKey) (k : Nat) : Option PageKey :=
  if k = 0 ∧ p.base = 0 ∧ p.exc = [] then none else some { p with cur := k }

/-- Rebuilds the key-owner table (R452). A page mapped twice raises KEY_CONFLICT and leaves the table as it was (R453). The flag says whether the rebuild succeeded. -/
def State.keyRebuild (s : State) : State × Bool :=
  let o := s.owners
  match ownerConflict o with
  | some (p, lo, hi) =>
    let v := w64 (p + lo * 2 ^ 18 + hi * 2 ^ 20 + 2 ^ 63)
    ((s.setReg (rid .KEYSEL_STATUS .module) v).raise (.dieCtl 0) 19 lo v, false)
  | none =>
    let keyOf (p : Nat) : Nat := match o.find? fun q => q.1 = p with
      | some q => s.ctxKey q.2
      | none => 0
    let all := ((o.map Prod.fst) ++ s.mem.pages.map Prod.fst).eraseDups
    let pages := all.foldl (fun m p =>
      match ((sfind m p).getD ⟨0, 0, []⟩).rekey (keyOf p) with
      | some k => sset m p k
      | none => sdel m p) s.mem.pages
    let s := { s with mem := { s.mem with pages := pages } }
    (s.setRegFld (rid .KEYSEL_STATUS .module) 63 63 0, true)

/- Migration and retraining (R319–R323). -/

/-- Base-die register. -/
def stackR (n : RegName) (st : Nat) (i : Nat := 0) : RegId := rid n (.stack st) i

/-- A migration is active in the stack. -/
def State.migActive (s : State) (st : Nat) : Bool := bit (s.reg (rid .LAY_MIG .module st)) 63

/-- A migration request (R320). One accepted before an earlier accepted one has taken effect takes its place (DESIGN CHOICE, log 129). -/
def State.migRequest (s : State) (st src dst : Nat) : State :=
  let s := (s.setRegFld (stackR .REPAIR_CTRL st) 4 0 src).setRegFld (stackR .REPAIR_CTRL st) 9 5 dst
  if s.chan (32 * st + src) ≠ .active ∨ s.chan (32 * st + dst) ≠ .spare ∨ s.migActive st then
    (s.setRegFld (stackR .REPAIR_CTRL st) 16 16 1).raise (.stack st) 6
  else { s with mem := { s.mem with migReq := sset s.mem.migReq st (src, dst) } }

/-- A retraining request for channel SRC (R319). -/
def State.retrainRequest (s : State) (st src : Nat) : State :=
  let s := s.setRegFld (stackR .REPAIR_CTRL st) 4 0 src
  let s := s.setRegFld (stackR .REPAIR_CTRL st) 10 10 1
  let c := 32 * st + src
  { s with mem := { s.mem with retrainReq := if s.mem.retrainReq.contains c then s.mem.retrainReq else s.mem.retrainReq ++ [c] } }

/-- A write of REPAIR_CTRL: ones clear MIG_DONE and REQUEST_REFUSED; with RETRAIN it requests retraining; otherwise, and if it clears nothing, it requests a migration (R320). -/
def State.repairWrite (s : State) (st : Nat) (v : W64) : State :=
  let clr := bit v 16 || bit v 17
  let s := if bit v 16 then s.setRegFld (stackR .REPAIR_CTRL st) 16 16 0 else s
  let s := if bit v 17 then s.setRegFld (stackR .REPAIR_CTRL st) 17 17 0 else s
  if bit v 10 then s.retrainRequest st (fld v 4 0)
  else if clr then s
  else s.migRequest st (fld v 4 0) (fld v 9 5)

/-- MIGRATION_REQUEST. -/
def execMigrationRequest (stack : Nat) (value : W64) (s : State) : Out :=
  guardPart (decide (stack < 8)) (s.migRequest stack (fld value 4 0) (fld value 9 5))
/-- RETRAIN. -/
def execRetrain (stack src : Nat) (s : State) : Out :=
  guardPart (decide (stack < 8) && decide (src < 32)) (s.retrainRequest stack src)

/-- Copies `n` bytes of one channel to another, from byte `b` (R321). -/
def copyChan (m : List Host.Cell) (src dst b n : Nat) : List Host.Cell :=
  let lo := chanKey src b
  let to_ := chanKey dst b
  let keep := m.filter fun p => !(decide (to_ ≤ p.1) && decide (p.1 < to_ + n))
  (m.filter fun p => decide (lo ≤ p.1) && decide (p.1 < lo + n)).foldl (fun acc p => memSet acc (to_ + (p.1 - lo)) p.2) keep

/-- Copies the poison of a channel range (R317). -/
def copyPoison (l : List Nat) (src dst b n : Nat) : List Nat :=
  let lo := unitOf src b
  let to_ := unitOf dst b
  let k := n / 64
  (l.filter fun u => !(decide (to_ ≤ u) && decide (u < to_ + k))) ++
    (l.filter fun u => decide (lo ≤ u) && decide (u < lo + k)).map fun u => to_ + (u - lo)

/-- MIGRATION_CHUNK (R321): the chunk at the watermark is copied and committed, at one token for each burst copied, as the rule's figures count them (R314). It waits where the repair regulator grants nothing, and while one of its channels is retrained (R319). -/
def execMigrationChunk (stack : Nat) (s : State) : Out :=
  guardPart (decide (stack < 8)) <|
    let w := s.reg (rid .LAY_MIG .module stack)
    let wm := fld w 30 10
    let src := 32 * stack + fld w 4 0
    let dst := 32 * stack + fld w 9 5
    if !bit w 63 || decide (2 ^ 20 ≤ wm) || s.regBlocked stack 6 || s.stackDown stack || s.mem.retraining.contains src || s.mem.retraining.contains dst then s else
    let b := wm * 2048
    let n := 64 * 2048
    let s := { s with hbm := copyChan s.hbm src dst b n, poison := copyPoison s.poison src dst b n }
    let s := (s.bump (stackR .CH_BURST_TOTAL stack (fld w 4 0)) 256).bump (stackR .CH_BURST_TOTAL stack (fld w 9 5)) 256
    (s.takeTokens stack 6 256).setRegFld (rid .LAY_MIG .module stack) 30 10 (wm + 64)

/-- Completion of a migration in a slot (R323). -/
def State.migComplete (s : State) (st : Nat) : State :=
  let w := s.reg (rid .LAY_MIG .module st)
  let src := 32 * st + fld w 4 0
  let dst := 32 * st + fld w 9 5
  let es := (List.range 3840).filter fun e => s.layEntry e = src
  let m := { s.mem with lay := es.foldl (fun m e => sset m e dst) s.mem.lay
                        chans := sset (sset s.mem.chans src .failed) dst .active }
  let s := { s with mem := m }
  let s := (s.setReg (rid .LAY_MIG .module st) 0).setRegFld (stackR .REPAIR_CTRL st) 17 17 1
  s.raise (.stack st) 6

/-- PATROL_SCRUB (R317, R318): one scrub of the stack's active channels in full, 2^22 bursts of each, with the errors it meets; a unit already poisoned is not logged again. It waits where the repair regulator grants nothing, and while a channel is retrained (R319). Spread over its day the scrub finds a token for every burst (DESIGN CHOICE, log 123). -/
def execPatrolScrub (stack : Nat) (ecc : List EccEvent) (s : State) : Out :=
  guardPart (decide (stack < 8)) <|
    let act := (List.range 32).filter fun c => s.chan (32 * stack + c) = .active
    if s.regBlocked stack 6 || s.stackDown stack || act.any fun c => s.mem.retraining.contains (32 * stack + c) then s else
    let s := act.foldl (fun s c => s.bump (stackR .CH_BURST_TOTAL stack c) (2 ^ 22)) s
    let s := { s with mem := { s.mem with patrol := sset s.mem.patrol stack (sget s.mem.patrol 0 stack + 1) } }
    s.eccEvents (ecc.filter fun e => e.chan / 32 = stack && s.chan e.chan = .active
      && !(e.ue && s.poison.contains (e.chan * 2 ^ 25 + e.unit)))

/- Refresh (R311). -/

/-- *Refresh need* of a temperature in °C: 1×, 2× or 4×. -/
def refreshNeed (temp : Nat) : Nat := if temp < 85 then 0 else if temp < 95 then 1 else 2

/-- REFRESH_OVERRIDE: the temperature of the stack's hottest device changes; a need above the rate in force is applied at once, and no bound holds the rate then. -/
def execRefreshOverride (stack temp : Nat) (s : State) : Out :=
  guardPart (decide (stack < 8)) <|
    let need := refreshNeed temp
    let s := { s with mem := { s.mem with hot := sset s.mem.hot stack temp } }
    if need ≤ fld (s.reg (stackR .REFRESH_CTRL stack)) 5 4 then s
    else ((s.setRegFld (stackR .REFRESH_CTRL stack) 6 4 need).raise (.stack stack) 7).override

/-- Chooses every stack's refresh rate at an entry into ARMED (R311). -/
def State.refreshArm (s : State) : State :=
  (List.range 8).foldl (fun s st =>
    let r := s.reg (stackR .REFRESH_CTRL st)
    let need := refreshNeed (sget s.mem.hot 0 st)
    let rate := max (fld r 1 0) (min (fld r 3 2) need)
    let s := (s.setRegFld (stackR .REFRESH_CTRL st) 5 4 rate).setRegFld (stackR .REFRESH_CTRL st) 6 6 (b01 (decide (rate ≠ need)))
    if rate = need then s else s.bump (stackR .REFRESH_HELD_TOTAL st) 1) s

end Sys2Proof.Machine
end

