-- ==== Sys2Proof/Machine/Otp.lean ====
section
/-! DEFINITION. One-time-programmable arrays (17 R438–R443): words, lifecycle, versions, policies, repair records; and what a repair record does (01 R22, 12 R306, R325, 16 R414). -/

namespace Sys2Proof.Machine

/-- Applies a function to the security engine's state. -/
def State.onSec (s : State) (f : Sec → Sec) : State := { s with sec := f s.sec }

/-- Word w of die d's OTP; an unwritten word reads 0 (R441). -/
def Sec.word (x : Sec) (d w : Nat) : W64 := sget x.otp 0 (d * 4096 + w)

/-- The word has been written and fails its check. -/
def Sec.bad (x : Sec) (d w : Nat) : Bool := x.otpBad.contains (d * 4096 + w) && decide (x.word d w ≠ 0)

/-- Writes a word that is still blank; a written word keeps its value (R441). A word that fails once written is no longer blank, whatever was written. -/
def Sec.burn (x : Sec) (d w : Nat) (v : W64) : Sec :=
  if x.word d w = 0 then
    { x with otp := sset x.otp (d * 4096 + w) (if v = 0 ∧ x.otpBad.contains (d * 4096 + w) then BitVec.allOnes 64 else v) }
  else x

/-- A word reads back as just written. -/
def Sec.readsBack (x : Sec) (d w : Nat) (v : W64) : Bool := !x.bad d w && decide (x.word d w = v)

/-- Little-endian bytes of n OTP words of die A. -/
def Sec.bytes (x : Sec) (w n : Nat) : List Byte := ((List.range n).map fun i => leBytes 8 (x.word 0 (w + i)).toNat).flatten

/-- Committed lifecycle word (*OTP layout*). -/
def lifeWord : W64 := 0xA5A5A5A5A5A5A5A5

/-- Lifecycle state in OTP (R438). -/
def Sec.lifeOtp (x : Sec) : Nat := (List.range 4).countP fun i => x.readsBack 0 i lifeWord

/-- SVN in OTP: leading written words of the thermometer. -/
def Sec.svn (x : Sec) : Nat := ((List.range 64).takeWhile fun i => x.word 0 (0x40 + i) ≠ 0 && !x.bad 0 (0x40 + i)).length

/-- Device serial, 16 bytes. -/
def Sec.serial (x : Sec) : List Byte := x.bytes 0x80 2

/-- Words 0x030–0x033: written means revoked. -/
def Sec.revoked (x : Sec) (k : Nat) : Bool := x.word 0 (0x30 + k) ≠ 0 || x.bad 0 (0x30 + k)

/-- Ixvor firmware key hash k. -/
def Sec.ixvorHash (x : Sec) (k : Nat) : Nat := leNat (x.bytes (0x10 + 8 * k) 8)

/-- First word of policy generation g. -/
def polBase (g : Nat) : Nat := 0x400 + 64 * g

/-- The generation is committed and every word passes its check (R442). -/
def Sec.polGood (x : Sec) (g : Nat) : Bool :=
  decide (x.word 0 (polBase g + 63) = w64 (0x47454E5F4F4B0000 + g)) && (List.range 64).all fun i => !x.bad 0 (polBase g + i)

/-- The generation in force. -/
def Sec.polGen (x : Sec) : Option Nat := ((List.range 8).filter x.polGood).getLast?

/-- The generation's words all read 0. -/
def Sec.polBlank (x : Sec) (g : Nat) : Bool := (List.range 64).all fun i => decide (x.word 0 (polBase g + i) = 0)

/-- Word 32 of the policy in force; 0 when none is (no valid keys, REQUIRE_SIGNED 0). -/
def Sec.polFlags (x : Sec) : W64 := match x.polGen with
  | some g => x.word 0 (polBase g + 32)
  | none => 0

/-- Hash of customer key slot k of the policy in force, where the slot is in use. -/
def Sec.custHash (x : Sec) (k : Nat) : Option Nat := match x.polGen with
  | some g => if nbit (x.word 0 (polBase g + 32)).toNat k ∧ k < 4 then some (leNat (x.bytes (polBase g + 8 * k) 8)) else none
  | none => none

/-- JTAG reaches more than the boundary-scan instructions (R438, R440): in BLANK, TEST and RMA, and in PRODUCTION while unlocked. -/
def Sec.jtagOpen (x : Sec) : Bool := decide (x.lifecycle < 2) || decide (x.lifecycle = 3) || (decide (x.lifecycle = 2) && x.debug)

/- Identity (R444). -/

/-- ASCII of a label. -/
def ascii (l : String) : List Byte := l.toList.map fun c => BitVec.ofNat 8 c.toNat

/-- The unique device secret; zero bits in RMA (R438). -/
def Sec.uds (x : Sec) : List Byte := if x.lifecycle = 3 then leBytes 32 0 else x.bytes 0x100 4

/-- cdi0. -/
def Sec.cdi0 (x : Sec) : List Byte := hmac x.uds (ascii "FX3-CDI0" ++ leBytes 1 x.lifecycle)

/-- cdi1. -/
def Sec.cdi1 (x : Sec) : List Byte := hmac x.cdi0 (leBytes 64 x.fwDigest.toNat ++ leBytes 1 x.fwSvn ++ leBytes 1 (b01 x.debug))

/-- key(c, l). -/
def Sec.keyOf (x : Sec) (c : List Byte) (l : String) : Nat := beNat (hkdf c x.serial (ascii l) 80) % p521Order1 + 1

/-- The DeviceID private key. -/
def Sec.devid (x : Sec) : Nat := x.keyOf x.cdi0 "DEVICEID"
/-- The Alias private key. -/
def Sec.alias_ (x : Sec) : Nat := x.keyOf x.cdi1 "ALIAS"

/- Repair records (R443). -/

/-- First word of repair pair i. -/
def pairBase (i : Nat) : Nat := 0x600 + 2 * i

/-- A valid pair: the commit word is the complement of the payload. -/
def Sec.pairValid (x : Sec) (d i : Nat) : Bool :=
  !x.bad d (pairBase i) && !x.bad d (pairBase i + 1) && decide (x.word d (pairBase i + 1) = ~~~(x.word d (pairBase i)))

/-- A blank pair: both words read 0. -/
def Sec.pairBlank (x : Sec) (d i : Nat) : Bool :=
  decide (x.word d (pairBase i) = 0) && decide (x.word d (pairBase i + 1) = 0)

/-- Blank pairs of a die. -/
def Sec.pairsFree (x : Sec) (d : Nat) : Nat := (List.range 1280).countP (x.pairBlank d)

/-- OTP_COUNT: valid pairs in both dies (R422). -/
def Sec.otpCount (x : Sec) : Nat := (List.range 1280).countP (x.pairValid 0) + (List.range 1280).countP (x.pairValid 1)

/-- *Repair payload*. -/
def Repair.payload (r : Repair) : W64 := w64 (r.kind % 256 + r.unit % 256 * 2 ^ 8 + r.old % 2 ^ 16 * 2 ^ 16 + r.new % 2 ^ 16 * 2 ^ 32)

/-- A repair payload's fields. -/
def repairOf (w : W64) : Repair := { kind := fld w 7 0, unit := fld w 15 8, old := fld w 31 16, new := fld w 47 32 }

/-- Die whose OTP holds a repair of a stack. -/
def stackDie (st : Nat) : Nat := st / 4

/-- Writes a pair into the first of the listed pairs that reads back; each that does not is abandoned with OTP_CHECK_FAIL. The flag is false when none is left, which raises OTP_FULL. -/
def State.otpPairs (s : State) (d : Nat) (v : W64) : List Nat → State × Bool
  | [] => (s.raise (.dieCtl 0) 18, false)
  | i :: t =>
    let s1 := s.onSec fun x => x.burn d (pairBase i) v
    if !s1.sec.readsBack d (pairBase i) v then (s1.raise (.dieCtl 0) 17).otpPairs d v t
    else
      let s2 := s1.onSec fun x => x.burn d (pairBase i + 1) (~~~v)
      if s2.sec.readsBack d (pairBase i + 1) (~~~v) then (s2, true)
      else (s2.raise (.dieCtl 0) 17).otpPairs d v t

/-- Records a repair in a die's OTP. -/
def State.otpRecord (s : State) (d : Nat) (r : Repair) : State × Bool :=
  s.otpPairs d r.payload ((List.range 1280).filter (s.sec.pairBlank d))

/- What repairs do. -/

/-- Sets a CLUSTER_MAP entry. -/
def State.setMap (s : State) (d l : Nat) (v : W64) : State := { s with clusterMap := sset s.clusterMap (d * 24 + l) v }

/-- The physical cluster of the die that no logical cluster uses. -/
def State.spareCluster (s : State) (d : Nat) : Nat :=
  ((List.range 25).find? fun p => !((List.range 24).any fun l => fld (s.clusterEntry d l) 4 0 = p)).getD 24

/-- The physical core of a logical cluster that no logical core uses. -/
def State.spareCore (s : State) (d l : Nat) : Nat :=
  ((List.range 9).find? fun p => !((List.range 8).any fun k => fld (s.clusterEntry d l) (11 + 4 * k) (8 + 4 * k) = p)).getD 8

/-- Puts physical core `new` in the place of `old` in a map entry. -/
def mapCore (e : W64) (old new : Nat) : W64 :=
  (List.range 8).foldl (fun (v : W64) k => if fld e (11 + 4 * k) (8 + 4 * k) = old then setFld v (11 + 4 * k) (8 + 4 * k) new else v) e

/-- Marks physical cluster p's spare core as used. -/
def State.useCoreSpare (s : State) (d p : Nat) : State := s.setRegFld (rid .REL_STATUS (.dieCtl d)) (31 + p) (31 + p) 1

/-- SCR_BANK_SPARE of a core with a bank moved to spare n (R325). -/
def State.moveBank (s : State) (core bank n : Nat) : State :=
  let id := coreR .SCR_BANK_SPARE core
  if n = 0 then (s.setRegFld id 4 0 bank).setRegFld id 5 5 1 else (s.setRegFld id 10 6 bank).setRegFld id 11 11 1

/-- Takes a lane out of a link: the spare carries its traffic (13 R341). -/
def State.moveLane (s : State) (h old new : Nat) : State :=
  let id := rid .LANE_CTRL (.link h)
  ((s.setRegFld id (14 + old) (14 + old) 1).setRegFld id (19 + old) (19 + old) 0).setRegFld id 13 11 (if new < 5 then 7 else fld (s.reg id) 13 11)

/-- Marks a channel of a stack as failed. -/
def State.failChannel (s : State) (st c : Nat) : State := { s with mem := { s.mem with chans := sset s.mem.chans (32 * st + c % 32) .failed } }

/-- Power-on of a stack's channels: the 30 lowest-numbered that have not failed are active, the rest spares (12 R306), and lay entries name them in that order (R307). A stack with fewer than 30 is failed. -/
def State.powerStack (s : State) (st : Nat) : State :=
  let up := (List.range 32).filter fun c => s.chan (32 * st + c) ≠ .failed
  if up.length = 32 then s
  else if up.length < 30 then { s with stackReset := sset s.stackReset st 1 }
  else
    let chans := up.zipIdx.foldl (fun (m : SMap ChanState) (p : Nat × Nat) => sset m (32 * st + p.1) (if p.2 < 30 then .active else .spare)) s.mem.chans
    { s with mem := { s.mem with chans := chans, lay := (List.range 480).foldl (fun (m : SMap Nat) j => sset m (st + 8 * j) (32 * st + nth up 0 (j % 30))) s.mem.lay } }

/-- A repair of journal kind 0x01–0x08 or 0x0B takes effect on die d at power-on or in a slot (R443, *Repair visibility*). UNIT of a core, cluster or bank is the logical cluster; OLD of a bank is core × 32 + bank. A cluster brought in runs on its cores 0–7. -/
def State.applyRepair (s : State) (d : Nat) (r : Repair) : State :=
  match r.kind with
  | 1 =>
    let e := s.clusterEntry d r.unit
    (s.setMap d r.unit (mapCore e r.old r.new)).useCoreSpare d (fld e 4 0)
  | 2 => (s.setMap d r.unit (w64 (r.new + 0x7654321000))).setRegFld (rid .REL_STATUS (.dieCtl d)) 30 30 1
  | 3 => s.moveBank (d * 192 + r.unit * 8 + r.old / 32) (r.old % 32) r.new
  | 4 => s.onRel d fun x => { x with cells := sset x.cells r.old r.new, cellsUsed := max x.cellsUsed (r.new + 1) }
  | 5 => s.failChannel r.unit r.old
  | 6 => s.moveLane r.unit r.old r.new
  | 8 => { s with mem := { s.mem with retired := s.mem.retired ++ [r.unit * 32 + r.old] } }
  | 0x0B =>
    let left := fld (s.reg (rid .PHASE_STATUS .module)) 63 60
    (s.setRegFld (rid .PHASE_STATUS .module) r.old r.old 1).setRegFld (rid .PHASE_STATUS .module) 63 60 (left - 1)
  | _ => s

/-- The valid pairs of both dies, in word order, applied at power-on; then, after a reset that kept power, the repairs that OTP does not hold and that stay in force until power is lost (16 R416); then the channels of each stack. -/
def State.applyOtp (s : State) : State :=
  (List.range 8).foldl State.powerStack
    ([0, 1].foldl (fun s d =>
      let s := ((List.range 1280).filter (s.sec.pairValid d)).foldl (fun s i => s.applyRepair d (repairOf (s.sec.word d (pairBase i)))) s
      ((s.dieRel d).volatile ++ (s.dieRel d).toOtp).foldl (fun s r => s.applyRepair d r) s) s)

end Sys2Proof.Machine
end

