-- ==== Sys2Proof/Machine/Views.lean ====
section
/-! DEFINITION. Status registers that are formed from the units' state when they are read (00 R12, and the register tables of every chapter), and the interrupt tree (15 R383). -/

namespace Sys2Proof.Machine

/-- Bits of `n` positions where a test holds. -/
def maskOf (n : Nat) (f : Nat → Bool) : Nat := bitmap ((List.range n).filter f)

/- The interrupt tree (15 R383). -/

/-- Enabled causes of a leaf block. -/
def State.leafBits (s : State) (p : Part) : Nat :=
  (s.reg (rid (leafOf p).status p) &&& s.reg (rid (leafOf p).enable p)).toNat

/-- The leaf block has an enabled STATUS bit of group g set. -/
def State.leafPend (s : State) (p : Part) (g : Nat) : Bool :=
  (bitsSet 32 (s.leafBits p)).any fun b => (causeGroup (leafOf p) b).num = g

/-- CLUSTER_IRQ[g]. -/
def State.clusterIrq (s : State) (d c g : Nat) : Nat :=
  maskOf 8 (fun k => s.leafPend (.core (d * 192 + c * 8 + k)) g) + b01 (s.leafPend (.cluster d c) g) * 2 ^ 8

/-- DIE_IRQ_GROUP[g]. -/
def State.dieGroup (s : State) (d g : Nat) : Nat :=
  maskOf 24 (fun c => s.clusterIrq d c g ≠ 0) + b01 (s.leafPend (.dieCtl d) g) * 2 ^ 24 + b01 (s.leafPend (.whip d) g) * 2 ^ 25
    + b01 (decide (d = 0) && s.leafPend .module g) * 2 ^ 26 + b01 (s.leafPend (.knotStore d) g) * 2 ^ 27
    + maskOf 4 (fun j => s.leafPend (.stack (4 * d + j)) g) * 2 ^ 28 + maskOf 20 (fun j => s.leafPend (.link (20 * d + j)) g) * 2 ^ 32

/-- DIE_IRQ_SUMMARY. -/
def State.dieSummary (s : State) (d : Nat) : Nat := maskOf 8 fun g => s.dieGroup d g ≠ 0

/-- A die's interrupt line. -/
def State.dieLine (s : State) (d : Nat) : Bool :=
  (w64 (s.dieSummary d) &&& s.reg (rid .DIE_IRQ_LINE_EN (.dieCtl d))) ≠ 0

/-- MOD_IRQ_SUMMARY. -/
def State.modSummary (s : State) : Nat :=
  b01 (s.dieLine 0) + 2 * b01 (s.dieLine 1) + (s.dieSummary 0 ||| s.dieSummary 1) * 2 ^ 8

/- Cores. -/

/-- CC_STATUS. -/
def Core.ccStatus (c : Core) : Nat := c.cc.pc % 2 ^ 14 + c.cc.inFlight.length * 2 ^ 24 + c.cc.waiting * 2 ^ 32

/-- PLY_STATUS of ply p: the operation in its slot 0 gives the rope role. -/
def Core.plyStatus (c : Core) (p : Nat) : Nat :=
  let y := nth c.plies {} p
  let w0 (m : OpMsg) : W64 := nth m.words 0 0
  let runs := y.slots.filterMap (·.run)
  let packed := runs.any fun r => fld (w0 r.msg) 3 0 = 2
  let rope := ((runs.head?).map fun r => fld (w0 r.msg) 5 4).getD 0
  let out := ((c.qnt.ports)[0]?.getD []).any fun q => q.plies.contains p
  y.queue.length + b01 (runs.any fun r => !r.done) * 2 ^ 6 + b01 out * 2 ^ 7
    + b01 (y.slots.any fun l => l.held.isSome) * 2 ^ 8 + rope * 2 ^ 9 + b01 packed * 2 ^ 11
    + (if packed then maskOf 4 fun q => (nth y.slots {} q).run.isSome else 0) * 2 ^ 12

/-- QNT_STATUS. -/
def Core.qntStatus (c : Core) : Nat :=
  maskOf 4 (fun p => !(nth c.qnt.ports [] p).isEmpty) + maskOf 4 (fun p => nth c.qnt.stalled false p) * 2 ^ 4

/-- EC_STATUS. -/
def Core.ecStatus (c : Core) : Nat :=
  c.ec.guards.countP (fun g => !g.chain.isEmpty && !g.decided) + b01 (c.ec.guards.any fun g => g.reissued && !g.readOut) * 2 ^ 14

/-- VEC_STATUS. -/
def Core.vecStatus (c : Core) : Nat :=
  maskOf 16 (fun t => (sget c.vec.strands {} t).launch.isSome) + c.vec.queued * 2 ^ 16

/-- STRAND_PC. -/
def Core.strandPc (c : Core) (t : Nat) : Nat :=
  let x := sget c.vec.strands {} t
  x.pc % 2 ^ 13 + b01 x.launch.isSome * 2 ^ 13

/-- DMA_STATUS. -/
def Core.dmaStatus (c : Core) : Nat := c.dma.countP (fun r => !r.walked) + b01 (c.dma.any (·.walked)) * 2 ^ 4

/-- WAITING code of a pending knot operation. -/
def KOp.waiting : KOp → Nat
  | .wait => 1
  | .waitclr => 2
  | .take => 3
  | .tie => 4
  | .untie => 4

/-- KS_STATUS of a core's knot station. -/
def State.ksStatus (s : State) (n : Nat) : Nat :=
  let held := (s.core n).held.length * 2 ^ 16
  match (s.knot (coreDie n)).pend.find? fun p => p.src = .core n with
  | some p => p.knot % 2 ^ 12 + p.op.waiting * 2 ^ 12 + held
  | none => held

/-- EC_LAYER_STATE. -/
def EcLayer.stateWord (l : EcLayer) : Nat :=
  l.rung % 4 + l.ceil % 4 * 2 ^ 2 + b01 l.held * 2 ^ 4 + l.storm % 256 * 2 ^ 8 + l.calm % 256 * 2 ^ 16
    + min l.slackLast (2 ^ 24 - 1) * 2 ^ 24 + b01 l.overLast * 2 ^ 48

/-- EC_LAYER_BOUND. -/
def EcLayer.boundWord (l : EcLayer) : Nat := l.mode % 2 + l.start % 4 * 2 + l.ceil % 4 * 2 ^ 3

/-- Lines of a keep ring held by unreleased entries. -/
def Core.keepHeld (c : Core) (r : Nat) : Nat := ((c.qnt.keeps.filter fun k => k.ring = r).map (·.lines)).sum

/- Units of the dies, stacks and the module. -/

/-- CAP_STATUS: the pass the Capstan is in (08 R213) and its record. -/
def State.capStatus (s : State) (st : Nat) : Nat :=
  let c := s.cap st
  if !s.entered then 0 else
  let first (f : CapRec × Nat → Bool) : Option Nat := (c.recs.find? f).map Prod.snd
  match first fun p => p.1.clip ≠ 15 && !c.normDone.contains p.2 with
  | some i => i + 1 * 2 ^ 12
  | none =>
    match first fun p => p.1.clip = 15 && !c.updDone.contains p.2 with
    | some i => i + 2 * 2 ^ 12
    | none =>
      match first fun p => p.1.clip ≠ 15 && !c.updDone.contains p.2 with
      | none => 0
      | some i =>
        let ready := match c.recs.find? fun p => p.2 = i with
          | some p => (sfind c.clip p.1.clip).isSome
          | none => false
        i + (if ready then 4 else 3) * 2 ^ 12

/-- WH_STATUS: the lowest record with work outstanding. Merges and compressions are whole commands, so none is ever seen in progress. -/
def State.whStatus (s : State) (d : Nat) : Nat :=
  if !s.entered then 0
  else (((s.whip d).records.zipIdx.find? fun p => s.xrecBusy d p.2 (xrec p.1)).map Prod.snd).getD 0

/-- KNOT_PEEK of the knot selected. -/
def State.knotPeek (s : State) (d : Nat) : Nat :=
  let sel := s.reg (rid .KNOT_PEEK_SEL (.knotStore d))
  let e := s.knotEntry d (fld sel 13 12) (fld sel 11 0)
  let ph := kPhys e
  if !kValid e then 0
  else b01 (s.isTied d ph) + 2 + min 255 ((s.knot d).pend.countP fun p => p.phys = ph) * 2 ^ 8

/-- CH_STATUS of channel c of a stack. -/
def State.chStatus (s : State) (st c : Nat) : Nat :=
  let w := s.reg (rid .LAY_MIG .module st)
  let code := match s.chan (32 * st + c) with
    | .active => 0
    | .spare => 1
    | .failed => 2
  code + b01 (bit w 63 && (decide (fld w 4 0 = c) || decide (fld w 9 5 = c))) * 2 ^ 2
    + b01 (s.mem.retraining.contains (32 * st + c)) * 2 ^ 3

/-- STEP_STATUS.STATE. -/
def StepState.code : StepState → Nat
  | .held => 0
  | .armed => 1
  | .running => 2
  | .draining => 3
  | .committing => 4
  | .maintenance => 5

/-- STEP_STATUS. -/
def State.stepStatus (s : State) : Nat :=
  s.step.state.code + b01 s.step.imageValid * 2 ^ 4 + b01 s.step.faultHeld * 2 ^ 5 + b01 s.load.isSome * 2 ^ 6 + s.step.attempt * 2 ^ 16

/-- HANK_STATUS. -/
def State.hankStatus (s : State) : Nat :=
  s.job.role % 4 + b01 s.route.standby * 2 ^ 2 + s.route.hank % 128 * 2 ^ 11 + s.job.member % 2 ^ 14 * 2 ^ 18 + s.route.slotId % 2 ^ 15 * 2 ^ 32

/-- A plan entry applies to a step (*Plan entry*). -/
def PlanEntry.lists (p : PlanEntry) (step : Nat) : Bool :=
  decide (((step : Int) - (p.phase : Int)) % (max p.period 1 : Nat) = 0)

/-- Feeds of contexts that are ACTIVE (15 R400). -/
def State.feeds (s : State) : List PlanEntry := s.plan.feeds.filter fun p => s.live p.ctx

/-- A feed's knot on die A is tied (15 R390). -/
def State.feedTied (s : State) (p : PlanEntry) : Bool :=
  let e := s.knotEntry 0 p.ctx p.knot
  kValid e && s.isTied 0 (kPhys e)

/-- Feeds that the plan lists for the current step. -/
def State.feedsDue (s : State) : List PlanEntry := s.feeds.filter fun p => p.lists s.logline

/-- CTX_CTRL: STATE, GEN, LAST_GEN and REFUSED. -/
def State.ctxCtrl (s : State) (c : Nat) : Nat :=
  let x := s.ctx c
  let st := match x.state with
    | .free => 0
    | .active => 1
    | .draining => 2
    | .scrubbing => 3
  st + x.gen % 256 * 2 ^ 8 + x.lastGen % 256 * 2 ^ 16 + fld (s.reg (rid .CTX_CTRL .module c)) 34 34 * 2 ^ 34

/-- A message of the module's own for context c of which no flit has left yet (13 R348). -/
def TxMsg.opens (m : TxMsg) (c : Nat) : Bool := !m.begun && m.src.isNone && decide (bits (leNat ((m.bytes.drop 8).take 8)) 31 30 = c)

/-- Messages of context c that wait for a link. -/
def State.ctxMessages (s : State) (c : Nat) : Nat := (s.links.map fun p => (p.2.queues.map fun q => q.countP fun m => m.opens c).sum).sum

/-- CTX_DRAIN (15 R399): the context's DMA descriptors, messages not yet handed to a link, and Capstan records in progress. -/
def State.ctxDrain (s : State) (c : Nat) : Nat :=
  if (s.ctx c).state ≠ .draining then 0 else
  ((List.range 384).map fun n => if s.ctxOf n = c then (s.core n).dma.length + (s.core n).held.length else 0).sum
    + ((List.range 8).map fun st => match (s.cap st).mp with
        | some m => (match s.capRec? st m.rcd with | some r => b01 (decide (r.ctx = c)) | none => 0)
        | none => 0).sum
    + s.ctxMessages c

/-- OLDEST and PENDING of JOURNAL_STATUS. -/
def State.journalStatus (s : State) : Nat := s.journal.out.length + (s.journal.order.head?.getD 0) * 2 ^ 5

/-- The debug unlock, a pending advance and the lifecycle state (LIFECYCLE). -/
def State.lifecycleReg (s : State) : Nat :=
  s.sec.lifecycle + b01 (decide (s.sec.lifeOtp ≠ s.sec.lifecycle)) * 2 ^ 4 + b01 s.sec.debug * 2 ^ 5

/-- FW_STATUS. -/
def State.fwStatus (s : State) : Nat := s.sec.mode + s.sec.keySlot * 2 ^ 2 + s.sec.stage * 2 ^ 4 + s.sec.svn * 2 ^ 8

/-- OTP_STATUS. -/
def State.otpStatus (s : State) : Nat :=
  (match s.sec.polGen with | some g => g + 8 | none => 0) + ((List.range 8).countP s.sec.polBlank) * 2 ^ 4
    + s.sec.pairsFree 0 * 2 ^ 8 + s.sec.pairsFree 1 * 2 ^ 19

/-- PWR_STATUS.STATE (18 R465). Until the firmware runs the module is in RESET. -/
def State.pwrState (s : State) : Nat :=
  if !s.pwr.pwrGood then 0
  else if !s.pwr.resetN || s.pwr.inReset then 1
  else if s.sec.mode = 2 then 2
  else if s.sec.mode = 0 then 1
  else if s.entered then 4 else 3

/-- Input power in W. -/
def Power.pin (p : Power) : Nat := p.vin * p.iin / 1000000

/-- PWR_STATUS. -/
def State.pwrStatus (s : State) : Nat :=
  s.pwrState + s.pwr.vin % 2 ^ 16 * 2 ^ 16 + s.pwr.iin / 10 % 2 ^ 16 * 2 ^ 32 + s.pwr.pin % 2 ^ 16 * 2 ^ 48

/-- THERM_STATUS. -/
def State.thermStatus (s : State) : Nat :=
  b01 (nth s.pwr.thr 0 0 ≠ 0) + b01 (nth s.pwr.thr 0 1 ≠ 0) * 2 + nth s.pwr.dieTemp 0 0 % 256 * 2 ^ 32
    + nth s.pwr.dieTemp 0 1 % 256 * 2 ^ 40 + s.pwr.baseTemp % 256 * 2 ^ 48 + s.pwr.hostTemp % 256 * 2 ^ 56

/-- CLUSTER_MAP: the entry in force, and whether a spare is marked for it. -/
def State.mapReg (s : State) (d l : Nat) : Nat :=
  (s.clusterEntry d l).toNat + b01 ((s.dieRel d).marks.any fun m => m.kind ≤ 2 && m.unit = l) * 2 ^ 48

/-- Word i of a dump (*Dump header*, then the records); `valid` is DUMP_STATUS.VALID. -/
def Dump.word (u : Dump) (die : Nat) (valid : Bool) (i : Nat) : Nat :=
  let bytes := 8 * u.body.length
  if 512 ≤ i then (nth u.body 0 (i - 512)).toNat
  else match i with
    | 0 => 0x44554D50 + die * 2 ^ 32 + u.reason * 2 ^ 40 + u.attempt % 2 ^ 16 * 2 ^ 48
    | 1 => u.logline
    | 2 => u.time
    | 3 => bytes + u.records * 2 ^ 32
    | 4 => u.truncated + crc32 ((u.body.map fun w => leBytes 8 w.toNat).flatten) * 2 ^ 32
    | 511 => b01 valid
    | _ => 0

/-- DUMP_WINDOW. -/
def State.dumpWord (s : State) (d i : Nat) : Nat :=
  match (s.dieRel d).dump with
  | some u => u.word d (bit (s.reg (rid .DUMP_STATUS (.dieCtl d))) 63) i
  | none => 0

/-- Views of a core's registers. -/
def State.viewCore (s : State) (n : Nat) (r : RegName) (i : Nat) (raw : W64) : Nat :=
  let c := s.core n
  match r with
  | .CC_STATUS => c.ccStatus
  | .CC_SREG => (if i = 0 then 0 else (sget c.cc.sregs 0 i).toNat)
  | .QNT_STATUS => c.qntStatus
  | .KEEP_RING => (setFld raw 47 32 (fld raw 30 16 - c.keepHeld i)).toNat
  | .EC_STATUS => c.ecStatus
  | .EC_LAYER_STATE => (sget c.ec.layers {} i).stateWord
  | .EC_LAYER_BOUND => (sget c.ec.layers {} i).boundWord
  | .VEC_STATUS => c.vecStatus
  | .STRAND_PC => c.strandPc i
  | .DMA_STATUS => c.dmaStatus
  | .KS_STATUS => s.ksStatus n
  | _ => raw.toNat

/-- Views of a die controller's registers. -/
def State.viewDie (s : State) (d : Nat) (r : RegName) (i : Nat) (raw : W64) : Nat :=
  match r with
  | .DIE_IRQ_SUMMARY => s.dieSummary d
  | .DIE_IRQ_GROUP => s.dieGroup d i
  | .DUMP_WINDOW => s.dumpWord d i
  | .CLUSTER_MAP => s.mapReg d i
  | _ => raw.toNat

/-- Views of a base die's registers. -/
def State.viewStack (s : State) (st : Nat) (r : RegName) (i : Nat) (raw : W64) : Nat :=
  match r with
  | .CAP_STATUS => s.capStatus st
  | .CH_STATUS => s.chStatus st i
  | .REG => (setFld raw 47 32 (s.tokenUnits st i / 1600)).toNat
  | _ => raw.toNat

/-- Views of the module's registers. -/
def State.viewModule (s : State) (r : RegName) (i : Nat) (raw : W64) : Nat :=
  match r with
  | .MOD_IRQ_SUMMARY => s.modSummary
  | .STEP_STATUS => s.stepStatus
  | .HANK_STATUS => s.hankStatus
  | .LAY => s.layEntry i
  | .FEED_TIED => bitmap ((s.feeds.filter s.feedTied).map (·.id))
  | .FEED_DUE => if s.isHeld then 0 else bitmap (s.feedsDue.map (·.id))
  | .CTX_CTRL => s.ctxCtrl i
  | .CTX_DRAIN => s.ctxDrain i
  | .JOURNAL_STATUS => s.journalStatus
  | .JOURNAL_OUT => leNat (((sget s.journal.out [] (i / 64)).drop (i % 64 * 8)).take 8)
  | .LIFECYCLE => s.lifecycleReg
  | .FW_STATUS => s.fwStatus
  | .OTP_STATUS => s.otpStatus
  | .PWR_STATUS => s.pwrStatus
  | .THERM_STATUS => s.thermStatus
  | _ => raw.toNat

/-- Value of a register: formed from the units' state, or as stored. -/
def State.view (s : State) (id : RegId) : W64 :=
  let raw := s.reg id
  w64 <| match id.part with
    | .core n => s.viewCore n id.name id.idx raw
    | .ply n p => if id.name = .PLY_STATUS then (s.core n).plyStatus p else raw.toNat
    | .cluster d c => if id.name = .CLUSTER_IRQ then s.clusterIrq d c id.idx else raw.toNat
    | .dieCtl d => s.viewDie d id.name id.idx raw
    | .whip d => if id.name = .WH_STATUS then s.whStatus d else raw.toNat
    | .knotStore d =>
      (match id.name with
      | .KNOT_STATUS => (s.knot d).queue.length
      | .KNOT_PEEK => s.knotPeek d
      | .KNOT_XLATE => (sget (s.knot d).xlate 0 id.idx).toNat
      | .KNOT_ENDPOINT => (nth (s.knot d).endpoints 0 id.idx).toNat
      | _ => raw.toNat)
    | .stack st => s.viewStack st id.name id.idx raw
    | .module => s.viewModule id.name id.idx raw
    | .fabric _ => raw.toNat
    | .link _ => raw.toNat

/-- Mask of the bits that a register's table defines and that reads return: reserved and write-only bits read 0 (00 R11, R12). -/
def RegName.readMask (n : RegName) : Nat :=
  ((regDef n).fields.filter fun f => f.acc ≠ .wo).foldl (fun m f => m ||| (2 ^ (f.hi + 1) - 2 ^ f.lo)) 0

/-- What a read of a register returns. -/
def State.readReg (s : State) (id : RegId) : W64 := s.view id &&& w64 id.name.readMask

end Sys2Proof.Machine
end

