-- ==== Sys2Proof/Machine/Reliability.lean ====
section
/-! DEFINITION. Reliability (chapter 16): alerts, crash dumps, the repair journal, marks and spares, wear, tethers and reset escalation, scratch and knot-cell errors. -/

namespace Sys2Proof.Machine

/-- A chafe entry for a spare committed (source 8) or an escalation stage (source 9) (R419). -/
def State.chafeEvent (s : State) (d source cause pc pk index : Nat) (ctx : Nat := 0) : State :=
  s.chafe d (s.chafeWords source cause 4 pc pk index ctx 0)

/- Crash dumps (R421). -/

/-- A dump record: its header's unit kind, physical and logical identifiers and length, then its words. -/
def dumpRec (kind phys logical : Nat) (ws : List W64) : List W64 := [w64 kind, w64 phys, w64 logical, w64 (8 * ws.length)] ++ ws

/-- A core's dump record. -/
def State.dumpCore (s : State) (n : Nat) : List W64 :=
  let c := s.core n
  let p := s.physCore n
  let plies := (List.range 4).flatMap fun i => w64 (c.plyStatus i) :: ((nth c.plies {} i).queue.flatMap (·.words))
  dumpRec 0 (p.1 * 16 + p.2) n
    (((List.range 32).map fun i => s.view (coreR .CC_SREG n i)) ++ [w64 c.ccStatus] ++ plies
      ++ ((List.range 16).map fun t => w64 (c.strandPc t)) ++ (c.dma.flatMap fun r => r.msg.words) ++ [w64 (s.ksStatus n)])

/-- The newest 64 chafe entries of a die, newest first. -/
def State.dumpChafe (s : State) (d : Nat) : List W64 :=
  let h := fld (s.reg (dieR .CHAFE_HEAD d)) 8 0
  (List.range 64).flatMap fun i => (List.range 4).map fun j => s.reg (dieR .CHAFE d (4 * ((h + 512 - i) % 512) + j))

/-- Records that fit the 1 MiB less its header, and how many do not. -/
def dumpFit : List (List W64) → List W64 → Nat → Nat → List W64 × Nat × Nat
  | [], acc, n, cut => (acc, n, cut)
  | r :: t, acc, n, cut => if acc.length + r.length ≤ 130560 then dumpFit t (acc ++ r) (n + 1) cut else dumpFit t acc n (cut + 1)

/-- Takes a dump of the cores concerned, unless one is held: then the trigger is counted in MISSED. -/
def State.takeDump (s : State) (d reason : Nat) (cores : List Nat) : State :=
  let st := s.reg (dieR .DUMP_STATUS d)
  if bit st 63 then s.setRegFld (dieR .DUMP_STATUS d) 31 0 (min (fld st 31 0 + 1) (2 ^ 32 - 1)) else
  let die := dumpRec 2 d d ([RegName.REL_STATUS, .CHAFE_HEAD, .CHAFE_TAIL].map fun r => s.reg (dieR r d))
  let ctl := dumpRec 7 0 0 [w64 s.stepStatus, w64 s.logline, s.reg (modR .STEP_LIMIT)]
  let fit := dumpFit ([die, ctl] ++ cores.map s.dumpCore ++ [dumpRec 9 d d (s.dumpChafe d)]) [] 0 0
  let u : Dump := { reason := reason, attempt := s.step.attempt, logline := s.logline, time := s.clock
                    records := fit.2.1, truncated := fit.2.2, body := fit.1 }
  ((s.onRel d fun x => { x with dump := some u }).setRegFld (dieR .DUMP_STATUS d) 63 63 1).raise (.dieCtl d) 6

/-- A dump's records with those of cores (unit kind 0) as zeros of the same length (17 R457). -/
def redactCores : Nat → List W64 → List W64
  | 0, _ => []
  | _ + 1, [] => []
  | f + 1, k :: t =>
    let n := 3 + (nth t 0 2).toNat / 8
    (if k = 0 then List.replicate ((t.take n).length + 1) 0 else k :: t.take n) ++ redactCores f (t.drop n)

/-- What the board management controller reads over I3C of a die's chafe log, whether or not the module's registers answer (01 R29, 16 R420). -/
def State.boardChafe (s : State) (d i : Nat) : W64 := s.reg (dieR .CHAFE d i)

/-- What it reads of a die's crash dump (16 R421): with DUMP_REDACT = 1 the policy in force has core records read as zeros (17 R457). -/
def State.boardDump (s : State) (d i : Nat) : W64 :=
  match (s.dieRel d).dump with
  | some u =>
    if 512 ≤ i && bit s.sec.polFlags 5 then nth (redactCores u.records u.body) 0 (i - 512) else w64 (s.dumpWord d i)
  | none => 0

/-- TAKE_DUMP: DUMP_CTRL.TAKE, over the die's used cores. -/
def execTakeDump (die : Nat) (s : State) : Out :=
  guardPart (decide (die < 2)) (s.takeDump die 3 (s.job.used.filter fun n => coreDie n = die))
/-- RELEASE_DUMP: the VALID word clears. -/
def execReleaseDump (die : Nat) (s : State) : Out := guardPart (decide (die < 2)) (s.setRegFld (dieR .DUMP_STATUS die) 63 63 0)

/-- CHAFE_TAIL (R420): a write retires every unretired entry up to TAIL; one that names no unretired entry retires nothing. -/
def State.chafeRetire (s : State) (d : Nat) (value : W64) : State :=
  let h := fld (s.reg (dieR .CHAFE_HEAD d)) 8 0
  let t := fld (s.reg (dieR .CHAFE_TAIL d)) 8 0
  let v := fld value 8 0
  let used := s.chafeUsed d
  let n := if v = t ∧ used = 512 then 512 else (v + 512 - t) % 512
  if n = 0 ∨ used < n then s
  else (s.setReg (dieR .CHAFE_TAIL d) (w64 v)).setReg (dieR .CHAFE_HEAD d) (w64 h)
/-- CHAFE_TAIL. -/
def execChafeTail (die : Nat) (value : W64) (s : State) : Out := guardPart (decide (die < 2)) (s.chafeRetire die value)

/- The repair journal (R422–R424). -/

/-- Bytes of a SHA-512 digest. -/
def digestBytes (d : BitVec 512) : List Byte := leBytes 64 d.toNat

/-- Puts an entry into the lowest free outbox slot, else into the queue, else it is lost (R423). -/
def State.journalPut (s : State) (e : List Byte) : State :=
  let j := s.journal
  match (List.range 16).find? fun i => (sfind j.out i).isNone with
  | some i => ({ s with journal := { j with out := sset j.out i e, order := j.order ++ [i] } }).raise .module 12
  | none =>
    if j.queue.length < 64 then { s with journal := { j with queue := j.queue ++ [e] } }
    else ({ s with journal := { j with gap := true } }).raise .module 13

/-- Emits one entry on the chain as it stands; `at_` is the step and time of what it records (R422). -/
def State.journalEntry (s : State) (kind origin : Nat) (vol fresh : Bool) (at_ : Nat × Nat) (body : List Byte) : State :=
  let j := s.journal
  let flags := b01 vol + 2 * b01 fresh + 4 * b01 j.gap
  let head := leBytes 8 j.jseq ++ leBytes 2 kind ++ leBytes 1 origin ++ leBytes 1 flags ++ leBytes 4 s.sec.otpCount
    ++ leBytes 8 at_.1 ++ leBytes 8 at_.2 ++ leBytes 32 0 ++ padTo 128 body ++ digestBytes j.prev
  let dg := sha512 head
  let sg := ecdsaSign s.sec.devid dg
  let s := { s with journal := { j with jseq := j.jseq + 1, prev := dg, gap := false } }
  s.journalPut (head ++ padTo 66 sg.1 ++ padTo 66 sg.2 ++ leBytes 124 0)

/-- Restarts the chain at JSEQ 0, with an entry of KIND 0x0C and FRESH (R424). -/
def State.journalFresh (s : State) : State :=
  ({ s with journal := { s.journal with started := true, jseq := 0, prev := 0 } }).journalEntry 0x0C 0 false true (s.logline, s.clock) []

/-- Emits an entry; with no head yet, the chain restarts first. -/
def State.journalEmit (s : State) (kind origin : Nat) (vol : Bool) (at_ : Nat × Nat) (body : List Byte) : State :=
  let s := if s.journal.started then s else s.journalFresh
  s.journalEntry kind origin vol false at_ body

/-- BODY of a repair's entry: die, unit, identifier replaced, replacement. -/
def Repair.body (r : Repair) (d : Nat) : List Byte := leBytes 8 d ++ leBytes 8 r.unit ++ leBytes 8 r.old ++ leBytes 8 r.new

/-- JOURNAL_ACK: the slot is freed, and takes the oldest queued entry (R423). -/
def State.journalAck (s : State) (slot : Nat) : State :=
  let j := s.journal
  if (sfind j.out slot).isNone then s else
  let j : Journal := { j with out := sdel j.out slot, order := j.order.filter (· ≠ slot) }
  match j.queue with
  | [] => { s with journal := j }
  | e :: t => ({ s with journal := { j with out := sset j.out slot e, order := j.order ++ [slot], queue := t } }).raise .module 12
/-- JOURNAL_ACK. -/
def execJournalAck (slot : Nat) (s : State) : Out := .next (s.journalAck (slot % 32))

/-- JOURNAL_RESUME with RESUME = 1: the entry offered is accepted if this module's key verifies it and its OTP_COUNT is not above OTP's (R424). -/
def State.journalResume (s : State) (base : Nat) : State :=
  let e := s.hbmRead base 512
  let head := e.take 256
  let dg := sha512 head
  let ok := ecdsaVerify (publicKey s.sec.devid) dg ((e.drop 256).take 66) ((e.drop 322).take 66)
    && decide (leNat ((e.drop 12).take 4) ≤ s.sec.otpCount)
  if ok then
    ({ s with journal := { s.journal with started := true, jseq := leNat (e.take 8) + 1, prev := dg } }).journalEntry 0x0C 0 false false (s.logline, s.clock) []
  else s.journalFresh

/-- An accepted RESUME; none where its read must wait. -/
def State.resumeGo (s : State) (value : W64) : Option State :=
  let a := fld value 47 1 * 2
  if s.accessHeld 4 false a 512 then none else some ((s.charge 4 false a 512).journalResume a)

/-- A write of JOURNAL_RESUME, accepted only while HELD (R433). -/
def State.resumeWrite (s : State) (value : W64) : State :=
  if !s.isHeld then s.decodeError true 0x020000500010 else
  let s := s.setReg (modR .JOURNAL_RESUME) (setFld value 0 0 0)
  if bit value 0 then s.arrive (.journalResume value) fun s => s.resumeGo value else s
/-- JOURNAL_RESUME. -/
def execJournalResume (value : W64) (s : State) : Out := .next (s.resumeWrite value)

/-- A write of JOURNAL_SUBMIT: with SUBMIT = 1 the 128-byte body is signed as KIND 0x09. -/
def State.submitWrite (s : State) (value : W64) : State :=
  let s := s.setReg (modR .JOURNAL_SUBMIT) (setFld value 0 0 0)
  let a := fld value 47 1 * 2
  if bit value 0 then
    s.arrive (.journalSubmit value) fun s =>
      if s.accessHeld 4 false a 128 then none else some ((s.charge 4 false a 128).journalEmit 9 1 false (s.logline, s.clock) (s.hbmRead a 128))
  else s
/-- JOURNAL_SUBMIT. -/
def execJournalSubmit (value : W64) (s : State) : Out := .next (s.submitWrite value)

/- Marks and spares (R413, R414, R416, R417). -/

/-- SPARE_REQ (R417): fields that name nothing keep their values; VALID marks the core, or with CLUSTER the whole cluster, whatever CORE holds. -/
def State.spareReq (s : State) (d : Nat) (value : W64) : State :=
  let id := dieR .SPARE_REQ d
  let s := s.setRegFld id 12 12 (fld value 12 12)
  let s := if fld value 11 8 < 8 then s.setRegFld id 11 8 (fld value 11 8) else s
  let s := if fld value 4 0 < 24 then s.setRegFld id 4 0 (fld value 4 0) else s
  if !bit value 13 ∨ 24 ≤ fld value 4 0 then s
  else if bit value 12 then s.markCluster d (fld value 4 0)
  else if 8 ≤ fld value 11 8 then s
  else s.markCore d (fld value 4 0) (fld value 11 8)
/-- SPARE_REQ. -/
def execSpareReq (die : Nat) (value : W64) (s : State) : Out := guardPart (decide (die < 2)) (s.spareReq die value)

/-- A core's scratch holds nothing written (a core replaced, or its cluster's power cycled). -/
def State.wipeScratch (s : State) (n : Nat) : State :=
  { s with scratch := s.scratch.filter fun c => !(decide (n * scratchSize ≤ c.1) && decide (c.1 < (n + 1) * scratchSize)) }

/-- INDEX, PHYS_CLUSTER and PHYS_CORE that the log entry of a committed repair carries: the logical core served by a core, cluster (its first) or bank spare, else the unit. -/
def State.spareIndex (s : State) (d : Nat) (r : Repair) : Nat × Nat × Nat :=
  let first := d * 192 + r.unit * 8
  let at_ (n : Nat) : Nat × Nat × Nat := (n, (s.physCore n).1, (s.physCore n).2)
  match r.kind with
  | 1 => at_ (first + ((List.range 8).find? fun k => (s.physCore (first + k)).2 = r.new).getD 0)
  | 2 => at_ first
  | 3 => at_ (first + r.old / 32)
  | _ => (r.unit, 0, 0)

/-- A committed repair: it takes effect, is logged, and waits for its OTP record (R416, R419). -/
def State.commitRepair (s : State) (d : Nat) (r : Repair) : State :=
  let s := s.applyRepair d r
  let x := s.spareIndex d r
  let s := s.chafeEvent d 8 r.kind x.2.1 x.2.2 x.1
  s.onRel d fun x => { x with toOtp := x.toOtp ++ [{ r with step := s.logline, time := s.clock }] }

/-- Contexts for which clusters that satisfy a test have failed the die are clear of that failure (R413). -/
def State.clearFailed (s : State) (d : Nat) (f : Nat × Nat → Bool) : State :=
  let l := (s.dieRel d).failCtx.filter fun p => !f p
  (s.onRel d fun x => { x with failCtx := l }).setRegFld (dieR .REL_STATUS d) 63 60 (bitmap ((l.map Prod.snd).eraseDups))

/-- Brings in the spare of one mark. -/
def State.bringSpare (s : State) (d : Nat) (m : Mark) : State :=
  match m.kind with
  | 2 =>
    let old := fld (s.clusterEntry d m.unit) 4 0
    let s := s.commitRepair d { kind := 2, unit := m.unit, old := old, new := s.spareCluster d }
    let s := s.clearFailed d fun p => p.1 = old
    (List.range 8).foldl (fun s k => s.wipeScratch (d * 192 + m.unit * 8 + k)) s
  | 1 =>
    let e := s.clusterEntry d m.unit
    (s.commitRepair d { kind := 1, unit := m.unit, old := fld e (11 + 4 * m.part) (8 + 4 * m.part), new := s.spareCore d m.unit }).wipeScratch (d * 192 + m.unit * 8 + m.part)
  | 3 =>
    let r := s.reg (coreR .SCR_BANK_SPARE (d * 192 + m.unit * 8 + m.part / 32))
    s.commitRepair d { kind := 3, unit := m.unit, old := m.part, new := b01 (bit r 5) }
  | 4 => s.commitRepair d { kind := 4, unit := d, old := m.part, new := (s.dieRel d).cellsUsed }
  | _ => s.commitRepair d { kind := m.kind, unit := m.unit, old := m.part, new := 28 - fld (s.reg (modR .PHASE_STATUS)) 63 60 }

/-- Records committed repairs of earlier slots in OTP, each followed by its journal entry; without room it stays volatile (R416). -/
def State.recordRepairs (s : State) (d : Nat) : State :=
  let rs := (s.dieRel d).toOtp
  rs.foldl (fun s r =>
    let o := s.otpRecord d r
    let s := if o.2 then o.1 else o.1.onRel d fun x => { x with volatile := x.volatile ++ [r] }
    s.journalEmit r.kind 0 (!o.2) (r.step, r.time) (r.body d)) (s.onRel d fun x => { x with toOtp := [] })

/-- The spares of a slot on one die, in the order of R416: clusters, cores, banks, knot cells, converter phases. -/
def State.slotSpares (s : State) (d : Nat) : State :=
  let ms := (s.dieRel d).marks
  let s := s.onRel d fun x => { x with marks := [] }
  [2, 1, 3, 4, 0x0B].foldl (fun s k => (ms.filter fun m => m.kind = k).foldl (fun s m => s.bringSpare d m) s) s

/- Wear (R418). -/

/-- AUTO_SPARE of a die (R417). -/
def State.autoSpare (s : State) (d : Nat) : Bool := bit (s.reg (dieR .REL_CTRL d)) 0

/-- A reading beyond its warning level; one beyond its critical level is beyond both. -/
def State.wear (s : State) (d : Nat) (critical : Bool) (mark : State → State) : State :=
  let s := s.raise (.dieCtl d) 1
  if !critical then s
  else let s := s.raise (.dieCtl d) 2; if s.autoSpare d then mark s else s

/-- Samples the monitors of a slot: the readings the environment shows, and the corrected errors of each bank in the period that ends. -/
def State.sampleWear (s : State) (f : SlotFacts) : State :=
  let s := f.wear.foldl (fun s r =>
    let d := r.2.1
    let u := r.2.2.1
    if 2 ≤ d ∨ 192 ≤ u then s
    else s.wear d r.2.2.2 fun s => if r.1 = 0 then s.markCluster d (u / 8) else s.markCore d (u / 8) (u % 8)) s
  [0, 1].foldl (fun s d =>
    let l := (s.dieRel d).bankCe
    let s := s.onRel d fun x => { x with bankCe := [] }
    l.foldl (fun s p => if p.2 < 16 then s else
      s.wear d (decide (64 ≤ p.2)) fun s => s.markBank d (p.1 / 256) (p.1 % 256)) s) s

/- Tethers and reset escalation (R411–R413). -/

/-- The part of a core has work for its tether: 0 control core, 1 plies, 2 vector engine, 3 DMA engine, 4 quantiser. -/
def State.tetherWork (s : State) (core part : Nat) : Bool :=
  let c := s.core core
  match part with
  | 0 => decide (c.cc.mode = .running) && !s.knotPending core
  | 1 => !c.plyInbox.isEmpty || c.plies.any fun p => !p.queue.isEmpty || p.slots.any fun l => l.run.isSome
  | 2 => !c.vec.inbox.isEmpty || !c.vec.queue.isEmpty
  | 3 => !c.dma.isEmpty
  | _ => c.qnt.ports.any fun p => !p.isEmpty

/-- An escalation stage begins on a core: 0 core reset, 1 cluster reset, 2 cluster power-cycle. -/
def State.resetStage (s : State) (core cause stage : Nat) : State :=
  let p := s.physCore core
  (s.onCore core fun c => { c with reset := some ⟨cause, stage⟩ }).chafeEvent (coreDie core) 9 stage p.1 p.2 core (s.ctxOf core)

/-- TETHER: the part's count reaches TETHER_LIMIT. -/
def execTether (core part : Nat) (s : State) : Out :=
  guardPart (decide (core < 384) && decide (part < 5)) <|
    if !s.tetherWork core part || (s.core core).reset.isSome then s else
    let s := (s.setRegFld (coreR .TETHER_STATUS core) part part 1).bump (coreR .TETHER_TOTAL core) 1
    let s := s.raise (.core core) (24 + part) (s.ctxOf core)
    (s.takeDump (coreDie core) 0 [core]).resetStage core part 0

/-- The logical cores of a core's cluster. -/
def clusterCores (core : Nat) : List Nat := (List.range 8).map fun k => core / 8 * 8 + k

/-- A core's units after a reset: the image's stores and tables stay. -/
def Core.resetUnits (c : Core) : Core :=
  { c with cc := { ({ } : ControlCore) with stream := c.cc.stream, pool := c.cc.pool }
           plies := ({ } : Core).plies, plyInbox := [], qnt := { }, vec := { kernel := c.vec.kernel }, dma := [], held := [] }

/-- Resets a core's units and drops its pending knot operation. -/
def State.resetCore (s : State) (core : Nat) : State :=
  let d := coreDie core
  let k := s.knot d
  (s.onCore core Core.resetUnits).setKnot d { k with pend := k.pend.filter fun p => p.src ≠ .core core }

/-- A failed power-cycle (R413): the physical cluster is fenced, its cores do nothing from then on, the die is failed for every context with a core there, and the cluster is to be spared. -/
def State.dieFailed (s : State) (core : Nat) : State :=
  let d := coreDie core
  let l := coreCluster core
  let p := fld (s.clusterEntry d l) 4 0
  let ctxs := (((clusterCores core).filter fun n => s.job.used.contains n).map s.ctxOf).eraseDups
  let s := s.onRel d fun x => { x with fenced := p :: x.fenced, failCtx := ctxs.map (fun c => (p, c)) ++ x.failCtx }
  let s := s.clearFailed d fun _ => false
  let s := ((s.raise (.dieCtl d) 5).alert 6).takeDump d 2 (clusterCores core)
  let s := (s.journalEmit 0x0A 0 false (s.logline, s.clock) (leBytes 8 d ++ leBytes 8 l ++ leBytes 8 p)).markCluster d l |>.override
  (clusterCores core).foldl (fun s n => (s.resetCore n).onCore n fun c => { c with reset := none }) s

/-- Ends a completed stage on a core: its reset, its cluster's, or its cluster's power-cycle, after which the scratch holds nothing. -/
def State.resetDone (s : State) (core : Nat) : State :=
  match (s.core core).reset with
  | none => s
  | some r =>
    let s := s.onCore core fun c => { c with reset := none }
    if r.stage = 0 then s.resetCore core
    else (clusterCores core).foldl (fun s n => let s := s.resetCore n; if r.stage = 2 then s.wipeScratch n else s) s

/-- A stage passes its bound without its handshake (R412); the mark for a spare is a safety action (R417). -/
def State.resetEscalate (s : State) (core : Nat) : State :=
  match (s.core core).reset with
  | none => s
  | some r =>
    let d := coreDie core
    let s := s.raise (.dieCtl d) 4 (s.ctxOf core)
    match r.stage with
    | 0 => ((s.markCore d (coreCluster core) (coreIdx core)).override.takeDump d 1 (clusterCores core)).resetStage core r.cause 1
    | 1 => (s.markCluster d (coreCluster core)).override.resetStage core r.cause 2
    | _ => s.dieFailed core

/-- RESET_ESCALATED: of a core's escalation (kind 0), or of a base-die unit's reset (kind 1), after which the stack is failed and the module lost. Kind 2 is the failure of a compute die as a whole, by which 01 R29 and 15 R381 say what answers; the spec gives it no event of its own (DESIGN CHOICE, log 131). -/
def execResetEscalated (kind idx : Nat) (s : State) : Out :=
  if kind = 0 then guardPart (decide (idx < 384)) (s.resetEscalate idx)
  else if kind = 2 then guardPart (decide (idx < 2)) (s.onRel idx fun x => { x with failed := true })
  else guardPart (decide (idx < 8)) <|
    match sfind s.stackReset idx with
    | some 0 => ((s.raise (.dieCtl (stackDie idx)) 4).chafeEvent (stackDie idx) 9 4 0 0 idx |> fun s => { s with stackReset := sset s.stackReset idx 1 })
    | _ => s

/-- RESET_DONE: the handshake of the stage in progress. -/
def execResetDone (kind idx : Nat) (s : State) : Out :=
  if kind = 0 then guardPart (decide (idx < 384)) (s.resetDone idx)
  else guardPart (decide (idx < 8)) <|
    match sfind s.stackReset idx with
    | some 0 => { (s.onCap idx Cap.fresh) with stackReset := sdel s.stackReset idx }
    | _ => s

end Sys2Proof.Machine
end

