-- ==== Sys2Proof/Machine/Routes.lean ====
section
/-! DEFINITION. What an image asks of its route sets: descriptors found in constant pools, uses of route sets by endpoints, peers and exchange records, and the contexts that use a link (13 R340, R342, R350). -/

namespace Sys2Proof.Machine

/- Descriptors in a constant pool (R48, R156, R238, R350). -/

/-- The ISSUEs of a stream. -/
def issuesOf (stream : List W64) : List W64 := stream.filter fun w => fld w 63 58 = 0x20

/-- Constant-store addresses that a stream's ISSUEs name without a register. -/
def issueAddrs (stream : List W64) : List Nat :=
  ((issuesOf stream).filter fun w => fld w 52 48 = 0).map fun w => toTwos 64 (sext 32 (fld w 31 0))

/-- The 128-byte blocks of a constant pool at some addresses. -/
def poolBlocks (pool : List W64) (as : List Nat) : List (List W64) :=
  (as.filter fun a => a % 64 = 0 && decide (a / 8 + 16 ≤ pool.length)).map fun a => (pool.drop (a / 8)).take 16

/-- Every aligned block of a constant pool. -/
def allBlocks (pool : List W64) : List (List W64) := poolBlocks pool ((List.range (pool.length / 8)).map (64 * ·))

/-- The descriptors of a constant pool that the stream names. -/
def namedDescs (stream pool : List W64) : List (List W64) := poolBlocks pool (issueAddrs stream)

/-- What may be a descriptor in a constant pool: those the stream names, and every aligned block where a register decides one (DEDUCED, log 91). -/
def descsOf (stream pool : List W64) : List (List W64) :=
  if (issuesOf stream).all fun w => fld w 52 48 = 0 then namedDescs stream pool else allBlocks pool

/-- KIND of a descriptor. -/
def descKind (ws : List W64) : Nat := fld (nth ws 0 0) 3 0

/- Uses of route sets. -/

/-- (route set, member) pairs that knot endpoints use. -/
def endpointUses (es : List W64) : List (Nat × Nat) := es.map fun e => (fld e 32 17, fld e 13 0)

/-- Pairs that the PEER descriptors of core n use. -/
def peerUses (n : Nat) (ds : List (List W64)) : List (Nat × Nat) :=
  (ds.filter fun ws => (descKind ws = 4 || descKind ws = 5) && bit (nth ws 0 0) 47).map fun ws => let p := dmaDesc n ws; (p.route, p.member)

/-- Pairs that a die's exchange records use; a follower's compressed record and a CELL record use other sets. -/
def xrecUses (xs : List XRec) : List (Nat × Nat) :=
  xs.flatMap fun (r : XRec) =>
    let follower : Bool := xs.any fun y => r.pairs y && decide (y.group < 2)
    if r.mode = 3 ∨ follower then []
    else if r.mode = 2 then (if r.group < 2 then [] else [(r.route, (r.mem + 1) % r.group)])
    else if r.owner then ((List.range r.buckets).map fun b => b * r.group / r.buckets).eraseDups.map fun m => (r.route, m)
    else (List.range r.group).map fun m => (r.route, m)

/-- What the image in force asks of its route sets. -/
def State.routeUses (s : State) : List (Nat × Nat) :=
  ([0, 1].flatMap fun d => endpointUses (s.knot d).endpoints ++ xrecUses ((s.whip d).records.map xrec))
    ++ s.job.used.flatMap fun n => peerUses n (descsOf (s.core n).cc.stream (s.core n).cc.pool)

/-- What a route section asks of its own sets. -/
def ownUses (j : Job) (r : RouteSec) : List (Nat × Nat) :=
  [(r.mgrRoute, r.manager), (r.mirrorA, r.buddy), (r.mirrorB, r.buddy)]
    ++ (if j.role = 0 then [] else (r.mgrRoute, r.root) :: (List.range r.hankSize).map fun i => (r.memberRoute, r.hankFirst + i))

/-- A route set sends over a link of the module. -/
def RouteSec.overLink (r : RouteSec) (h set : Nat) : Bool := (r.entriesOf set none).any fun e => fld e 5 0 = h

/-- A route set of this module leaves over the link (R340, R342). -/
def State.linkRouted (s : State) (h : Nat) : Bool := (List.range s.route.sets.length).any (s.route.overLink h)

/-- Endpoints that a core's stream names in RTIE and RUNTIE. -/
def Core.endpointsNamed (c : Core) (es : List W64) : List W64 :=
  (c.cc.stream.filter fun w => fld w 63 58 = 0x2D || fld w 63 58 = 0x2E).filterMap fun w => es[ccExt w]?

/-- Route sets that core n uses: for its remote knot operations and its peer writes. -/
def State.coreSets (s : State) (n : Nat) : List Nat :=
  let c := s.core n
  ((endpointUses ((c.endpointsNamed (s.knot (coreDie n)).endpoints).filter fun e => fld e 13 0 ≠ s.job.member))
    ++ peerUses n (descsOf c.cc.stream c.cc.pool)).map Prod.fst

/-- Contexts that have a route set which uses a link (R342): by an exchange record, or by a core's remote knot operations and peer writes; the sets that the route section itself names serve the job, and so every context with a core (DEDUCED, log 130). -/
def State.linkCtxs (s : State) (h : Nat) : List Nat :=
  let leaves (k : Nat) : Bool := s.route.overLink h k
  let all := s.route.present && (ownUses s.job s.route).any fun u => leaves u.1
  (List.range 4).filter fun c =>
    (s.job.used.any fun n => s.ctxOf n = c && (all || (s.coreSets n).any leaves))
      || [0, 1].any fun d => ((s.whip d).records.map xrec).any fun x => x.ctx = c && (xrecUses ((s.whip d).records.map xrec)).any fun u => u.1 = x.route && leaves u.1

end Sys2Proof.Machine
end

