-- ==== Sys2Proof/Machine/Links.lean ====
section
/-! DEFINITION. Hawser links (13 R337–R353, 17 R455, R456): training, lanes, receiving flits, replay, forwarding, release, link-down. -/

namespace Sys2Proof.Machine

/-- Lane-control and status registers of link h. -/
def State.laneReg (s : State) (h : Nat) : W64 := s.reg (linkR .LANE_CTRL h)

/-- Word 0 of the link section. -/
def State.linkSec (s : State) (h : Nat) : W64 := nth (s.link h).words 0 0
/-- ENABLE. -/
def State.linkOn (s : State) (h : Nat) : Bool := bit (s.linkSec h) 0

/-- LINK_STATUS.STATE. -/
def State.setLinkState (s : State) (h v : Nat) : State := s.setRegFld (linkR .LINK_STATUS h) 2 0 v

/-- The link's buffers and numbers at the start of a training: credits are those of *Virtual channels*. -/
def LinkSt.fresh (l : LinkSt) : LinkSt :=
  { words := l.words, laneCnt := l.laneCnt, ownPhase := l.ownPhase, peerPhase := l.peerPhase, lower := l.lower }

/-- Messages that are passing from this link's receive buffer to other links are discarded with it. -/
def State.dropForwarded (s : State) (h : Nat) : State :=
  { s with links := s.links.map fun p => (p.1, { p.2 with queues := p.2.queues.map fun q => q.filter fun m => m.src ≠ some h }) }

/-- Training starts (R338). -/
def State.trainLink (s : State) (h : Nat) : State :=
  if !s.linkOn h || s.linkState h = 3 then s
  else ((s.dropForwarded h).setLink h (s.link h).fresh).setLinkState h 1

/-- The link goes down (R342): its buffers are discarded, and it is a fault of every context with a route set that uses it. It retrains the next time the module is HELD. -/
def State.linkDown (s : State) (h : Nat) : State :=
  let s := s.dropForwarded h
  let s := (s.setLink h { (s.link h).fresh with retrain := true }).setLinkState h 0
  let s := (s.bump (linkR .DOWN_TOTAL h) 1).raiseFor (.link h) 0 (s.linkCtxs h)
  if s.isHeld then s.trainLink h else s

/-- Links that went down retrain once the module is HELD. -/
def State.heldLinks (s : State) : State :=
  (List.range 40).foldl (fun s h => if (s.link h).retrain then s.trainLink h else s) s

/- Lanes (R341). -/

/-- Marks a physical lane, unless it is marked or failed already. -/
def State.markLane (s : State) (h l : Nat) : State :=
  if bit (s.laneReg h) (19 + l) || bit (s.laneReg h) (14 + l) then s
  else (s.setRegFld (linkR .LANE_CTRL h) (19 + l) (19 + l) 1).raise (.link h) 4

/-- The lane carries traffic: neither the spare nor failed. -/
def State.laneActive (s : State) (h l : Nat) : Bool := fld (s.laneReg h) 13 11 ≠ l && !bit (s.laneReg h) (14 + l)

/-- Lanes that have not failed. -/
def State.lanesUsable (s : State) (h : Nat) : Nat := (List.range 5).countP fun l => !bit (s.laneReg h) (14 + l)

/-- LINK_LANE_MARKED: the margin of a lane falls below the PHY limit. -/
def execLinkLaneMarked (link lane : Nat) (s : State) : Out :=
  guardPart (decide (link < 40) && decide (lane < 5)) (s.markLane link lane)

/-- LANE_LOCK_LOSS: the lane is marked; the loss of an active lane in a step takes the link down. -/
def execLaneLockLoss (link lane : Nat) (s : State) : Out :=
  guardPart (decide (link < 40) && decide (lane < 5)) <|
    let s := (s.setRegFld (linkR .LANE_STATUS link) lane lane 0).markLane link lane
    if s.entered && s.linkUp link && s.laneActive link lane then s.linkDown link else s

/-- A slot's work on one link (R341): a marked lane fails and the spare takes its place; with no spare the link goes one rate lower; then it retrains. Links that are down retrain too. -/
def State.slotLink (s : State) (h : Nat) : State :=
  if !s.linkOn h || s.linkState h = 3 then s else
  let marked := (List.range 5).filter fun l => bit (s.laneReg h) (19 + l)
  let s1 := marked.foldl (fun s l =>
    let sp := fld (s.laneReg h) 13 11
    if sp = l then (s.setRegFld (linkR .LANE_CTRL h) (14 + l) (14 + l) 1).setRegFld (linkR .LANE_CTRL h) 13 11 7
    else if sp < 5 then s.commitRepair (h / 20) { kind := 6, unit := h, old := l, new := sp }
    else s.setLink h { s.link h with lower := true }) s
  let s1 := s1.setRegFld (linkR .LANE_CTRL h) 23 19 0
  if s1.lanesUsable h < 4 then s1.setLinkState h 3
  else if !marked.isEmpty || s1.linkState h = 0 then s1.trainLink h else s1

/-- Key phases at a slot (17 R456): a link changes its phase once both ends hold a secret for it. -/
def State.slotPhase (s : State) (h : Nat) : State :=
  let l := s.link h
  let next := 1 - s.linkPhase h
  if !s.linkUp h || !s.linkEnc h || (l.ownPhase.isNone && l.peerPhase.isNone) then s
  else if l.ownPhase = some next ∧ l.peerPhase = some next then
    (s.setRegFld (linkR .ENC_STATUS h) 1 1 next).setLink h { l with ownPhase := none, peerPhase := none }
  else s.bump (modR .KEY_HOLD_TOTAL) 1

/-- A maintenance period ends: the lanes' counts of corrected symbols start again (R341), in every slot. -/
def State.lanePeriod (s : State) : State := { s with links := s.links.map fun p => (p.1, { p.2 with laneCnt := [0, 0, 0, 0, 0] }) }

/-- Step 3 of R276 on every link. -/
def State.slotLinks (s : State) : State := (List.range 40).foldl (fun s h => (s.slotPhase h).slotLink h) s

/-- KEY_PHASE_REPORT. -/
def execKeyPhaseReport (link phase : Nat) (s : State) : Out :=
  guardPart (decide (link < 40)) (s.setLink link { s.link link with peerPhase := some (phase % 2) })

/- Training (R338, R339). -/

/-- Lanes that lock in a training. One that does not is marked: the spare takes its place in the next slot, and not before (R341, 16 R414; DEDUCED, log 132). -/
def State.lockLanes (s : State) (h lanes : Nat) : State :=
  (List.range 5).foldl (fun s l => if nbit lanes l then s else s.markLane h l) (s.setReg (linkR .LANE_STATUS h) (w64 (lanes % 32)))

/-- Every lane that carries traffic has locked. -/
def State.lanesLocked (s : State) (h lanes : Nat) : Bool := (List.range 5).all fun l => nbit lanes l || !s.laneActive h l

/-- The rate a link settles on, from both ends' bounds and proposals, and whether this end's floor holds it: none when the ranges do not overlap (R339). -/
def settleRate (floor ceil support : Nat) (t : TrainMsg) : Option (Nat × Bool) :=
  if min ceil t.ceil < max floor t.floor then none
  else
    let hw := min (min ceil support) t.proposal
    some (max hw (max floor t.floor), decide (hw < floor))

/-- TRAINING_EXCHANGE: identity first, then lanes, rate, latency and session. A link in use that comes up below its ceiling while a step runs sets the step's TNR_REASON bit 2 (R340). -/
def execTrainingExchange (link : Nat) (t : TrainMsg) (s : State) : Out :=
  guardPart (decide (link < 40)) <|
    if s.linkState link ≠ 1 then s else
    let w := s.linkSec link
    let floor := fld (s.laneReg link) 1 0
    let ceil := fld (s.laneReg link) 3 2
    let cur := fld (s.laneReg link) 9 8
    let support := if (s.link link).lower then min t.support (cur - 1) else t.support
    let s := { s with out := s.out ++ [OutMsg.train link s.job.jobId s.route.slotId floor ceil (max floor (min ceil support))] }
    let s := (s.setRegFld (linkR .LINK_STATUS link) 36 22 t.slot).setRegFld (linkR .LINK_STATUS link) 42 37 t.peerLink
    if t.jobId ≠ s.job.jobId ∨ t.slot ≠ fld w 23 9 ∨ t.peerLink ≠ fld w 29 24 then (s.setLinkState link 0).raise (.link link) 1
    else
      let s := s.lockLanes link t.lanes
      if s.lanesUsable link < 4 then s.setLinkState link 3
      else if !s.lanesLocked link t.lanes then s.setLinkState link 0 else
      match settleRate floor ceil support t with
      | none => (s.setLinkState link 0).raise (.link link) 2
      | some (rate, held) =>
        let s := (s.setRegFld (linkR .LANE_CTRL link) 9 8 rate).setRegFld (linkR .LANE_CTRL link) 10 10 (b01 held)
        let s := s.setReg (linkR .LINK_LATENCY link) (w64 (t.latency % 2 ^ 32))
        let s := s.setReg (linkR .ENC_STATUS link) (setFld (setFld (s.reg (linkR .ENC_STATUS link)) 63 32 t.session) 0 0 (fld w 8 8))
        let s := (s.setRegFld (linkR .LINK_STATUS link) 17 17 (fld w 8 8)).setLink link { (s.link link).fresh with lower := false }
        let s := s.setLinkState link 2
        let s := if s.linkRouted link && decide (rate < ceil) then s.tnrNow 4 else s
        (if held then s.raise (.link link) 3 else s).pump link

/-- LANE_CTRL (R363): accepted while HELD with a floor not above the ceiling; the link retrains at once. Code 3, which names no rate, leaves a field as it is (00 R12). -/
def State.laneCtrl (s : State) (h : Nat) (value : W64) : State :=
  let keep (hi lo : Nat) : Nat := if fld value hi lo = 3 then fld (s.laneReg h) hi lo else fld value hi lo
  let floor := keep 1 0
  let ceil := keep 3 2
  if !s.isHeld ∨ ceil < floor then s.decodeError true (0x024000000000 + h * 0x10000)
  else ((s.setRegFld (linkR .LANE_CTRL h) 1 0 floor).setRegFld (linkR .LANE_CTRL h) 3 2 ceil).trainLink h
/-- LANE_CTRL. -/
def execLaneCtrl (link : Nat) (value : W64) (s : State) : Out := guardPart (decide (link < 40)) (s.laneCtrl link value)

/- Replay (R344). -/

/-- SEQ of a stored flit. -/
def flitSeq (f : List Byte) : Nat := leNat (f.take 8) % 4096

/-- Flits after `ack`: those up to it are dropped, where the buffer holds it. -/
def ackReplay (l : List (List Byte)) (ack : Nat) : List (List Byte) :=
  match l.findIdx? fun f => flitSeq f = ack with
  | some i => l.drop (i + 1)
  | none => l

/-- An acknowledgement arrives; one that frees flits ends a run of retries. -/
def State.linkAck (s : State) (h ack : Nat) : State :=
  let l := s.link h
  let r := ackReplay l.replay ack
  if r.length = l.replay.length then s else s.setLink h { l with replay := r, retries := 0 }

/-- A NAK (R344): every flit after the acknowledged SEQ goes again as first sent; the sixteenth retry of one SEQ in a row takes the link down (R342). -/
def State.linkNak (s : State) (h ack : Nat) : State :=
  let s := s.linkAck h ack
  let l := s.link h
  if !s.linkUp h || l.replay.isEmpty then s else
  let s := s.setLink h { l with retries := l.retries + 1 }
  let s := { s with out := s.out ++ l.replay.map (OutMsg.flit h) }
  let s := ((s.bump (linkR .RETRY_TOTAL h) 1).bump (linkR .FLIT_TX_TOTAL h) l.replay.length).raise (.link h) 5
  let s := if s.linkRouted h then s.tnrNow 2 else s
  if 16 ≤ l.retries + 1 then s.linkDown h else s
/-- NAK. -/
def execNak (link ack : Nat) (s : State) : Out := guardPart (decide (link < 40)) ((s.linkNak link (ack % 4096)).pump link)

/-- ACK_TIMEOUT (R342): flits are outstanding for 10 µs without an ACK. -/
def execAckTimeout (link : Nat) (s : State) : Out :=
  guardPart (decide (link < 40)) <|
    if s.linkUp link && !(s.link link).replay.isEmpty then s.linkDown link else s

/- Receiving (R343–R349). -/

/-- A bad or out-of-order flit is answered with NAK and the last good SEQ. -/
def State.refuseFlit (s : State) (h : Nat) : State := s.sendControl h true 0 0

/-- HOP raised by one in a message's first bytes. -/
def hopUp (bs : List Byte) : List Byte := leBytes 8 (leNat (bs.take 8) + 2 ^ 42) ++ bs.drop 8

/-- A delivered message, cut to its LENGTH, waits for its release from the time it was whole; exchange and management messages are released on arrival (R351). -/
def State.deliver (s : State) (h : Nat) (m : RxMsg) : State :=
  if m.vc = 2 ∨ m.vc = 3 then s.giveCredits h m.vc m.flits
  else let l := s.link h; s.setLink h { l with inbox := l.inbox ++ [{ m with body := m.body.take (fld m.h1 29 14), arrived := s.clock }] }

/-- A later flit's bytes join their message. -/
def TxMsg.join (m : TxMsg) (last : Bool) (data : List Byte) : TxMsg :=
  let d := data.take m.left
  { m with bytes := m.bytes ++ d, whole := last, left := m.left - d.length, bufs := m.bufs ++ [d.length] }

/-- MESSAGE_FORWARD (R349): a message goes on its next hop on the same VC, cut through, with HOP raised in its first flit. Its bytes are cut into flits again, since a flit carries fewer of them on an encrypted link (R353). -/
def State.forward (s : State) (h g vc : Nat) (first last : Bool) (data : List Byte) : State :=
  let l := s.link h
  let s := s.setLink h { l with fwd := if last then sdel l.fwd vc else sset l.fwd vc g }
  if first then
    let m : TxMsg := { bytes := [], whole := false, left := 16 + bits (leNat ((data.drop 8).take 8)) 29 14, src := some h
                       since := s.clock, lat := (s.reg (linkR .LINK_LATENCY h)).toNat / 1000 }
    s.enqueue g vc (m.join last (hopUp data))
  else
    let q := s.link g
    let join (m : TxMsg) : TxMsg := if m.src = some h ∧ !m.whole then m.join last data else m
    (s.setLink g { q with queues := q.queues.set vc ((nth q.queues [] vc).map join) }).pump g

/-- A misrouted message is dropped: its first flit counts, and every flit's buffer is free at once. -/
def State.misroute (s : State) (h vc : Nat) : State :=
  ((s.bump (linkR .MISROUTE_TOTAL h) 1).raise (.link h) 6).giveCredits h vc 1

/-- The first flit of a message (R349). -/
def State.firstFlit (s : State) (h vc : Nat) (last : Bool) (data : List Byte) : State :=
  let w0 := leNat (data.take 8)
  let w1 := leNat ((data.drop 8).take 8)
  let hop := bits w0 44 42
  let port := if hop = 7 then 0x3F else bits w0 (6 * hop + 5) (6 * hop)
  if port = 0x3F then
    if hop = 7 ∨ bits w0 58 45 ≠ s.job.member then s.misroute h vc
    else
      let m : RxMsg := { vc := vc, h0 := w64 w0, h1 := w64 w1, body := data.drop 16, flits := 1 }
      if last then s.deliver h m else s.setLink h { s.link h with part := sset (s.link h).part vc m }
  else if 40 ≤ port then s.misroute h vc
  else s.forward h port vc true last data

/-- A later flit of a message: appended, forwarded, or dropped with its misrouted message. -/
def State.nextFlit (s : State) (h vc : Nat) (last : Bool) (data : List Byte) : State :=
  let l := s.link h
  match sfind l.part vc, sfind l.fwd vc with
  | some m, _ =>
    let m := { m with body := m.body ++ data, flits := m.flits + 1 }
    if last then (s.setLink h { l with part := sdel l.part vc }).deliver h m else s.setLink h { l with part := sset l.part vc m }
  | none, some g => s.forward h g vc false last data
  | none, none => s.giveCredits h vc 1

/-- A data flit in SEQ order is accepted and acknowledged; any other is refused (R344). -/
def State.dataFlit (s : State) (h head : Nat) (data : List Byte) : State :=
  let l := s.link h
  if bits head 11 0 ≠ l.rxSeq then s.refuseFlit h else
  let s := s.setLink h { l with rxSeq := (l.rxSeq + 1) % 4096, tagFails := 0 }
  let vc := bits head 27 26
  let s := if nbit head 30 then s.firstFlit h vc (nbit head 31) data else s.nextFlit h vc (nbit head 31) data
  s.sendControl h false 0 0

/-- ACK, NAK and credits of a good flit's header. -/
def State.flitHeader (s : State) (h head : Nat) : State :=
  let l := s.link h
  let vc := bits head 33 32
  let s := s.setLink h { l with credits := l.credits.set vc (nth l.credits 0 vc + bits head 41 34) }
  if nbit head 24 then (if nbit head 25 then s.linkNak h (bits head 23 12) else s.linkAck h (bits head 23 12)) else s

/-- What the PHY counts with a flit: corrected symbols against the period's limit, and stalls for want of credit. -/
def State.flitPhy (s : State) (h : Nat) (p : PhyFacts) : State :=
  let lim := fld (nth (s.link h).words 0 1) 31 0
  let s := ((p.lanes.take 5).zipIdx).foldl (fun s c =>
    let s := s.bump (linkR .LANE_FEC_TOTAL h c.2) c.1
    let n := nth (s.link h).laneCnt 0 c.2 + c.1
    let s := s.setLink h { s.link h with laneCnt := (s.link h).laneCnt.set c.2 n }
    if lim < n then s.markLane h c.2 else s) s
  s.bump (linkR .CREDIT_STALL_TOTAL h) p.stalls

/-- A tag failure (R353): a bad flit; four in a row on one SEQ take the link down. A control flit has no SEQ. -/
def State.tagFailure (s : State) (h kind seq : Nat) : State :=
  let s := s.bump (linkR .AUTH_FAIL_TOTAL h) 1
  if kind ≠ 1 then s.refuseFlit h else
  let l := s.link h
  let n := if l.tagSeq = seq then l.tagFails + 1 else 1
  let s := s.setLink h { l with tagFails := n, tagSeq := seq }
  if 4 ≤ n then (s.linkDown h).raise (.link h) 7 else s.refuseFlit h

/-- Counts under which a flit may have been sent, as far as the receiver knows: the next one it expects first, then those about it, for flits that were lost and flits that are replayed carry others (R353; DESIGN CHOICE, log 133). -/
def LinkSt.counts (l : LinkSt) : List Nat := ((List.range 2048).map fun i => l.rcvd + i) ++ (List.range (min l.rcvd 2048)).map fun i => l.rcvd - 1 - i

/-- Opens a protected flit: the count under which its tag holds, and its payload. -/
def State.openFlit (s : State) (h head : Nat) (aad pay : List Byte) : Option (Nat × List Byte) :=
  let key := s.linkKey h (bits head 42 42) false
  (s.link h).counts.findSome? fun n => (gcmOpen key (s.linkSession h) n aad pay).map fun d => (n, d)

/-- FLIT: 256 bytes arrive on a link. -/
def execFlit (link : Nat) (bytes : List Byte) (phy : PhyFacts) (s : State) : Out :=
  guardPart (decide (link < 40)) <|
    if !s.linkUp link then s else
    let s := (s.flitPhy link phy).bump (linkR .FLIT_RX_TOTAL link) 1
    if phy.fecBad then (s.bump (linkR .FEC_UNCORR_TOTAL link) 1).refuseFlit link
    else if bytes.length ≠ 256 ∨ crc32 (bytes.take 252) ≠ leNat (bytes.drop 252) then (s.bump (linkR .CRC_ERR_TOTAL link) 1).refuseFlit link
    else
      let head := leNat (bytes.take 8)
      let pay := (bytes.drop 8).take 244
      let kind := bits head 29 28
      if kind = 0 ∨ kind = 3 then (s.flitHeader link head).pump link else
      let plain := if s.linkEnc link
        then s.openFlit link head (bytes.take 8) pay
        else some ((s.link link).rcvd, pay)
      match plain with
      | none => s.tagFailure link kind (bits head 11 0)
      | some (n, data) =>
        let s := s.setLink link { s.link link with rcvd := max (s.link link).rcvd (n + 1) }
        let s := s.flitHeader link head
        (if kind = 1 then s.dataFlit link head data else s).pump link

/-- The full send time in beats from SEND_TIME's beats, at the receiver's time T (R352): the value congruent to them modulo 2^28 that lies after T − 2^27 and no later than T + 2^27. -/
def sendTime (beats t : Nat) : Int :=
  let d := ((beats : Int) - (t : Int)) % 2 ^ 28
  if d ≤ 2 ^ 27 then t + d else t + d - 2 ^ 28

/-- Flit time of a link in ps, by its rate (*Rates*). -/
def State.flitTime (s : State) (h : Nat) : Nat :=
  match fld (s.laneReg h) 9 8 with
  | 0 => 10240
  | 1 => 5120
  | _ => 2560

/-- A delivered message's deadline in ps × k of the step timebase, where a beat of 5 ns has k core cycles: SEND_TIME + RELEASE + (flits − 1) × flit time (R351). The flit time is that of the link it came in by. -/
def State.deadline (s : State) (h : Nat) (m : RxMsg) (release t : Nat) : Int :=
  let k := max s.clkK 1
  (sendTime (fld m.h1 59 32) t * 5000 + (release * 1000 + (m.flits - 1) * s.flitTime h : Nat)) * k + (fld m.h1 63 60 * 5000 : Nat)

/-- MESSAGE_RELEASE (R351, R352): a delivered knot/control or data message goes to its unit and frees its buffer, `release` ns being RELEASE of the route set the sender used. In a step it is released no earlier than its deadline. One that came in after its deadline, or 2^27 beats or more after it was sent, is late: it is released on arrival and counts, and sets TNR_REASON bit 0 unless a replay has set bit 1. What belongs to a step not yet entered goes to its unit, which holds it (11 R294). -/
def execMessageRelease (link index release : Nat) (s : State) : Out :=
  guardPart (decide (link < 40)) <|
    let l := s.link link
    match l.inbox[index]? with
    | none => s
    | some m =>
      let free := (s.setLink link { l with inbox := l.inbox.eraseIdx index }).giveCredits link m.vc m.flits
      if !s.entered then free else
      let t := m.arrived - s.step.runAt
      let k := max s.clkK 1
      let due := s.deadline link m release t
      let late : Bool := decide (due < (t * 5000 * k : Nat)) || decide ((t : Int) + 1 < sendTime (fld m.h1 59 32) t)
      if !late && decide (((s.clock - s.step.runAt) * 5000 * k : Nat) < due) then s
      else if !late then free
      else
        let s := free.bump (linkR .LATE_RELEASE_TOTAL link) 1
        if nbit s.step.tnr 1 then s else s.tnrNow 1

/- Image load (R347, R363). -/

/-- Writes a link section; the link trains where it is enabled and not already up under the same section and job. -/
def State.loadLink (s : State) (h : Nat) (ws : List W64) (newJob : Bool) : State :=
  let same := decide ((s.link h).words = ws) && s.linkUp h && !newJob
  let w := nth ws 0 0
  let s := s.setLink h { s.link h with words := ws }
  let s := (s.setRegFld (linkR .LANE_CTRL h) 1 0 (fld w 2 1)).setRegFld (linkR .LANE_CTRL h) 3 2 (fld w 4 3)
  let s := if fld (s.laneReg h) 18 14 = 0 then s.setRegFld (linkR .LANE_CTRL h) 13 11 (fld w 7 5) else s
  let s := s.setRegFld (linkR .ENC_STATUS h) 0 0 (fld w 8 8)
  if !bit w 0 then ((s.dropForwarded h).setLink h (s.link h).fresh).setLinkState h 0
  else if same then s else s.trainLink h

/-- A link in use runs below its ceiling (R340). -/
def State.linksSlow (s : State) : Bool :=
  (List.range 40).any fun h => s.linkRouted h && s.linkUp h && decide (fld (s.laneReg h) 9 8 < fld (s.laneReg h) 3 2)

end Sys2Proof.Machine
end

