-- ==== Sys2Proof/Machine/Power.lean ====
section
/-! DEFINITION. Power, clocks, thermal limits, the sideband (chapter 18): input excursions, throttle, phases, voltage and frequency loops, references, PMBus; loss of power and reset. -/

namespace Sys2Proof.Machine

/-- Applies a function to the power state. -/
def State.onPwr (s : State) (f : Power → Power) : State := { s with pwr := f s.pwr }

/- Loss of power and reset (R479, R480). -/

/-- The rails go off: all state is lost but OTP and the boot flash, chafe log and dump included. `latched`: stays off until PWR_EN is cycled. -/
def State.powerOff (s : State) (en latched tripN : Bool) : State :=
  { State.reset with
    pending := s.pending, free := s.free, out := s.out, hostReply := s.hostReply, i3c := s.i3c
    sec := { otp := s.sec.otp, otpBad := s.sec.otpBad, flash := s.sec.flash, draws := s.sec.draws }
    pwr := { pwrEn := en, pwrGood := false, resetN := false, latched := latched, tripN := tripN, refLost := s.pwr.refLost } }

/-- Totals that are cleared only when an image is loaded (R92, R125, R151, R174, R209, R235, R256, R304, R336, and the tables of 10). -/
def imageTotal : RegName → Bool
  | .SAT_TOTAL => true | .FLUSH_TOTAL => true | .BIGHT_OVF_TOTAL => true | .ZERO_BLK_TOTAL => true | .NAN_BLK_TOTAL => true
  | .KEEP_STALL_TOTAL => true | .KEEP_SAT_TOTAL => true
  | .OPS_TOTAL => true | .PLY_STEP_TOTAL => true | .BIGHT_ENTRY_TOTAL => true | .BIGHT_STALL_TOTAL => true | .FEED_STALL_TOTAL => true
  | .READOUT_STALL_TOTAL => true | .PLY_REJECT_TOTAL => true
  | .ACC_TRUNC_TOTAL => true | .ACC_CLAMP_TOTAL => true | .ACC_SAT_TOTAL => true | .ACC_SPECIAL_TOTAL => true
  | .RESIDUE_CHECK_TOTAL => true | .RESIDUE_SKIP_TOTAL => true | .RESIDUE_FAULT_TOTAL => true
  | .VERDICT_TOTAL => true | .BREACH_TOTAL => true | .REPEAT_TOTAL => true | .FLAG_TOTAL => true | .HELD_TOTAL => true
  | .EPOCH_DISCARD_TOTAL => true | .OVERRUN_CYCLE_TOTAL => true | .STORM_STEP_TOTAL => true | .RATCHET_UP_TOTAL => true | .RATCHET_DOWN_TOTAL => true
  | .INSN_TOTAL => true | .OC_CONFLICT_TOTAL => true | .SCR_STALL_TOTAL => true | .VEC_OOB_READ_TOTAL => true | .VEC_OOB_WRITE_TOTAL => true
  | .EMPTY_ROW_TOTAL => true | .OVERSPAN_TOTAL => true | .VEC_REJECT_TOTAL => true
  | .PARAM_TOTAL => true | .FROZEN_TOTAL => true | .CLIP_TOTAL => true | .CAP_NONFINITE_TOTAL => true | .VETO_TOTAL => true
  | .MOM_SAT_TOTAL => true | .WORK_SAT_TOTAL => true | .WORK_FLUSH_TOTAL => true | .COMMIT_TOTAL => true
  | .BUCKET_TOTAL => true | .FRAG_SENT_TOTAL => true | .FRAG_RECV_TOTAL => true | .CANCEL_TOTAL => true | .STALE_TOTAL => true
  | .BYTES_SENT_TOTAL => true | .WH_NONFINITE_TOTAL => true | .MERGE_STALL_TOTAL => true
  | .STEP_TOTAL => true | .FAULT_STEP_TOTAL => true | .TIMING_NR_TOTAL => true | .MAINT_TOTAL => true
  | .CC_ISSUE_TOTAL => true | .CC_WAIT_TOTAL => true
  | .TIE_TOTAL => true | .REDUNDANT_TIE_TOTAL => true | .REDUNDANT_UNTIE_TOTAL => true | .TAKE_TOTAL => true | .BARRIER_STALL_TOTAL => true
  | .REMOTE_SENT_TOTAL => true | .REMOTE_RECV_TOTAL => true | .REMOTE_STALE_TOTAL => true | .TIMEOUT_TOTAL => true
  | .DESC_TOTAL => true | .BYTES_READ_TOTAL => true | .BYTES_WRITTEN_TOTAL => true | .PAD_TOTAL => true | .DMA_OOB_READ_TOTAL => true
  | .DMA_OOB_WRITE_TOTAL => true | .DMA_REJECT_TOTAL => true
  | _ => false

/-- Registers that are cleared only at power-on (R336, R364, R386, R432, and the register tables of 15–18). -/
def powerOnOnly : RegName → Bool
  | .CORE_COUNT => true | .CLUSTER_COUNT => true | .DIECTL_COUNT => true | .WHIP_COUNT => true | .KNOTST_COUNT => true
  | .STACK_COUNT => true | .LINKC_COUNT => true | .MODC_COUNT => true
  | .TICK_LATE_TOTAL => true | .REG_WAIT_TOTAL => true | .CH_CE_TOTAL => true | .CH_UE_TOTAL => true | .CH_BURST_TOTAL => true | .REFRESH_HELD_TOTAL => true
  | .LANE_FEC_TOTAL => true | .FLIT_TX_TOTAL => true | .FLIT_RX_TOTAL => true | .RETRY_TOTAL => true | .CRC_ERR_TOTAL => true | .FEC_UNCORR_TOTAL => true
  | .CREDIT_STALL_TOTAL => true | .MISROUTE_TOTAL => true | .LATE_RELEASE_TOTAL => true | .DOWN_TOTAL => true | .AUTH_FAIL_TOTAL => true
  | .CTX_STALE_TOTAL => true | .TETHER_TOTAL => true | .SEC_BUSY_TOTAL => true | .KEY_HOLD_TOTAL => true
  | .VOLT_HELD_US_TOTAL => true | .CLK_HELD_TOTAL => true | .THROTTLE_CYCLE_TOTAL => true | .PHASE_SHED_TOTAL => true
  | .CHAFE => true | .CHAFE_HEAD => true | .CHAFE_TAIL => true | .CHAFE_OVF_TOTAL => true
  | _ => false

/-- Registers that a reset keeps: the chafe log and the dump's status (R412, R480), and those whose rule clears them only at power-on or only at an image load. -/
def keptByReset (id : RegId) : Bool := id.name = .DUMP_STATUS || powerOnOnly id.name || imageTotal id.name

/-- What a die keeps through a reset: its dump (R480), its marks and the repairs that hold until power is lost (16 R416), what is fenced or failed (16 R413). -/
def DieRel.afterReset (x : DieRel) : DieRel :=
  { dump := x.dump, marks := x.marks, toOtp := x.toOtp, volatile := x.volatile, fenced := x.fenced, failed := x.failed }

/-- The module enters RESET (R474, R480): every unit is reset but the chafe logs and crash dumps. What lasts until power is lost stays: lifecycle in force, debug unlock, entropy failure; so do the layer states of error control, which only an image load resets (06 R174). -/
def State.moduleReset (s : State) (inReset : Bool) : State :=
  { State.reset with
    pending := s.pending, clock := s.clock, free := s.free, out := s.out, hostReply := s.hostReply, i3c := s.i3c
    regs := s.regs.filter fun p => keptByReset p.1
    rel := s.rel.map fun p => (p.1, p.2.afterReset)
    cores := s.cores.map fun p => (p.1, { ec := { layers := p.2.ec.layers } })
    sec := { otp := s.sec.otp, otpBad := s.sec.otpBad, flash := s.sec.flash, draws := s.sec.draws
             lifecycle := s.sec.lifecycle, debug := s.sec.debug, trngFail := s.sec.trngFail }
    pwr := { s.pwr with resetN := false, inReset := inReset, hbmReady := false, refRelock := false, thr := [0, 0]
                        vcore := [1500, 1500], capLimit := 2600 } }

/-- PWR_EN_RISE: start-up runs to PWR_GOOD; the lifecycle state in OTP takes effect (17 R439), and the management clock starts (01 R30). -/
def execPwrEnRise (s : State) : Out :=
  .next <|
    if s.pwr.pwrEn then s
    else { s with clock := 0
                  pwr := { s.pwr with pwrEn := true, pwrGood := true, latched := false, tripN := true }
                  sec := { s.sec with lifecycle := s.sec.lifeOtp } }

/-- PWR_EN_FALL: shutdown. -/
def execPwrEnFall (s : State) : Out := .next (if s.pwr.pwrEn then s.powerOff false false true else s)

/-- RESET_N_ASSERT. -/
def execResetNAssert (s : State) : Out := .next (if s.pwr.resetN then s.moduleReset s.pwr.inReset else s)

/- Alerts (R478). -/

/-- Usable converter phases. -/
def State.phasesUsable (s : State) : Nat := 28 - popc 28 (fld (s.reg (modR .PHASE_STATUS)) 27 0)

/-- Conditions of ALERT_STATUS that hold now. -/
def State.alertCond (s : State) : Nat :=
  b01 (nbit s.pwr.cond 0 || decide (80000 < s.pwr.iin)) + b01 (decide (s.phasesUsable < 24)) * 2 ^ 3 + b01 (s.pwr.thr.any (· ≠ 0)) * 2 ^ 4
    + b01 (!s.pwr.refLost.isEmpty || s.pwr.inReset) * 2 ^ 5
    + b01 ([0, 1].any fun d => fld (s.reg (dieR .REL_STATUS d)) 63 60 ≠ 0) * 2 ^ 6 + b01 (decide (s.sec.mode = 2)) * 2 ^ 7

/-- A write of 1s clears bits of ALERT_STATUS; a bit whose condition holds stays set (R385, R478). -/
def State.alertClear (s : State) (v : Nat) : State :=
  let a := fld (s.reg (modR .ALERT_STATUS)) 7 0
  s.setReg (modR .ALERT_STATUS) (w64 ((a - (a &&& v % 256)) ||| (a &&& s.alertCond)))

/-- ALERT_N is low while any bit of ALERT_STATUS is set. -/
def State.alertN (s : State) : Bool := fld (s.reg (modR .ALERT_STATUS)) 7 0 = 0

/-- ALERT_STATUS_CLEAR. -/
def execAlertStatusClear (value : W64) (s : State) : Out := .next (s.alertClear (fld value 7 0))

/- The issue throttle (R471). -/

/-- A reason to throttle a die begins: bit 0 temperature, 1 input current, 2 voltage margin. -/
def State.throttle (s : State) (d b : Nat) : State :=
  let old := nth s.pwr.thr 0 d
  let s := s.onPwr fun p => { p with thr := p.thr.set d (old ||| 2 ^ b) }
  if old ≠ 0 then s else (((s.raise (.dieCtl d) 11).alert 4).override)

/-- A reason to throttle a die ends. -/
def State.unthrottle (s : State) (d b : Nat) : State :=
  let old := nth s.pwr.thr 0 d
  s.onPwr fun p => { p with thr := p.thr.set d (old - (old &&& 2 ^ b)) }

/-- THERMAL_THROTTLE: a compute-die sensor at 95 °C. -/
def execThermalThrottle (die temp : Nat) (s : State) : Out :=
  guardPart (decide (die < 2)) <|
    let s := s.onPwr fun p => { p with dieTemp := p.dieTemp.set die temp }
    if s.pwr.pwrGood && decide (95 ≤ temp) then s.throttle die 0 else s

/-- THROTTLE_RELEASE: 92 °C. -/
def execThrottleRelease (die temp : Nat) (s : State) : Out :=
  guardPart (decide (die < 2)) <|
    let s := s.onPwr fun p => { p with dieTemp := p.dieTemp.set die temp }
    if temp ≤ 92 then s.unthrottle die 0 else s

/-- THERM_TRIP: 105 °C on a compute die (part 0 or 1), a base die (2) or the host die (3); the input switch opens. -/
def execThermTrip (part temp : Nat) (s : State) : Out :=
  guardPart (decide (part < 4)) <|
    if s.pwr.pwrGood && decide (105 ≤ temp) then s.powerOff s.pwr.pwrEn true false
    else s.onPwr fun p =>
      if part < 2 then { p with dieTemp := p.dieTemp.set part temp } else if part = 2 then { p with baseTemp := temp } else { p with hostTemp := temp }

/- The 36 V input (R462). -/

/-- VIN_WARN: a sample of VIN36 in mV; one in range ends the condition. -/
def execVinWarn (mv : Nat) (s : State) : Out :=
  .next <|
    let bad := decide (mv < 33500) || decide (39500 < mv)
    let s := s.onPwr fun p => { p with vin := mv, cond := b01 bad }
    if bad && s.pwr.pwrGood then (s.raise (.dieCtl 0) 8).alert 0 else s

/-- VIN_FAULT: below 32.0 V or above 41.0 V; a fault, and shutdown until PWR_EN is cycled. -/
def execVinFault (mv : Nat) (s : State) : Out :=
  .next <|
    let s := s.onPwr fun p => { p with vin := mv }
    if s.pwr.pwrGood && (decide (mv < 32000) || decide (41000 < mv)) then ((s.raise (.dieCtl 0) 9).alert 1).powerOff s.pwr.pwrEn true true else s

/-- VIN_OVERCURRENT: a sample of the input current in mA; above 80 A both dies are throttled and VIN_WARN is raised. -/
def execVinOvercurrent (ma : Nat) (s : State) : Out :=
  .next <|
    let s := s.onPwr fun p => { p with iin := ma }
    if s.pwr.pwrGood && decide (80000 < ma) then (((s.throttle 0 1).throttle 1 1).raise (.dieCtl 0) 8).alert 0
    else (s.unthrottle 0 1).unthrottle 1 1

/- Conversion (R463, R464). -/

/-- PHASE_SHED: a spare is marked for the next slot, a safety action; with fewer than 24 phases left the power is capped, and below 20 the module shuts down. -/
def execPhaseShed (phase : Nat) (s : State) : Out :=
  guardPart (decide (phase < 28)) <|
    let id := modR .PHASE_STATUS
    if !s.pwr.pwrGood || bit (s.reg id) phase then s else
    let s := ((((s.setRegFld id phase phase 1).bump (modR .PHASE_SHED_TOTAL) 1).raise (.dieCtl 0) 10).alert 2).override
    let due := (s.dieRel 0).marks.countP fun m => m.kind = 0x0B
    if s.phasesUsable < 20 then s.powerOff s.pwr.pwrEn true true
    else if s.phasesUsable < 24 then (s.onPwr fun p => { p with capLimit := s.phasesUsable * 2600 / 24 }).spareExhausted 0
    else if due < fld (s.reg id) 63 60 then s.onRel 0 fun x => { x with marks := x.marks ++ [⟨0x0B, 0, phase⟩] }
    else s

/- Adaptive loops (R466–R469). -/

/-- VOLTAGE_LOOP: `margin` in 0.1 %; VCORE moves one 2.5 mV step toward 10 %, within its bounds. -/
def execVoltageLoop (die margin : Nat) (s : State) : Out :=
  guardPart (decide (die < 2)) <|
    if !s.pwr.pwrGood then s else
    let id := modR .VOLT_BOUND die
    let lo := 2 * fld (s.reg id) 15 0
    let hi := 2 * fld (s.reg id) 31 16
    let v := nth s.pwr.vcore 0 die
    let want := if margin < 100 then v + 5 else if 100 < margin then v - 5 else v
    let v' := max lo (min hi want)
    let held := decide (want ≠ v')
    let was := bit (s.reg id) 48
    let s := s.onPwr fun p => { p with vcore := p.vcore.set die v' }
    let s := (s.setRegFld id 47 32 (v' / 2)).setRegFld id 48 48 (b01 held)
    let s := if held then s.bump (modR .VOLT_HELD_US_TOTAL) 10 else s
    let s := if held && !was then s.raise (.dieCtl die) 13 else s
    if margin < 30 ∧ v' = hi then s.throttle die 2 else s.unthrottle die 2

/-- VOLT_BOUND (R482): while HELD, 600–850 mV, floor not above the ceiling; at once. -/
def State.voltBound (s : State) (d : Nat) (value : W64) : State :=
  let f := fld value 15 0
  let c := fld value 31 16
  if !s.isHeld ∨ f < 600 ∨ 850 < c ∨ c < f then s.decodeError true (0x026000000010 + 8 * d)
  else
    let v := max (2 * f) (min (2 * c) (nth s.pwr.vcore 0 d))
    let s := s.onPwr fun p => { p with vcore := p.vcore.set d v }
    ((s.setRegFld (modR .VOLT_BOUND d) 31 16 c).setRegFld (modR .VOLT_BOUND d) 15 0 f).setRegFld (modR .VOLT_BOUND d) 47 32 (v / 2)
/-- VOLT_BOUND. -/
def execVoltBound (die : Nat) (value : W64) (s : State) : Out := guardPart (decide (die < 2)) (s.voltBound die value)

/-- CLK_BOUND (R482): while HELD, 8–15, floor not above the ceiling. -/
def State.clkBound (s : State) (value : W64) : State :=
  let f := fld value 7 0
  let c := fld value 15 8
  if !s.isHeld ∨ f < 8 ∨ 15 < c ∨ c < f then s.decodeError true 0x026000000020
  else (s.setRegFld (modR .CLK_BOUND) 15 8 c).setRegFld (modR .CLK_BOUND) 7 0 f
/-- CLK_BOUND. -/
def execClkBound (value : W64) (s : State) : Out := .next (s.clkBound value)

/-- POWER_CAP (R482): while HELD, 900–2,600 W. -/
def State.powerCap (s : State) (value : W64) : State :=
  let w := fld value 11 0
  if !s.isHeld ∨ w < 900 ∨ 2600 < w then s.decodeError true 0x026000000028 else s.setRegFld (modR .POWER_CAP) 11 0 w
/-- POWER_CAP. -/
def execPowerCap (value : W64) (s : State) : Out := .next (s.powerCap value)

/-- The frequency loop's proposal (R468): the highest k that its power prediction allows, not above K_CEIL; the prediction is the hardware's own. -/
def State.propose (s : State) : Nat :=
  let cap := min s.pwr.capLimit (fld (s.reg (modR .POWER_CAP)) 11 0)
  min (fld (s.reg (modR .CLK_BOUND)) 15 8) (max 8 (Config.freqChoice s.clock cap))

/-- The root's choice: the lowest proposal of the job within its own CLK_BOUND. -/
def State.chooseK (s : State) : Nat :=
  let low := (s.hank.props.map Prod.snd).foldl min s.propose
  max (fld (s.reg (modR .CLK_BOUND)) 7 0) (min (fld (s.reg (modR .CLK_BOUND)) 15 8) low)

/-- Step 5 of R276: the announced k takes effect; above this module's proposal it raises CLK_HELD. An unscheduled slot has only a change that an earlier slot had no time for. -/
def State.slotClock (s : State) (scheduled : Bool) : State :=
  let k := max 8 (min 15 s.step.kNext)
  let p := fld (s.reg (modR .CLK_BOUND)) 23 20
  let held := decide (p < k)
  if !scheduled && decide (k = s.clkK) then s else
  let s := (s.setRegFld (modR .CLK_BOUND) 19 16 k).setRegFld (modR .CLK_BOUND) 24 24 (b01 held)
  if held then (s.raise (.dieCtl 0) 14).bump (modR .CLK_HELD_TOTAL) 1 else s

/- Reference clocks (R474). -/

/-- REF_LOST: reference r is lost for 1 µs. -/
def execRefLost (r : Nat) (s : State) : Out :=
  guardPart (decide (r < 2)) <|
    if s.pwr.refLost.contains r then s
    else ((s.onPwr fun p => { p with refLost := p.refLost ++ [r] }).raise (.dieCtl r) 12).alert 5

/-- REF_RETURN: lock is restored at the next slot. -/
def execRefReturn (r : Nat) (s : State) : Out :=
  guardPart (decide (r < 2)) <|
    if s.pwr.refLost.contains r then s.onPwr fun p => { p with refLost := p.refLost.filter (· ≠ r), refRelock := true } else s

/-- REF_HOLDOVER_EXPIRY: the module enters RESET and asserts ALERT_N; the RESET_N pin stays as the board drives it. -/
def execRefHoldoverExpiry (s : State) : Out :=
  .next (if s.pwr.refLost.isEmpty || s.pwr.inReset then s else ((s.moduleReset true).onPwr fun p => { p with resetN := s.pwr.resetN }).alert 5)

/- PMBus over I3C (R477). -/

/-- Bytes returned over the sideband, which answers while PWR_GOOD is high. -/
def State.i3cReply (s : State) (bs : List Byte) : State := if s.pwr.pwrGood then { s with i3c := s.i3c ++ [bs] } else s

/-- LINEAR11 of a value in thousandths: the smallest exponent from −16 whose mantissa fits; the mantissa is rounded to nearest. -/
def linear11 (milli : Nat) : Nat :=
  let y (e : Nat) : Nat := if e ≤ 16 then (milli * 2 ^ (16 - e) + 500) / 1000 else (milli + 500 * 2 ^ (e - 16)) / (1000 * 2 ^ (e - 16))
  let e := ((List.range 32).find? fun e => y e ≤ 1023).getD 31
  toTwos 5 ((e : Int) - 16) * 2 ^ 11 + min (y e) 1023

/-- A LINEAR11 word as two bytes, low byte first. -/
def linBytes (milli : Nat) : List Byte := leBytes 2 (linear11 milli)

/-- A block read: its length, then its bytes. -/
def blockBytes (bs : List Byte) : List Byte := leBytes 1 bs.length ++ bs

/-- STATUS_INPUT: bits 6 and 5 over- and under-voltage warning, bit 1 over-current warning. -/
def State.statusInput (s : State) : Nat :=
  let w := nbit (fld (s.reg (modR .ALERT_STATUS)) 7 0) 0
  b01 (w && decide (39500 < s.pwr.vin)) * 2 ^ 6 + b01 (w && decide (s.pwr.vin < 33500)) * 2 ^ 5 + b01 (w && decide (80000 < s.pwr.iin)) * 2

/-- STATUS_TEMPERATURE: bit 6, over-temperature warning. -/
def State.statusTemp (s : State) : Nat := b01 (nbit (fld (s.reg (modR .ALERT_STATUS)) 7 0) 4) * 2 ^ 6

/-- STATUS_WORD: bit 13 INPUT, 12 MFR_SPECIFIC, 11 POWER_GOOD#, 2 TEMPERATURE. -/
def State.statusWord (s : State) : Nat :=
  let a := fld (s.reg (modR .ALERT_STATUS)) 7 0
  b01 (nbit a 0 || nbit a 1) * 2 ^ 13 + b01 (bits a 3 2 ≠ 0 || bits a 7 5 ≠ 0) * 2 ^ 12 + b01 (!s.pwr.pwrGood) * 2 ^ 11 + b01 (nbit a 4) * 2 ^ 2

/-- CLEAR_FAULTS. -/
def execClearFaults (s : State) : Out := .next (if s.pwr.pwrGood then s.alertClear 0xFF else s)
/-- CAPABILITY: the spec gives no value for the byte. -/
def execCapability (s : State) : Out := .next (s.i3cReply [Config.pmbusCapability])
/-- VIN_UV_WARN_LIMIT: 33.5 V. -/
def execVinUvWarnLimit (s : State) : Out := .next (s.i3cReply (linBytes 33500))
/-- STATUS_WORD. -/
def execStatusWord (s : State) : Out := .next (s.i3cReply (leBytes 2 s.statusWord))
/-- STATUS_INPUT. -/
def execStatusInput (s : State) : Out := .next (s.i3cReply (leBytes 1 s.statusInput))
/-- STATUS_TEMPERATURE. -/
def execStatusTemperature (s : State) : Out := .next (s.i3cReply (leBytes 1 s.statusTemp))
/-- READ_VIN. -/
def execReadVin (s : State) : Out := .next (s.i3cReply (linBytes s.pwr.vin))
/-- READ_IIN. -/
def execReadIin (s : State) : Out := .next (s.i3cReply (linBytes s.pwr.iin))
/-- READ_TEMPERATURE_1: the hottest compute die. -/
def execReadTemperature1 (s : State) : Out := .next (s.i3cReply (linBytes (1000 * max (nth s.pwr.dieTemp 0 0) (nth s.pwr.dieTemp 0 1))))
/-- READ_TEMPERATURE_2: the hottest base die. -/
def execReadTemperature2 (s : State) : Out := .next (s.i3cReply (linBytes (1000 * s.pwr.baseTemp)))
/-- READ_PIN. -/
def execReadPin (s : State) : Out := .next (s.i3cReply (linBytes (1000 * s.pwr.pin)))
/-- MFR_ID: "IXVR". -/
def execMfrId (s : State) : Out := .next (s.i3cReply (blockBytes [0x49, 0x58, 0x56, 0x52]))
/-- MFR_MODEL: "FX3M-512". -/
def execMfrModel (s : State) : Out := .next (s.i3cReply (blockBytes [0x46, 0x58, 0x33, 0x4D, 0x2D, 0x35, 0x31, 0x32]))

end Sys2Proof.Machine
end

