-- ==== Sys2Proof/Machine/Security.lean ====
section
/-! DEFINITION. Security (chapter 17): firmware boot and recovery, policies, lifecycle, the security mailbox, attestation. -/

namespace Sys2Proof.Machine

/- Firmware (R434–R437). -/

/-- Little-endian field of a byte string. -/
def leAt (bs : List Byte) (a n : Nat) : Nat := leNat ((bs.drop a).take n)

/-- All bytes of a range are 0. -/
def zeroAt (bs : List Byte) (a n : Nat) : Bool := ((bs.drop a).take n).all (· = 0)

/-- The component table's entries: offset, size, digest, and whether reserved fields are 0. -/
def fwComps (bs : List Byte) : List (Nat × Nat × Nat × Bool) :=
  (List.range (leAt bs 0x10 2)).map fun i =>
    let a := 0x100 + 96 * i
    (leAt bs (a + 8) 8, leAt bs (a + 16) 8, leAt bs (a + 24) 64, zeroAt bs (a + 2) 6 && zeroAt bs (a + 88) 8)

/-- SHA-512 of the bytes that the firmware's signature covers. -/
def fwDigestOf (bs : List Byte) : BitVec 512 := sha512 (bs.take (leAt bs 8 8 - 132))

/-- The first check of R435 that the image in flash fails; 0 when it passes. -/
def Sec.fwCheck (x : Sec) : Nat :=
  let bs := x.flash
  let len := leAt bs 8 8
  let slot := leAt bs 7 1
  let n := leAt bs 0x10 2
  let key := (bs.drop 0x40).take 133
  let form := decide (leAt bs 0 4 = 0x57465846) && decide (leAt bs 4 2 = 1) && decide (leAt bs 6 1 < 64) && decide (slot < 4)
    && decide (1 ≤ n) && decide (n ≤ 16) && decide (leAt bs 0x12 1 < 2) && zeroAt bs 0x13 45 && zeroAt bs 0xC5 59
    && decide (0x100 + 96 * n + 132 ≤ len) && decide (len ≤ 2 ^ 25) && decide (len ≤ bs.length) && (fwComps bs).all (·.2.2.2)
  if !form then 1
  else if (sha512 key).toNat ≠ x.ixvorHash slot ∨ x.revoked slot then 2
  else if leAt bs 6 1 < x.svn then 3
  else if !ecdsaVerify key (fwDigestOf bs) ((bs.drop (len - 132)).take 66) ((bs.drop (len - 66)).take 66) then 4
  else if (fwComps bs).all fun c => (sha512 ((bs.drop c.1).take c.2.1)).toNat = c.2.2.1 then 0 else 5

/-- Raises the SVN in OTP to `n` (R437). -/
def State.raiseSvn (s : State) (n : Nat) : State :=
  let ws := (List.range n).filter fun i => decide (s.sec.svn ≤ i)
  ws.foldl (fun s i =>
    let s := s.onSec fun x => x.burn 0 (0x40 + i) lifeWord
    if s.sec.readsBack 0 (0x40 + i) lifeWord then s else s.raise (.dieCtl 0) 17) s

/-- FIRMWARE_BOOT: RESET_N is released with PWR_GOOD high and both references present; a SCRAPPED module's boot ROM halts (R434, R438, 18 R474). -/
def execFirmwareBoot (s : State) : Out :=
  .next <|
    if !s.pwr.pwrGood || s.pwr.resetN || (s.pwr.inReset && !s.pwr.refLost.isEmpty) then s
    else { s with pwr := { s.pwr with resetN := true, inReset := false }
                  sec := { s.sec with booting := decide (s.sec.lifecycle ≠ 4), mode := 0, stage := 0 } }

/-- Boot ends (R435–R437): an image that passes R435 may raise the SVN and names its key slot; repairs are applied, the other dies released. -/
def State.fwRelease (s : State) : State :=
  let bs := s.sec.flash
  let svn := leAt bs 6 1
  let ok := decide (s.sec.fwCheck = 0)
  let s := if ok && decide (leAt bs 0x12 1 = 1) then s.raiseSvn svn else s
  { s.applyOtp with sec := { s.applyOtp.sec with booting := false, mode := 1, stage := 0, keySlot := if ok then leAt bs 7 1 else 0, fwSvn := svn, fwDigest := fwDigestOf bs } }

/-- FIRMWARE_VERIFIED: in BLANK any image runs; a check that fails leads to recovery, with ALERT_N (R435, R436, R438). -/
def execFirmwareVerified (s : State) : Out :=
  .next <|
    if !s.sec.booting then s else
    let c := if s.sec.lifecycle = 0 then 0 else s.sec.fwCheck
    if c = 0 then s.fwRelease
    else { s with sec := { s.sec with booting := false, mode := 2, stage := c } }.alert 7

/-- RECOVERY_IMAGE: written to the boot flash, from which the boot runs again (R436). -/
def execRecoveryImage (bytes : List Byte) (s : State) : Out :=
  .next <|
    if s.sec.mode ≠ 2 then s
    else { s with sec := { s.sec with flash := bytes, booting := true, mode := 0, stage := 0 } }

/-- HBM_READY (18 R479): every unit is zeroed under the host key, and waiting host accesses go. -/
def execHbmReady (s : State) : Out :=
  .next <|
    if s.sec.mode ≠ 1 || s.pwr.hbmReady then s
    else ({ s with hbm := [], poison := [], mem := { s.mem with pages := [] }, pwr := { s.pwr with hbmReady := true } }).serveHeld

/- Attestation (R444–R449). -/

/-- Bytes of a register array of digest words. -/
def State.digestReg (s : State) (n : RegName) : List Byte := (List.range 8).flatMap fun i => leBytes 8 (s.reg (modR n i)).toNat

/-- Content of a measurement block (*Measurements*), all of one state. -/
def State.measurement (s : State) (i : Nat) : List Byte :=
  let x := s.sec
  match i with
  | 1 => digestBytes (sha512 (Config.certBytes 0 []))
  | 2 => digestBytes x.fwDigest
  | 3 => leBytes 1 x.svn ++ leBytes 1 x.fwSvn
  | 4 =>
    let g := x.polGen.getD 0
    leBytes 1 x.lifecycle ++ leBytes 1 (b01 x.debug) ++ leBytes 1 (match x.polGen with | some g => g | none => 0xFF)
      ++ digestBytes (sha512 (x.bytes (polBase g) 33))
  | 5 => s.digestReg .IMAGE_MEAS ++ leBytes 1 (b01 s.step.imageValid)
  | 6 => s.digestReg .ROUTE_MEAS
  | 7 => (List.range 4).flatMap fun c => leBytes 1 (s.ctxCtrl c % 4) ++ leBytes 1 (s.ctx c).gen
  | _ => leBytes 8 (s.journal.jseq - 1) ++ digestBytes s.journal.prev

/-- The certificate chain of slot 0 (R445): what the chain's DER leaves to its standards is uninterpreted; the Alias certificate carries measurements 1–4. -/
def State.certChain (s : State) : List Byte :=
  let x := s.sec
  Config.certBytes 1 [] ++ Config.certBytes 2 [x.fwDigest] ++ (x.bytes 0x201 0x1FF).take (x.word 0 0x200).toNat
    ++ Config.certBytes 3 ([1, 2, 3, 4].map fun i => sha512 (s.measurement i))

/-- The SPDM ERROR response: version 1.2, code. -/
def spdmError (code : Nat) : List Byte := [0x12, 0x7F, BitVec.ofNat 8 code, 0]

/-- A request of *SPDM subset*. -/
inductive SpdmReq where
  | version
  | capabilities
  | algorithms
  | digests
  | certificate (slot offset length : Nat)
  | challenge (slot : Nat) (nonce : List Byte)
  | measurements (op : Nat) (signed : Bool) (nonce : List Byte)
deriving DecidableEq, Repr

/-- Measurement blocks that an operation names: 0 none but their number, 1–8 one, 0xFF all. -/
def measBlocks (op : Nat) : List Nat := if op = 0xFF then [1, 2, 3, 4, 5, 6, 7, 8] else if 1 ≤ op ∧ op ≤ 8 then [op] else []

/-- The response to a request: its SPDM code, then the fields that the spec names; signed responses use the Alias key (R447–R449). -/
def State.spdmAnswer (s : State) (r : SpdmReq) : List Byte :=
  let chain := s.certChain
  let dg := digestBytes (sha512 chain)
  let sign (body : List Byte) : List Byte :=
    let sg := ecdsaSign s.sec.alias_ (sha512 body)
    body ++ padTo 66 sg.1 ++ padTo 66 sg.2
  match r with
  | .version => [0x10, 0x04, 0, 0, 0, 1, 0, 0x12]
  | .capabilities => [0x12, 0x61, 0, 0] ++ Config.certBytes 4 []
  | .algorithms => [0x12, 0x63, 0, 0] ++ Config.certBytes 5 []
  | .digests => [0x12, 0x01, 0, 1] ++ dg
  | .certificate slot off len =>
    if slot ≠ 0 then spdmError 0x01
    else let part := (chain.drop off).take len; [0x12, 0x02, 0, 0] ++ leBytes 2 part.length ++ leBytes 2 (chain.length - off - part.length) ++ part
  | .challenge slot nonce =>
    if slot ≠ 0 then spdmError 0x01
    else sign ([0x12, 0x03, 0, 1] ++ dg ++ nonce)
  | .measurements op signed nonce =>
    if 8 < op ∧ op ≠ 0xFF then spdmError 0x01 else
    let body := [0x12, 0x60, BitVec.ofNat 8 (if op = 0 then 8 else 0), 0]
      ++ (measBlocks op).flatMap fun i => let m := s.measurement i; leBytes 1 i ++ leBytes 2 m.length ++ m
    if signed then sign (body ++ nonce) else body

/-- Notes how far negotiation has gone. -/
def SpdmReq.stage : SpdmReq → Nat
  | .version => 1
  | .capabilities => 2
  | .algorithms => 3
  | .digests => 0
  | .certificate _ _ _ => 0
  | .challenge _ _ => 0
  | .measurements _ _ _ => 0

/-- A request of the board controller over I3C: busy while a relayed one is in progress (R447). -/
def State.spdmI3c (s : State) (r : SpdmReq) : State :=
  if s.sec.mode = 0 then s else
  match s.sec.busy with
  | some j => if j.op = 8 then s.i3cReply (spdmError 0x03) else s.i3cReply (s.spdmAnswer r)
  | none => (s.i3cReply (s.spdmAnswer r)).onSec fun x => { x with spdm := max x.spdm r.stage }

/-- GET_VERSION. -/
def execGetVersion (s : State) : Out := .next (s.spdmI3c .version)
/-- GET_CAPABILITIES. -/
def execGetCapabilities (s : State) : Out := .next (s.spdmI3c .capabilities)
/-- NEGOTIATE_ALGORITHMS. -/
def execNegotiateAlgorithms (s : State) : Out := .next (s.spdmI3c .algorithms)
/-- GET_DIGESTS. -/
def execGetDigests (s : State) : Out := .next (s.spdmI3c .digests)
/-- GET_CERTIFICATE. -/
def execGetCertificate (slot offset length : Nat) (s : State) : Out := .next (s.spdmI3c (.certificate slot offset length))
/-- CHALLENGE. -/
def execChallenge (slot : Nat) (nonce : List Byte) (s : State) : Out := .next (s.spdmI3c (.challenge slot (padTo 32 nonce)))
/-- GET_MEASUREMENTS. -/
def execGetMeasurements (op : Nat) (signed : Bool) (nonce : List Byte) (s : State) : Out :=
  .next (s.spdmI3c (.measurements op signed (padTo 32 nonce)))

/-- A relayed request's bytes: SPDM request codes. -/
def spdmParse (bs : List Byte) : Option SpdmReq :=
  let p1 := leAt bs 2 1
  let p2 := leAt bs 3 1
  match leAt bs 1 1 with
  | 0x84 => some .version
  | 0xE1 => some .capabilities
  | 0xE3 => some .algorithms
  | 0x81 => some .digests
  | 0x82 => some (.certificate (p1 % 16) (leAt bs 4 2) (leAt bs 6 2))
  | 0x83 => some (.challenge (p1 % 16) (padTo 32 (bs.drop 4)))
  | 0xE0 => some (.measurements p2 (p1 % 2 = 1) (padTo 32 (bs.drop 4)))
  | _ => none

/- The security mailbox (R458, R459). -/

/-- The argument's bytes. -/
def State.secArg (s : State) : List Byte := (List.range 64).flatMap fun i => leBytes 8 (s.reg (modR .SEC_ARG i)).toNat

/-- Writes a register array from bytes. -/
def State.putBytes (s : State) (n : RegName) (bs : List Byte) : State :=
  (List.range 64).foldl (fun s i => s.setReg (modR n i) (w64 (leNat ((bs.drop (8 * i)).take 8)))) s

/-- 64 DRBG bytes; each draw is a new number. -/
def State.draw (s : State) : State × List Byte := (s.onSec fun x => { x with draws := x.draws + 1 }, padTo 64 (Config.drbg s.sec.draws))

/-- A command's state after its effect, its result code and its result. -/
abbrev SecRes := State × Nat × List Byte

/-- CTX_KEY_GEN (R451): key number draw + 1, known to nobody. -/
def State.ctxKeyGen (s : State) (c : Nat) : SecRes :=
  if 4 ≤ c then (s, 3, [])
  else if !s.isHeld ∨ (s.ctx c).state ≠ .free then (s, 2, [])
  else if s.sec.trngFail then (s, 7, [])
  else
    let r := s.draw.1
    ({ r with ctxs := sset r.ctxs c { r.ctx c with key := some r.sec.draws } }, 0, [])

/-- Links with encryption enabled. -/
def State.encLinks (s : State) : List Nat := (List.range 40).filter fun h => s.linkOn h && s.linkEnc h

/-- LINK_SECRET (R455): the secret goes into the key phase not in use; each link reports it to its far end (R456). -/
def State.linkSecret (s : State) : SecRes :=
  let p := 1 - ((s.encLinks.head?).map s.linkPhase).getD 0
  let s := s.onSec fun x => { x with secrets := sset x.secrets p (s.secArg.take 64) }
  (s.encLinks.foldl (fun s h =>
    if s.linkPhase h = p then s
    else { (s.setLink h { s.link h with ownPhase := some p }) with out := s.out ++ [OutMsg.phase h p] }) s, 0, [])

/-- Writes words of OTP die A in order, each read back; stops at the first that fails. -/
def State.burnAll (s : State) : List (Nat × W64) → State × Bool
  | [] => (s, true)
  | (w, v) :: t =>
    let s := s.onSec fun x => x.burn 0 w v
    if s.sec.readsBack 0 w v then s.burnAll t else (s.raise (.dieCtl 0) 17, false)

/-- POLICY_WRITE (R442). -/
def State.policyWrite (s : State) : SecRes :=
  if !s.isHeld then (s, 2, []) else
  let w (i : Nat) : W64 := s.reg (modR .SEC_ARG i)
  if fld (w 32) 63 6 ≠ 0 then (s, 3, []) else
  match (List.range 8).find? s.sec.polBlank with
  | none => (s.raise (.dieCtl 0) 18, 5, [])
  | some g =>
    let ws := (List.range 63).map fun i => (polBase g + i, if i ≤ 32 then w i else 0)
    let r := s.burnAll (ws ++ [(polBase g + 63, w64 (0x47454E5F4F4B0000 + g))])
    (r.1, if r.2 then 0 else 6, [])

/-- An RMA token: 133-byte key of an unrevoked Ixvor slot, then R and S (R439). -/
def State.rmaToken (s : State) (bs : List Byte) : Bool :=
  let key := bs.take 133
  ((List.range 4).any fun k => !s.sec.revoked k && decide (s.sec.ixvorHash k = (sha512 key).toNat))
    && ecdsaVerify key (sha512 (s.sec.serial ++ ascii "RMA")) ((bs.drop 133).take 66) ((bs.drop 199).take 66)

/-- LIFECYCLE_ADVANCE (R439): to the next state, at the next power-on. -/
def State.lifeAdvance (s : State) : SecRes :=
  if !s.isHeld then (s, 2, []) else
  let target := (s.reg (modR .SEC_ARG 0)).toNat
  let now := s.sec.lifeOtp
  if target ≠ now + 1 ∨ 4 < target then (s, 3, [])
  else if target = 3 ∧ !s.rmaToken (s.secArg.drop 8) then (s, 4, [])
  else match (List.range 4).find? fun i => decide (s.sec.word 0 i = 0) with
    | none => (s, 5, [])
    | some i => let r := s.burnAll [(i, lifeWord)]; (r.1, if r.2 then 0 else 6, [])

/-- DEBUG_CHALLENGE (R440). -/
def State.debugChallenge (s : State) : SecRes :=
  if s.sec.trngFail then (s, 7, []) else
  let r := s.draw
  let n := r.2.take 32
  (r.1.onSec fun x => { x with nonce := some n }, 0, n)

/-- DEBUG_UNLOCK (R440): a nonce serves one attempt. -/
def State.debugUnlock (s : State) (slot : Nat) : SecRes :=
  match s.sec.nonce with
  | none => (s, 2, [])
  | some n =>
    let s := s.onSec fun x => { x with nonce := none }
    let a := s.secArg
    let key := a.take 133
    if 4 ≤ slot then (s, 3, [])
    else if s.sec.custHash slot ≠ some (sha512 key).toNat
        ∨ !ecdsaVerify key (sha512 (n ++ s.sec.serial)) ((a.drop 133).take 66) ((a.drop 199).take 66) then (s, 4, [])
    else ((s.onSec fun x => { x with debug := true }).raise (.dieCtl 0) 20, 0, [])

/-- SPDM_RELAY: length and request bytes; the answer is that of the state at the request (R449). -/
def State.spdmRelay (s : State) : SecRes :=
  let a := s.secArg
  let n := leAt a 0 8
  if 504 < n then (s, 3, []) else
  let r := match spdmParse ((a.drop 8).take n) with
    | some q => s.spdmAnswer q
    | none => spdmError 0x07
  let s := s.onSec fun x => { x with spdm := max x.spdm (((spdmParse ((a.drop 8).take n)).map SpdmReq.stage).getD 0) }
  (s, 0, leBytes 8 r.length ++ r)

/-- RANDOM. -/
def State.secRandom (s : State) : SecRes :=
  if s.sec.trngFail then (s, 7, []) else (s.draw.1, 0, s.draw.2)

/-- A command's effect, result code and result, by OP; any other OP is an invalid argument. -/
def State.secRun (s : State) (op index : Nat) : SecRes :=
  match op with
  | 1 => s.ctxKeyGen index
  | 2 => s.linkSecret
  | 3 => (s.onSec fun x => { x with imageKey := s.secArg.take 133 }, 0, [])
  | 4 => s.policyWrite
  | 5 => s.lifeAdvance
  | 6 => s.debugChallenge
  | 7 => s.debugUnlock index
  | 8 => s.spdmRelay
  | 9 => s.secRandom
  | _ => (s, 3, [])

/-- GO: while BUSY it is ignored and counted (R458). -/
def State.secGo (s : State) (op index : Nat) : State :=
  if s.sec.busy.isSome then s.bump (modR .SEC_BUSY_TOTAL) 1 else
  let s := s.setReg (modR .SEC_CMD) (w64 (op % 256 + index % 16 * 2 ^ 8))
  let r := s.secRun (op % 256) (index % 16)
  (r.1.onSec fun x => { x with busy := some ⟨op % 256, r.2.1, r.2.2⟩ }).setRegFld (modR .SEC_STATUS) 8 8 1

/-- CTX_KEY_GEN. -/
def execCtxKeyGen (ctx : Nat) (s : State) : Out := .next (s.secGo 1 ctx)
/-- LINK_SECRET. -/
def execLinkSecret (s : State) : Out := .next (s.secGo 2 0)
/-- IMAGE_KEY. -/
def execImageKey (s : State) : Out := .next (s.secGo 3 0)
/-- POLICY_WRITE. -/
def execPolicyWrite (s : State) : Out := .next (s.secGo 4 0)
/-- LIFECYCLE_ADVANCE. -/
def execLifecycleAdvance (s : State) : Out := .next (s.secGo 5 0)
/-- DEBUG_CHALLENGE. -/
def execDebugChallenge (s : State) : Out := .next (s.secGo 6 0)
/-- DEBUG_UNLOCK. -/
def execDebugUnlock (slot : Nat) (s : State) : Out := .next (s.secGo 7 slot)
/-- SPDM_RELAY. -/
def execSpdmRelay (s : State) : Out := .next (s.secGo 8 0)
/-- RANDOM. -/
def execRandomBytes (s : State) : Out := .next (s.secGo 9 0)

/-- SEC_CMD_DONE: result, code, BUSY clear; a code other than 0 raises SEC_CMD_ERROR. Commands that carry a secret or a key leave their zeroing due (R459). -/
def execSecCmdDone (s : State) : Out :=
  .next <| match s.sec.busy with
    | none => s
    | some j =>
      let s := (s.putBytes .SEC_RESULT j.result).setReg (modR .SEC_STATUS) (w64 j.code)
      let s := s.onSec fun x => { x with busy := none, zeroDue := x.zeroDue || [1, 2, 7, 9].contains j.op }
      if j.code = 0 then s else s.raise (.dieCtl 0) 16

/-- Zeroes SEC_ARG and SEC_RESULT where that is due and no command is in progress. -/
def State.secZero (s : State) : State :=
  if s.sec.zeroDue && s.sec.busy.isNone then ((s.putBytes .SEC_ARG []).putBytes .SEC_RESULT []).onSec fun x => { x with zeroDue := false } else s

/-- SEC_ARG_ZEROING: 1 ms after completion. -/
def execSecArgZeroing (s : State) : Out := .next s.secZero
/-- SEC_STATUS_READ: the read returns SEC_STATUS; with BUSY 0 the zeroing follows. -/
def execSecStatusRead (s : State) : Out := .next (s.reply (s.readReg (modR .SEC_STATUS)).toNat).secZero

/-- TRNG_FAIL: until power is cycled. -/
def execTrngFail (s : State) : Out := .next ((s.onSec fun x => { x with trngFail := true }).raise (.dieCtl 0) 21)

end Sys2Proof.Machine
end

