-- ==== Sys2Proof/Machine/Contexts.lean ====
section
/-! DEFINITION. Contexts: creation, teardown, drain, scrub (15 R394–R401; 17 R452, R454). -/

namespace Sys2Proof.Machine

/-- Applies a function to a context's record. -/
def State.onCtx (s : State) (c : Nat) (f : Ctx → Ctx) : State := { s with ctxs := sset s.ctxs c (f (s.ctx c)) }

/-- A refused creation or teardown (R394, R399). -/
def State.ctxRefuse (s : State) (c : Nat) : State :=
  (s.setRegFld (modR .CTX_CTRL c) 34 34 1).raise .module 11 c

/-- The page table lies wholly inside the host region. -/
def State.tableInHost (s : State) (c : Nat) : Bool :=
  let pt := fld (s.reg (modR .CTX_PT c)) 47 0
  let n := fld (s.reg (modR .CTX_PAGES c)) 17 0
  decide (s.mem.hostBase ≤ pt) && decide (pt + 8 * n ≤ s.mem.hostBase + s.mem.hostSize * 2 ^ 30)

/-- No ground of R394 refuses the creation of context c with generation g. -/
def State.createOk (s : State) (c g : Nat) : Bool :=
  let n := fld (s.reg (modR .CTX_PAGES c)) 17 0
  s.isHeld && decide ((s.ctx c).state = .free) && decide (g ≠ (s.ctx c).lastGen) && s.tableInHost c && decide (0 < n) && decide (n ≤ 245760)

/-- Creation of a context (R394); the key-owner table is rebuilt (17 R452). -/
def State.ctxCreate (s : State) (c g : Nat) : State :=
  if s.createOk c g then (s.onCtx c fun x => { x with state := .active, gen := g }).keyRebuild.1 else s.ctxRefuse c

/-- CREATE. -/
def execCreate (ctx gen : Nat) (s : State) : Out := guardPart (decide (ctx < 4)) (s.ctxCreate ctx (gen % 256))

/-- A queue without the messages of context c of which no flit has gone: one that has begun is handed to the link (13 R346). -/
def dropMessages (c : Nat) (q : List TxMsg) : List TxMsg := q.filter fun m => !m.opens c

/-- The scrub of a context begins; its pages revert to the host key (R399, 17 R452, R454). -/
def State.ctxScrub (s : State) (c : Nat) : State := (s.onCtx c fun x => { x with state := .scrubbing }).keyRebuild.1

/-- Contexts that drain with nothing outstanding go on to their scrub (R399). -/
def State.ctxPoll (s : State) : State :=
  (List.range 4).foldl (fun s c => if (s.ctx c).state = .draining ∧ s.ctxDrain c = 0 then s.ctxScrub c else s) s

/-- Cores that the image assigns to a context. -/
def State.ctxCores (s : State) (c : Nat) : List Nat := s.job.used.filter fun n => s.ctxOf n = c

/-- Descriptors queued in a core's DMA engine and not begun. -/
def Core.dropQueued (c : Core) : Core := { c with dma := c.dma.filter (·.walked), plyInbox := [], vec := { c.vec with inbox := [] } }

/-- A die's knot store without what waits there for context c; remote operations that found the queue full come in as room is found, and the old generation's are dropped then (R398, 11 R294). -/
def State.dropKnots (s : State) (c d : Nat) : State :=
  let ks := s.knot d
  ((s.setKnot d { ks with pend := ks.pend.filter fun p => p.ctx ≠ c, behind := ks.behind.filter fun o => o.ctx ≠ c
                          queue := ks.queue.filter fun o => o.ctx ≠ c }).doorOpen d).flush d

/-- Teardown of a context (R399). -/
def State.ctxTeardown (s : State) (c : Nat) : State :=
  if !s.isHeld ∨ (s.ctx c).state ≠ .active then s.ctxRefuse c
  else
    let s := s.onCtx c fun x => { x with lastGen := x.gen, gen := (x.gen + 1) % 256, state := .draining }
    let s := { s with job := { s.job with inert := c :: s.job.inert } }
    let s := (s.ctxCores c).foldl (fun s n => s.onCore n Core.dropQueued) s
    ((s.dropKnots c 0).dropKnots c 1).ctxPoll

/-- TEARDOWN. -/
def execTeardown (ctx : Nat) (s : State) : Out := guardPart (decide (ctx < 4)) (s.ctxTeardown ctx)

/-- CTX_DRAIN_FORCED: the bound expires, and what remains is discarded. -/
def execCtxDrainForced (ctx : Nat) (s : State) : Out :=
  guardPart (decide (ctx < 4)) <|
    if (s.ctx ctx).state ≠ .draining then s else
    let s := (s.ctxCores ctx).foldl (fun s n => s.onCore n fun c => { c with dma := [], held := [] }) s
    let s := (List.range 8).foldl (fun s st => match (s.cap st).mp with
      | some m => if ((s.capRec? st m.rcd).map (·.ctx)) = some ctx then s.onCap st fun k => { k with mp := none } else s
      | none => s) s
    let s := { s with links := s.links.map fun (p : Nat × LinkSt) => (p.1, { p.2 with queues := p.2.queues.map (dropMessages ctx) }) }
    (s.raise .module 10 ctx).ctxScrub ctx

/-- Zeroes one granule of the window on every channel that serves a write of it, with its poison (R317). -/
def State.zeroGranule (s : State) (a : Nat) : State :=
  let l := s.locate a
  (s.redirect l.1 l.2).2.foldl (fun s c =>
    let k := chanKey c l.2
    let u := unitOf c l.2
    { s with hbm := s.hbm.filter fun p => !(decide (k ≤ p.1) && decide (p.1 < k + 2048))
             poison := s.poison.filter fun q => !(decide (u ≤ q) && decide (q < u + 32)) }) s

/-- Zeroes a 2 MiB page under the host key (17 R454). -/
def State.zeroPage (s : State) (p : Nat) : State :=
  let s := if (p + 1) * 2 ^ 21 ≤ hbmSize then (List.range 1024).foldl (fun s i => s.zeroGranule (p * 2 ^ 21 + i * 2048)) s else s
  { s with mem := { s.mem with pages := sdel s.mem.pages p } }

/-- Clears every physical knot of a context's translation table on a die. -/
def State.clearCtxKnots (s : State) (d c : Nat) : State :=
  let ks := s.knot d
  let mine := (ks.xlate.filter fun p => p.1 / 4096 = c && kValid p.2).map fun p => kPhys p.2
  s.setKnot d { ks with tied := ks.tied.filter fun k => !mine.contains k }

/-- CTX_TEARDOWN_DONE: the scrub is complete, the key is erased, the context is FREE. -/
def execCtxTeardownDone (ctx : Nat) (s : State) : Out :=
  guardPart (decide (ctx < 4)) <|
    if (s.ctx ctx).state ≠ .scrubbing then s else
    let s := (s.ctxPages ctx).foldl State.zeroPage s
    let s := (s.ctxCores ctx).foldl State.wipeScratch s
    let s := (s.clearCtxKnots 0 ctx).clearCtxKnots 1 ctx
    (s.onCtx ctx fun x => { x with state := .free, key := none }).raise .module 9 ctx

/-- DMA_COMPLETE (12 R334): acknowledgements arrive and the oldest descriptor with nothing outstanding completes; a context that drains may go on. -/
def execDmaComplete (core acks late : Nat) (s : State) : Out := guardPart (decide (core < 384)) (s.dmaComplete core acks late).ctxPoll

/- The context registers (R401). -/

/-- A write of CTX_PT, CTX_PAGES or CTX_DRAIN_BOUND: accepted in the states and range of its table, otherwise a decode error. -/
def State.ctxRegWrite (s : State) (id : RegId) (v : W64) (addr : Nat) : State :=
  let f := match id.name with
    | .CTX_PT => fld v 47 0
    | .CTX_PAGES => fld v 17 0
    | _ => fld v 31 0
  let ok : Bool := match id.name with
    | .CTX_PT => decide ((s.ctx id.idx).state = .free) && decide (f % 2048 = 0)
    | .CTX_PAGES => decide ((s.ctx id.idx).state = .free) && decide (1 ≤ f) && decide (f ≤ 245760)
    | _ => s.isHeld && decide (10 ≤ f) && decide (f ≤ 1000000)
  if ok then s.setReg id (w64 f) else s.decodeError true addr

/-- A write of CTX_CTRL: a one clears REFUSED; CREATE, then TEARDOWN, act as set. -/
def State.ctxCtrlWrite (s : State) (c : Nat) (v : W64) : State :=
  let s := if bit v 34 then s.setRegFld (modR .CTX_CTRL c) 34 34 0 else s
  let s := if bit v 32 then s.ctxCreate c (fld v 15 8) else s
  if bit v 33 then s.ctxTeardown c else s

end Sys2Proof.Machine
end

