-- ==== Sys2Proof/Machine/Mirror.lean ====
section
/-! DEFINITION. Splice-buddy mirrors and the job-wide state block (13 R362, 16 R425–R429, R433). -/

namespace Sys2Proof.Machine

/- The mirror region (R425). The spec gives the directory entry's content, not its layout; the layout here is the model's own. -/

/-- A mirror directory entry: mirrored member, unit (a stack, or a die for an exchange residual), record, its context, TENSOR_ID; byte offsets of the header and the two halves from the region's base; bytes of a half. -/
structure MirEntry where
  exch : Bool
  rcd : Nat
  unit : Nat
  member : Nat
  ctx : Nat
  tid : Nat
  head : Nat
  size : Nat
  half0 : Nat
  half1 : Nat
deriving DecidableEq, Repr

/-- Decodes a directory entry's four words. -/
def mirEntry (ws : List W64) : MirEntry :=
  let w (i : Nat) := nth ws 0 i
  { exch := bit (w 0) 1, rcd := fld (w 0) 13 2, unit := fld (w 0) 17 14, member := fld (w 0) 31 18, ctx := fld (w 0) 33 32, tid := fld (w 0) 63 48
    head := 64 * fld (w 1) 31 0, size := 64 * fld (w 1) 63 32, half0 := (w 2).toNat, half1 := (w 3).toNat }

/-- Little-endian words of a byte list. -/
def wordsLe (bs : List Byte) : List W64 := (piecesOf 8 (bs.length + 1) bs).map fun p => w64 (leNat p)

/-- The entries of the mirror directory, up to the first whose bit 0 is clear. -/
def State.mirEntries (s : State) : Nat → Nat → List MirEntry
  | 0, _ => []
  | f + 1, a =>
    if s.mem.mirBase + s.mem.mirSize < a + 32 then [] else
    let ws := wordsLe (s.hbmRead a 32)
    if bit (nth ws 0 0) 0 then mirEntry ws :: s.mirEntries f (a + 32) else []

/-- The whole directory. -/
def State.mirDir (s : State) : List MirEntry := s.mirEntries 8192 s.mem.mirBase

/-- The mirror commit word of an entry (R425). -/
def State.mirCommit (s : State) (e : MirEntry) : W64 := w64 (s.hbmNat (s.mem.mirBase + e.head) 8)

/-- Address of a half. -/
def State.mirHalf (s : State) (e : MirEntry) (h : Bool) : Nat := s.mem.mirBase + if h then e.half1 else e.half0

/-- Address of the tensor scale of a half in the mirror header. -/
def State.mirScale (s : State) (e : MirEntry) (h : Bool) : Nat := s.mem.mirBase + e.head + if h then 12 else 8

/-- Writes an entry's mirror commit word: VERSION, VALID = 1 and HALF. -/
def State.mirWord (s : State) (e : MirEntry) (version : Nat) (h : Bool) : State :=
  s.hbmWrite (s.mem.mirBase + e.head) (leBytes 8 (version % 2 ^ 48 * 2 ^ 16 + 2 + b01 h))

/-- MIRROR_ERROR. -/
def State.mirrorError (s : State) : State := s.raise .module 14

/-- The entry that mirror data is for. -/
def State.mirFor (s : State) (m : MirrorMsg) : Option (MirEntry × Nat) :=
  (s.mirDir.zipIdx).find? fun p => p.1.member = m.member && p.1.exch = m.exch && p.1.unit = m.unit && p.1.rcd = m.rcd

/-- Writes mirror data into the half that the commit word does not name; the final message carries the half's tensor scale (R426). The region is privileged memory, and the host partition's regulator is charged (12 R314). -/
def State.mirWrite (s : State) (e : MirEntry) (m : MirrorMsg) : State :=
  let h := !bit (s.mirCommit e) 0
  let a := s.mirHalf e h + m.off
  let s := if m.off + m.bytes.length ≤ e.size then (s.charge 4 true a m.bytes.length).hbmWrite a m.bytes else s
  if m.final && !m.exch then s.hbmWrite (s.mirScale e h) (leBytes 4 m.wt) else s

/-- A transaction for context c of generation g is dropped and counted unless c is ACTIVE in that generation (15 R398). -/
def State.ctxStale (s : State) (c g : Nat) : Bool := decide ((s.ctx c).state ≠ .active) || decide ((s.ctx c).gen ≠ g)
/-- A memory or data transaction dropped under 15 R398. -/
def State.dropStale (s : State) (c : Nat) : State := s.bump (modR .CTX_STALE_TOTAL c) 1

/-- Every message of the half and its final marker have come in. -/
def MirRx.whole (r : MirRx) : Bool := r.total = some r.got

/-- The account of an entry's half with one more message; its first message starts it. -/
def State.mirNote (s : State) (i : Nat) (m : MirrorMsg) : MirRx :=
  let old := (s.mirror.find? fun x => x.entry = i && x.step = m.step && x.attempt = m.attempt && m.off ≠ 0).getD ⟨i, m.step, m.attempt, 0, 0, none⟩
  { old with wt := if m.final then m.wt else old.wt, got := old.got + m.bytes.length
             total := if m.final then some (m.off + m.bytes.length) else old.total }

/-- Mirror data comes in: data of the step in progress is written, noted and acknowledged; committed slots that a primary sends while this module is HELD are committed once the whole half is in (R428); other data is dropped. Data without a directory entry raises MIRROR_ERROR. -/
def State.mirrorTake (s : State) (m : MirrorMsg) : Option State :=
  let now := s.entered && decide (m.step = s.logline) && decide (m.attempt = s.step.attempt)
  let rebuild := s.isHeld && decide (m.step < s.logline)
  if s.ctxStale m.ctx m.gen then some (s.dropStale m.ctx)
  else if !now && !rebuild then some s else
  match s.mirFor m with
  | none => some s.mirrorError
  | some (e, i) =>
    let h := !bit (s.mirCommit e) 0
    if s.accessHeld 4 true (s.mirHalf e h + m.off) m.bytes.length then none else
    let s := (s.mirWrite e m).send (.mirrorAck m.member)
    let r := s.mirNote i m
    let rest := s.mirror.filter fun x => x.entry ≠ i
    some <| if rebuild && r.whole then { s with mirror := rest }.mirWord e m.step h else { s with mirror := r :: rest }
/-- MIRROR_DATA. -/
def execMirrorData (m : MirrorMsg) (s : State) : Out := .next (s.arrive (.mirrorData m) fun s => s.mirrorTake m)

/-- The mirror commit of COMMITTING (R426): each half that is complete for the step, but for vetoed tensors. -/
def State.mirrorCommit (s : State) (vetoes : List Nat) : State :=
  let dir := s.mirDir
  let s1 := s.mirror.foldl (fun s x =>
    match dir[x.entry]? with
    | none => s
    | some e =>
      if !x.whole || x.step ≠ s.logline || x.attempt ≠ s.step.attempt || (!e.exch && vetoes.contains e.tid) then s
      else s.mirWord e x.step (!bit (s.mirCommit e) 0)) s
  { s1 with mirror := [] }

/- Sending (R362, R426–R428). -/

/-- Bytes of a record's master and moment planes, with the gaps between them (R425). -/
def CapRec.halfBytes (r : CapRec) (c : Cap) : Nat :=
  ((((r.planes c).take 5).zipIdx).filter fun p => p.1 ≠ 0).foldl (fun a p => max a (r.offset c p.2 + p.1)) 0

/-- The working weight's format and the tensor scale in force for a record (08 R219). -/
def State.workScale (s : State) (r : CapRec) : Nat :=
  if r.tracked then trackedScale (sget s.wMax .zero r.tid) (if r.work = 0 then 0x20 else if r.work = 1 then 0x23 else 0x45) r.headroom else r.wt

/-- A half cut into messages, the last with the final marker. -/
def mirPieces (m : MirrorMsg) (bs : List Byte) : List MirrorMsg :=
  let ps := piecesOf 62400 (bs.length + 1) bs
  (ps.zipIdx).map fun p => { m with off := 62400 * p.2, bytes := p.1, final := decide (p.2 + 1 = ps.length) }

/-- Account of a send: the state, whether every read worked, whether one must wait, the bytes and messages sent. -/
structure MirAcc where
  st : State
  ok : Bool := true
  held : Bool := false
  bytes : Nat := 0
  msgs : Nat := 0
deriving DecidableEq, Repr

/-- Sends one object, where its source can be read. -/
def MirAcc.add (a : MirAcc) (mk : MirrorMsg → OutMsg) (m : MirrorMsg) (p : Part) (b : Nat) (src : Except MemErr (State × List Byte)) : MirAcc :=
  match src with
  | .ok (s, bs) =>
    let ms := mirPieces m bs
    { a with st := ms.foldl (fun s x => s.send (mk x)) s, bytes := a.bytes + bs.length, msgs := a.msgs + ms.length }
  | .error e => { a with st := a.st.memErr p b m.ctx e, ok := false, held := a.held || decide (e = .held) }

/-- Whether a route set of the module reaches a member. -/
def State.reaches (s : State) (set member : Nat) : Bool := s.route.present && (s.route.dests set).contains member

/-- Mirror route of a die. -/
def State.mirRoute (s : State) (d : Nat) : Nat := if d = 0 then s.route.mirrorA else s.route.mirrorB

/-- The module has a splice buddy that die d's mirror route reaches. -/
def State.hasBuddy (s : State) (d : Nat) : Bool :=
  decide (1 < s.job.modules) && decide (s.route.buddy ≠ s.job.member) && s.reaches (s.mirRoute d) s.route.buddy

/-- One Capstan record's half in the given slot, as a message before it is cut. -/
def State.capMirror (s : State) (st i : Nat) (r : CapRec) (version : Nat) : MirrorMsg :=
  { member := s.job.member, step := version, attempt := s.step.attempt, exch := false, unit := st, rcd := i, off := 0
    bytes := [], wt := s.workScale r, final := false, ctx := r.ctx, gen := (s.ctx r.ctx).gen }

/-- Reads the master and moment planes of the slot that a commit word names, or of the other one. -/
def State.capHalf (s : State) (st : Nat) (r : CapRec) (w : W64) (other : Bool) : Except MemErr (State × List Byte) :=
  let a := r.slotBase (bit w 0 != other)
  let n := r.halfBytes (s.cap st)
  match s.ctxRead (.cap st) r.ctx a n with
  | .error e => .error e
  | .ok bs => .ok (s.capLoad st r [(r.commit, 8), (a, n)], bs)

/-- The mirror data of a step: the master and moment sections that each Capstan wrote, and plane s mod 2 of each TOPK and SIGN record (R362, R426). -/
def State.sendMirrors (s : State) : MirAcc :=
  let caps := (List.range 8).flatMap fun st =>
    if s.hasBuddy (st / 4) then ((s.cap st).recs.filter fun p => (s.cap st).processed.contains p.2).map fun p => (st, p.2, p.1) else []
  let a : MirAcc := caps.foldl (fun a x =>
    let s := a.st
    let r := x.2.2
    a.add (.mirror (s.mirRoute (x.1 / 4)) s.route.buddy) (s.capMirror x.1 x.2.1 r s.logline) (.stack x.1) 8
      (match s.commitWord (.cap x.1) r with
      | .error e => .error e
      | .ok w => s.capHalf x.1 r w true)) { st := s }
  let whips := (List.range 2).flatMap fun d =>
    if s.hasBuddy d then (((s.whip d).records.map xrec).zipIdx.filter fun p => p.1.mode ≤ 1 && s.live p.1.ctx).map fun p => (d, p.2, p.1) else []
  whips.foldl (fun a x =>
    let s := a.st
    let r := x.2.2
    let at_ := r.plane (s.logline % 2)
    a.add (.mirror (s.mirRoute x.1) s.route.buddy)
      { member := s.job.member, step := s.logline, attempt := s.step.attempt, exch := true, unit := x.1, rcd := x.2.1, off := 0, bytes := []
        wt := 0, final := false, ctx := r.ctx, gen := (s.ctx r.ctx).gen }
      (.whip x.1) 3
      (match s.ctxRead (.die x.1) r.ctx at_ (4 * r.elems) with
      | .error e => .error e
      | .ok bs => .ok (s.ctxLoad (.die x.1) r.ctx at_ (4 * r.elems), bs))) a

/-- MIRROR_STATUS after a send; the command waits where a read does. -/
def MirAcc.done (a : MirAcc) : Option State :=
  if a.held then none
  else some (a.st.setReg (modR .MIRROR_STATUS) (w64 (a.bytes % 2 ^ 48 + b01 (!a.ok) * 2 ^ 62 + 2 ^ 63)))

/-- MODE 0 (R427): the committed half of every entry goes to the target. -/
def State.mirrorRestore (s : State) (route target : Nat) : MirAcc :=
  s.mirDir.foldl (fun (a : MirAcc) e =>
    let s := a.st
    let w := s.mirCommit e
    let h := bit w 0
    let at_ := s.mirHalf e h
    if !bit w 1 then a else
    a.add (.restore route target)
      { member := e.member, step := fld w 63 16, attempt := 0, exch := e.exch, unit := e.unit, rcd := e.rcd, off := 0, bytes := []
        wt := if e.exch then 0 else s.hbmNat (s.mirScale e h) 4, final := false, ctx := e.ctx, gen := (s.ctx e.ctx).gen }
      .module 14
      (if s.accessHeld 4 false at_ e.size then .error .held else .ok (s.charge 4 false at_ e.size, s.hbmRead at_ e.size))) { st := s, ok := s.reaches route target }

/-- MODE 1 (R428): this module's committed slots, frozen records included, go to the target; those of a context torn down are skipped (15 R400). -/
def State.mirrorRebuild (s : State) (route target : Nat) : MirAcc :=
  let caps := (List.range 8).flatMap fun st => ((s.cap st).recs.filter fun p => s.live p.1.ctx).map fun p => (st, p.2, p.1)
  caps.foldl (fun (a : MirAcc) x =>
    let s := a.st
    let r := x.2.2
    match s.commitWord (.cap x.1) r with
    | .error e => a.add (.mirror route target) (s.capMirror x.1 x.2.1 r 0) (.stack x.1) 8 (.error e)
    | .ok w =>
      if !bit w 1 then a
      else a.add (.mirror route target) (s.capMirror x.1 x.2.1 r (fld w 63 16)) (.stack x.1) 8 (s.capHalf x.1 r w false)) { st := s, ok := s.reaches route target }

/-- The send that an accepted MIRROR_CTRL starts; none where one of its reads must wait. -/
def State.mirrorGo (s : State) (v : W64) : Option State :=
  if bit v 62 then (s.mirrorRebuild (fld v 29 14) (fld v 13 0)).done else (s.mirrorRestore (fld v 29 14) (fld v 13 0)).done

/-- A write of MIRROR_CTRL, accepted only while HELD (R433); SEND starts the send that MODE names. -/
def State.mirrorCtrl (s : State) (v : W64) : State :=
  if !s.isHeld then s.decodeError true 0x020000500030 else
  let s := s.setReg (modR .MIRROR_CTRL) (setFld (setFld v 63 63 0) 61 30 0)
  if !bit v 63 then s else s.arrive (if bit v 62 then .mirrorRebuild v else .mirrorRestore v) fun s => s.mirrorGo v
/-- MIRROR_RESTORE: SEND with MODE 0. -/
def execMirrorRestore (value : W64) (s : State) : Out := .next (s.mirrorCtrl (setFld (setFld value 63 63 1) 62 62 0))
/-- MIRROR_REBUILD: SEND with MODE 1. -/
def execMirrorRebuild (value : W64) (s : State) : Out := .next (s.mirrorCtrl (setFld (setFld value 63 63 1) 62 62 1))

/- Restore data at a standby (R427). -/

/-- A write by a base die to a restored record, with its error; none where it must wait. -/
def State.restoreWrite (s : State) (st ctx a : Nat) (bs : List Byte) : Option State :=
  match s.ctxWrite (.cap st) ctx a bs with
  | .ok s => some s
  | .error e => s.memFail (.stack st) 8 ctx e

/-- Several such writes in order. -/
def State.restoreAll (s : State) (st ctx : Nat) : List (Nat × List Byte) → Option State
  | [] => some s
  | w :: t => (s.restoreWrite st ctx w.1 w.2).bind fun s => s.restoreAll st ctx t

/-- A restored Capstan record: its working weight and keep copy are formed again from the master, and its commit word is written last, with SLOT 0 (R427 step 3). -/
def State.restoreRecord (s : State) (st : Nat) (r : CapRec) (wt version : Nat) : Option State :=
  match s.ctxRead (.cap st) r.ctx r.slot0 (4 * r.n) with
  | .error e => s.memFail (.stack st) 8 r.ctx e
  | .ok bs =>
    let c := s.cap st
    let ws : List W32 := (wordsOf 4 bs).map (BitVec.ofNat 32)
    let wk := workPlane (if r.work = 0 then 0x20 else if r.work = 1 then 0x23 else 0x45) wt ws
    let kp := workPlane (if r.keep = 1 then 0x23 else 0x24) wt ws
    let at_ (i : Nat) := r.slot0 + r.offset c i
    (s.capLoad st r [(r.slot0, 4 * r.n)]).restoreAll st r.ctx
      ((if r.work ≠ 3 then [(at_ 5, wk.1), (at_ 6, wk.2.1)] else []) ++ (if r.keep ≠ 0 then [(at_ 7, kp.1), (at_ 8, kp.2.1)] else [])
        ++ [(r.commit, leBytes 8 (version % 2 ^ 48 * 2 ^ 16 + 2))])

/-- Restore data comes in: refused with MIRROR_ERROR unless the module is HELD and VERSION + 1 is its LOGLINE; a half goes into slot 0, a residual into plane (s − 1) mod 2. Data for a context that is not ACTIVE in the message's generation is dropped (15 R398, R400). -/
def State.restoreTake (s : State) (m : MirrorMsg) : Option State :=
  if !s.isHeld || decide (m.step + 1 ≠ s.logline) then some s.mirrorError
  else if m.exch then
    (match s.xrec? m.unit m.rcd with
    | none => some s.mirrorError
    | some x =>
      if s.ctxStale x.ctx m.gen || !s.live x.ctx then some (s.dropStale x.ctx) else
      s.restoreWrite (4 * m.unit) x.ctx (x.plane (m.step % 2) + m.off) (m.bytes.take (4 * x.elems - m.off)))
  else match s.capRec? m.unit m.rcd with
    | none => some s.mirrorError
    | some r =>
      if s.ctxStale r.ctx m.gen || !s.live r.ctx then some (s.dropStale r.ctx) else
      (s.restoreWrite m.unit r.ctx (r.slot0 + m.off) (m.bytes.take (r.halfBytes (s.cap m.unit) - m.off))).bind fun s =>
        if m.final then s.restoreRecord m.unit r m.wt m.step else some s
/-- RESTORE_DATA. -/
def execRestoreData (m : MirrorMsg) (s : State) : Out := .next (s.arrive (.restoreData m) fun s => s.restoreTake m)

/- The state block (R429). -/

/-- The shared state of layer n, as the first core that has the layer holds it. -/
def State.layerShared (s : State) (n : Nat) : Option EcLayer :=
  s.job.used.findSome? fun c => sfind (s.core c).ec.layers n

/-- The block's word for a layer. -/
def EcLayer.blockWord (l : EcLayer) : Nat := l.rung % 4 + b01 l.held * 2 ^ 2 + l.storm % 256 * 2 ^ 8 + l.calm % 256 * 2 ^ 16

/-- The 279,616 bytes of the job-wide state block. -/
def State.stateBlock (s : State) : List Byte :=
  leBytes 4 0x45545453 ++ leBytes 4 1 ++ leBytes 8 s.logline ++ leBytes 8 s.job.jobId ++ leBytes 40 0
    ++ (List.range 256).flatMap (fun n => leBytes 4 (match s.layerShared n with | some l => l.blockWord | none => 0))
    ++ (List.range 4096).flatMap (fun i => leBytes 4 (toF32Sat (sget s.siteMax .zero i)).1.toNat)
    ++ (List.range 65536).flatMap (fun i => leBytes 4 (toF32Sat (sget s.wMax .zero i)).1.toNat)

/-- The layer's state as a block word gives it. -/
def EcLayer.ofBlock (l : EcLayer) (w : Nat) : EcLayer :=
  { l with rung := bits w 1 0, held := nbit w 2, storm := bits w 15 8, calm := bits w 23 16 }

/-- Maxima read from a block: entries that are not zero. -/
def State.blockMaxima (s : State) (a n : Nat) : SMap Fl :=
  ((List.range n).map fun i => (i, s.hbmNat (a + 4 * i) 4)).filterMap fun p =>
    if p.2 = 0 then none else some (p.1, f32 (BitVec.ofNat 32 p.2))

/-- STATE_CTRL.RESTORE. -/
def State.stateRestore (s : State) : State :=
  let a := fld (s.reg (modR .STATE_BASE)) 47 0
  if s.step.ran || decide (s.hbmNat a 4 ≠ 0x45545453) || decide (s.hbmNat (a + 4) 4 ≠ 1) || decide (s.hbmNat (a + 8) 8 ≠ s.logline)
      || decide (s.hbmNat (a + 16) 8 ≠ s.job.jobId) then
    (s.setRegFld (modR .STATE_CTRL) 2 2 1).raise .module 15
  else
    let s1 := s.job.used.foldl (fun t c => t.onCore c fun x =>
      { x with ec := { x.ec with layers := x.ec.layers.map fun (p : Nat × EcLayer) => (p.1, p.2.ofBlock (s.hbmNat (a + 0x40 + 4 * p.1) 4)) } }) s
    { s1 with siteMax := s.blockMaxima (a + 0x440) 4096, wMax := s.blockMaxima (a + 0x4440) 65536 }

/-- An accepted SAVE; none where its write must wait. -/
def State.saveGo (s : State) : Option State :=
  let a := fld (s.reg (modR .STATE_BASE)) 47 0
  if s.accessHeld 4 true a 279616 then none else some ((s.charge 4 true a 279616).hbmWrite a s.stateBlock)
/-- An accepted RESTORE; none where its read must wait. -/
def State.restoreGo (s : State) : Option State :=
  let a := fld (s.reg (modR .STATE_BASE)) 47 0
  if s.accessHeld 4 false a 279616 then none else some (s.charge 4 false a 279616).stateRestore

/-- A write of STATE_CTRL, accepted only while HELD (R433): a one clears REFUSED, then SAVE and RESTORE act. -/
def State.stateCtrl (s : State) (v : W64) : State :=
  if !s.isHeld then s.decodeError true 0x020000500020 else
  let s := if bit v 2 then s.setRegFld (modR .STATE_CTRL) 2 2 0 else s
  let s := if bit v 0 then s.arrive .save State.saveGo else s
  if bit v 1 then s.arrive .restore State.restoreGo else s
/-- SAVE. -/
def execSave (s : State) : Out := .next (s.stateCtrl 1)
/-- RESTORE. -/
def execRestore (s : State) : Out := .next (s.stateCtrl 2)

/-- A control that was accepted when it came, and has waited for memory since, goes on in whatever state the module is now; none for any other command. -/
def State.acceptedGo (s : State) (i : Instr) : Option State :=
  match i with
  | .save => some (s.arrive i State.saveGo)
  | .restore => some (s.arrive i State.restoreGo)
  | .mirrorRestore v => some (s.arrive i fun s => s.mirrorGo v)
  | .mirrorRebuild v => some (s.arrive i fun s => s.mirrorGo v)
  | .journalResume v => some (s.arrive i fun s => s.resumeGo v)
  | _ => none

end Sys2Proof.Machine
end

