-- ==== Sys2Proof/Machine/Steps.lean ====
section
/-! DEFINITION. The step cycle and the hank hierarchy (10 R270–R279; 13 R354–R359; 16 R409, R415): states, ready, tick, summary, commit, maintenance slots, abort, heartbeats. -/

namespace Sys2Proof.Machine

/-- Applies a function to the step controller. -/
def State.onStep (s : State) (f : StepCtl → StepCtl) : State := { s with step := f s.step }
/-- Applies a function to the hank's records. -/
def State.onHank (s : State) (f : Hank → Hank) : State := { s with hank := f s.hank }

/-- The message names the step and attempt in force. -/
def State.now (s : State) (step attempt : Nat) : Bool := decide (step = s.logline) && decide (attempt = s.step.attempt)

/- The hank (13 R347, R354). -/

/-- The module is the root manager. -/
def State.isRoot (s : State) : Bool := s.job.role = 2
/-- The job has more than one module. -/
def State.inJob (s : State) : Bool := decide (1 < s.job.modules)
/-- Members of this hank; a lone module is its own. -/
def State.hankMembers (s : State) : List Nat :=
  if s.inJob then (List.range s.route.hankSize).map (· + s.route.hankFirst) else [s.job.member]
/-- The other hanks' managers, which report to a root. -/
def State.peerMgrs (s : State) : List Nat := if s.isRoot && s.inJob then s.route.dests s.route.peerMgrRoute else []
/-- Modules that report to this manager or root: a standby of its hank, known by its heartbeats, reports READY to no one (R355, 13 *Standbys*). -/
def State.reporters (s : State) : List Nat := (s.hankMembers.filter fun m => !s.hank.standbys.contains m) ++ s.peerMgrs

/-- Sends a message down the hierarchy: a root to the other managers and its hank, a manager to its hank. -/
def State.castDown (s : State) (m : Nat → OutMsg) : State :=
  if !s.inJob || s.job.role = 0 then s
  else if s.isRoot then (s.send (m s.route.peerMgrRoute)).send (m s.route.memberRoute)
  else s.send (m s.route.memberRoute)

/-- What a manager has gathered for a step and attempt is void once either changes. -/
def State.hankClear (s : State) : State :=
  s.onHank fun h => { h with ready := [], readySent := false, sums := [], total := none, decided := false }

/- HELD and ARMED (R270, R271, R274). -/

/-- The module is no longer ready for the step: it reports again when it is ARMED again (R271). -/
def State.unready (s : State) : State := s.onHank fun h => { h with ready := h.ready.filter (· ≠ s.job.member), readySent := false }

/-- A hold takes every module of the hank out of ARMED, so all report again (13 R357). -/
def State.holdReady (s : State) : State := s.onHank fun h => { h with ready := [], readySent := false }

/-- The module enters HELD from another state: STEP_HELD; links that went down retrain. -/
def State.enterHeld (s : State) : State :=
  ((s.unready.onStep fun c => { c with state := .held, tick := none, aborting := false }).raise .module 3).heldLinks

/-- A die is failed for a context that has cores in the image (16 R413). -/
def State.ctxFailed (s : State) : Bool :=
  s.usedCores.any fun n => [0, 1].any fun d => nbit (fld (s.reg (dieR .REL_STATUS d)) 63 60) (s.ctxOf n)

/-- What R270 asks of a module that leaves HELD or a sample for ARMED; a standby stays HELD (13 R360), and so does a module with a failed die or stack (16 R412, R413). -/
def State.canRun (s : State) : Bool :=
  bit (s.reg (modR .STEP_CTRL)) 0 && s.step.imageValid
    && (decide (s.logline < (s.reg (modR .STEP_LIMIT)).toNat) || decide ((s.reg (modR .STEP_LIMIT)).toNat = 2 ^ 64 - 1))
    && !s.route.standby && !s.ctxFailed && !(s.dieRel 0).failed && !(s.dieRel 1).failed && s.stackReset.all fun p => p.2 ≠ 1

/-- Reports ready at a manager: when its whole hank is, READY goes to the root; a root whose job is sends the tick, and waits TICK_DELAY itself (R355). -/
def State.readyPoll (s : State) : State :=
  if s.hank.readySent || !s.hank.lost.isEmpty || !(s.reporters.all s.hank.ready.contains) then s
  else
    let s := s.onHank fun h => { h with readySent := true }
    if s.isRoot then
      (s.castDown fun r => .tick r none s.logline s.step.attempt false 0).onStep fun c => { c with tick := some 0 }
    else s.send (.ready s.route.mgrRoute s.route.root s.logline s.step.attempt)

/-- A module of this manager's has reported ready. -/
def State.registerReady (s : State) (m : Nat) : State :=
  (s.onHank fun h => { h with ready := if h.ready.contains m then h.ready else m :: h.ready }).readyPoll

/-- In ARMED, once every feed listed for the step is tied, the module reports READY (R270). -/
def State.feedPoll (s : State) : State :=
  if s.step.state ≠ .armed ∨ s.step.aborting ∨ s.step.readySent ∨ !(s.feedsDue.all s.feedTied) then s
  else
    let s := s.onStep fun c => { c with readySent := true }
    if s.isManager then s.registerReady s.job.member
    else s.send (.ready s.route.mgrRoute s.route.manager s.logline s.step.attempt)

/-- Entry into ARMED: the step record's marks are cleared, η of every schedule entry is computed (08 R231), refresh rates are chosen (12 R311). -/
def State.enterArmed (s : State) : State :=
  let s := s.onStep fun c =>
    { c with state := .armed, armedAt := s.clock, fault := false, slack := false, rejected := false, veto := false, tnr := 0
             readySent := false, summarySent := false, mirrorSent := false, mirrorOut := 0, tick := none, aborting := false, maint := false }
  let s := s.job.used.foldl (fun s n => s.setReg (coreR .TETHER_STATUS n) 0) s
  let s := (s.schedAll.refreshArm).capsFresh
  { s with whips := s.whips.map fun (p : Nat × Whip) => (p.1, p.2.fresh) }

/-- Enters ARMED; a hold that has come for this step and attempt is then obeyed, once (13 R357). -/
def State.armGo (s : State) : State :=
  let s := s.enterArmed
  if s.step.holdTick = some (s.logline, s.step.attempt) then ((s.onStep fun c => { c with holdTick := none }).holdReady).enterHeld
  else s.feedPoll

/-- An exit from HELD into ARMED, unless the key-owner table cannot be rebuilt (17 R453). -/
def State.arm (s : State) : State :=
  let r := s.keyRebuild
  if !r.2 then r.1 else r.1.armGo

/-- Leaves HELD where R270 lets it. -/
def State.armTry (s : State) : State :=
  if s.isHeld && !s.step.faultHeld && s.load.isNone && s.canRun then s.arm else s

/-- The sample of R274, after a commit or a maintenance slot. A root that holds sends the hold with the tick (R357). -/
def State.sample (s : State) : State :=
  if s.canRun then s.armGo
  else
    let s := s.enterHeld
    if s.isRoot then s.holdReady.castDown fun r => .tick r none s.logline s.step.attempt true 0 else s

/- Controls. -/

/-- A write of STEP_CTRL.RUN (R274). -/
def State.runWrite (s : State) (run : Bool) : State :=
  let s := s.setRegFld (modR .STEP_CTRL) 0 0 (b01 run)
  if run then s.armTry
  else if s.step.state = .armed ∧ !s.step.aborting then s.enterHeld else s
/-- RUN. -/
def execRun (value : Bool) (s : State) : Out := .next (s.runWrite value)

/-- A write of STEP_LIMIT (R275). -/
def State.limitWrite (s : State) (v : W64) : State := (s.setReg (modR .STEP_LIMIT) v).armTry
/-- STEP_LIMIT. -/
def execStepLimit (value : W64) (s : State) : Out := .next (s.limitWrite value)

/-- A write of LOGLINE, accepted only while HELD (R275). -/
def State.loglineWrite (s : State) (v : W64) : State :=
  if !s.isHeld then s.decodeError true 0x020000010010 else ((s.setReg (modR .LOGLINE) v).hankClear).armTry

/-- A re-issue takes effect: ATTEMPT rises, FAULT_HELD clears (R277). -/
def State.reissueApply (s : State) : State :=
  ((s.onStep fun c => { c with attempt := c.attempt + 1, faultHeld := false }).hankClear).armTry

/-- A write of STEP_CTRL.REISSUE; a root sends it to the whole job (R358). The re-issue ends a re-rig, so a root then expects its lost members again (R361). -/
def State.reissueWrite (s : State) : State :=
  if !s.step.faultHeld ∨ 65535 ≤ s.step.attempt then s
  else
    let s := if s.isRoot then (s.castDown fun r => .reissue r s.logline (s.step.attempt + 1)).onHank fun h => { h with lost := [] } else s
    s.reissueApply
/-- REISSUE. -/
def execReissue (s : State) : Out := .next s.reissueWrite

/-- REISSUE_MESSAGE. -/
def execReissueMessage (step attempt : Nat) (s : State) : Out :=
  .next <|
    let s := s.castDown fun r => .reissue r step attempt
    if step = s.logline ∧ attempt = s.step.attempt + 1 ∧ s.step.faultHeld then s.reissueApply else s

/- Host knot operations (11 R303). -/

/-- A host knot operation; a tied feed may make the module ready. -/
def State.hostKnot (s : State) (d c k : Nat) (op : Option KOp) : State :=
  if op.isSome then (s.hostKnotOp d c k op).feedPoll else s.hostKnotOp d c k op
/-- HOST_NOP. -/
def execHostNop (die ctx knot : Nat) (s : State) : Out :=
  guardPart (decide (die < 2) && decide (ctx < 4) && decide (knot < 4096)) (s.hostKnot die ctx knot none)
/-- HOST_TIE. -/
def execHostTie (die ctx knot : Nat) (cellErr : Bool) (s : State) : Out :=
  guardPart (decide (die < 2) && decide (ctx < 4) && decide (knot < 4096)) ((s.cellCheck cellErr die ctx knot).hostKnot die ctx knot (some .tie))
/-- HOST_UNTIE. -/
def execHostUntie (die ctx knot : Nat) (cellErr : Bool) (s : State) : Out :=
  guardPart (decide (die < 2) && decide (ctx < 4) && decide (knot < 4096)) ((s.cellCheck cellErr die ctx knot).hostKnot die ctx knot (some .untie))

/- RUNNING (R264, R270, R271). -/

/-- A control core at the start of a step: register and program counter 0, nothing in flight. -/
def ControlCore.start (c : ControlCore) : ControlCore := { ({ } : ControlCore) with mode := .running, stream := c.stream, pool := c.pool }

/-- A guard at the start of a step. -/
def GuardSt.fresh (g : GuardSt) : GuardSt := { words := g.words }

/-- A core's units at the start of a step; scratch, tables, ratchet state and strand-core state (07 R180) stay. -/
def Core.start (c : Core) : Core :=
  { c with cc := c.cc.start, plies := ({ } : Core).plies, plyInbox := [], qnt := { testRun := c.qnt.testRun }
           ec := { c.ec with guards := c.ec.guards.map GuardSt.fresh, inbox := [], tiles := []
                             layers := c.ec.layers.map fun (p : Nat × EcLayer) => (p.1, { p.2 with cost := 0, residual := false, breached := false }) }
           vec := { kernel := c.vec.kernel, strands := c.vec.strands.map fun (p : Nat × Strand) => (p.1, { p.2 with launch := none }) }
           dma := [], held := [] }

/-- Timing reasons that hold for a whole step (R279): a throttled die, a migration window, a slow link, a retired UCIe module. -/
def State.stepReasons (s : State) : Nat :=
  (if s.pwr.thr.any (· ≠ 0) then 8 else 0)
    + (if (List.range 8).any s.migActive || s.linksSlow || !s.mem.retired.isEmpty then 4 else 0)

/-- Entry into RUNNING: the page-entry caches are cleared (15 R397), knots and units start afresh, queued remote operations apply (11 R294). With no used core it goes on to DRAINING at once. -/
def State.enterRunning (s : State) : State :=
  let s := s.onStep fun c => { c with state := .running, runAt := s.clock, tick := none }
  let s := (s.clearStepKnots 0).clearStepKnots 1
  let s := { s with sitePend := [], wPend := [], mirror := [], mem := { s.mem with xcache := [] } }
  let s := s.usedCores.foldl (fun s n => s.onCore n Core.start) s
  let s := (s.timingNr s.stepReasons)
  let s := ((s.applyRemoteQueue 0).applyRemoteQueue 1).payCredits
  if s.usedCores.isEmpty then s.enterDraining else s

/-- ENTER_RUNNING: TICK_DELAY less ELAPSED has passed since the tick. -/
def execEnterRunning (s : State) : Out :=
  .next (if s.step.state = .armed ∧ s.step.tick.isSome ∧ !s.step.aborting then s.enterRunning else s)

/-- READY: `member` reports to this manager or root. -/
def execReady (member step attempt : Nat) (s : State) : Out :=
  .next (if s.isManager && s.now step attempt && s.reporters.contains member then s.registerReady member else s)

/-- A tick comes late (R355): TICK_LATE, and TNR_REASON bit 0. -/
def State.tickLate (s : State) : State :=
  ((s.bump (modR .TICK_LATE_TOTAL) 1).raise .module 6).timingNr 1

/-- TICK: arrives over `link` with the ELAPSED of its sender; the latency measured for the link is added, and on forwarding the ns it spent here. -/
def execTick (step attempt : Nat) (hold : Bool) (elapsed link residence : Nat) (s : State) : Out :=
  guardPart (decide (link < 40)) <|
    let e := elapsed + (s.reg (linkR .LINK_LATENCY link)).toNat / 1000
    if s.isRoot || s.route.standby then s else
    let s := s.castDown fun r => .tick r none step attempt hold (e + residence)
    let armed := s.now step attempt && decide (s.step.state = .armed) && !s.step.aborting
    if hold then let s := s.holdReady; (if armed then s.enterHeld else s.onStep fun c => { c with holdTick := some (step, attempt) })
    else if !armed || !s.step.readySent then s
    else if s.route.tickDelay ≤ e then s.tickLate.enterRunning
    else s.onStep fun c => { c with tick := some e }

/- DRAINING and the step summary (R272, R358). -/

/-- A core has no operation left. -/
def Core.drained (c : Core) : Bool :=
  c.cc.inFlight.isEmpty && c.plyInbox.isEmpty && c.plies.all (fun p => p.queue.isEmpty && p.slots.all fun l => l.run.isNone)
    && c.qnt.ports.all List.isEmpty && c.ec.inbox.isEmpty && !(c.ec.guards.any fun g => g.reissued && !g.readOut)
    && c.vec.inbox.isEmpty && c.vec.queue.isEmpty && c.dma.isEmpty && c.held.isEmpty

/-- Everything that DRAINING waits for is done. -/
def State.drained (s : State) : Bool :=
  decide (s.step.state = .draining) && !s.step.aborting && s.usedCores.all (fun n => (s.core n).drained) && s.capsDone && s.whipsDone

/-- Layer n of core c overran its slack or had a residual breach (06 R167). -/
def EcLayer.storms (l : EcLayer) : Bool := decide (fld (nth l.words 0 0) 47 24 < l.cost) || l.residual

/-- This module's step summary. A maximum is an FP32 value; one of 2^128 or more is the largest finite one (DEDUCED, log 42). -/
def State.ownSummary (s : State) : Summary :=
  let ls := s.usedCores.flatMap fun n => (s.core n).ec.layers
  { storm := (List.range 256).filter fun n => ls.any fun p => p.1 = n && p.2.storms
    calm := (List.range 256).filter fun n => !(ls.any fun p => p.1 = n && p.2.breached)
    sites := (s.sitePend.filter fun p => decide (p.1 < s.plan.tracked)).map fun p => (p.1, (toF32Sat p.2).1)
    weights := (s.wPend.filter fun p => decide (p.1 < s.plan.wTracked)).map fun p => (p.1, (toF32Sat p.2).1)
    vetoes := s.localVetoes.eraseDups
    tnr := s.step.tnr
    fault := s.step.fault }

/-- Maxima of two lists, by number. -/
def maxima (a b : List (Nat × W32)) : List (Nat × W32) :=
  b.foldl (fun m p => sset m p.1 (if (sget m 0 p.1).toNat < p.2.toNat then p.2 else sget m 0 p.1)) a

/-- Managers combine summaries by OR, by AND for calm flags, by maximum. -/
def addSummary (a b : Summary) : Summary :=
  { storm := (a.storm ++ b.storm).eraseDups, calm := a.calm.filter b.calm.contains, sites := maxima a.sites b.sites
    weights := maxima a.weights b.weights, vetoes := (a.vetoes ++ b.vetoes).eraseDups, tnr := a.tnr ||| b.tnr, fault := a.fault || b.fault }

/-- The module starts to discard its step (16 R409): every unit stops and its queued work is dropped. -/
def Core.abort (c : Core) : Core :=
  { c with cc := { c.cc with mode := .idle, waiting := 0, inFlight := [], results := [] }
           plies := ({ } : Core).plies, plyInbox := [], qnt := { testRun := c.qnt.testRun }
           ec := { c.ec with inbox := [], tiles := [], guards := c.ec.guards.map GuardSt.fresh }
           vec := { c.vec with inbox := [], queue := [], strands := c.vec.strands.map fun (p : Nat × Strand) => (p.1, { p.2 with launch := none }) }
           dma := [], held := [] }

/-- Drops what waits at a die's knot store, but for the host's operations, which any step state takes (11 R303). -/
def State.abortKnots (s : State) (d : Nat) : State := s.setKnot d (s.knot d).hostOnly

/-- The module discards its step; it stays in its state until its quiescence is checked. -/
def State.startAbort (s : State) : State :=
  let s := s.onStep fun c => { c with aborting := true, tick := none }
  let s := s.job.used.foldl (fun s n => s.onCore n Core.abort) s
  let s := (s.abortKnots 0).abortKnots 1
  { s with caps := s.caps.map fun (p : Nat × Cap) => (p.1, p.2.fresh), whips := s.whips.map fun (p : Nat × Whip) => (p.1, p.2.fresh), mirror := [] }

/-- A step is in progress and no ABORT has reached it. -/
def State.inStep (s : State) : Bool :=
  (s.step.state = .armed || s.step.state = .running || s.step.state = .draining) && !s.step.aborting

/-- The root aborts the step in progress, unless it has decided to commit it (R358). -/
def State.rootAbort (s : State) : State :=
  if !s.inStep || s.hank.decided then s else (s.castDown fun r => .abort r s.logline s.step.attempt).startAbort

/-- A maintenance slot follows the commit of the step in progress (R276). -/
def State.slotDue (s : State) : Bool :=
  let period := max s.plan.maintPeriod 1
  decide (s.logline % period = period - 1)

/-- Keeps the clock multiplier of a COMMIT that a slot follows (18 R468). -/
def State.noteK (s : State) (k : Nat) : State := if s.slotDue then s.onStep fun c => { c with kNext := k } else s

/-- The root has every summary: COMMIT with the combined summary and the clock multiplier of the next slot (18 R468), or ABORT. -/
def State.decide_ (s : State) (m : Summary) : State :=
  if m.fault then s.rootAbort
  else
    let k := s.chooseK
    let s := s.castDown fun r => .commit r s.logline s.step.attempt m k
    (s.onHank fun h => { h with decided := true }).noteK k

/-- A summary is in; the last one goes up, or is decided on. -/
def State.registerSummary (s : State) (member : Nat) (m : Summary) : State :=
  if s.hank.sums.contains member || !s.reporters.contains member then s
  else
    let total := match s.hank.total with
      | none => m
      | some t => addSummary t m
    let s := s.onHank fun h => { h with sums := member :: h.sums, total := some total }
    if !(s.reporters.all s.hank.sums.contains) then s
    else if s.isRoot then s.decide_ total
    else s.send (.summary s.route.mgrRoute s.route.root total)

/-- The module's own summary leaves. -/
def State.sendSummary (s : State) : State :=
  let m := s.ownSummary
  let s := s.onStep fun c => { c with summarySent := true }
  if s.isManager then s.registerSummary s.job.member m else s.send (.summary s.route.mgrRoute s.route.manager m)

/-- DRAIN_COMPLETE: sums still held are discarded; mirror data leaves first, and once every message of it is acknowledged the summary follows (R358). `acks` is how many acknowledgements have come since the command before. A send whose data waits in memory is tried again with the next such command. -/
def execDrainComplete (acks : Nat) (s : State) : Out :=
  .next <|
    if !s.drained || s.step.summarySent then s else
    let s := s.usedCores.foldl State.dropHeld s
    if s.step.mirrorSent then
      let n := s.step.mirrorOut - acks
      let s := s.onStep fun c => { c with mirrorOut := n }
      if n = 0 then s.sendSummary else s
    else
      let a := s.sendMirrors
      if a.held then s
      else if !a.ok then a.st
      else if a.msgs = 0 then s.sendSummary
      else a.st.onStep fun c => { c with mirrorSent := true, mirrorOut := a.msgs }

/-- DRAIN_TIMEOUT: a fault (R272). -/
def execDrainTimeout (s : State) : Out :=
  .next (if s.step.state = .draining ∧ !s.step.aborting then s.raise .module 5 else s)

/-- STEP_SUMMARY. -/
def execStepSummary (member step attempt : Nat) (m : Summary) (s : State) : Out :=
  .next (if s.isManager && s.now step attempt && s.inStep then s.registerSummary member m else s)

/- COMMITTING (R273). -/

/-- Step records (R277, R278): one for each attempt, at the next place of the ring. -/
def State.stepRecord (s : State) (committed : Bool) : State :=
  let c := s.step
  let run := if c.state = .armed then 0 else (if c.state = .draining then c.drainAt - c.runAt else s.clock - c.runAt) * s.clkK
  let armed := (if c.state = .armed then s.clock - c.armedAt else c.runAt - c.armedAt) / 200
  let drain := if c.state = .draining then 5 * (s.clock - c.drainAt) else 0
  let h := (fld (s.reg (modR .STEP_REC_HEAD)) 7 0 + 1) % 256
  let w1 := c.attempt + 2 ^ 16 + b01 committed * 2 ^ 17 + b01 (!committed) * 2 ^ 18 + b01 c.slack * 2 ^ 19 + b01 c.rejected * 2 ^ 20
    + b01 c.veto * 2 ^ 21 + b01 c.maint * 2 ^ 22 + b01 (c.tnr ≠ 0) * 2 ^ 23 + c.tnr % 16 * 2 ^ 24
  let put (s : State) (i : Nat) (v : W64) : State := s.setReg (modR .STEP_REC (4 * h + i)) v
  let s := put (put (put (put s 0 (w64 s.logline)) 2 (w64 run)) 3 (w64 (min drain (2 ^ 32 - 1) + min armed (2 ^ 32 - 1) * 2 ^ 32))) 1 (w64 w1)
  let s := s.setReg (modR .STEP_REC_HEAD) (w64 h)
  if c.tnr = 0 then s else s.bump (modR .TIMING_NR_TOTAL) 1

/-- What a commit does to a layer (06 R168): 1 the rung rises, 2 it is held at its ceiling, 3 it falls. -/
def EcLayer.ratchet (l : EcLayer) (storm calm : Bool) : EcLayer × Nat :=
  let rs := fld (nth l.words 0 0) 15 8
  let rx := fld (nth l.words 0 0) 23 16
  let l := { l with storm := if storm then min (l.storm + 1) 255 else 0, calm := if !storm && calm then min (l.calm + 1) 255 else 0
                    slackLast := l.cost, overLast := decide (fld (nth l.words 0 0) 47 24 < l.cost) }
  if rs ≠ 0 ∧ rs ≤ l.storm then
    if l.rung < l.ceil then ({ l with storm := 0, rung := l.rung + 1 }, 1) else ({ l with storm := 0, held := true }, 2)
  else if rx ≠ 0 ∧ rx ≤ l.calm then
    if l.start < l.rung then ({ l with calm := 0, rung := l.rung - 1, held := false }, 3) else ({ l with calm := 0 }, 0)
  else (l, 0)

/-- The ratchet of one layer of one core, with its totals and cause. -/
def State.ratchetLayer (s : State) (core n : Nat) (l : EcLayer) (m : Summary) : State :=
  let storm := m.storm.contains n
  let r := l.ratchet storm (m.calm.contains n)
  let s := s.onLayer core n fun _ => r.1
  let s := s.bump (coreR .RATCHET_UP_TOTAL core) (b01 (decide (r.2 = 1)))
  let s := s.bump (coreR .RATCHET_DOWN_TOTAL core) (b01 (decide (r.2 = 3)))
  if r.2 = 2 then s.ecFlag core 3 0 n 0 0 0 else s

/-- The ratchet states of every core; a step that is a storm step for any of a core's layers counts once there (DEDUCED). -/
def State.ratchetAll (s : State) (m : Summary) : State :=
  s.usedCores.foldl (fun s n =>
    let ls := (s.core n).ec.layers
    let s := s.bump (coreR .STORM_STEP_TOTAL n) (b01 (ls.any fun p => m.storm.contains p.1))
    ls.foldl (fun s p => s.ratchetLayer n p.1 p.2 m) s) s

/-- Write 1 for the Capstans (08 R226, R227): commit words, and CAP_VETO for each tensor that a veto holds. -/
def State.commitCaps (s : State) (vetoes : List Nat) : State :=
  (List.range 8).foldl (fun s st =>
    let c := s.cap st
    let held := (((c.recs.filter fun p => c.processed.contains p.2).map fun p => p.1.tid).filter vetoes.contains).eraseDups
    let s := s.capCommit st vetoes.contains
    held.foldl (fun s _ => (s.bump (capR .VETO_TOTAL st) 1).raise (.stack st) 2) s) s

/-- Write 3: the commit words of the mailboxes that the plan lists (15 R391, R392). -/
def State.commitMboxes (s : State) : State :=
  let step := s.logline
  (s.plan.mboxes.filter fun p => p.lists step && s.live p.ctx).foldl (fun s p =>
    let buf := (((step : Int) - (p.phase : Int)) / (max p.period 1 : Nat) % 2).toNat
    s.setReg (modR .MBOX_COMMIT p.id) (w64 (step % 2 ^ 48 * 2 ^ 16 + 2 + buf))) s

/-- Write 4: each listed feed's knot is untied. -/
def State.releaseFeeds (s : State) : State :=
  s.feedsDue.foldl (fun s p =>
    let ph := kPhys (s.knotEntry 0 p.ctx p.knot)
    if s.feedTied p then ((s.putKnot 0 ph false none).settleAll 0 ph).flush 0 else s) s

/- Maintenance slots (R276, 16 R415, R416). -/

/-- Step 2: UCIe lanes repaired, and modules retired, of those that the package has (01 R20, R21). -/
def State.slotUcie (s : State) (f : SlotFacts) : State :=
  (f.ucie.filter fun u => decide (u.2.1 < ucieModules u.1)).foldl (fun s u =>
    s.commitRepair 0 { kind := if u.2.2 then 7 else 8, unit := u.1, old := u.2.1, new := 0 }) s

/-- The PHY margins sampled in a slot: one below its limit is a warning, and its channel is to be retrained (16 R418, 12 R319). -/
def State.samplePhy (s : State) (f : SlotFacts) : State :=
  let l := (f.phy.map Prod.fst).filter (· < 256)
  let s := { s with mem := { s.mem with retrainReq := (s.mem.retrainReq ++ l).eraseDups } }
  l.foldl (fun s c => s.raise (.dieCtl (stackDie (c / 32))) 1) s

/-- Step 4: channels are retrained; one that stays below its limit is a critical reading and raises MEM_CE_THRESHOLD for the driver (16 R418). Migrations complete, and requested ones start (12 R319–R323). -/
def State.slotHbm (s : State) (f : SlotFacts) : State :=
  let s := { s with mem := { s.mem with retraining := s.mem.retrainReq, retrainReq := [] } }
  let s := (f.phy.filter fun c => c.2 && decide (c.1 < 256)).foldl (fun s c => (s.raise (.dieCtl (stackDie (c.1 / 32))) 2).raise (.stack (c.1 / 32)) 3) s
  (List.range 8).foldl (fun s st =>
    let w := s.reg (rid .LAY_MIG .module st)
    let s := if bit w 63 && fld w 30 10 = 2 ^ 20 then
        (s.migComplete st).commitRepair (stackDie st) { kind := 5, unit := st, old := fld w 4 0, new := fld w 9 5 }
      else s
    match sfind s.mem.migReq st with
    | some r =>
      if s.migActive st then s
      else { (s.setReg (rid .LAY_MIG .module st) (w64 (2 ^ 63 + r.1 + r.2 * 2 ^ 5))) with mem := { s.mem with migReq := sdel s.mem.migReq st } }
    | none => s) s

/-- A maintenance slot: the work list of R276, of which the first `fits` kinds have time; then the wear monitors. -/
def State.slot (s : State) (f : SlotFacts) (scheduled : Bool) : State :=
  let s := (s.onStep fun c => { c with state := .maintenance, unscheduled := !scheduled }).bump (modR .MAINT_TOTAL) 1
  let s := s.samplePhy f
  let s := if 1 ≤ f.fits then (((s.recordRepairs 0).recordRepairs 1).slotSpares 0).slotSpares 1 else s
  let s := if 2 ≤ f.fits then s.slotUcie f else s
  let s := if 3 ≤ f.fits then s.slotLinks else s
  let s := if 4 ≤ f.fits then s.slotHbm f else s
  let s := if 5 ≤ f.fits then s.slotClock scheduled else s
  let s := (s.sampleWear f).lanePeriod
  let s := { s with mem := { s.mem with cePeriod := [], ceRaised := [] }, pwr := { s.pwr with refRelock := false } }
  if scheduled then s.setRegFld (modR .CLK_BOUND) 23 20 s.propose else s

/-- SLOT_NOW: an unscheduled slot while HELD. -/
def State.slotNow (s : State) (f : SlotFacts) : State := if s.isHeld && s.load.isNone then s.slot f false else s
/-- SLOT_NOW. -/
def execSlotNow (facts : SlotFacts) (s : State) : Out := .next (s.slotNow facts)

/-- MAINTENANCE_END: retraining is over, held host accesses are served, and the controller samples RUN; after an unscheduled slot it is HELD first. -/
def execMaintenanceEnd (s : State) : Out :=
  .next <|
    if s.step.state ≠ .maintenance then s else
    let s := (List.range 8).foldl (fun s st => s.setRegFld (stackR .REPAIR_CTRL st) 10 10 0) s
    let s := ({ s with mem := { s.mem with retraining := [] } }).serveHeld
    if s.step.unscheduled then (s.enterHeld).armTry else s.sample

/-- The writes of COMMITTING in their order, then the slot or the sample (R273–R276). -/
def State.commitStep (s : State) (m : Summary) (f : SlotFacts) : State :=
  let step := s.logline
  let due := s.slotDue
  let s := (s.commitCaps m.vetoes).mirrorCommit m.vetoes
  let s := s.ratchetAll m
  let s := { s with siteMax := m.sites.map fun (p : Nat × W32) => (p.1, f32 p.2), wMax := m.weights.map fun (p : Nat × W32) => (p.1, f32 p.2), sitePend := [], wPend := [] }
  let s := s.commitMboxes.releaseFeeds
  let s := s.timingNr m.tnr
  let s := s.onStep fun c => { c with veto := !m.vetoes.isEmpty, maint := due, ran := true }
  let s := s.stepRecord true
  let s := (s.setReg (modR .LOGLINE) (w64 (step + 1))).onStep fun c => { c with attempt := 0, state := .committing }
  let s := (s.bump (modR .STEP_TOTAL) 1).hankClear
  if due then s.slot f true else s.sample

/-- A COMMIT comes in: a root commits what it has decided; another module forwards and obeys the message. It waits where a Capstan's commit word must. -/
def State.commitTake (s : State) (step attempt : Nat) (m : Summary) (k : Nat) (facts : SlotFacts) : Option State :=
    let ready := s.now step attempt && decide (s.step.state = .draining) && !s.step.aborting && s.step.summarySent
    let sum := if s.isRoot then s.hank.total.getD m else m
    if ready && (List.range 8).any (fun st => s.capCommitHeld st sum.vetoes.contains) then none else
    some <|
    if s.isRoot then (if ready && s.hank.decided then s.commitStep sum facts else s)
    else
      let s := s.castDown fun r => .commit r step attempt m k
      if ready then (s.noteK k).commitStep m facts else s
/-- COMMIT: the commit point. `facts` are what the environment shows the slot that may follow. -/
def execCommit (step attempt : Nat) (m : Summary) (k : Nat) (facts : SlotFacts) (s : State) : Out :=
  .next (s.arrive (.commit step attempt m k facts) fun s => s.commitTake step attempt m k facts)

/- Faults, aborts and the loss of a member (R277, R358, R359, 16 R409). -/

/-- ABORT. -/
def execAbortStep (step attempt : Nat) (s : State) : Out :=
  .next <|
    if s.isRoot then s else
    let s := s.castDown fun r => .abort r step attempt
    if s.now step attempt && s.inStep then s.startAbort else s

/-- A unit that has not quiesced (16 R409): a core (kind 0) enters the escalation, a base die (kind 1) its reset. -/
def State.stuck (s : State) (u : Nat × Nat) : State :=
  if u.1 = 0 then (if u.2 < 384 ∧ (s.core u.2).reset.isNone then s.resetStage u.2 15 0 else s)
  else if u.2 < 8 ∧ (sfind s.stackReset u.2).isNone then
    ({ s with stackReset := sset s.stackReset u.2 0 }).chafeEvent (stackDie u.2) 9 3 0 0 u.2
  else s

/-- QUIESCE_CHECK at 20 µs; `stuck` lists the units that have not quiesced. -/
def execQuiesceCheck (stuck : List (Nat × Nat)) (s : State) : Out :=
  .next <|
    if !s.step.aborting then s else
    let s := stuck.foldl State.stuck s
    let s := (s.stepRecord false).bump (modR .FAULT_STEP_TOTAL) 1
    (s.onStep fun c => { c with faultHeld := true }).enterHeld

/-- The member that a fault report tells the loss of, if it does. -/
def reportLost (entry : List W64) : Option Nat :=
  if fld (nth entry 0 2) 3 0 = 7 ∧ fld (nth entry 0 2) 11 4 = 7 ∧ bit (nth entry 0 3) 63 then some (fld (nth entry 0 3) 13 0) else none

/-- FAULT_REPORT: a manager passes it on; the root notes a lost member and aborts the step in progress (R359), and on another fault the step that the report names (R358). -/
def execFaultReport (member : Nat) (entry : List W64) (s : State) : Out :=
  .next <|
    if s.job.role = 0 then s
    else if !s.isRoot then s.send (.report s.route.mgrRoute s.route.root entry)
    else
      let lost := if member = s.job.member then none else reportLost entry
      let s := match lost with
        | some x => s.onHank fun h => { h with lost := if h.lost.contains x then h.lost else x :: h.lost }
        | none => s
      let w := nth entry 0 1
      if lost.isSome || decide (fld w 47 0 = s.logline % 2 ^ 48 ∧ fld w 63 48 = s.step.attempt) then s.rootAbort else s

/-- Modules whose heartbeats this one watches. -/
def State.watched (s : State) : List Nat :=
  if !s.inJob then [] else if s.isManager then (s.hankMembers ++ s.peerMgrs).filter (· ≠ s.job.member) else [s.route.manager]

/-- The proposal that a module's heartbeat carries: its own, and a manager's the lowest of its hank (18 R468). -/
def State.beatK (s : State) : Nat :=
  (s.hank.props.map Prod.snd).foldl min (fld (s.reg (modR .CLK_BOUND)) 23 20)

/-- HEARTBEAT_TIMER: heartbeats go out, and each watched module that has not been heard since has missed one more. -/
def execHeartbeatTimer (s : State) : Out :=
  .next <|
    if !s.inJob then s else
    let s := if s.isRoot then s else s.send (.beat s.route.mgrRoute (some s.upward) s.beatK s.route.standby)
    let s := if s.isManager then s.send (.beat s.route.memberRoute none s.beatK s.route.standby) else s
    s.onHank fun h => { h with misses := s.watched.foldl (fun m x => sset m x (sget m 0 x + 1)) h.misses }

/-- HEARTBEAT: clears the sender's misses; to a manager it carries a proposal, and shows whether the sender is a standby: the spec does not say how a manager knows (DESIGN CHOICE, log 134). -/
def execHeartbeat (member k : Nat) (standby : Bool) (s : State) : Out :=
  .next <|
    if !s.watched.contains member then s
    else s.onHank fun h =>
      { h with misses := sdel h.misses member, lost := h.lost.filter (· ≠ member)
               standbys := if standby then member :: h.standbys.filter (· ≠ member) else h.standbys.filter (· ≠ member)
               props := if s.isManager then sset h.props member k else h.props }

/-- A watched module has missed MISS_LIMIT heartbeats. -/
def State.silent (s : State) (m : Nat) : Bool := s.watched.contains m && decide (s.route.missLimit ≤ sget s.hank.misses 0 m)

/-- The report of a loss: a fault report whose last word has bit 63 set and names the lost member (its body is the model's own). -/
def State.lossEntry (s : State) (member : Nat) : List W64 := s.chafeWords 7 7 Group.reliability.num 0 0 0 0 (w64 (2 ^ 63 + member))

/-- HANK_MEMBER_LOST: a fault; the loss is reported to the root, which aborts and ticks no more until the member is replaced. -/
def execHankMemberLost (member : Nat) (s : State) : Out :=
  .next <|
    if !s.isManager || !s.silent member || s.hank.lost.contains member then s else
    let s := (s.raise .module 7).onHank fun h => { h with lost := member :: h.lost }
    if s.isRoot then s.rootAbort else s.send (.report s.route.mgrRoute s.route.root (s.lossEntry member))

/-- HANK_MANAGER_LOST. -/
def execHankManagerLost (s : State) : Out :=
  .next (if !s.isManager && s.silent s.route.manager then s.raise .module 8 else s)

end Sys2Proof.Machine
end

