-- ==== Sys2Proof/Machine/ImageCheck.lean ====
section
/-! DEFINITION. The checks of image load (10 R257–R262): container, directory, and each section against its own chapter (R48, R98, R156, R212, R238, R301, R350, R366, R374, R395, R450). -/

namespace Sys2Proof.Machine

/- The container (R257–R261). -/

/-- The header's first failing check (R258): 0x01, then 0x02 for TARGET; 0 when none fails. -/
def hdrCode (h : List Byte) : Nat :=
  if leAt h 0 4 ≠ 0x33474952 ∨ leAt h 4 2 ≠ 1 ∨ 2 ≤ leAt h 7 1 ∨ !zeroAt h 0x20 96 ∨ (leAt h 7 1 = 0 ∧ leAt h 0x18 8 ≠ 0) then 1
  else if leAt h 6 1 ≠ 3 then 2 else 0

/-- A directory entry (*Directory entry*). -/
structure DirEnt where
  ty : Nat
  inst : Nat
  off : Nat
  size : Nat
  clean : Bool
deriving DecidableEq, Repr

/-- Decodes a directory entry's 32 bytes. -/
def dirEnt (b : List Byte) : DirEnt :=
  { ty := leAt b 0 2, inst := leAt b 2 2, off := leAt b 8 8, size := leAt b 16 8, clean := zeroAt b 4 4 && zeroAt b 24 8 }

/-- TYPE is listed and INSTANCE is one that it takes (*Section types*). -/
def DirEnt.named (e : DirEnt) : Bool :=
  if e.ty = 1 ∨ e.ty = 2 ∨ e.ty = 0xC then e.inst = 0xFFFF
  else if 3 ≤ e.ty ∧ e.ty ≤ 8 then decide (e.inst < 384)
  else if e.ty = 9 then decide (e.inst < 8)
  else if e.ty = 0xA ∨ e.ty = 0xB then decide (e.inst < 2)
  else e.ty = 0xD && (decide (e.inst < 40) || e.inst = 0xFFFF)

/-- Two sections share bytes. -/
def DirEnt.meets (a b : DirEnt) : Bool := decide (a.off < b.off + b.size) && decide (b.off < a.off + a.size)

/-- An entry clashes with none of the list. -/
def DirEnt.apart (e : DirEnt) (l : List DirEnt) : Bool := l.all fun x => !(e.ty = x.ty && e.inst = x.inst) && !e.meets x

/-- No two entries of a directory clash. -/
def dirApart : List DirEnt → Bool
  | [] => true
  | e :: t => e.apart t && dirApart t

/-- Where the sections of a container must end: SIG_OFFSET, or LENGTH when it is unsigned. -/
def hdrEnd (h : List Byte) : Nat := if leAt h 7 1 = 1 then leAt h 0x18 8 else leAt h 8 8

/-- The directory of the container at `base`. -/
def State.imgDir (s : State) (base : Nat) (h : List Byte) : List DirEnt :=
  (List.range (leAt h 0x10 4)).map fun i => dirEnt (s.hbmRead (base + leAt h 0x14 4 + 32 * i) 32)

/-- Extent of the container and of its directory (R259); a container beyond the window counts here. -/
def extentOk (base : Nat) (h : List Byte) : Bool :=
  let n := leAt h 0x10 4
  let d := leAt h 0x14 4
  decide (1 ≤ n) && decide (n ≤ 4096) && decide (d % 64 = 0) && decide (128 ≤ d) && decide (d + 32 * n ≤ hdrEnd h)
    && decide (hdrEnd h ≤ leAt h 8 8) && decide (base + leAt h 8 8 ≤ hbmSize)

/-- The directory's entries (R259, R260). -/
def entriesOk (h : List Byte) (l : List DirEnt) : Bool :=
  let after := leAt h 0x14 4 + 32 * leAt h 0x10 4
  (l.all fun e => e.clean && e.named && decide (e.off % 64 = 0) && decide (after ≤ e.off) && decide (e.off + e.size ≤ hdrEnd h)) && dirApart l

/-- The measurement (R261). -/
def State.imgMeas (s : State) (base : Nat) (h : List Byte) : BitVec 512 := sha512 (s.hbmRead base (hdrEnd h))

/-- The signature is missing where the policy asks for one, or does not verify (R450). -/
def State.sigBad (s : State) (base : Nat) (h : List Byte) : Bool :=
  let pol := s.sec.polFlags
  if leAt h 7 1 = 0 then bit pol 4
  else
    let blk := s.hbmRead (base + leAt h 0x18 8) 256
    let id := sha512 s.sec.imageKey
    let known := (List.range 4).any fun k => s.sec.custHash k = some id.toNat
    decide (leAt h 0x18 8 + 256 ≠ leAt h 8 8) || s.sec.imageKey.isEmpty || decide (leAt blk 0 64 ≠ id.toNat) || !known
      || !zeroAt blk 196 60
      || !ecdsaVerify s.sec.imageKey (s.imgMeas base h) ((blk.drop 64).take 66) ((blk.drop 130).take 66)

/-- The sections of a container. -/
def State.imgSecs (s : State) (base : Nat) (l : List DirEnt) : List ImgSec :=
  l.zipIdx.map fun p => { index := p.2, ty := p.1.ty, inst := p.1.inst, body := s.hbmRead (base + p.1.off) p.1.size }

/-- A section of an image. -/
def secOf (l : List ImgSec) (ty inst : Nat) : Option (List Byte) := (l.find? fun x => x.ty = ty && x.inst = inst).map (·.body)
/-- Bytes of a section; none when it is absent. -/
def secBytes (l : List ImgSec) (ty inst : Nat) : List Byte := (secOf l ty inst).getD []
/-- The first `n` words of a byte string; bytes beyond its end read 0. -/
def takeWords : Nat → List Byte → List W64
  | 0, _ => []
  | n + 1, b => w64 (leNat (b.take 8)) :: takeWords n (b.drop 8)

/-- Words of a table: `n` words from byte `a`. -/
def wordsAt (b : List Byte) (a n : Nat) : List W64 := takeWords n (b.drop a)

/- JOB and STEP_PLAN (10; 14 R366; 15 R395). -/

/-- The JOB section. -/
def jobOf (b : List Byte) : Job :=
  { jobId := leAt b 0 8, seed := leAt b 8 16, member := leAt b 0x20 2, modules := leAt b 0x22 2, role := leAt b 0x24 1, genMix := leAt b 0x25 3
    used := bitsSet 384 (leAt b 0x28 48)
    ctxOf := ((List.range 384).map fun n => (n, bits (leAt b 0x58 96) (2 * n + 1) (2 * n))).filter fun (p : Nat × Nat) => p.2 ≠ 0 }

/-- A context is ACTIVE (R395). -/
def State.activeCtx (s : State) (c : Nat) : Bool := decide ((s.ctx c).state = .active)

/-- Checks of the JOB section; a lone module is its own root. -/
def State.jobOk (s : State) (b : List Byte) : Bool :=
  let j := jobOf b
  decide (b.length = 256) && decide (1 ≤ j.modules) && decide (j.modules ≤ 16384) && decide (j.member < j.modules) && decide (j.role ≤ 2)
    && (decide (1 < j.modules) || j.role = 2) && [0x25, 0x26, 0x27].all (fun a => decide (leAt b a 1 ≤ 128)) && decide (leAt b 0x27 1 ≠ 0)
    && zeroAt b 0xB8 72 && j.used.all fun n => s.activeCtx (sget j.ctxOf 0 n)

/-- A plan entry. -/
def planEntry (w : W64) : PlanEntry := { id := fld w 5 0, ctx := fld w 7 6, knot := fld w 19 8, period := fld w 35 20, phase := fld w 51 36 }
/-- The plan entries from byte `a`. -/
def planEntries (b : List Byte) (a n : Nat) : List PlanEntry := (List.range n).map fun i => planEntry (w64 (leAt b (a + 16 * i) 8))

/-- The STEP_PLAN section. -/
def planOf (b : List Byte) : Plan :=
  let f := leAt b 0xC 2
  { maintPeriod := leAt b 0 2, maintLen := leAt b 4 4, drainBound := leAt b 8 4, tracked := leAt b 0x10 2, wTracked := leAt b 0x14 4
    feeds := planEntries b 0x40 f, mboxes := planEntries b (0x40 + 16 * f) (leAt b 0xE 2) }

/-- A plan entry's fields are in range and its context is ACTIVE. -/
def State.planEntryOk (s : State) (p : PlanEntry) : Bool := decide (1 ≤ p.period) && decide (p.phase < p.period) && s.activeCtx p.ctx

/-- Load code of the STEP_PLAN section: 7 for a count beyond its limit, 5 for another failure. -/
def State.planCode (s : State) (b : List Byte) : Nat :=
  let f := leAt b 0xC 2
  let m := leAt b 0xE 2
  let p := planOf b
  if 64 < f ∨ 64 < m ∨ 4096 < p.tracked ∨ 65536 < p.wTracked then 7
  else if b.length = 0x40 + 16 * (f + m) ∧ 1 ≤ p.maintPeriod ∧ p.maintPeriod ≤ 4096 ∧ 500 ≤ p.maintLen ∧ p.maintLen ≤ 100000
      ∧ zeroAt b 2 2 ∧ zeroAt b 0x12 2 ∧ zeroAt b 0x18 40
      ∧ ((List.range (f + m)).all fun i => zeroAt b (0x40 + 16 * i + 8) 8 && decide (leAt b (0x40 + 16 * i) 8 < 2 ^ 52))
      ∧ (p.feeds ++ p.mboxes).all s.planEntryOk ∧ p.mboxes.all fun e => e.knot = 0 then 0 else 5

/- KNOTS (11 R286, R287, R300, R301). -/

/-- Translation entry of a KNOTS section. -/
def xlateOf (b : List Byte) (c k : Nat) : W64 := w64 (leAt b (0x40 + 8 * (c * 4096 + k)) 8)

/-- Knot k of context c is valid on die d in the image, and persistent or not as asked. -/
def knotIs (l : List ImgSec) (d c k : Nat) (persist : Bool) : Bool :=
  match secOf l 0xB d with
  | none => false
  | some b => let e := xlateOf b c k; kValid e && kPersist e == persist

/-- Valid entries of a KNOTS section, with their keys. -/
def xlates (b : List Byte) : List (Nat × W64) :=
  (((wordsAt b 0x40 16384).zipIdx).map fun (p : W64 × Nat) => (p.2, p.1)).filter fun (p : Nat × W64) => p.2 ≠ 0

/-- Endpoint table of a KNOTS section. -/
def endpointsOf (b : List Byte) : List W64 := wordsAt b 0x20040 (leAt b 0 2)

/-- No number occurs twice. -/
def distinct (l : List Nat) : Bool := decide (l.eraseDups.length = l.length)

/-- Knots that units of die d name: guard entries, of unused cores too (R301 exempts none), Capstan records and exchange records, as (context, knot). -/
def unitKnots (l : List ImgSec) (d : Nat) : List (Nat × Nat) :=
  let j := jobOf (secBytes l 1 0xFFFF)
  l.flatMap fun x =>
    if x.ty = 7 ∧ coreDie x.inst = d then
      let n := leAt x.body 0 2
      (List.range (leAt x.body 2 2)).map fun i => (sget j.ctxOf 0 x.inst, fld (w64 (leAt x.body (32 + 32 * n + 32 * i) 8)) 61 50)
    else if x.ty = 9 ∧ x.inst / 4 = d then
      (List.range (leAt x.body 0 2)).flatMap fun i =>
        let r := capRec (wordsAt x.body (0x640 + 128 * i) 16)
        [(r.ctx, r.gradKnot), (r.ctx, r.doneKnot)]
    else if x.ty = 0xA ∧ x.inst = d then
      (List.range (x.body.length / 64)).map fun i => let r := xrec (wordsAt x.body (64 * i) 8); (r.ctx, r.knot)
    else []

/-- Load code of the KNOTS section of die d. -/
def State.knotsCode (s : State) (l : List ImgSec) (d : Nat) (b : List Byte) : Nat :=
  let n := leAt b 0 2
  let j := jobOf (secBytes l 1 0xFFFF)
  let xs := xlates b
  let valid := xs.filter fun p => kValid p.2
  let feeds := (planOf (secBytes l 2 0xFFFF)).feeds
  if 2048 < n then 7
  else if b.length = 0x20040 + 8 * n ∧ zeroAt b 2 6 ∧ zeroAt b 0x18 40
      ∧ ([0x8, 0xC, 0x10, 0x14].all fun a => decide (10 ≤ leAt b a 4) && decide (leAt b a 4 ≤ 10000000))
      ∧ (xs.all fun p => decide (fld p.2 63 19 = 0)) ∧ distinct (valid.map fun p => kPhys p.2)
      ∧ (valid.all fun p => s.activeCtx (p.1 / 4096))
      ∧ ((endpointsOf b).all fun e => decide (fld e 63 34 = 0) && bit e 33 && decide (fld e 13 0 < j.modules))
      ∧ (d = 1 ∨ feeds.all fun p => knotIs l 0 p.ctx p.knot true)
      ∧ ((unitKnots l d).all fun p => knotIs l d p.1 p.2 false) then 0 else 5

/-- Knots named where the die has no KNOTS section: nothing may be. -/
def knotless (l : List ImgSec) (d : Nat) : Bool := (secOf l 0xB d).isSome || (unitKnots l d).isEmpty

/- MEMORY (12 R308, R309, R312, R314). -/

/-- Lay groups of the MEMORY section. -/
def layGroups (b : List Byte) : List LayGroup :=
  (List.range (leAt b 0 1)).map fun i =>
    { base := fld (w64 (leAt b (512 + 16 * i) 8)) 47 0, size := leAt b (520 + 16 * i) 8, half := bit (w64 (leAt b (512 + 16 * i) 8)) 63 }

/-- The memory system with a MEMORY section in force. -/
def MemSys.withImage (m : MemSys) (b : List Byte) : MemSys :=
  { m with groups := layGroups b, hostBase := leAt b 8 8, hostSize := leAt b 16 8, mirBase := leAt b 24 8, mirSize := leAt b 32 8 }

/-- Load code of the MEMORY section; its layout is the model's own. -/
def memoryCode (b : List Byte) : Nat :=
  let gs := layGroups b
  let m := ({ } : MemSys).withImage b
  let unit := 240 * 2 ^ 20
  if 64 < leAt b 0 1 then 7
  else if b.length = 512 + 16 * leAt b 0 1 ∧ zeroAt b 1 7 ∧ zeroAt b 40 24
      ∧ m.hostBase % 2 ^ 30 = 0 ∧ 16 ≤ m.hostSize ∧ m.hostSize ≤ 64 ∧ m.hostBase + m.hostSize * 2 ^ 30 ≤ hbmSize
      ∧ m.mirBase % 2048 = 0 ∧ m.mirBase + m.mirSize ≤ hbmSize
      ∧ ((List.range 56).all fun i => leAt b (68 + 8 * i) 4 = 0)
      ∧ ((List.range gs.length).all fun i => decide (bits (leAt b (512 + 16 * i) 8) 62 48 = 0))
      ∧ (gs.all fun g => g.base % unit = 0 && g.size % unit = 0 && g.size ≠ 0 && decide (g.base + g.size ≤ hbmSize))
      ∧ dirApart (gs.zipIdx.map fun (p : LayGroup × Nat) => { ty := 0, inst := p.2, off := p.1.base, size := p.1.size, clean := true }) then 0 else 5

/-- The stack whose Capstan region holds the page at a window address (R309). -/
def MemSys.capStack (m : MemSys) (pa : Nat) : Option Nat :=
  (m.groups.find? fun g => !g.half && decide (g.base ≤ pa) && decide (pa < g.base + g.size)).map fun g => (pa - g.base) / (g.size / 8)

/-- First addresses of the pages that a context range touches. -/
def pagesOf (a n : Nat) : List Nat := if n = 0 then [] else (List.range ((a + n - 1) / 2 ^ 21 - a / 2 ^ 21 + 1)).map fun i => (a / 2 ^ 21 + i) * 2 ^ 21

/-- A plane of die d's whipping unit starts on a 2 KiB boundary and is mapped in full. -/
def State.planeMapped (s : State) (d c a n : Nat) (write : Bool) : Bool :=
  a % 2048 = 0 && (pagesOf a n).all fun p => (s.xlateAddr (.die d) c p write).isSome

/-- A range lies in the Capstan region of a stack (R210). -/
def State.rangeOn (s : State) (st c a n : Nat) (write : Bool) : Bool :=
  (pagesOf a n).all fun p => match s.xlateAddr (.cap st) c p write with
    | some pa => s.mem.capStack pa == some st
    | none => false

/-- A plane starts on a 2 KiB boundary and lies in that region. -/
def State.planeOn (s : State) (st c a n : Nat) (write : Bool) : Bool := a % 2048 = 0 && s.rangeOn st c a n write

/- Descriptors in a constant pool (R48, R156, R238, R350). -/

/-- Words of a section of core n. -/
def secWords (l : List ImgSec) (ty n : Nat) : List W64 := let b := secBytes l ty n; wordsAt b 0 (b.length / 8)

/-- What may be a descriptor of core n in an image. -/
def poolDescs (l : List ImgSec) (n : Nat) : List (List W64) := descsOf (secWords l 3 n) (secWords l 4 n)

/-- The QSPECs that a descriptor carries, as pairs of words. -/
def descQspecs (ws : List W64) : List (W64 × W64) :=
  let q (i : Nat) := (nth ws 0 i, nth ws 0 (i + 1))
  match descKind ws with
  | 1 => if (plyDesc ws).readout then [q 9] else []
  | 2 => if (plyDesc ws).readout then [q 9] else []
  | 3 => [q 2, q 4]
  | 4 => if bit (nth ws 0 0) 6 then [q 13] else []
  | 5 => if bit (nth ws 0 0) 6 then [q 13] else []
  | _ => []

/-- Keep-ring sizes that the PLIES section of a core sets. -/
def imgRing (l : List ImgSec) (n r : Nat) : Nat := fld (w64 (leAt (secBytes l 8 n) (8 + 8 * r) 8)) 30 16

/-- A stored descriptor breaks R48 or R69, as it is written: no ladder rewrites it. -/
def descBad (ring : Nat → Nat) (n : Nat) (ws : List W64) : Bool :=
  match descKind ws with
  | 1 => !((plyDesc ws).badFormat ring).isEmpty
  | 2 => !((plyDesc ws).badFormat ring).isEmpty
  | 3 => launchBad {} ring { words := ws, idx := 0, occ := 0, tag := 0, reissue := false, bcast := [] } = some 1
  | 4 => (dmaDesc n ws).badFormat {} ring
  | 5 => (dmaDesc n ws).badFormat {} ring
  | _ => false

/-- Load code of a POOL section: every descriptor that the stream names is judged, whatever other ISSUEs take from registers. -/
def poolCode (l : List ImgSec) (n : Nat) (b : List Byte) : Nat :=
  let d := namedDescs (secWords l 3 n) (secWords l 4 n)
  if 65536 < b.length then 7 else if b.length % 8 ≠ 0 ∨ d.any (descBad (imgRing l n) n) then 5 else 0

/-- Load code of a store of 64-bit instructions with a capacity. -/
def storeCode (cap : Nat) (b : List Byte) : Nat := if cap * 8 < b.length then 7 else if b.length % 8 ≠ 0 then 5 else 0

/-- Load code of a PLIES section: the mask, and four keep rings within core scratch (10; R98). -/
def pliesCode (b : List Byte) : Nat :=
  if b.length = 64 ∧ leAt b 0 8 < 16 ∧ zeroAt b 40 24 ∧ (List.range 4).all fun r =>
      let v := w64 (leAt b (8 + 8 * r) 8)
      decide (fld v 63 31 = 0) && !bit v 15 && decide (fld v 14 0 + fld v 30 16 ≤ 32768) then 0 else 5

/-- Load code of a SITES section. -/
def sitesCode (l : List ImgSec) (b : List Byte) : Nat :=
  let t := (planOf (secBytes l 2 0xFFFF)).tracked
  if b.length % 8 = 0 ∧ (wordsAt b 0 (b.length / 8)).all fun w =>
      decide (fld w 63 45 = 0) && (!bit w 32 || decide (fld w 44 33 < t)) then 0 else 5

/- ERRCTL (06 R154–R158). -/

/-- Layer records of an ERRCTL section. -/
def errLayers (b : List Byte) : List (List W64) := (List.range (leAt b 0 2)).map fun i => wordsAt b (32 + 32 * i) 4
/-- Guard entries of an ERRCTL section. -/
def errGuards (b : List Byte) : List (List W64) := (List.range (leAt b 2 2)).map fun i => wordsAt b (32 + 32 * leAt b 0 2 + 32 * i) 4

/-- A layer record as loaded (R158, R263). -/
def layerOf (ws : List W64) : EcLayer :=
  let w := nth ws 0 0
  { words := ws, mode := fld w 0 0, start := fld w 2 1, ceil := fld w 4 3, rung := fld w 2 1 }

/-- A layer record's own checks. -/
def layerOk (ws : List W64) : Bool :=
  let w (i : Nat) := nth ws 0 i
  decide (fld (w 0) 2 1 ≤ fld (w 0) 4 3) && decide (fld (w 3) 1 0 ≤ fld (w 0) 2 1) && !bit (w 0) 7
    && decide (fld (w 1) 63 53 = 0) && decide (fld (w 2) 63 62 = 0) && decide (fld (w 3) 63 2 = 0)

/-- Staging shadow of a layer's operations: element and scale lines. -/
def EcLayer.shadow (y : EcLayer) : Nat × Nat := let w := nth y.words 0 2; (fld w 46 32, fld w 61 47)

/-- Destination and staging shadow of a ply operation are sized for rung r of its layer. -/
def rungFitsPly (y : EcLayer) (r : Nat) (ws : List W64) : Bool :=
  let p := plyDesc ws
  let spec := y.rewrite r (qspecOf p.qlo p.qhi).dst
  let r1 := p.d.row + p.rows - 1
  let c1 := p.d.col + p.cols - 1
  planesOk spec p.d.elem p.d.scale 0 0 p.d.stride r1 c1 false && planesOk spec y.shadow.1 y.shadow.2 0 0 p.d.stride r1 c1 false

/-- A destination side and the shadow in its core's scratch hold a range of records in a format. -/
def sideFits (y : EcLayer) (d : DmaSide) (spec : Nat) (r : Int × Int) : Bool :=
  let n := recBytes (fsCode spec)
  let d := { d with spec := spec }
  d.ok n r && { d with hbm := false, elem := 64 * y.shadow.1, scale := 64 * y.shadow.2 }.ok n r

/-- The same of a quantising DMA transfer. -/
def rungFitsDma (n : Nat) (y : EcLayer) (r : Nat) (ws : List W64) : Bool :=
  let p := dmaDesc n ws
  let spec := y.rewrite r (qspecOf p.qlo p.qhi).dst
  sideFits y p.dst spec (p.rungRange spec)

/-- The same of a launch: each tensor slot to which a VSTQ of its kernel, from ENTRY to the next END, writes under a QSPEC that names the site (DEDUCED, log 91). -/
def rungFitsVec (n : Nat) (y : EcLayer) (r site : Nat) (kernel ws : List W64) : Bool :=
  let m : OpMsg := { words := ws, idx := 0, occ := 0, tag := 0, reissue := false, bcast := [] }
  let run := (kernel.drop (fld (m.w 0) 32 20)).takeWhile fun w => !(vCls w = 0 && vOp w = 1)
  (run.filter fun w => vCls w = 1 && vOp w = 4).all fun w =>
    let q := qspecOf (m.w (2 + 2 * (vSlot w % 2))) (m.w (3 + 2 * (vSlot w % 2)))
    let t := m.tslot (vSlot w / 2)
    q.site ≠ site || t.dim = 0 ||
      sideFits y { hbm := false, core := n, elem := 64 * t.elem, scale := 64 * t.scale, spec := q.dst } (y.rewrite r q.dst) (0, ((cdiv t.dim 16 : Nat) : Int) - 1)

/-- Destination and staging shadow of a producer are sized for rung r of its layer. -/
def rungFits (n : Nat) (y : EcLayer) (r site : Nat) (kernel ws : List W64) : Bool :=
  match descKind ws with
  | 1 => rungFitsPly y r ws
  | 2 => rungFitsPly y r ws
  | 3 => rungFitsVec n y r site kernel ws
  | _ => rungFitsDma n y r ws

/-- The QSPECs of a descriptor that name a site. -/
def siteQspecs (site : Nat) (ws : List W64) : List (W64 × W64) := (descQspecs ws).filter fun q => (qspecOf q.1 q.2).site = site

/-- A guarded site as R156 judges it from the pool: quantised here, with a keep copy in REPEAT mode, to a lashed format or BF16, in planes sized for CEIL_RUNG. Every descriptor of the pool that names the site is held to this. -/
def siteOk (n : Nat) (ds : List (List W64)) (kernel : List W64) (ring : Nat → Nat) (y : EcLayer) (site : Nat) : Bool :=
  let good (q : W64 × W64) : Bool :=
    let x := qspecOf q.1 q.2
    (y.mode = 0 || (x.keepFmt ≠ 0 && ring x.keepRing ≠ 0)) && (isLashed (fsCode x.dst) || fsCode x.dst = 5)
  let mine := ds.filter fun ws => !(siteQspecs site ws).isEmpty
  !mine.isEmpty && mine.all fun ws => (siteQspecs site ws).all good && rungFits n y y.ceil site kernel ws

/-- Load code of the ERRCTL section of core n. -/
def errctlCode (l : List ImgSec) (n : Nat) (b : List Byte) : Nat :=
  let ls := errLayers b
  let gs := errGuards b
  let ds := poolDescs l n
  let kernel := secWords l 5 n
  if 256 < leAt b 0 2 ∨ 4096 < leAt b 2 2 then 7
  else if b.length = 32 + 32 * (leAt b 0 2 + leAt b 2 2) ∧ zeroAt b 4 28 ∧ ls.all layerOk
      ∧ distinct (gs.map fun g => fld (nth g 0 0) 31 0 * 2 ^ 16 + fld (nth g 0 3) 63 48)
      ∧ gs.all fun g =>
        let w0 := nth g 0 0
        let w1 := nth g 0 1
        let y := layerOf (nth ls [] (fld w0 39 32))
        let ok (site : Nat) := siteOk n ds kernel (imgRing l n) y site
        decide (fld w0 63 62 = 0) && decide (fld w0 39 32 < ls.length) && decide (1 ≤ fld w0 49 42)
          && (!bit w0 40 || (ok (fld w1 23 0) && decide (1 ≤ fld w1 63 48)))
          && (!bit w0 41 || (ok (fld w1 47 24) && decide (1 ≤ fld (nth g 0 2) 63 48))) then 0 else 5

/- CAPSTAN (08 R210–R212, R220, R224, R230). -/

/-- An FP32 pattern is positive and finite; `normal` asks for a normal number. -/
def posFinite (v : Nat) (normal : Bool) : Bool := decide (v < 0x7F800000) && (if normal then decide (0x00800000 ≤ v) else decide (0 < v))

/-- A schedule entry breaks *Schedule entry*. -/
def schedBad (ws : List W64) : Bool :=
  let w (i : Nat) := nth ws 0 i
  let kind := fld (w 1) 63 62
  !posFinite (fld (w 0) 31 0) true || decide (2 ^ 30 < fld (w 1) 30 0) || decide (2 ^ 30 < fld (w 1) 61 31)
    || (kind ≠ 0 && fld (w 2) 31 0 = 0) || decide (2 ^ 30 < fld (w 2) 62 32) || bit (w 2) 63 || decide (fld (w 3) 63 56 ≠ 0)
    || (fld (w 3) 55 48 ≠ 0 && kind ≠ 1 && kind ≠ 2)

/-- Sources that a microprogram operation reads. -/
def mpSources (w : W32) : List Nat :=
  let x := w.toNat
  let n := match mpOp w with
    | 0x4 => 3
    | 0xC => 3
    | 0x6 => 1
    | 0x9 => 1
    | 0xA => 1
    | 0xB => 1
    | 0xD => 1
    | _ => 2
  [bits x 22 17, bits x 16 11, bits x 10 5].take n

/-- An operation's word holds a reserved encoding: of OP, of a source field, used or not, or of the reserved bits (R220). -/
def mpReserved (w : W32) : Bool :=
  let x := w.toNat
  decide (0xD < mpOp w) || decide (bits x 4 0 ≠ 0) || [bits x 22 17, bits x 16 11, bits x 10 5].any fun c => decide (35 ≤ c)

/-- A microprogram holds a reserved encoding, in its END or after it too, or reads v where it writes no second moment (R212, R220). -/
def mpBad (p : List W32) : Bool :=
  p.any mpReserved || (mpBody p).any fun w => (mpSources w).any fun c => c = 18 && !mpWrites p 2

/-- The tables of a CAPSTAN section, as the Capstan holds them; the layout is the model's own. -/
def capOf (b : List Byte) : Cap :=
  { records := (List.range (leAt b 0 2)).map fun i => wordsAt b (0x640 + 128 * i) 16
    groups := (List.range 15).map fun i => w64 (leAt b (0x40 + 16 * i) 8)
    sched := (List.range 8).map fun i => wordsAt b (0x140 + 32 * i) 4
    mprogs := (List.range 8).map fun i => (List.range 32).map fun k => BitVec.ofNat 32 (leAt b (0x240 + 128 * i + 4 * k) 4) }

/-- A Capstan record's checks (R212, R395); `s` has the image's MEMORY section in force. -/
def State.capRecOk (s : State) (st wTracked : Nat) (c : Cap) (ws : List W64) : Bool :=
  let r := capRec ws
  let w (i : Nat) := nth ws 0 i
  let on (a n : Nat) (wr : Bool) := s.planeOn st r.ctx a n wr
  decide (r.freeze ≠ 3) && decide (r.keep ≠ 3) && decide (fld (w 0) 63 52 = 0) && decide (fld (w 10) 63 32 = 0) && decide (fld (w 15) 63 32 = 0)
    && ([3, 4, 5, 6, 7].all fun i => decide (fld (w i) 63 48 = 0)) && decide (1 ≤ r.blocks)
    && ((decide (2 ≤ r.work) && r.keep = 0) || (r.rows % 4 = 0 && r.cols % 4 = 0))
    && (r.keep = 0 || decide (r.work < 2)) && (r.opt ≠ 3 || !(mpBody (nth c.mprogs [] r.mprog)).isEmpty)
    && (!r.tracked || decide (r.tid < wTracked)) && r.commit % 64 = 0 && s.activeCtx r.ctx
    && on r.slot0 (r.slotBytes c) true && on r.slot1 (r.slotBytes c) true && on r.grad r.gradBytes false && s.rangeOn st r.ctx r.commit 8 true
    && (r.freeze ≠ 2 || on r.mask (cdiv r.n 8) false)
    && (r.clip = 15 || posFinite (fld (nth c.groups 0 r.clip) 31 0) false)

/-- Load code of the CAPSTAN section of a stack. -/
def State.capstanCode (s : State) (l : List ImgSec) (st : Nat) (b : List Byte) : Nat :=
  let n := leAt b 0 2
  let c := capOf b
  let s' := { s with mem := s.mem.withImage (secBytes l 0xC 0xFFFF) }
  let wt := (planOf (secBytes l 2 0xFFFF)).wTracked
  let rs := c.records.map capRec
  if 4096 < n then 7
  else if b.length = 0x640 + 128 * n ∧ zeroAt b 2 62 ∧ zeroAt b 0x130 16
      ∧ ((List.range 15).all fun i => zeroAt b (0x44 + 16 * i) 12)
      ∧ !(c.sched.any schedBad)
      ∧ !(c.mprogs.any mpBad) ∧ distinct (rs.map (·.commit)) ∧ knotless l (st / 4)
      ∧ c.records.all (s'.capRecOk st wt c) then 0 else 5

/-- The route section. -/
def routeOf (b : List Byte) : RouteSec :=
  let n := leAt b 0x24 2
  { present := true, slotId := leAt b 0 2, hank := leAt b 2 1, standby := leAt b 3 1 % 2 = 1, manager := leAt b 4 2, root := leAt b 6 2
    hankFirst := leAt b 8 2, hankSize := leAt b 0xA 2, hankCount := leAt b 0xC 2, mgrRoute := leAt b 0xE 2, memberRoute := leAt b 0x10 2
    peerMgrRoute := leAt b 0x12 2, mirrorA := leAt b 0x14 2, mirrorB := leAt b 0x16 2, buddy := leAt b 0x18 2, tickDelay := leAt b 0x1C 4
    heartbeat := leAt b 0x20 2, missLimit := leAt b 0x22 2, sets := wordsAt b 0x40 n, entries := wordsAt b (0x40 + 8 * n) (leAt b 0x26 4) }

/- EXCHANGE (09 R237–R249; 14 R374). -/

/-- The site is written by ply read-out somewhere on the module (R238). -/
def siteReadOut (l : List ImgSec) (site : Nat) : Bool :=
  l.any fun x => x.ty = 4 && (poolDescs l x.inst).any fun ws =>
    let p := plyDesc ws
    (descKind ws = 1 || descKind ws = 2) && p.readout && (qspecOf p.qlo p.qhi).site = site

/-- Reserved fields of an exchange record; TILE_SHIFT above 4 is a tile size that 4,096 is no multiple of. -/
def xrecClean (ws : List W64) : Bool :=
  let w (i : Nat) := nth ws 0 i
  decide (fld (w 0) 31 22 = 0) && decide (fld (w 0) 63 62 = 0) && decide (fld (w 2) 63 52 = 0)
    && ([3, 4, 5].all fun i => decide (fld (w i) 63 48 = 0)) && decide (fld (w 6) 63 39 = 0)

/-- Some member that a route set of the image names is not an FX3 module (R238): in a job whose GEN_MIX has FX1 or FX2 modules, as the assignment of members to generations says. -/
def namesForerunner (l : List ImgSec) (set : Nat) : Bool :=
  let j := jobOf (secBytes l 1 0xFFFF)
  decide (j.genMix % 65536 ≠ 0) && ((routeOf (secBytes l 0xD 0xFFFF)).dests set).any fun m => !Config.memberFx3 j.jobId m

/-- A record's checks (R238, R374, R395). `xs` are the die's records. -/
def State.xrecOk (s : State) (l : List ImgSec) (d : Nat) (xs : List XRec) (x : XRec) : Bool :=
  let pair := xs.find? fun y => x.pairs y
  let follower := (pair.map fun y => decide (y.group < 2)).getD false
  let bridge := pair.isSome && !follower
  let rcv := if bridge then { x with owner := false } else x
  let comp := decide (x.mode ≤ 1)
  let maps (a n : Nat) := s.planeMapped d x.ctx a n true
  decide (x.mem < x.group) && decide (x.group ≤ 16384) && (x.mode ≠ 0 || (decide (16 ≤ x.k) && decide (x.k ≤ 1024)))
    && (x.mode ≠ 2 || (decide (1 ≤ x.mib) && decide (x.mib ≤ 64))) && decide (1 ≤ x.elems) && decide (x.elems ≤ (if x.mode = 3 then 2 ^ 24 else 2 ^ 36))
    && decide (x.shift ≤ 4) && posFinite x.scale true && s.activeCtx x.ctx
    && (x.mode = 2 || !namesForerunner l x.route)
    && (x.mode = 3 || siteReadOut l x.site) && (x.mode ≠ 3 || x.cellIn || d = 0)
    && (!comp || (maps (x.plane 0) (4 * x.elems) && maps (x.plane 1) (4 * x.elems)))
    && (!comp || follower || maps x.stage ((rcv.received x.mem).length * x.group * x.slotBytes))
    && (!pair.isSome || (x.scale = 0x3F800000 && decide ((xs.map fun z => if z.site = x.site && z.first = x.first then xs.countP fun y => z.pairs y else 0).sum ≤ 1)))

/-- Load code of the EXCHANGE section of die d. -/
def State.exchangeCode (s : State) (l : List ImgSec) (d : Nat) (b : List Byte) : Nat :=
  let n := b.length / 64
  let ws := (List.range n).map fun i => wordsAt b (64 * i) 8
  let xs := ws.map xrec
  if 256 < n then 7 else if b.length % 64 = 0 ∧ ws.all xrecClean ∧ knotless l d ∧ xs.all (s.xrecOk l d xs) then 0 else 5

/- HAWSER (13 R347–R350). -/

/-- Load code of a link section. -/
def linkCode (b : List Byte) : Nat :=
  let w := w64 (leAt b 0 8)
  if b.length = 32 ∧ fld w 63 30 = 0 ∧ zeroAt b 12 20 ∧ fld w 2 1 ≤ fld w 4 3 ∧ fld w 4 3 ≤ 2 ∧ fld w 7 5 ≤ 4 then 0 else 5

/-- What the rest of an image asks of its route sets (R350). -/
def imgRouteUses (l : List ImgSec) : List (Nat × Nat) :=
  l.flatMap fun x =>
    if x.ty = 0xB then endpointUses (endpointsOf x.body)
    else if x.ty = 4 then peerUses x.inst (poolDescs l x.inst)
    else if x.ty = 0xA then xrecUses ((List.range (x.body.length / 64)).map fun i => xrec (wordsAt x.body (64 * i) 8))
    else []

/-- Entry hops before the end of the route. -/
def routeEnds (e : W64) : Bool := (List.range 7).any fun i => fld e (6 * i + 5) (6 * i) = 0x3F

/-- Load code of a route section (R350). `on h` says that link h has a section and is enabled, `uses` what the image asks of the sets. -/
def routeCode (j : Job) (on : Nat → Bool) (uses : List (Nat × Nat)) (b : List Byte) : Nat :=
  let r := routeOf b
  let ok : Bool := decide (b.length = 0x40 + 8 * (leAt b 0x24 2 + leAt b 0x26 4)) && decide (1 ≤ leAt b 0x24 2) && decide (leAt b 0x24 2 ≤ 4096)
    && decide (1 ≤ leAt b 0x26 4) && decide (leAt b 0x26 4 ≤ 65536)
    && decide (r.slotId < 32768) && decide (r.hank < 128) && decide (leAt b 3 1 < 2) && decide (1 ≤ r.hankSize) && decide (r.hankSize ≤ 128)
    && decide (1 ≤ r.hankCount) && decide (r.hankCount ≤ 128) && decide (2000 ≤ r.tickDelay) && decide (r.tickDelay ≤ 1000000)
    && decide (10 ≤ r.heartbeat) && decide (r.heartbeat ≤ 10000) && decide (2 ≤ r.missLimit) && decide (r.missLimit ≤ 255)
    && zeroAt b 0x1A 2 && zeroAt b 0x2A 22
    && (r.sets.zipIdx.all fun p => !bit p.1 31 && decide (fld p.1 63 56 = 0) && decide (1 ≤ fld p.1 30 16) && decide (fld p.1 30 16 ≤ 16384)
          && decide (fld p.1 15 0 + fld p.1 30 16 ≤ r.entries.length) && distinct (r.dests p.2))
    && (r.entries.all fun e => decide (fld e 63 56 = 0) && routeEnds e && (fld e 5 0 = 0x3F || on (fld e 5 0)))
    && ((uses ++ ownUses j r).all fun u => u.2 = j.member || (r.dests u.1).contains u.2)
  if ok then 0 else 5

/-- An image's link section of link h is present and enables it. -/
def imgLinkOn (l : List ImgSec) (h : Nat) : Bool := bit (w64 (leAt (secBytes l 0xD h) 0 8)) 0

/- The order of the checks (R262). -/

/-- A required section is absent (R260, R347). -/
def absent (l : List ImgSec) : Bool :=
  let j := jobOf (secBytes l 1 0xFFFF)
  (secOf l 1 0xFFFF).isNone || (secOf l 2 0xFFFF).isNone || (secOf l 0xC 0xFFFF).isNone
    || j.used.any (fun n => (secOf l 3 n).isNone) || (decide (1 < j.modules) && (secOf l 0xD 0xFFFF).isNone)

/-- Load code of one section. -/
def State.secCode (s : State) (l : List ImgSec) (x : ImgSec) : Nat :=
  let b := x.body
  match x.ty with
  | 1 => if s.jobOk b then 0 else 5
  | 2 => let c := s.planCode b
         if c = 0 ∧ (secOf l 0xB 0).isNone ∧ !(planOf b).feeds.isEmpty then 5 else c
  | 3 => storeCode 16384 b
  | 4 => poolCode l x.inst b
  | 5 => storeCode 8192 b
  | 6 => sitesCode l b
  | 7 => let c := errctlCode l x.inst b
         if c = 0 ∧ !knotless l (coreDie x.inst) ∧ leAt b 2 2 ≠ 0 then 5 else c
  | 8 => pliesCode b
  | 9 => s.capstanCode l x.inst b
  | 0xA => s.exchangeCode l x.inst b
  | 0xB => s.knotsCode l x.inst b
  | 0xC => memoryCode b
  | _ => if x.inst = 0xFFFF then routeCode (jobOf (secBytes l 1 0xFFFF)) (imgLinkOn l) (imgRouteUses l) b else linkCode b

/-- The first section, in directory order, that fails its checks: its code and index. -/
def State.firstBad (s : State) (l : List ImgSec) : List ImgSec → Option (Nat × Nat)
  | [] => none
  | x :: t => let c := s.secCode l x; if c = 0 then s.firstBad l t else some (c, x.index)

/-- Judges the container at `base` (R262). -/
def State.judge (s : State) (base : Nat) : LoadJob :=
  let bad (c i : Nat) : LoadJob := { code := c, section_ := i, secs := [], meas := 0 }
  if hbmSize < base + 128 then bad 1 0 else
  let h := s.hbmRead base 128
  if hdrCode h ≠ 0 then bad (hdrCode h) 0
  else if !extentOk base h then bad 3 0 else
  let dir := s.imgDir base h
  if !entriesOk h dir then bad 3 0
  else if s.sigBad base h then bad 4 0 else
  let l := s.imgSecs base dir
  if absent l then bad 6 0 else
  match s.firstBad l l with
  | some p => bad p.1 p.2
  | none => { code := 0, section_ := 0, secs := l, meas := s.imgMeas base h }

end Sys2Proof.Machine
end

