-- ==== Sys2Proof/Machine/Image.lean ====
section
/-! DEFINITION. What a good image writes (10 R263), the loads of images and route sections (10 R262; 13 R361), and what starts them. -/

namespace Sys2Proof.Machine

/- Writing the units (R263). -/

/-- A list of 64-bit words into a register array of the module. -/
def State.putWords (s : State) (n : RegName) (ws : List W64) : State := (ws.zipIdx).foldl (fun s p => s.setReg (modR n p.2) p.1) s

/-- Words of a digest as IMAGE_MEAS and ROUTE_MEAS hold them: bytes 8i to 8i + 7. -/
def digestWords (d : BitVec 512) : List W64 := (List.range 8).map fun i => w64 (leNat (((digestBytes d).drop (8 * i)).take 8))

/-- Clears the totals tied to image load: an unlisted register reads its reset value, 0. -/
def State.clearTotals (s : State) : State := { s with regs := s.regs.filter fun p => !imageTotal p.1.name }

/-- Kernel store of 8,192 instructions; those not supplied are END (R260). -/
def kernelOf (b : List Byte) : SMap W64 := ((wordsAt b 0 (b.length / 8)).zipIdx.map fun (p : W64 × Nat) => (p.2, p.1)).filter fun (p : Nat × W64) => p.1 < 8192

/-- Everything that an image gives a core; what it leaves out takes its default. -/
def coreOf (l : List ImgSec) (n : Nat) : Core :=
  let b (ty : Nat) := secBytes l ty n
  let words (ty : Nat) := wordsAt (b ty) 0 ((b ty).length / 8)
  { cc := { stream := words 3, pool := words 4 }
    vec := { kernel := kernelOf (b 5) }
    ec := { sites := (words 6).map fun w => (fld w 23 0, w)
            layers := ((errLayers (b 7)).zipIdx).map fun (p : List W64 × Nat) => (p.2, layerOf p.1)
            guards := (errGuards (b 7)).map fun ws => { words := ws }
            plyMask := if (secOf l 8 n).isSome then leAt (b 8) 0 1 else 0xF } }

/-- Loads core n; its reset state, if an escalation is under way, stays, and so does the computation of its index hash's test port (03 R89). -/
def State.loadCore (s : State) (l : List ImgSec) (n : Nat) : State :=
  let c := s.core n
  let s := s.setCore n { coreOf l n with reset := c.reset, qnt := { testRun := c.qnt.testRun } }
  (List.range 4).foldl (fun s k => s.setReg (coreR .KEEP_RING n k) (w64 (leAt (secBytes l 8 n) (8 + 8 * k) 8))) s

/-- Loads a die's knot store (R300): tables, endpoints, timeouts. A knot stays tied where the new tables map it as a persistent knot. -/
def State.loadKnots (s : State) (l : List ImgSec) (d : Nat) : State :=
  let b := secBytes l 0xB d
  let has := (secOf l 0xB d).isSome
  let xs := if has then xlates b else []
  let keep := (xs.filter fun p => kValid p.2 && kPersist p.2).map fun p => kPhys p.2
  let s := s.setKnot d { tied := (s.knot d).tied.filter keep.contains, xlate := xs, endpoints := if has then endpointsOf b else [] }
  (List.range 4).foldl (fun s i => s.setReg (rid .KNOT_TIMEOUT (.knotStore d) i) (w64 (if has then leAt b (8 + 4 * i) 4 else 1000000))) s

/-- Loads the memory system: host region, lay groups, mirror region and the regulators (R309, R312, R335), of which what they hold is counted up to now. -/
def State.loadMemory (s : State) (b : List Byte) : State :=
  let s := { s with mem := s.mem.withImage b }
  (List.range 56).foldl (fun s i => (s.settleTokens (i / 7) (i % 7)).setRegFld (rid .REG (.stack (i / 7)) (i % 7)) 31 0 (leAt b (64 + 8 * i) 4)) s

/-- Mailboxes at load (15 R392): VERSION 0, VALID 0, BUF the buffer that the first listed step does not write. -/
def State.loadMboxes (s : State) (start : Nat) : State :=
  s.plan.mboxes.foldl (fun s p =>
    let per := max p.period 1
    let first := start + ((p.phase : Int) - (start : Int)) % (per : Int)
    let buf := ((first - (p.phase : Int)) / (per : Int) % 2).toNat
    s.setReg (modR .MBOX_COMMIT p.id) (w64 (1 - buf))) s

/-- Loads a link for which the image has a section. A new job is a new JOB_ID. -/
def State.loadLinks (s : State) (l : List ImgSec) (newJob : Bool) : State :=
  (List.range 40).foldl (fun s h => s.loadLink h (match secOf l 0xD h with | some b => wordsAt b 0 4 | none => [0, 0, 0, 0]) newJob) s

/-- Writes every unit from a good image (R263). -/
def State.install (s : State) (j : LoadJob) : State :=
  let l := j.secs
  let jb := secBytes l 1 0xFFFF
  let job := jobOf jb
  let start := leAt jb 0x18 8
  let newJob := decide (s.job.jobId ≠ job.jobId)
  let route := match secOf l 0xD 0xFFFF with
    | some b => routeOf b
    | none => {}
  let s := s.clearTotals
  let s := { s with job := job, plan := planOf (secBytes l 2 0xFFFF), route := route, siteMax := [], sitePend := [], wMax := [], wPend := [], mirror := [] }
  let s := (s.onStep fun c => { c with attempt := 0, faultHeld := false, imageValid := true, ran := false, holdTick := none, fault := false }).onHank
    fun h => { h with misses := [], lost := [], standbys := [], props := [] }
  let s := (s.setReg (modR .LOGLINE) (w64 start)).hankClear
  let s := s.putWords .IMAGE_MEAS (digestWords j.meas)
  let s := s.loadMemory (secBytes l 0xC 0xFFFF)
  let s := (List.range 384).foldl (fun s n => s.loadCore l n) s
  let s := (s.loadKnots l 0).loadKnots l 1
  let s := { s with caps := (List.range 8).map fun st => (st, capOf (secBytes l 9 st))
                    whips := [0, 1].map fun d => (d, { records := let b := secBytes l 0xA d; (List.range (b.length / 64)).map fun i => wordsAt b (64 * i) 8 }) }
  let s := [0, 1].foldl (fun s d => s.clearFailed d fun _ => true) s
  (s.loadMboxes start).loadLinks l newJob

/- Loads (R262). -/

/-- Ends a load with a code: IMG_LOAD_STATUS, and the cause of a rejection. -/
def State.loadEnd (s : State) (code section_ : Nat) : State :=
  let s := (s.setRegFld (modR .STEP_CTRL) 1 1 0).setReg (modR .IMG_LOAD_STATUS) (w64 (code + section_ * 2 ^ 32))
  if code = 0 then s else s.raise .module (if code = 4 then 2 else 1)

/-- A write of STEP_CTRL.LOAD: refused at once unless HELD; ignored while a load is under way. The container is judged as it stands now. -/
def State.loadWrite (s : State) : State :=
  if s.load.isSome then s
  else if !s.isHeld then s.loadEnd 8 0
  else { (s.setRegFld (modR .STEP_CTRL) 1 1 1) with load := some (s.judge (fld (s.reg (modR .IMAGE_BASE)) 47 0)) }
/-- LOAD. -/
def execLoad (s : State) : Out := .next s.loadWrite

/-- LOAD_DONE: the load ends; a good image is in force, and the module may leave HELD. -/
def execLoadDone (s : State) : Out :=
  .next <|
    match s.load with
    | none => s
    | some j =>
      let s := { s with load := none }
      if j.code = 0 then ((s.install j).loadEnd 0 0).armTry else (s.loadEnd j.code j.section_).armTry

/-- A write of ROUTE_CTRL with LOAD: the route section at BASE × 2 replaces the one in force (13 R350, R361). -/
def State.routeLoad (s : State) : State :=
  let a := fld (s.reg (modR .ROUTE_CTRL)) 47 1 * 2
  let h := s.hbmRead a 64
  let b := s.hbmRead a (0x40 + 8 * (leAt h 0x24 2 + leAt h 0x26 4))
  let code := if !s.isHeld ∨ s.load.isSome then 8 else if hbmSize < a + b.length then 5 else routeCode s.job s.linkOn s.routeUses b
  let s := s.setRegFld (modR .ROUTE_CTRL) 63 56 code
  if code ≠ 0 then s else ({ s with route := routeOf b }).putWords .ROUTE_MEAS (digestWords (sha512 b))

/-- A write of ROUTE_CTRL. -/
def State.routeCtrl (s : State) (v : W64) : State :=
  let s := s.setRegFld (modR .ROUTE_CTRL) 47 1 (fld v 47 1)
  if bit v 0 then s.routeLoad else s
/-- ROUTE_LOAD: a write of ROUTE_CTRL. -/
def execRouteLoad (value : W64) (s : State) : Out := .next (s.routeCtrl value)

end Sys2Proof.Machine
end

