-- ==== Sys2Proof/Machine/RegAccess.lean ====
section
/-! DEFINITION. Host accesses to registers and scratch windows: the address map (00 R6; 01 R36 and its tables), access rules (00 R8–R12), and what each register does when it is written. -/

namespace Sys2Proof.Machine

/- The address map. -/

/-- Cause numbers below a leaf block's highest that no chapter assigns: their COUNT places hold no register (15 R384, R387, R388). -/
def causeGap : RegName → Nat → Bool
  | .CORE_COUNT, i => i = 15 || i = 17 || i = 18 || i = 19 || i = 23
  | .DIECTL_COUNT, i => i = 15
  | _, _ => false

/-- The register of a block at an offset. -/
def blkReg (b : Blk) (off : Nat) : Option (RegName × Nat) :=
  ((regTable.find? fun d => d.blk = b && decide (d.off ≤ off) && (off - d.off) % d.stride = 0 && decide ((off - d.off) / d.stride < d.count)).map
    fun d => (d.name, (off - d.off) / d.stride)).filter fun r => !causeGap r.1 r.2

/-- A register of a block, as one of a part. -/
def partReg (p : Part) (b : Blk) (off : Nat) : Option RegId := (blkReg b off).map fun r => ⟨r.1, p, r.2⟩

/-- *Core window*. -/
def coreWindow (n off : Nat) : Option RegId :=
  let o := off % 2 ^ 16
  match off / 2 ^ 16 with
  | 0 => partReg (.core n) .cc o
  | 1 => partReg (.ply n (o / 2 ^ 14)) .ply (o % 2 ^ 14)
  | 2 => partReg (.core n) .qnt o
  | 3 => partReg (.core n) .ec o
  | 4 => partReg (.core n) .vec o
  | 5 => partReg (.core n) .dma o
  | 6 => partReg (.core n) .ks o
  | 7 => partReg (.core n) .teth o
  | 8 => partReg (.core n) .ccause o
  | _ => none

/-- *Die units*. -/
def dieWindow (d off : Nat) : Option RegId :=
  let c := off / 2 ^ 24
  let o := off % 2 ^ 24
  if c < 24 then
    (if o < 2 ^ 23 then coreWindow (192 * d + 8 * c + o / 2 ^ 20) (o % 2 ^ 20) else partReg (.cluster d c) .clus (o - 2 ^ 23))
  else match c with
    | 0x20 => partReg (.dieCtl d) .diec o
    | 0x21 => partReg (.whip d) .whip o
    | 0x22 => partReg (.fabric d) .fab o
    | 0x23 => partReg (.knotStore d) .knot o
    | 0x24 => partReg (.dieCtl d) .map o
    | _ => none

/-- The register at an address of the accelerator address map. -/
def regAt (a : Nat) : Option RegId :=
  let o := a % 2 ^ 32
  match a / 2 ^ 32 with
  | 0x200 => partReg .module .mod o
  | 0x210 => dieWindow 0 o
  | 0x220 => dieWindow 1 o
  | 0x230 => if o / 2 ^ 24 < 8 then partReg (.stack (o / 2 ^ 24)) .stack (o % 2 ^ 24) else none
  | 0x240 => if o / 2 ^ 16 < 40 then partReg (.link (o / 2 ^ 16)) .link (o % 2 ^ 16) else none
  | 0x250 => partReg .module .sec o
  | 0x260 => partReg .module .pwr o
  | _ => none

/-- The core whose window an address lies in, if any: scratch or registers. -/
def coreAt (a : Nat) : Option Nat :=
  let n := (a - 2 ^ 40) / 2 ^ 22
  if 2 ^ 40 ≤ a ∧ n < 384 then some n
  else if 0x021000000000 ≤ a ∧ a % 2 ^ 32 < 24 * 2 ^ 24 ∧ (a / 2 ^ 32 = 0x210 ∨ a / 2 ^ 32 = 0x220) then
    some (192 * (a / 2 ^ 36 - 0x21) + 8 * (a % 2 ^ 32 / 2 ^ 24) + min (a % 2 ^ 24 / 2 ^ 20) 7)
  else none

/-- An address in the window of a cluster that is fenced: no access reaches it (16 R413; 01 R36). -/
def State.fencedAt (s : State) (a : Nat) : Bool :=
  match coreAt a with
  | some n => s.coreFenced n
  | none => false

/-- The die or stack that owns an address outside the HBM window has failed (R381): module control, the security mailbox and the power window are die A's (01 R29). -/
def State.ownerFailed (s : State) (a : Nat) : Bool :=
  let o := a % 2 ^ 32
  match a / 2 ^ 32 with
  | 0x200 => (s.dieRel 0).failed
  | 0x210 => (s.dieRel 0).failed
  | 0x220 => (s.dieRel 1).failed
  | 0x230 => decide (o / 2 ^ 24 < 8) && s.stackDown (o / 2 ^ 24)
  | 0x240 => decide (o / 2 ^ 16 < 40) && (s.dieRel (o / 2 ^ 16 / 20)).failed
  | 0x250 => (s.dieRel 0).failed
  | 0x260 => (s.dieRel 0).failed
  | _ => match coreAt a with
    | some n => (s.dieRel (coreDie n)).failed
    | none => false

/-- Nothing answers an access at an address (R381). -/
def State.silentAt (s : State) (a : Nat) : Bool := !s.hostUp || s.fencedAt a || s.ownerFailed a

/- Writes. -/

/-- A field takes a write by its access code (00 R11). -/
def RegField.write (f : RegField) (old v : W64) : W64 :=
  let m : W64 := w64 (2 ^ (f.hi + 1) - 2 ^ f.lo)
  match f.acc with
  | .rw => (old &&& ~~~m) ||| (v &&& m)
  | .w1c => old &&& ~~~(v &&& m)
  | .w1s => old ||| (v &&& m)
  | .ro => old
  | .wo => old

/-- A plain write: every field by its access code (00 R11, R12). -/
def State.plainWrite (s : State) (id : RegId) (v : W64) : State :=
  s.setReg id ((regDef id.name).fields.foldl (fun w f => f.write w v) (s.reg id))

/-- A write accepted only while HELD; otherwise it is discarded and is a decode error. -/
def State.heldWrite (s : State) (id : RegId) (v : W64) (addr : Nat) : State :=
  if s.isHeld then s.plainWrite id v else s.decodeError true addr

/-- REFRESH_CTRL: the reserved encoding 3 keeps a field's value (00 R12; 12 R335). -/
def State.refreshWrite (s : State) (id : RegId) (v : W64) (addr : Nat) : State :=
  if !s.isHeld then s.decodeError true addr else
  let s := if fld v 1 0 = 3 then s else s.setRegFld id 1 0 (fld v 1 0)
  if fld v 3 2 = 3 then s else s.setRegFld id 3 2 (fld v 3 2)

/-- STEP_CTRL: LOAD, then RUN, then REISSUE. -/
def State.stepCtrl (s : State) (v : W64) : State :=
  let s := if bit v 1 then s.loadWrite else s
  let s := s.runWrite (bit v 0)
  if bit v 2 then s.reissueWrite else s

/-- Slot facts for a slot that a register write starts: everything fits, and nothing is found. -/
def quietSlot : SlotFacts := { fits := 5, wear := [], phy := [], ucie := [] }

/-- REL_CTRL: AUTO_SPARE, and on die A SLOT_NOW (16 R415). -/
def State.relCtrl (s : State) (d : Nat) (v : W64) : State :=
  let s := s.setRegFld (dieR .REL_CTRL d) 0 0 (fld v 0 0)
  if bit v 1 && d = 0 then s.slotNow quietSlot else s

/-- DUMP_CTRL: RELEASE, then TAKE (16 R421). -/
def State.dumpCtrl (s : State) (d : Nat) (v : W64) : State :=
  let s := if bit v 1 then s.setRegFld (dieR .DUMP_STATUS d) 63 63 0 else s
  if bit v 0 then s.takeDump d 3 (s.job.used.filter fun n => coreDie n = d) else s

/-- KNOT_HOST_OP (11 R303). -/
def State.knotHostOp (s : State) (d : Nat) (v : W64) (addr : Nat) : State :=
  let go (op : Option KOp) := s.hostKnot d (fld v 13 12) (fld v 11 0) op
  match fld v 15 14 with
  | 0 => go none
  | 1 => go (some .tie)
  | 2 => go (some .untie)
  | _ => s.decodeError true addr

/-- SEC_CMD (17 R458). -/
def State.secCmd (s : State) (v : W64) : State :=
  if bit v 63 then s.secGo (fld v 7 0) (fld v 11 8)
  else s.setReg (modR .SEC_CMD) (w64 (fld v 11 0))

/-- EC_LAYER_BOUND, at its address (06 R170). -/
def State.layerWrite (s : State) (n i : Nat) (v : W64) : State :=
  s.layerBound n i v (0x021000000000 + coreDie n * 0x1000000000 + coreCluster n * 2 ^ 24 + coreIdx n * 2 ^ 20 + 0x31000 + 8 * i)

/-- Writes to registers of a core. -/
def State.coreRegWrite (s : State) (id : RegId) (n : Nat) (v : W64) (addr : Nat) : State :=
  let test (t : RegName) (x : W64) := s.ravelInput n t x
  match id.name with
  | .KEEP_RING => s.heldWrite id v addr
  | .TETHER_LIMIT => s.heldWrite id v addr
  | .EC_LAYER_BOUND => s.layerWrite n id.idx v
  | .RAVEL_TEST_SEED_LO => test .RAVEL_TEST_SEED_LO v
  | .RAVEL_TEST_SEED_HI => test .RAVEL_TEST_SEED_HI v
  | .RAVEL_TEST_STEP => test .RAVEL_TEST_STEP v
  | .RAVEL_TEST_STREAM => test .RAVEL_TEST_STREAM (w64 (fld v 31 0))
  | .RAVEL_TEST_INDEX => (test .RAVEL_TEST_INDEX (w64 (fld v 47 0))).onQnt n fun q => { q with testRun := true }
  | _ => s.plainWrite id v

/-- Writes to registers of a die controller. -/
def State.dieRegWrite (s : State) (id : RegId) (d : Nat) (v : W64) : State :=
  match id.name with
  | .CHAFE_TAIL => s.chafeRetire d v
  | .REL_CTRL => s.relCtrl d v
  | .SPARE_REQ => s.spareReq d v
  | .DUMP_CTRL => s.dumpCtrl d v
  | _ => s.plainWrite id v

/-- Writes to registers of a base die. -/
def State.stackRegWrite (s : State) (id : RegId) (st : Nat) (v : W64) (addr : Nat) : State :=
  match id.name with
  | .REG => (s.settleTokens st id.idx).heldWrite id v addr
  | .CE_THRESH => s.heldWrite id v addr
  | .REFRESH_CTRL => s.refreshWrite id v addr
  | .REPAIR_CTRL => s.repairWrite st v
  | .SCHED_TEST_CTRL => s.schedTest st (bit v 13) (fld v 12 3) (fld v 2 0)
  | _ => s.plainWrite id v

/-- Writes to registers of module control, the security mailbox and the power window. -/
def State.modRegWrite (s : State) (id : RegId) (v : W64) (addr : Nat) : State :=
  match id.name with
  | .STEP_CTRL => s.stepCtrl v
  | .LOGLINE => s.loglineWrite v
  | .STEP_LIMIT => s.limitWrite v
  | .ROUTE_CTRL => s.routeCtrl v
  | .CTX_CTRL => if id.idx < 4 then s.ctxCtrlWrite id.idx v else s
  | .CTX_PT => s.ctxRegWrite id v addr
  | .CTX_PAGES => s.ctxRegWrite id v addr
  | .CTX_DRAIN_BOUND => s.ctxRegWrite id v addr
  | .JOURNAL_ACK => s.journalAck (fld v 4 0)
  | .JOURNAL_RESUME => s.resumeWrite v
  | .JOURNAL_SUBMIT => s.submitWrite v
  | .STATE_CTRL => s.stateCtrl v
  | .STATE_BASE => s.heldWrite id v addr
  | .MIRROR_CTRL => s.mirrorCtrl v
  | .SEC_CMD => s.secCmd v
  | .ALERT_STATUS => s.alertClear (fld v 7 0)
  | .VOLT_BOUND => s.voltBound id.idx v
  | .CLK_BOUND => s.clkBound v
  | .POWER_CAP => s.powerCap v
  | _ => s.plainWrite id v

/-- A write of a register: what the register does, or a plain write. -/
def State.regWrite (s : State) (id : RegId) (v : W64) (addr : Nat) : State :=
  match id.part with
  | .core n => s.coreRegWrite id n v addr
  | .ply n p => if id.name = .RESIDUE_INJECT then (if bit v 0 then s.residueInject n p addr else s) else s.plainWrite id v
  | .dieCtl d => s.dieRegWrite id d v
  | .knotStore d => if id.name = .KNOT_HOST_OP then s.knotHostOp d v addr else s.plainWrite id v
  | .stack st => s.stackRegWrite id st v addr
  | .link h => if id.name = .LANE_CTRL then s.laneCtrl h v else s.plainWrite id v
  | .module => s.modRegWrite id v addr
  | .cluster _ _ => s.plainWrite id v
  | .whip _ => s.plainWrite id v
  | .fabric _ => s.plainWrite id v

/-- A read of a register. Reading SEC_STATUS with BUSY 0 zeroes the secrets (17 R459). -/
def State.regRead (s : State) (id : RegId) : State :=
  let s' := s.reply (s.readReg id).toNat
  if id.name = .SEC_STATUS then s'.secZero else s'

/- Host accesses. -/

/-- A host access to a scratch window (00 R6, R8); while the module is RUNNING what a read finds is undefined (10 R282). `ecc` lists the errors that the lines read meet (16 R414). -/
def State.scratchAccess (s : State) (a : HostAccess) (ecc : List (Nat × Nat)) : State :=
  let n := (a.addr - 2 ^ 40) / 2 ^ 22
  let o := a.addr % 2 ^ 22
  if 384 ≤ n ∨ scratchSize < o + a.size then
    let s := s.decodeError a.write a.addr
    if a.write then s else s.reply 0
  else if a.write then s.scrWrite n o (leBytes a.size a.data)
  else
    let s := s.scrEventsAt n [o / 64, (o + a.size - 1) / 64] ecc
    if s.step.state = .running then
      s.reply (leNat ((List.range a.size).map fun i => Config.busyScratch n (o + i) s.hostReply.length))
    else s.reply (s.scrNat n o a.size)

/-- A host access to the register ranges: aligned 64-bit accesses only; an address without a register reads 0 or discards the write (00 R8, R10). -/
def State.regAccess (s : State) (a : HostAccess) : State :=
  match (if a.size = 8 ∧ a.addr % 8 = 0 then regAt a.addr else none) with
  | none =>
    let s := s.decodeError a.write a.addr
    if a.write then s else s.reply 0
  | some id => if a.write then s.regWrite id (w64 a.data) a.addr else s.regRead id

/-- REGISTER_WRITE: a host access outside the HBM window; one that no powered and reachable part answers is left to time out (15 R381). -/
def execRegisterWrite (a : HostAccess) (ecc : List (Nat × Nat)) (s : State) : Out :=
  guardPart (decide (2 ^ 39 ≤ a.addr) && decide (a.addr < 2 ^ 48)) <|
    if s.silentAt a.addr then s.hold a
    else if a.addr < 0x020000000000 ∧ 2 ^ 40 ≤ a.addr then s.scratchAccess a ecc
    else s.regAccess a

/-- Registers that hold a cause's STATUS bits. -/
def isStatus (n : RegName) : Bool :=
  match n with
  | .CORE_STATUS => true
  | .CLUSTER_STATUS => true
  | .DIECTL_STATUS => true
  | .WHIP_STATUS => true
  | .KNOTST_STATUS => true
  | .STACK_STATUS => true
  | .LINKC_STATUS => true
  | .MODC_STATUS => true
  | _ => false

/-- First-event detail registers (15 R483). -/
def isDetail (n : RegName) : Bool :=
  match n with
  | .PLY_ERR_DETAIL => true
  | .ACC_FAULT_DETAIL => true
  | .EC_FLAG_DETAIL => true
  | .VEC_ERR_DETAIL => true
  | .CAP_ERR_DETAIL => true
  | .WH_ERR_DETAIL => true
  | .CC_ERR_DETAIL => true
  | .KNOT_ERR_DETAIL => true
  | .DMA_ERR_DETAIL => true
  | .MOD_DECODE_DETAIL => true
  | _ => false

/-- A write to a register of a kind, with its effect; an address that names none of that kind is no such register. One that nothing answers is left to time out (15 R381). -/
def kindWrite (kind : RegName → Bool) (addr : Nat) (value : W64) (act : State → RegId → State) (s : State) : Out :=
  match regAt addr with
  | some id => guardPart (kind id.name) (if s.silentAt addr then s.hold { write := true, addr := addr, size := 8, data := value.toNat } else act s id)
  | none => .fault .noSuchPart

/-- Causes of a leaf block that have a COUNT, and so occur (15 R384), among the bits of a mask. -/
def causesMet (p : Part) (m : W64) : List Nat :=
  let c := (leafOf p).count
  (bitsSet 64 m.toNat).filter fun b => decide (b < (regDef c).count) && !causeGap c b

/-- Ones clear causes, but for those that occur in the same cycle: there the set wins, and the event counts (15 R385, R386). -/
def State.statusClear (s : State) (id : RegId) (value met : W64) : State :=
  let l := causesMet id.part met
  l.foldl (fun s b => s.raise id.part b) (s.plainWrite id (value &&& ~~~(w64 (bitmap l))))

/-- STATUS_CLEAR: ones clear causes; `met` has a one for each cause that occurs in the cycle in which the write takes effect (15 R385). -/
def execStatusClear (addr : Nat) (value met : W64) (s : State) : Out := kindWrite isStatus addr value (fun s id => s.statusClear id value met) s
/-- DETAIL_VALID_CLEAR: a one clears VALID, and no field with it (15 R483). An event of the register's causes in the same cycle, whose detail is `met` (bit 63 set), wins: the write has no effect on VALID, and a register whose VALID was clear takes the event's fields (15 R385). -/
def execDetailValidClear (addr : Nat) (value met : W64) (s : State) : Out :=
  kindWrite isDetail addr value (fun s id => if bit met 63 then s.detail id met else s.plainWrite id value) s

/-- EC_LAYER_BOUND. -/
def execEcLayerBound (core layer : Nat) (value : W64) (s : State) : Out :=
  guardPart (decide (core < 384) && decide (layer < 256)) (s.layerWrite core layer value)

/-- RESIDUE_INJECT: a write of ARM. -/
def execResidueInject (core ply : Nat) (s : State) : Out :=
  guardPart (decide (core < 384) && decide (ply < 4))
    (s.residueInject core ply (0x021000000000 + coreDie core * 0x1000000000 + coreCluster core * 2 ^ 24 + coreIdx core * 2 ^ 20 + 0x10210 + ply * 0x4000))

end Sys2Proof.Machine
end

