-- ==== Sys2Proof/Machine/Dispatch.lean ====
section
/-! DEFINITION. One arm per command. -/

namespace Sys2Proof.Machine

/-- The effect of a command on everything but the queue. -/
def exec (i : Instr) (s : State) : Host.Outcome State Fault Refusal :=
  match i with
  | .ccNop core => Sys2Proof.Machine.execCcNop core s
  | .stepend core => Sys2Proof.Machine.execStepend core s
  | .addi core => Sys2Proof.Machine.execAddi core s
  | .ccAdd core => Sys2Proof.Machine.execCcAdd core s
  | .ccSub core => Sys2Proof.Machine.execCcSub core s
  | .ccMul core => Sys2Proof.Machine.execCcMul core s
  | .ccAnd core => Sys2Proof.Machine.execCcAnd core s
  | .ccOr core => Sys2Proof.Machine.execCcOr core s
  | .ccXor core => Sys2Proof.Machine.execCcXor core s
  | .shl core => Sys2Proof.Machine.execShl core s
  | .shr core => Sys2Proof.Machine.execShr core s
  | .sra core => Sys2Proof.Machine.execSra core s
  | .li core => Sys2Proof.Machine.execLi core s
  | .lih core => Sys2Proof.Machine.execLih core s
  | .ldc core => Sys2Proof.Machine.execLdc core s
  | .gets core => Sys2Proof.Machine.execGets core s
  | .beq core => Sys2Proof.Machine.execBeq core s
  | .bne core => Sys2Proof.Machine.execBne core s
  | .blt core => Sys2Proof.Machine.execBlt core s
  | .bltu core => Sys2Proof.Machine.execBltu core s
  | .ccLoop core => Sys2Proof.Machine.execCcLoop core s
  | .issue core => Sys2Proof.Machine.execIssue core s
  | .fence core => Sys2Proof.Machine.execFence core s
  | .vres core => Sys2Proof.Machine.execVres core s
  | .tie core cellErr => Sys2Proof.Machine.execTie core cellErr s
  | .untie core cellErr => Sys2Proof.Machine.execUntie core cellErr s
  | .wait core cellErr lag => Sys2Proof.Machine.execWait core cellErr lag s
  | .waitclr core cellErr lag => Sys2Proof.Machine.execWaitclr core cellErr lag s
  | .take core cellErr => Sys2Proof.Machine.execTake core cellErr s
  | .rtie core => Sys2Proof.Machine.execRtie core s
  | .runtie core => Sys2Proof.Machine.execRuntie core s
  | .remoteSend core => Sys2Proof.Machine.execRemoteSend core s
  | .remoteKnotOp die o cellErr => Sys2Proof.Machine.execRemoteKnotOp die o cellErr s
  | .knotTimeout core => Sys2Proof.Machine.execKnotTimeout core s
  | .hostNop die ctx knot => Sys2Proof.Machine.execHostNop die ctx knot s
  | .hostTie die ctx knot cellErr => Sys2Proof.Machine.execHostTie die ctx knot cellErr s
  | .hostUntie die ctx knot cellErr => Sys2Proof.Machine.execHostUntie die ctx knot cellErr s
  | .matmul core ply => Sys2Proof.Machine.execMatmul core ply s
  | .packed core ply => Sys2Proof.Machine.execPacked core ply s
  | .blockStep core ply quad feedStalls gap ecc => Sys2Proof.Machine.execBlockStep core ply quad feedStalls gap ecc s
  | .readOut core ply quad => Sys2Proof.Machine.execReadOut core ply quad s
  | .quantiserOperation core port => Sys2Proof.Machine.execQuantiserOperation core port s
  | .damageRecord core => Sys2Proof.Machine.execDamageRecord core s
  | .ecLayerBound core layer value => Sys2Proof.Machine.execEcLayerBound core layer value s
  | .residueInject core ply => Sys2Proof.Machine.execResidueInject core ply s
  | .ravelTestIndex core value => Sys2Proof.Machine.execRavelTestIndex core value s
  | .ravelTestInput core sel value => Sys2Proof.Machine.execRavelTestInput core sel value s
  | .ravelTestDone core => Sys2Proof.Machine.execRavelTestDone core s
  | .vlaunch core => Sys2Proof.Machine.execVlaunch core s
  | .launchComplete core => Sys2Proof.Machine.execLaunchComplete core s
  | .vecNop core strand => Sys2Proof.Machine.execVecNop core strand s
  | .strandEnd core strand => Sys2Proof.Machine.execStrandEnd core strand s
  | .br core strand => Sys2Proof.Machine.execBr core strand s
  | .brany core strand => Sys2Proof.Machine.execBrany core strand s
  | .lset core strand => Sys2Proof.Machine.execLset core strand s
  | .vecLoop core strand => Sys2Proof.Machine.execVecLoop core strand s
  | .vout core strand => Sys2Proof.Machine.execVout core strand s
  | .vld core strand stalls ecc => Sys2Proof.Machine.execVld core strand stalls ecc s
  | .vst core strand stalls => Sys2Proof.Machine.execVst core strand stalls s
  | .vstr core strand stalls => Sys2Proof.Machine.execVstr core strand stalls s
  | .vldq core strand scr oc ecc => Sys2Proof.Machine.execVldq core strand scr oc ecc s
  | .vstq core strand stalls => Sys2Proof.Machine.execVstq core strand stalls s
  | .vadd core strand => Sys2Proof.Machine.execVadd core strand s
  | .vsub core strand => Sys2Proof.Machine.execVsub core strand s
  | .vmul core strand => Sys2Proof.Machine.execVmul core strand s
  | .vfma core strand => Sys2Proof.Machine.execVfma core strand s
  | .vfms core strand => Sys2Proof.Machine.execVfms core strand s
  | .vmin core strand => Sys2Proof.Machine.execVmin core strand s
  | .vmax core strand => Sys2Proof.Machine.execVmax core strand s
  | .vabs core strand => Sys2Proof.Machine.execVabs core strand s
  | .vneg core strand => Sys2Proof.Machine.execVneg core strand s
  | .vmov core strand => Sys2Proof.Machine.execVmov core strand s
  | .vrcp core strand => Sys2Proof.Machine.execVrcp core strand s
  | .vdiv core strand => Sys2Proof.Machine.execVdiv core strand s
  | .vsqrt core strand => Sys2Proof.Machine.execVsqrt core strand s
  | .vrsq core strand => Sys2Proof.Machine.execVrsq core strand s
  | .vexp2 core strand => Sys2Proof.Machine.execVexp2 core strand s
  | .vexp core strand => Sys2Proof.Machine.execVexp core strand s
  | .vlog2 core strand => Sys2Proof.Machine.execVlog2 core strand s
  | .vlog core strand => Sys2Proof.Machine.execVlog core strand s
  | .vtanh core strand => Sys2Proof.Machine.execVtanh core strand s
  | .vsigm core strand => Sys2Proof.Machine.execVsigm core strand s
  | .verf core strand => Sys2Proof.Machine.execVerf core strand s
  | .vsin core strand => Sys2Proof.Machine.execVsin core strand s
  | .vcos core strand => Sys2Proof.Machine.execVcos core strand s
  | .vceq core strand => Sys2Proof.Machine.execVceq core strand s
  | .vclt core strand => Sys2Proof.Machine.execVclt core strand s
  | .vcle core strand => Sys2Proof.Machine.execVcle core strand s
  | .vcun core strand => Sys2Proof.Machine.execVcun core strand s
  | .vsel core strand => Sys2Proof.Machine.execVsel core strand s
  | .pand core strand => Sys2Proof.Machine.execPand core strand s
  | .por core strand => Sys2Proof.Machine.execPor core strand s
  | .pxor core strand => Sys2Proof.Machine.execPxor core strand s
  | .pnot core strand => Sys2Proof.Machine.execPnot core strand s
  | .vcvti core strand => Sys2Proof.Machine.execVcvti core strand s
  | .vcvtf core strand => Sys2Proof.Machine.execVcvtf core strand s
  | .vrbf core strand => Sys2Proof.Machine.execVrbf core strand s
  | .viadd core strand => Sys2Proof.Machine.execViadd core strand s
  | .visub core strand => Sys2Proof.Machine.execVisub core strand s
  | .vimul core strand => Sys2Proof.Machine.execVimul core strand s
  | .vand core strand => Sys2Proof.Machine.execVand core strand s
  | .vor core strand => Sys2Proof.Machine.execVor core strand s
  | .vxor core strand => Sys2Proof.Machine.execVxor core strand s
  | .vshl core strand => Sys2Proof.Machine.execVshl core strand s
  | .vshra core strand => Sys2Proof.Machine.execVshra core strand s
  | .vshrl core strand => Sys2Proof.Machine.execVshrl core strand s
  | .vimin core strand => Sys2Proof.Machine.execVimin core strand s
  | .vimax core strand => Sys2Proof.Machine.execVimax core strand s
  | .viclt core strand => Sys2Proof.Machine.execViclt core strand s
  | .vperm core strand => Sys2Proof.Machine.execVperm core strand s
  | .vblane core strand => Sys2Proof.Machine.execVblane core strand s
  | .viota core strand => Sys2Proof.Machine.execViota core strand s
  | .vrot core strand => Sys2Proof.Machine.execVrot core strand s
  | .rclr core strand => Sys2Proof.Machine.execRclr core strand s
  | .radd core strand => Sys2Proof.Machine.execRadd core strand s
  | .rmax core strand => Sys2Proof.Machine.execRmax core strand s
  | .rmin core strand => Sys2Proof.Machine.execRmin core strand s
  | .rarg core strand => Sys2Proof.Machine.execRarg core strand s
  | .rsoft core strand => Sys2Proof.Machine.execRsoft core strand s
  | .rread core strand => Sys2Proof.Machine.execRread core strand s
  | .rxport core strand stalls => Sys2Proof.Machine.execRxport core strand stalls s
  | .rimport core strand stalls ecc => Sys2Proof.Machine.execRimport core strand stalls ecc s
  | .vsmx core strand => Sys2Proof.Machine.execVsmx core strand s
  | .vgath core strand scr oc ecc => Sys2Proof.Machine.execVgath core strand scr oc ecc s
  | .vscat core strand scr oc => Sys2Proof.Machine.execVscat core strand scr oc s
  | .vscadd core strand scr oc ecc => Sys2Proof.Machine.execVscadd core strand scr oc ecc s
  | .copy core ecc scr late => Sys2Proof.Machine.execCopy core ecc scr late s
  | .dmaGather core ecc scr late => Sys2Proof.Machine.execDmaGather core ecc scr late s
  | .dmaScatterStore core ecc scr late => Sys2Proof.Machine.execDmaScatterStore core ecc scr late s
  | .dmaScatterAdd core ecc scr late => Sys2Proof.Machine.execDmaScatterAdd core ecc scr late s
  | .dmaComplete core acks late => Sys2Proof.Machine.execDmaComplete core acks late s
  | .peerWrite die member ctx gen runs => Sys2Proof.Machine.execPeerWrite die member ctx gen runs s
  | .hostHbmAccess a ecc => Sys2Proof.Machine.execHostHbmAccess a ecc s
  | .hostAccessTimeout => Sys2Proof.Machine.execHostAccessTimeout s
  | .normPass stack rcd => Sys2Proof.Machine.execNormPass stack rcd s
  | .clipNorm stack group => Sys2Proof.Machine.execClipNorm stack group s
  | .updatePass stack rcd => Sys2Proof.Machine.execUpdatePass stack rcd s
  | .mpEnd stack => Sys2Proof.Machine.execMpEnd stack s
  | .mpAdd stack => Sys2Proof.Machine.execMpAdd stack s
  | .mpSub stack => Sys2Proof.Machine.execMpSub stack s
  | .mpMul stack => Sys2Proof.Machine.execMpMul stack s
  | .mpFma stack => Sys2Proof.Machine.execMpFma stack s
  | .mpDiv stack => Sys2Proof.Machine.execMpDiv stack s
  | .mpSqrt stack => Sys2Proof.Machine.execMpSqrt stack s
  | .mpMin stack => Sys2Proof.Machine.execMpMin stack s
  | .mpMax stack => Sys2Proof.Machine.execMpMax stack s
  | .mpAbs stack => Sys2Proof.Machine.execMpAbs stack s
  | .mpNeg stack => Sys2Proof.Machine.execMpNeg stack s
  | .mpSign stack => Sys2Proof.Machine.execMpSign stack s
  | .mpSelneg stack => Sys2Proof.Machine.execMpSelneg stack s
  | .mpMov stack => Sys2Proof.Machine.execMpMov stack s
  | .schedTestCompute stack index entry => Sys2Proof.Machine.execSchedTestCompute stack index entry s
  | .schedTestCt stack index entry => Sys2Proof.Machine.execSchedTestCt stack index entry s
  | .schedTestDone stack => Sys2Proof.Machine.execSchedTestDone stack s
  | .bucketCompress die rcd bucket => Sys2Proof.Machine.execBucketCompress die rcd bucket s
  | .topkMsg die m => Sys2Proof.Machine.execTopkMsg die m s
  | .signMsg die m => Sys2Proof.Machine.execSignMsg die m s
  | .cancelMsg die m => Sys2Proof.Machine.execCancelMsg die m s
  | .finalMsg die m => Sys2Proof.Machine.execFinalMsg die m s
  | .cellMsg die m => Sys2Proof.Machine.execCellMsg die m s
  | .denseMsg die m => Sys2Proof.Machine.execDenseMsg die m s
  | .bucketMerge die rcd bucket stalls => Sys2Proof.Machine.execBucketMerge die rcd bucket stalls s
  | .load => Sys2Proof.Machine.execLoad s
  | .run value => Sys2Proof.Machine.execRun value s
  | .reissue => Sys2Proof.Machine.execReissue s
  | .stepLimit value => Sys2Proof.Machine.execStepLimit value s
  | .ready member step attempt => Sys2Proof.Machine.execReady member step attempt s
  | .tick step attempt hold elapsed link residence => Sys2Proof.Machine.execTick step attempt hold elapsed link residence s
  | .enterRunning => Sys2Proof.Machine.execEnterRunning s
  | .drainComplete acks => Sys2Proof.Machine.execDrainComplete acks s
  | .stepSummary member step attempt m => Sys2Proof.Machine.execStepSummary member step attempt m s
  | .drainTimeout => Sys2Proof.Machine.execDrainTimeout s
  | .commit step attempt m k facts => Sys2Proof.Machine.execCommit step attempt m k facts s
  | .maintenanceEnd => Sys2Proof.Machine.execMaintenanceEnd s
  | .abortStep step attempt => Sys2Proof.Machine.execAbortStep step attempt s
  | .quiesceCheck stuck => Sys2Proof.Machine.execQuiesceCheck stuck s
  | .reissueMessage step attempt => Sys2Proof.Machine.execReissueMessage step attempt s
  | .faultReport member entry => Sys2Proof.Machine.execFaultReport member entry s
  | .heartbeat member k standby => Sys2Proof.Machine.execHeartbeat member k standby s
  | .heartbeatTimer => Sys2Proof.Machine.execHeartbeatTimer s
  | .hankMemberLost member => Sys2Proof.Machine.execHankMemberLost member s
  | .hankManagerLost => Sys2Proof.Machine.execHankManagerLost s
  | .routeLoad value => Sys2Proof.Machine.execRouteLoad value s
  | .mirrorData m => Sys2Proof.Machine.execMirrorData m s
  | .mirrorRestore value => Sys2Proof.Machine.execMirrorRestore value s
  | .mirrorRebuild value => Sys2Proof.Machine.execMirrorRebuild value s
  | .restoreData m => Sys2Proof.Machine.execRestoreData m s
  | .save => Sys2Proof.Machine.execSave s
  | .restore => Sys2Proof.Machine.execRestore s
  | .tether core part => Sys2Proof.Machine.execTether core part s
  | .resetEscalated kind idx => Sys2Proof.Machine.execResetEscalated kind idx s
  | .resetDone kind idx => Sys2Proof.Machine.execResetDone kind idx s
  | .slotNow facts => Sys2Proof.Machine.execSlotNow facts s
  | .spareReq die value => Sys2Proof.Machine.execSpareReq die value s
  | .takeDump die => Sys2Proof.Machine.execTakeDump die s
  | .releaseDump die => Sys2Proof.Machine.execReleaseDump die s
  | .chafeTail die value => Sys2Proof.Machine.execChafeTail die value s
  | .journalAck slot => Sys2Proof.Machine.execJournalAck slot s
  | .journalResume value => Sys2Proof.Machine.execJournalResume value s
  | .journalSubmit value => Sys2Proof.Machine.execJournalSubmit value s
  | .migrationRequest stack value => Sys2Proof.Machine.execMigrationRequest stack value s
  | .retrain stack src => Sys2Proof.Machine.execRetrain stack src s
  | .migrationChunk stack => Sys2Proof.Machine.execMigrationChunk stack s
  | .patrolScrub stack ecc => Sys2Proof.Machine.execPatrolScrub stack ecc s
  | .refreshOverride stack temp => Sys2Proof.Machine.execRefreshOverride stack temp s
  | .create ctx gen => Sys2Proof.Machine.execCreate ctx gen s
  | .teardown ctx => Sys2Proof.Machine.execTeardown ctx s
  | .ctxDrainForced ctx => Sys2Proof.Machine.execCtxDrainForced ctx s
  | .ctxTeardownDone ctx => Sys2Proof.Machine.execCtxTeardownDone ctx s
  | .statusClear addr value met => Sys2Proof.Machine.execStatusClear addr value met s
  | .detailValidClear addr value met => Sys2Proof.Machine.execDetailValidClear addr value met s
  | .registerWrite a ecc => Sys2Proof.Machine.execRegisterWrite a ecc s
  | .laneCtrl link value => Sys2Proof.Machine.execLaneCtrl link value s
  | .voltBound die value => Sys2Proof.Machine.execVoltBound die value s
  | .clkBound value => Sys2Proof.Machine.execClkBound value s
  | .powerCap value => Sys2Proof.Machine.execPowerCap value s
  | .flit link bytes phy => Sys2Proof.Machine.execFlit link bytes phy s
  | .nak link ack => Sys2Proof.Machine.execNak link ack s
  | .ackTimeout link => Sys2Proof.Machine.execAckTimeout link s
  | .laneLockLoss link lane => Sys2Proof.Machine.execLaneLockLoss link lane s
  | .messageRelease link index release => Sys2Proof.Machine.execMessageRelease link index release s
  | .firmwareBoot => Sys2Proof.Machine.execFirmwareBoot s
  | .firmwareVerified => Sys2Proof.Machine.execFirmwareVerified s
  | .recoveryImage bytes => Sys2Proof.Machine.execRecoveryImage bytes s
  | .hbmReady => Sys2Proof.Machine.execHbmReady s
  | .pwrEnRise => Sys2Proof.Machine.execPwrEnRise s
  | .pwrEnFall => Sys2Proof.Machine.execPwrEnFall s
  | .resetNAssert => Sys2Proof.Machine.execResetNAssert s
  | .vinWarn mv => Sys2Proof.Machine.execVinWarn mv s
  | .vinFault mv => Sys2Proof.Machine.execVinFault mv s
  | .vinOvercurrent ma => Sys2Proof.Machine.execVinOvercurrent ma s
  | .phaseShed phase => Sys2Proof.Machine.execPhaseShed phase s
  | .thermalThrottle die temp => Sys2Proof.Machine.execThermalThrottle die temp s
  | .throttleRelease die temp => Sys2Proof.Machine.execThrottleRelease die temp s
  | .thermTrip part temp => Sys2Proof.Machine.execThermTrip part temp s
  | .voltageLoop die margin => Sys2Proof.Machine.execVoltageLoop die margin s
  | .refLost r => Sys2Proof.Machine.execRefLost r s
  | .refHoldoverExpiry => Sys2Proof.Machine.execRefHoldoverExpiry s
  | .alertStatusClear value => Sys2Proof.Machine.execAlertStatusClear value s
  | .clearFaults => Sys2Proof.Machine.execClearFaults s
  | .capability => Sys2Proof.Machine.execCapability s
  | .vinUvWarnLimit => Sys2Proof.Machine.execVinUvWarnLimit s
  | .statusWord => Sys2Proof.Machine.execStatusWord s
  | .statusInput => Sys2Proof.Machine.execStatusInput s
  | .statusTemperature => Sys2Proof.Machine.execStatusTemperature s
  | .readVin => Sys2Proof.Machine.execReadVin s
  | .readIin => Sys2Proof.Machine.execReadIin s
  | .readTemperature1 => Sys2Proof.Machine.execReadTemperature1 s
  | .readTemperature2 => Sys2Proof.Machine.execReadTemperature2 s
  | .readPin => Sys2Proof.Machine.execReadPin s
  | .mfrId => Sys2Proof.Machine.execMfrId s
  | .mfrModel => Sys2Proof.Machine.execMfrModel s
  | .getVersion => Sys2Proof.Machine.execGetVersion s
  | .getCapabilities => Sys2Proof.Machine.execGetCapabilities s
  | .negotiateAlgorithms => Sys2Proof.Machine.execNegotiateAlgorithms s
  | .getDigests => Sys2Proof.Machine.execGetDigests s
  | .getCertificate slot offset length => Sys2Proof.Machine.execGetCertificate slot offset length s
  | .challenge slot nonce => Sys2Proof.Machine.execChallenge slot nonce s
  | .getMeasurements op signed nonce => Sys2Proof.Machine.execGetMeasurements op signed nonce s
  | .ctxKeyGen ctx => Sys2Proof.Machine.execCtxKeyGen ctx s
  | .linkSecret => Sys2Proof.Machine.execLinkSecret s
  | .imageKey => Sys2Proof.Machine.execImageKey s
  | .policyWrite => Sys2Proof.Machine.execPolicyWrite s
  | .lifecycleAdvance => Sys2Proof.Machine.execLifecycleAdvance s
  | .debugChallenge => Sys2Proof.Machine.execDebugChallenge s
  | .debugUnlock slot => Sys2Proof.Machine.execDebugUnlock slot s
  | .spdmRelay => Sys2Proof.Machine.execSpdmRelay s
  | .randomBytes => Sys2Proof.Machine.execRandomBytes s
  | .secArgZeroing => Sys2Proof.Machine.execSecArgZeroing s
  | .trngFail => Sys2Proof.Machine.execTrngFail s
  | .trainingExchange link t => Sys2Proof.Machine.execTrainingExchange link t s
  | .refReturn r => Sys2Proof.Machine.execRefReturn r s
  | .linkLaneMarked link lane => Sys2Proof.Machine.execLinkLaneMarked link lane s
  | .keyPhaseReport link phase => Sys2Proof.Machine.execKeyPhaseReport link phase s
  | .secStatusRead => Sys2Proof.Machine.execSecStatusRead s
  | .secCmdDone => Sys2Proof.Machine.execSecCmdDone s
  | .loadDone => Sys2Proof.Machine.execLoadDone s

end Sys2Proof.Machine
end

