-- ==== Sys2Proof/Machine/Step.lean ====
section
/-! DEFINITION. A step: the command at the front of the queue, or one management-clock cycle when the queue is empty. -/

namespace Sys2Proof.Machine

/-- One management cycle's passing: the clock advances while the die is powered (01 R30), and a throttled die counts its core cycles (18 R471). -/
def State.tick (s : State) : State :=
  if s.pwr.pwrGood then { s with clock := s.clock + 1 }.bump (modR .THROTTLE_CYCLE_TOTAL) (s.clkK * (s.pwr.thr.countP (· ≠ 0))) else s

/-- Runs messages and accepted controls in order; one that memory holds waits again. -/
def runAll : List Instr → State → Host.Outcome State Fault Refusal
  | [], s => .next s
  | i :: t, s =>
    match s.acceptedGo i with
    | some s => runAll t s
    | none =>
      match exec i s with
      | .next s => runAll t s
      | o => o

/-- What memory held is tried again, oldest first, and keeps its place where it still waits (DESIGN CHOICE, log 128). -/
def State.retryWaiting (s : State) : Host.Outcome State Fault Refusal := runAll s.waiting { s with waiting := [] }

/-- One 200 MHz management cycle with no command waiting: the clock advances, memory serves what it can of what waits (12 R315), and contexts that have drained go on to their scrub (15 R399). -/
def State.idle (s : State) : Host.Outcome State Fault Refusal := s.tick.serveHeld.ctxPoll.retryWaiting

/-- Takes the command at the front of the queue and runs it on the rest. -/
def step (s : State) : Host.Outcome State Fault Refusal :=
  match s.pending with
  | [] => s.idle
  | c :: rest => exec c { s with pending := rest }

/-- Puts the command that a word spells at the front of the queue; a word that spells none changes nothing. -/
def State.withFetchWord (s : State) (nbits w : Nat) : State :=
  match decodeTableWord nbits w with
  | some c => { s with pending := c :: s.pending }
  | none => s

end Sys2Proof.Machine
end

