-- ==== Sys2Proof/WellFormed.lean ====
section
/-! DEFINITION. The checks a command must meet: every part number in the range of 00 R2, every field in its width. -/

namespace Sys2Proof

/-- A remote knot operation's fields fit their widths (11 R292, R294). -/
def RemoteOp.wf (o : RemoteOp) : Bool :=
  decide (o.ctx < 4) && decide (o.knot < 4096) && decide (o.gen < 256) && decide (o.step < 2 ^ 64)
    && decide (o.attempt < 2 ^ 16) && decide (o.srcMember < 16384) && decide (o.srcCore < 384)

/-- A host access lies in the 48-bit map and moves 1 to 64 bytes (00 R6). -/
def HostAccess.wf (a : HostAccess) : Bool :=
  decide (a.addr < 2 ^ 48) && decide (1 ≤ a.size) && decide (a.size ≤ 64) && decide (a.data < 2 ^ (8 * a.size))

/-- Error events name channels 0–255 and units within a channel (12 R305, R316). -/
def eccWf (l : List EccEvent) : Bool := l.all fun e => decide (e.chan < 256) && decide (e.unit < 2 ^ 25)

/-- Errors of core scratch lie in it and are corrected (1) or uncorrectable (2) (12 R324, 16 R414). -/
def scrWf (l : List (Nat × Nat)) : Bool := l.all fun e => decide (e.1 < 2 ^ 21) && decide (1 ≤ e.2) && decide (e.2 ≤ 2)

/-- A fragment message carries at most a message's payload (13 R348). -/
def FragMsg.wf (m : FragMsg) : Bool := decide (m.payload.length ≤ 62448)

/-- A DENSE message's codes fit an FP32 element, and their number its COUNT (09 R247). -/
def DenseMsg.wf (m : DenseMsg) : Bool := decide (m.vals.length < 8192) && m.vals.all fun v => decide (v < 2 ^ 32)

/-- A CELL message travels one of three legs and carries whole cells (09 R252). -/
def CellMsg.wf (m : CellMsg) : Bool := decide (m.leg < 3) && m.cells.all fun c => decide (c.length = 64)

/-- A step summary names 256 layers, 4,096 tracked sites, 65,536 tensors and four reasons (10 R272, R277). -/
def Summary.wf (m : Summary) : Bool :=
  m.storm.all (fun n => decide (n < 256)) && m.calm.all (fun n => decide (n < 256)) && m.sites.all (fun p => decide (p.1 < 4096))
    && m.weights.all (fun p => decide (p.1 < 65536)) && m.vetoes.all (fun n => decide (n < 65536)) && decide (m.tnr < 16)

/-- Slot facts name cores, channels and UCIe modules that exist. -/
def SlotFacts.wf (f : SlotFacts) : Bool :=
  decide (f.fits ≤ 5) && f.wear.all (fun r => decide (r.1 < 2) && decide (r.2.1 < 2) && decide (r.2.2.1 < 192)) && f.phy.all (fun p => decide (p.1 < 256))
    && f.ucie.all (fun u => decide (u.2.1 < ucieModules u.1))

/-- A training exchange's fields fit their widths (13 R338). -/
def TrainMsg.wf (t : TrainMsg) : Bool :=
  decide (t.jobId < 2 ^ 64) && decide (t.slot < 2 ^ 15) && decide (t.peerLink < 40) && decide (t.floor < 3) && decide (t.ceil < 3)
    && decide (t.proposal < 3) && decide (t.support < 3) && decide (t.latency < 2 ^ 32) && decide (t.session < 2 ^ 32) && decide (t.lanes < 32)

/-- Physical-layer facts name the five lanes of a link. -/
def PhyFacts.wf (p : PhyFacts) : Bool := decide (p.lanes.length ≤ 5)

/-- A mirror or restore message names a member and a unit of the module, and carries the rest of a message (13 R348, R362). -/
def MirrorMsg.wf (m : MirrorMsg) : Bool :=
  decide (m.member < 16384) && decide (m.step < 2 ^ 64) && decide (m.attempt < 65536) && decide (m.unit < 8) && decide (m.rcd < 4096)
    && decide (m.bytes.length ≤ 62448) && decide (m.wt < 2 ^ 32) && decide (m.ctx < 4) && decide (m.gen < 256)

/-- Parts named as not quiesced exist (16 R409). -/
def stuckWf (l : List (Nat × Nat)) : Bool := l.all fun u => if u.1 = 0 then decide (u.2 < 384) else decide (u.1 = 1) && decide (u.2 < 8)

/-- The command names parts that exist and values that fit their fields. -/
def WellFormed : Instr → Bool
  | .ccNop core => decide (core < 384)
  | .stepend core => decide (core < 384)
  | .addi core => decide (core < 384)
  | .ccAdd core => decide (core < 384)
  | .ccSub core => decide (core < 384)
  | .ccMul core => decide (core < 384)
  | .ccAnd core => decide (core < 384)
  | .ccOr core => decide (core < 384)
  | .ccXor core => decide (core < 384)
  | .shl core => decide (core < 384)
  | .shr core => decide (core < 384)
  | .sra core => decide (core < 384)
  | .li core => decide (core < 384)
  | .lih core => decide (core < 384)
  | .ldc core => decide (core < 384)
  | .gets core => decide (core < 384)
  | .beq core => decide (core < 384)
  | .bne core => decide (core < 384)
  | .blt core => decide (core < 384)
  | .bltu core => decide (core < 384)
  | .ccLoop core => decide (core < 384)
  | .issue core => decide (core < 384)
  | .fence core => decide (core < 384)
  | .vres core => decide (core < 384)
  | .tie core _ => decide (core < 384)
  | .untie core _ => decide (core < 384)
  | .wait core _ _ => decide (core < 384)
  | .waitclr core _ _ => decide (core < 384)
  | .take core _ => decide (core < 384)
  | .rtie core => decide (core < 384)
  | .runtie core => decide (core < 384)
  | .remoteSend core => decide (core < 384)
  | .remoteKnotOp die o _ => decide (die < 2) && RemoteOp.wf o
  | .knotTimeout core => decide (core < 384)
  | .hostNop die ctx knot => decide (die < 2) && decide (ctx < 4) && decide (knot < 4096)
  | .hostTie die ctx knot _ => decide (die < 2) && decide (ctx < 4) && decide (knot < 4096)
  | .hostUntie die ctx knot _ => decide (die < 2) && decide (ctx < 4) && decide (knot < 4096)
  | .matmul core ply => decide (core < 384) && decide (ply < 4)
  | .packed core ply => decide (core < 384) && decide (ply < 4)
  | .blockStep core ply quad _ _ ecc => decide (core < 384) && decide (ply < 4) && decide (quad < 4) && scrWf ecc
  | .readOut core ply quad => decide (core < 384) && decide (ply < 4) && decide (quad < 4)
  | .quantiserOperation core port => decide (core < 384) && decide (port < 4)
  | .damageRecord core => decide (core < 384)
  | .ecLayerBound core layer _ => decide (core < 384) && decide (layer < 256)
  | .residueInject core ply => decide (core < 384) && decide (ply < 4)
  | .ravelTestIndex core _ => decide (core < 384)
  | .ravelTestInput core sel _ => decide (core < 384) && decide (sel < 4)
  | .ravelTestDone core => decide (core < 384)
  | .vlaunch core => decide (core < 384)
  | .launchComplete core => decide (core < 384)
  | .vecNop core strand => decide (core < 384) && decide (strand < 16)
  | .strandEnd core strand => decide (core < 384) && decide (strand < 16)
  | .br core strand => decide (core < 384) && decide (strand < 16)
  | .brany core strand => decide (core < 384) && decide (strand < 16)
  | .lset core strand => decide (core < 384) && decide (strand < 16)
  | .vecLoop core strand => decide (core < 384) && decide (strand < 16)
  | .vout core strand => decide (core < 384) && decide (strand < 16)
  | .vld core strand _ ecc => decide (core < 384) && decide (strand < 16) && scrWf ecc
  | .vst core strand _ => decide (core < 384) && decide (strand < 16)
  | .vstr core strand _ => decide (core < 384) && decide (strand < 16)
  | .vldq core strand _ _ ecc => decide (core < 384) && decide (strand < 16) && scrWf ecc
  | .vstq core strand _ => decide (core < 384) && decide (strand < 16)
  | .vadd core strand => decide (core < 384) && decide (strand < 16)
  | .vsub core strand => decide (core < 384) && decide (strand < 16)
  | .vmul core strand => decide (core < 384) && decide (strand < 16)
  | .vfma core strand => decide (core < 384) && decide (strand < 16)
  | .vfms core strand => decide (core < 384) && decide (strand < 16)
  | .vmin core strand => decide (core < 384) && decide (strand < 16)
  | .vmax core strand => decide (core < 384) && decide (strand < 16)
  | .vabs core strand => decide (core < 384) && decide (strand < 16)
  | .vneg core strand => decide (core < 384) && decide (strand < 16)
  | .vmov core strand => decide (core < 384) && decide (strand < 16)
  | .vrcp core strand => decide (core < 384) && decide (strand < 16)
  | .vdiv core strand => decide (core < 384) && decide (strand < 16)
  | .vsqrt core strand => decide (core < 384) && decide (strand < 16)
  | .vrsq core strand => decide (core < 384) && decide (strand < 16)
  | .vexp2 core strand => decide (core < 384) && decide (strand < 16)
  | .vexp core strand => decide (core < 384) && decide (strand < 16)
  | .vlog2 core strand => decide (core < 384) && decide (strand < 16)
  | .vlog core strand => decide (core < 384) && decide (strand < 16)
  | .vtanh core strand => decide (core < 384) && decide (strand < 16)
  | .vsigm core strand => decide (core < 384) && decide (strand < 16)
  | .verf core strand => decide (core < 384) && decide (strand < 16)
  | .vsin core strand => decide (core < 384) && decide (strand < 16)
  | .vcos core strand => decide (core < 384) && decide (strand < 16)
  | .vceq core strand => decide (core < 384) && decide (strand < 16)
  | .vclt core strand => decide (core < 384) && decide (strand < 16)
  | .vcle core strand => decide (core < 384) && decide (strand < 16)
  | .vcun core strand => decide (core < 384) && decide (strand < 16)
  | .vsel core strand => decide (core < 384) && decide (strand < 16)
  | .pand core strand => decide (core < 384) && decide (strand < 16)
  | .por core strand => decide (core < 384) && decide (strand < 16)
  | .pxor core strand => decide (core < 384) && decide (strand < 16)
  | .pnot core strand => decide (core < 384) && decide (strand < 16)
  | .vcvti core strand => decide (core < 384) && decide (strand < 16)
  | .vcvtf core strand => decide (core < 384) && decide (strand < 16)
  | .vrbf core strand => decide (core < 384) && decide (strand < 16)
  | .viadd core strand => decide (core < 384) && decide (strand < 16)
  | .visub core strand => decide (core < 384) && decide (strand < 16)
  | .vimul core strand => decide (core < 384) && decide (strand < 16)
  | .vand core strand => decide (core < 384) && decide (strand < 16)
  | .vor core strand => decide (core < 384) && decide (strand < 16)
  | .vxor core strand => decide (core < 384) && decide (strand < 16)
  | .vshl core strand => decide (core < 384) && decide (strand < 16)
  | .vshra core strand => decide (core < 384) && decide (strand < 16)
  | .vshrl core strand => decide (core < 384) && decide (strand < 16)
  | .vimin core strand => decide (core < 384) && decide (strand < 16)
  | .vimax core strand => decide (core < 384) && decide (strand < 16)
  | .viclt core strand => decide (core < 384) && decide (strand < 16)
  | .vperm core strand => decide (core < 384) && decide (strand < 16)
  | .vblane core strand => decide (core < 384) && decide (strand < 16)
  | .viota core strand => decide (core < 384) && decide (strand < 16)
  | .vrot core strand => decide (core < 384) && decide (strand < 16)
  | .rclr core strand => decide (core < 384) && decide (strand < 16)
  | .radd core strand => decide (core < 384) && decide (strand < 16)
  | .rmax core strand => decide (core < 384) && decide (strand < 16)
  | .rmin core strand => decide (core < 384) && decide (strand < 16)
  | .rarg core strand => decide (core < 384) && decide (strand < 16)
  | .rsoft core strand => decide (core < 384) && decide (strand < 16)
  | .rread core strand => decide (core < 384) && decide (strand < 16)
  | .rxport core strand _ => decide (core < 384) && decide (strand < 16)
  | .rimport core strand _ ecc => decide (core < 384) && decide (strand < 16) && scrWf ecc
  | .vsmx core strand => decide (core < 384) && decide (strand < 16)
  | .vgath core strand _ _ ecc => decide (core < 384) && decide (strand < 16) && scrWf ecc
  | .vscat core strand _ _ => decide (core < 384) && decide (strand < 16)
  | .vscadd core strand _ _ ecc => decide (core < 384) && decide (strand < 16) && scrWf ecc
  | .copy core ecc scr _ => decide (core < 384) && eccWf ecc && scrWf scr
  | .dmaGather core ecc scr _ => decide (core < 384) && eccWf ecc && scrWf scr
  | .dmaScatterStore core ecc scr _ => decide (core < 384) && eccWf ecc && scrWf scr
  | .dmaScatterAdd core ecc scr _ => decide (core < 384) && eccWf ecc && scrWf scr
  | .dmaComplete core _ _ => decide (core < 384)
  | .peerWrite die member ctx gen _ => decide (die < 2) && decide (member < 16384) && decide (ctx < 4) && decide (gen < 256)
  | .hostHbmAccess a ecc => HostAccess.wf a && eccWf ecc
  | .hostAccessTimeout => true
  | .normPass stack rcd => decide (stack < 8) && decide (rcd < 4096)
  | .clipNorm stack group => decide (stack < 8) && decide (group < 15)
  | .updatePass stack rcd => decide (stack < 8) && decide (rcd < 4096)
  | .mpEnd stack => decide (stack < 8)
  | .mpAdd stack => decide (stack < 8)
  | .mpSub stack => decide (stack < 8)
  | .mpMul stack => decide (stack < 8)
  | .mpFma stack => decide (stack < 8)
  | .mpDiv stack => decide (stack < 8)
  | .mpSqrt stack => decide (stack < 8)
  | .mpMin stack => decide (stack < 8)
  | .mpMax stack => decide (stack < 8)
  | .mpAbs stack => decide (stack < 8)
  | .mpNeg stack => decide (stack < 8)
  | .mpSign stack => decide (stack < 8)
  | .mpSelneg stack => decide (stack < 8)
  | .mpMov stack => decide (stack < 8)
  | .schedTestCompute stack index entry => decide (stack < 8) && decide (index < 1024) && decide (entry < 8)
  | .schedTestCt stack index entry => decide (stack < 8) && decide (index < 1024) && decide (entry < 8)
  | .schedTestDone stack => decide (stack < 8)
  | .bucketCompress die rcd bucket => decide (die < 2) && decide (rcd < 256) && decide (bucket < 2 ^ 24)
  | .topkMsg die m => decide (die < 2) && FragMsg.wf m
  | .signMsg die m => decide (die < 2) && FragMsg.wf m
  | .cancelMsg die m => decide (die < 2) && FragMsg.wf m
  | .finalMsg die m => decide (die < 2) && FragMsg.wf m
  | .cellMsg die m => decide (die < 2) && CellMsg.wf m
  | .denseMsg die m => decide (die < 2) && DenseMsg.wf m
  | .bucketMerge die rcd bucket _ => decide (die < 2) && decide (rcd < 256) && decide (bucket < 2 ^ 24)
  | .load => true
  | .run _ => true
  | .reissue => true
  | .stepLimit _ => true
  | .ready member step attempt => decide (member < 16384) && decide (step < 2 ^ 64) && decide (attempt < 65536)
  | .tick step attempt _ _ link _ => decide (step < 2 ^ 64) && decide (attempt < 65536) && decide (link < 40)
  | .enterRunning => true
  | .drainComplete acks => decide (acks < 65536)
  | .stepSummary member step attempt m => decide (member < 16384) && decide (step < 2 ^ 64) && decide (attempt < 65536) && Summary.wf m
  | .drainTimeout => true
  | .commit step attempt m k facts => decide (step < 2 ^ 64) && decide (attempt < 65536) && Summary.wf m && decide (k < 16) && SlotFacts.wf facts
  | .maintenanceEnd => true
  | .abortStep step attempt => decide (step < 2 ^ 64) && decide (attempt < 65536)
  | .quiesceCheck stuck => stuckWf stuck
  | .reissueMessage step attempt => decide (step < 2 ^ 64) && decide (attempt < 65536)
  | .faultReport member _ => decide (member < 16384)
  | .heartbeat member k _ => decide (member < 16384) && decide (k < 16)
  | .heartbeatTimer => true
  | .hankMemberLost member => decide (member < 16384)
  | .hankManagerLost => true
  | .routeLoad _ => true
  | .mirrorData m => MirrorMsg.wf m
  | .mirrorRestore _ => true
  | .mirrorRebuild _ => true
  | .restoreData m => MirrorMsg.wf m
  | .save => true
  | .restore => true
  | .tether core part => decide (core < 384) && decide (part < 5)
  | .resetEscalated kind idx => (if kind = 0 then decide (idx < 384) else if kind = 1 then decide (idx < 8) else decide (kind = 2) && decide (idx < 2))
  | .resetDone kind idx => (if kind = 0 then decide (idx < 384) else decide (kind = 1) && decide (idx < 8))
  | .slotNow facts => SlotFacts.wf facts
  | .spareReq die _ => decide (die < 2)
  | .takeDump die => decide (die < 2)
  | .releaseDump die => decide (die < 2)
  | .chafeTail die _ => decide (die < 2)
  | .journalAck slot => decide (slot < 32)
  | .journalResume _ => true
  | .journalSubmit _ => true
  | .migrationRequest stack _ => decide (stack < 8)
  | .retrain stack src => decide (stack < 8) && decide (src < 32)
  | .migrationChunk stack => decide (stack < 8)
  | .patrolScrub stack ecc => decide (stack < 8) && eccWf ecc
  | .refreshOverride stack temp => decide (stack < 8) && decide (temp < 256)
  | .create ctx gen => decide (ctx < 4) && decide (gen < 256)
  | .teardown ctx => decide (ctx < 4)
  | .ctxDrainForced ctx => decide (ctx < 4)
  | .ctxTeardownDone ctx => decide (ctx < 4)
  | .statusClear addr _ _ => decide (addr < 2 ^ 48)
  | .detailValidClear addr _ _ => decide (addr < 2 ^ 48)
  | .registerWrite a ecc => HostAccess.wf a && scrWf ecc
  | .laneCtrl link _ => decide (link < 40)
  | .voltBound die _ => decide (die < 2)
  | .clkBound _ => true
  | .powerCap _ => true
  | .flit link _ phy => decide (link < 40) && PhyFacts.wf phy
  | .nak link ack => decide (link < 40) && decide (ack < 4096)
  | .ackTimeout link => decide (link < 40)
  | .laneLockLoss link lane => decide (link < 40) && decide (lane < 5)
  | .messageRelease link _ release => decide (link < 40) && decide (release < 2 ^ 24)
  | .firmwareBoot => true
  | .firmwareVerified => true
  | .recoveryImage _ => true
  | .hbmReady => true
  | .pwrEnRise => true
  | .pwrEnFall => true
  | .resetNAssert => true
  | .vinWarn _ => true
  | .vinFault _ => true
  | .vinOvercurrent _ => true
  | .phaseShed phase => decide (phase < 28)
  | .thermalThrottle die _ => decide (die < 2)
  | .throttleRelease die _ => decide (die < 2)
  | .thermTrip _ _ => true
  | .voltageLoop die _ => decide (die < 2)
  | .refLost r => decide (r < 2)
  | .refHoldoverExpiry => true
  | .alertStatusClear _ => true
  | .clearFaults => true
  | .capability => true
  | .vinUvWarnLimit => true
  | .statusWord => true
  | .statusInput => true
  | .statusTemperature => true
  | .readVin => true
  | .readIin => true
  | .readTemperature1 => true
  | .readTemperature2 => true
  | .readPin => true
  | .mfrId => true
  | .mfrModel => true
  | .getVersion => true
  | .getCapabilities => true
  | .negotiateAlgorithms => true
  | .getDigests => true
  | .getCertificate slot offset length => decide (slot < 256) && decide (offset < 65536) && decide (length < 65536)
  | .challenge slot _ => decide (slot < 256)
  | .getMeasurements op _ _ => decide (op < 256)
  | .ctxKeyGen ctx => decide (ctx < 4)
  | .linkSecret => true
  | .imageKey => true
  | .policyWrite => true
  | .lifecycleAdvance => true
  | .debugChallenge => true
  | .debugUnlock slot => decide (slot < 16)
  | .spdmRelay => true
  | .randomBytes => true
  | .secArgZeroing => true
  | .trngFail => true
  | .trainingExchange link t => decide (link < 40) && TrainMsg.wf t
  | .refReturn r => decide (r < 2)
  | .linkLaneMarked link lane => decide (link < 40) && decide (lane < 5)
  | .keyPhaseReport link phase => decide (link < 40) && decide (phase < 2)
  | .secStatusRead => true
  | .secCmdDone => true
  | .loadDone => true

end Sys2Proof
end

