-- ==== Sys2Proof/Safety.lean ====
section
/-! DEFINITION. What claims say of states and runs: memories in canonical form, written fuses, completion, runs without a stop. -/

namespace Sys2Proof.Safety

open Sys2Proof.Machine

/-- Both memories hold rising addresses and list no byte that reads the same unlisted. -/
def MemWf (s : State) : Prop := Memory.wf s.hbm = true ∧ Memory.wf s.scratch = true

/-- Every OTP word that is not blank in `s` holds the same value in `t` (17 R441: a fuse once written never clears). -/
def OtpKept (s t : State) : Prop := ∀ k, sget s.sec.otp 0 k ≠ 0 → sget t.sec.otp 0 k = sget s.sec.otp 0 k

/-- The command completes in `s`. -/
def Completes (i : Instr) (s : State) : Prop := ∃ t, exec i s = .next t

/-- `n` steps from `s` end without a fault or a refusal. -/
def SafeRun (n : Nat) (s : State) : Prop := ∃ t, Host.Core.run Sys2Proof.core n s = .next t

/-- Logical core `n` runs, has no knot operation pending at its die's store, and `w` stands at its pc. -/
def CcAt (s : State) (n : Nat) (w : W64) : Prop :=
  n < 384 ∧ (s.core n).cc.mode = .running ∧ s.knotPending n = false ∧ (s.core n).cc.stream[(s.core n).cc.pc]? = some w

/-- The state with only core `n`'s control core changed by `f`. -/
def ccUpd (s : State) (n : Nat) (f : ControlCore → ControlCore) : State :=
  s.setCore n { s.core n with cc := f (s.core n).cc }

/-- The control core that wrote `v` to sd (s0 discards) and stands at the next instruction, waiting for nothing. -/
def ccWrote (d : Nat) (v : W64) (c : ControlCore) : ControlCore :=
  { c with sregs := if d = 0 then c.sregs else sset c.sregs d v, pc := c.pc + 1, waiting := 0 }

/-- The control core at instruction `t`, waiting for nothing. -/
def ccJump (t : Nat) (c : ControlCore) : ControlCore := { c with pc := t, waiting := 0 }

/-- Strand core `t` of core `n` runs the launch `m`, and the legal instruction `w` stands at its pc. -/
def VecAt (s : State) (n t : Nat) (m : OpMsg) (w : W64) : Prop :=
  n < 384 ∧ t < 16 ∧ vIllegal w = false ∧ (s.core n).vec.insn (s.strand n t).pc = w ∧
  ∃ g l, (s.strand n t).launch = some g ∧ (s.core n).vec.queue.find? (fun l => l.msg.tag = g) = some l ∧ l.msg = m

/-- One instruction counted in INSN_TOTAL, and strand core `t` of core `n` changed by `f`. -/
def strandUpd (s : State) (n t : Nat) (f : Strand → Strand) : State :=
  let s := s.bump (coreR .INSN_TOTAL n) 1
  s.setCore n { s.core n with vec := { (s.core n).vec with strands := sset (s.core n).vec.strands t (f (s.strand n t)) } }

/-- The strand core at the next instruction; the 13-bit pc wraps. -/
def strandNext (x : Strand) : Strand := { x with pc := (x.pc + 1) % 8192 }

/-- VD under the guard: active lanes take `f`, the others +0 with PZ and else what they held. -/
def vdWritten (x : Strand) (w : W64) (f : Nat → W32) : Strand :=
  { x with v := sset x.v (vVd w) ((List.range 16).map fun l =>
      if nbit (x.pred (vPg w)) l then f l else if vPz w then 0 else lane (x.reg (vVd w)) l) }

/-- A byte address of core scratch in the model's memory. -/
def scrAddr (n a : Nat) : Nat := n * 2 ^ 21 + a

end Sys2Proof.Safety
end

