-- ==== Sys2Proof/Certificates/Slice0/Obligations.lean ====
section
/-! DEFINITION. The statements for the provers, chapter by chapter; the tables they range over are in Sys2Proof.Claims. -/

open Sys2Proof Sys2Proof.Machine Sys2Proof.Safety

namespace Sys2Proof.Claims

end Sys2Proof.Claims

open Sys2Proof.Claims

/- Control cores (10 R264–R269). -/

/-- Control-core operations that write one register and pass on: command, OP, the condition on the state, and the value of sD. -/
def Sys2Proof.Claims.coreWrites : List ((Nat → Instr) × Nat × (State → Nat → W64 → Prop) × (State → Nat → W64 → W64)) :=
  let g (s : State) (n : Nat) : Nat → W64 := (s.core n).cc.get
  let sh (s : State) (n : Nat) (w : W64) : Nat := (g s n (ccSb w) + ccImm w).toNat % 64
  [ (.addi, 0x02, fun _ _ _ => True, fun s n w => g s n (ccSa w) + ccImm w)
  , (.ccAdd, 0x03, fun _ _ _ => True, fun s n w => g s n (ccSa w) + g s n (ccSb w))
  , (.ccSub, 0x04, fun _ _ _ => True, fun s n w => g s n (ccSa w) - g s n (ccSb w))
  , (.ccMul, 0x05, fun _ _ _ => True, fun s n w => g s n (ccSa w) * g s n (ccSb w))
  , (.ccAnd, 0x06, fun _ _ _ => True, fun s n w => g s n (ccSa w) &&& g s n (ccSb w))
  , (.ccOr, 0x07, fun _ _ _ => True, fun s n w => g s n (ccSa w) ||| g s n (ccSb w))
  , (.ccXor, 0x08, fun _ _ _ => True, fun s n w => g s n (ccSa w) ^^^ g s n (ccSb w))
  , (.shl, 0x09, fun _ _ _ => True, fun s n w => g s n (ccSa w) <<< sh s n w)
  , (.shr, 0x0A, fun _ _ _ => True, fun s n w => g s n (ccSa w) >>> sh s n w)
  , (.sra, 0x0B, fun _ _ _ => True, fun s n w => (g s n (ccSa w)).sshiftRight (sh s n w))
  , (.li, 0x0C, fun _ _ _ => True, fun _ _ w => BitVec.ofNat 64 (w.toNat % 2 ^ 32))
  , (.lih, 0x0D, fun _ _ _ => True, fun s n w => BitVec.ofNat 64 (w.toNat % 2 ^ 32 * 2 ^ 32 + (g s n (ccSd w)).toNat % 2 ^ 32))
  , (.ldc, 0x10, fun s n w => (g s n (ccSa w) + ccImm w).toNat % 8 = 0,
      fun s n w => if (g s n (ccSa w) + ccImm w).toNat < 2 ^ 16 then nth (s.core n).cc.pool 0 ((g s n (ccSa w) + ccImm w).toNat / 8)
        else Config.poolPast n ((g s n (ccSa w) + ccImm w).toNat / 8))
  , (.gets, 0x11, fun _ _ w => ccExt w ≤ 4, fun s n w =>
      if ccExt w = 0 then s.reg (rid .LOGLINE .module) else if ccExt w = 1 then w64 s.step.attempt
      else if ccExt w = 2 then w64 n else if ccExt w = 3 then w64 s.job.member else w64 (s.ctxOf n)) ]

/-- ADDI to LIH, LDC and GETS write the value of the table of R265 to sD, and nothing else but the pc and WAITING changes (s0 discards the write). LI's zero extension is the model's reading (log 12). Holds wherever the core stands at the instruction; for LDC an aligned address (past the 64 KiB store the value is free, R280), for GETS a selector of the table. -/
def Obligations.CoreWritesRegister : Prop :=
  ∀ r ∈ coreWrites, ∀ s n w, CcAt s n w → ccOp w = r.2.1 → r.2.2.1 s n w →
    exec (r.1 n) s = .next (ccUpd s n (ccWrote (ccSd w) (r.2.2.2 s n w)))

/-- Register s0 reads 0 and discards writes; a write to another register is read back there and leaves the others (R264). -/
def Obligations.CoreRegisterZero : Prop :=
  ∀ (c : ControlCore) (d m : Nat) (v : W64), c.get 0 = 0 ∧ c.put 0 v = c ∧
    (d ≠ 0 → (c.put d v).get d = v) ∧ (m ≠ d → (c.put d v).get m = c.get m)

/-- The state with core n waiting at its instruction for the reason `why` of CC_STATUS, one cycle of CC_WAIT_TOTAL counted. -/
def Sys2Proof.Claims.waitsAt (s : State) (n why : Nat) : State :=
  (ccUpd s n fun c => { c with waiting := why }).bump (coreR .CC_WAIT_TOTAL n) 1

/-- NOP, FENCE with nothing selected in flight, and RTIE and RUNTIE on a valid endpoint with fewer than 16 operations held pass to the next instruction; RTIE and RUNTIE leave the operation at the station behind the operations in flight. FENCE with a selected operation in flight, and RTIE and RUNTIE with 16 held, wait at their instruction (R265, R292, R293). -/
def Obligations.CorePasses : Prop :=
  ∀ s n w, CcAt s n w →
    (ccOp w = 0x00 → exec (.ccNop n) s = .next (ccUpd s n (ccJump ((s.core n).cc.pc + 1)))) ∧
    (ccOp w = 0x21 → (∀ o ∈ (s.core n).cc.inFlight, nbit (ccExt w) o.unit = false) →
      exec (.fence n) s = .next (ccUpd s n (ccJump ((s.core n).cc.pc + 1)))) ∧
    (ccOp w = 0x21 → (∃ o ∈ (s.core n).cc.inFlight, nbit (ccExt w) o.unit = true) → exec (.fence n) s = .next (waitsAt s n 2)) ∧
    (∀ (tie : Bool) (e : W64), ccOp w = (if tie then 0x2D else 0x2E) →
      (s.knot (coreDie n)).endpoints[ccExt w]? = some e → bit e 33 = true →
      (16 ≤ (s.core n).held.length → exec (if tie then .rtie n else .runtie n) s = .next (waitsAt s n 3)) ∧
      ((s.core n).held.length < 16 → exec (if tie then .rtie n else .runtie n) s =
        .next (ccUpd (s.setCore n { s.core n with held := (s.core n).held ++
            [{ endpoint := e, tie := tie, knot := ((s.core n).cc.get (ccSa w) + ccImm w).toNat % 4096
               fence := (s.core n).cc.inFlight.map (·.tag) }] }) n (ccJump ((s.core n).cc.pc + 1)))))

/-- Branches: command, OP, the register comparison. -/
def Sys2Proof.Claims.coreBranches : List ((Nat → Instr) × Nat × (W64 → W64 → Bool)) :=
  [ (.beq, 0x18, fun a b => decide (a = b)), (.bne, 0x19, fun a b => decide (a ≠ b))
  , (.blt, 0x1A, fun a b => decide (a.toInt < b.toInt)), (.bltu, 0x1B, fun a b => decide (a.toNat < b.toNat)) ]

/-- BEQ, BNE, BLT (signed) and BLTU go to instruction IMM where sA compares with sB and the target is in the stream, and else to the next instruction; LOOP decrements sD (not s0) and goes to IMM unless it is then 0 (R265). -/
def Obligations.CoreBranches : Prop :=
  (∀ r ∈ coreBranches, ∀ s n w, CcAt s n w → ccOp w = r.2.1 →
    (r.2.2 ((s.core n).cc.get (ccSa w)) ((s.core n).cc.get (ccSb w)) = false →
      exec (r.1 n) s = .next (ccUpd s n (ccJump ((s.core n).cc.pc + 1)))) ∧
    (r.2.2 ((s.core n).cc.get (ccSa w)) ((s.core n).cc.get (ccSb w)) = true →
      w.toNat % 2 ^ 32 < (s.core n).cc.stream.length →
      exec (r.1 n) s = .next (ccUpd s n (ccJump (w.toNat % 2 ^ 32))))) ∧
  (∀ s n w, CcAt s n w → ccOp w = 0x1C → ccSd w ≠ 0 →
    ((s.core n).cc.get (ccSd w) = 1 → exec (.ccLoop n) s = .next (ccUpd s n (ccWrote (ccSd w) 0))) ∧
    ((s.core n).cc.get (ccSd w) ≠ 1 → w.toNat % 2 ^ 32 < (s.core n).cc.stream.length →
      exec (.ccLoop n) s = .next (ccUpd s n fun c =>
        ccJump (w.toNat % 2 ^ 32) (ccWrote (ccSd w) ((s.core n).cc.get (ccSd w) - 1) c))))

/-- ISSUE sends the patched descriptor of sA + IMM to the unit of its KIND, counts it in flight under the tag of this issue, writes the tag to sD and passes on; the other cores and both memories stay. With 128 operations in flight, or where the unit's queue is full, it waits at its instruction (R266, R267). Words past the 64 KiB store are free (R280). -/
def Obligations.CoreIssues : Prop :=
  ∀ s n w, CcAt s n w → ccOp w = 0x20 →
    let c := (s.core n).cc
    let a := (c.get (ccSa w) + ccImm w).toNat
    a % 64 = 0 →
    let ws0 := (List.range 16).map fun i => if a / 8 + i < 8192 then nth c.pool 0 (a / 8 + i) else Config.poolPast n (a / 8 + i)
    let ws1 := if nbit (ccExt w) 4 then ws0.set (bits (ccExt w) 3 0) (nth ws0 0 (bits (ccExt w) 3 0) + c.get (ccSb w)) else ws0
    let ws := if nbit (ccExt w) 9 then ws1.set (bits (ccExt w) 8 5) (nth ws1 0 (bits (ccExt w) 8 5) + c.get ((ccSb w + 1) % 32)) else ws1
    ∀ u, unitOfKind (fld (nth ws 0 0) 3 0) = some u →
    ((128 ≤ c.inFlight.length ∨ s.unitFull n ws = true) → exec (.issue n) s = .next (waitsAt s n 1)) ∧
    (c.inFlight.length < 128 → s.unitFull n ws = false →
    ∃ t m, exec (.issue n) s = .next t ∧ m.words = ws ∧ m.idx = c.pc ∧ m.tag = c.issues % 2 ^ 16 ∧
      (t.core n).cc.inFlight = c.inFlight ++ [{ tag := c.issues % 2 ^ 16, unit := u }] ∧
      (t.core n).cc.pc = c.pc + 1 ∧
      (∀ k, (t.core n).cc.get k = if k = ccSd w ∧ k ≠ 0 then w64 (c.issues % 2 ^ 16) else c.get k) ∧
      (u = 0 → (t.core n).plyInbox = (s.core n).plyInbox ++ [m]) ∧
      (u = 1 → (t.core n).vec.inbox = (s.core n).vec.inbox ++ [m]) ∧
      (u = 2 → (t.core n).dma = (s.core n).dma ++ [{ msg := m, walked := false, acks := 0, qops := 0 }]) ∧
      (∀ k, k ≠ n → t.core k = s.core k) ∧ t.hbm = s.hbm ∧ t.scratch = s.scratch)

/-- Every control-core command with its OP. -/
def Sys2Proof.Claims.coreOps : List ((Nat → Instr) × Nat) :=
  [ (.ccNop, 0x00), (.stepend, 0x01), (.addi, 0x02), (.ccAdd, 0x03), (.ccSub, 0x04), (.ccMul, 0x05), (.ccAnd, 0x06), (.ccOr, 0x07), (.ccXor, 0x08)
  , (.shl, 0x09), (.shr, 0x0A), (.sra, 0x0B), (.li, 0x0C), (.lih, 0x0D), (.ldc, 0x10), (.gets, 0x11), (.beq, 0x18), (.bne, 0x19), (.blt, 0x1A)
  , (.bltu, 0x1B), (.ccLoop, 0x1C), (.issue, 0x20), (.fence, 0x21), (.vres, 0x22), (fun n => .tie n false, 0x28), (fun n => .untie n false, 0x29)
  , (fun n => .wait n false 0, 0x2A), (fun n => .waitclr n false 0, 0x2B), (fun n => .take n false, 0x2C), (.rtie, 0x2D), (.runtie, 0x2E) ]

/-- The command answers a state in which core n stands stopped at its instruction as R269 says: STOPPED with WAITING 5, CC_ILLEGAL set in its STATUS, the step's fault flag raised, and both memories as they were. -/
def Sys2Proof.Claims.stopsIllegal (i : Instr) (s : State) (n : Nat) : Prop :=
  ∃ t, exec i s = .next t ∧ (t.core n).cc = { (s.core n).cc with mode := .stopped, waiting := 5 } ∧
    bit (t.reg (rid .CORE_STATUS (.core n))) 21 = true ∧ t.step.fault = true ∧ t.hbm = s.hbm ∧ t.scratch = s.scratch

/-- A core at a reserved OP, past its stream, at a GETS selector above 4, at a misaligned LDC or ISSUE, at an ISSUE of a reserved KIND, or at a taken branch beyond its stream stops there: it is STOPPED at the same pc with WAITING 5, CC_ILLEGAL is set in its STATUS, and the step's fault flag is raised (R269). STEPEND ends the core's stream; where other used cores are still to end, only that core changes; where it is the last, the module enters DRAINING at that moment (R270). VRES of a completed launch writes its 32-bit result word (zero-extended, log 16), waits for one that is not complete, and for an unknown tag writes 0 and sets CC_ERROR (R267). -/
def Obligations.CoreEndsAndStops : Prop :=
  (∀ s n, n < 384 → (s.core n).cc.mode = .running → s.knotPending n = false →
    ((s.core n).cc.stream[(s.core n).cc.pc]? = none → ∀ r ∈ coreOps, stopsIllegal (r.1 n) s n) ∧
    (∀ w, (s.core n).cc.stream[(s.core n).cc.pc]? = some w →
      (ccDefined.contains (ccOp w) = false → ∀ r ∈ coreOps, stopsIllegal (r.1 n) s n) ∧
      (ccOp w = 0x11 → 4 < ccExt w → stopsIllegal (.gets n) s n) ∧
      (ccOp w = 0x10 → ((s.core n).cc.get (ccSa w) + ccImm w).toNat % 8 ≠ 0 → stopsIllegal (.ldc n) s n) ∧
      (ccOp w = 0x20 → ((s.core n).cc.get (ccSa w) + ccImm w).toNat % 64 ≠ 0 → stopsIllegal (.issue n) s n) ∧
      (ccOp w = 0x20 → unitOfKind (fld (nth (s.issueWords n w ((s.core n).cc.get (ccSa w) + ccImm w).toNat) 0 0) 3 0) = none →
        stopsIllegal (.issue n) s n) ∧
      ((s.core n).cc.stream.length ≤ w.toNat % 2 ^ 32 →
        (∀ r ∈ coreBranches, ccOp w = r.2.1 → r.2.2 ((s.core n).cc.get (ccSa w)) ((s.core n).cc.get (ccSb w)) = true → stopsIllegal (r.1 n) s n) ∧
        (ccOp w = 0x1C → ccSd w ≠ 0 → (s.core n).cc.get (ccSd w) ≠ 1 → stopsIllegal (.ccLoop n) s n)))) ∧
  (∀ s n w, CcAt s n w →
    (ccOp w = 0x01 →
      ((s.step.state ≠ .running ∨ ∃ k ∈ s.usedCores, k ≠ n ∧ (s.core k).cc.mode ≠ .ended) →
        exec (.stepend n) s = .next (ccUpd s n fun c => { c with mode := .ended, waiting := 6 })) ∧
      (s.step.state = .running → (∀ k ∈ s.usedCores, k ≠ n → (s.core k).cc.mode = .ended) →
        ∃ t, exec (.stepend n) s = .next t ∧ t.step.state = .draining ∧ t.step.drainAt = s.clock ∧
          (t.core n).cc = { (s.core n).cc with mode := .ended, waiting := 6 } ∧ t.hbm = s.hbm ∧ t.scratch = s.scratch)) ∧
    (ccOp w = 0x22 → ∀ r, (s.core n).cc.results.find? (fun r => w64 r.tag = (s.core n).cc.get (ccSa w)) = some r →
      (r.done = true →
        exec (.vres n) s = .next (ccUpd s n (ccWrote (ccSd w) (w64 (sget r.words 0 (bits (ccExt w) 2 0)).toNat)))) ∧
      (r.done = false → exec (.vres n) s = .next (waitsAt s n 4))) ∧
    (ccOp w = 0x22 → (∀ r ∈ (s.core n).cc.results, w64 r.tag ≠ (s.core n).cc.get (ccSa w)) →
      ∃ t, exec (.vres n) s = .next t ∧ (t.core n).cc = ccWrote (ccSd w) 0 (s.core n).cc ∧
        bit (t.reg (rid .CORE_STATUS (.core n))) 12 = true ∧ t.hbm = s.hbm ∧ t.scratch = s.scratch))

/- Knots (11 R284–R304). -/

/-- Knot operations of a core that go through at once: command (with how many recent changes the station's view lacks), OP, whether the knot must be tied before, what it is after, and the total that counts one. -/
def Sys2Proof.Claims.coreKnots : List ((Nat → Nat → Instr) × Nat × Bool × Bool × Option RegName) :=
  [ (fun n _ => .tie n false, 0x28, false, true, some .TIE_TOTAL), (fun n _ => .untie n false, 0x29, true, false, none)
  , (fun n lag => .wait n false lag, 0x2A, true, true, none), (fun n lag => .waitclr n false lag, 0x2B, false, false, none)
  , (fun n _ => .take n false, 0x2C, true, false, some .TAKE_TOTAL) ]

/-- The knot sA + IMM mod 4,096 that the instruction of core n names. -/
def Sys2Proof.Claims.knotOf (s : State) (n : Nat) (w : W64) : Nat := ((s.core n).cc.get (ccSa w) + ccImm w).toNat % 4096

/-- The store of the core's die with `phys` tied or clear, kept in rising order; the change is on its way to the stations' views for 20 ns, and already in that of `station` (R290). -/
def Sys2Proof.Claims.knotTied (s : State) (d phys : Nat) (tied : Bool) (station : Option Nat) : State :=
  let l := (s.knot d).tied.filter (· ≠ phys)
  s.setKnot d { s.knot d with
    tied := if tied then (l.filter (· < phys)) ++ phys :: l.filter (phys < ·) else l
    recent := { phys := phys, tied := tied, time := s.clock, core := station } :: (s.knot d).recent.filter fun c => decide (s.clock < c.time + 4) }

/-- Where nothing else is pending at the die's store, TIE of a clear knot, UNTIE or TAKE of a tied one, WAIT on a tied one and WAITCLR on a clear one take effect at once and the core passes on; the knot must be valid in the core's context, and not persistent if it changes (R286–R289). A WAIT or WAITCLR whose knot a core's view still shows as it waits for, while a change less than 20 ns old by another station is on its way, passes on as well, the knots as they were (R290, log 126). -/
def Obligations.KnotTakesEffect : Prop :=
  (∀ r ∈ coreKnots, ∀ s n lag w, CcAt s n w → ccOp w = r.2.1 →
    let d := coreDie n
    let e := s.knotEntry d (s.ctxOf n) (knotOf s n w)
    (s.knot d).pend = [] → (s.knot d).behind = [] → kValid e = true → (kPersist e = true → r.2.2.1 = r.2.2.2.1) →
    s.isTied d (kPhys e) = r.2.2.1 →
    exec (r.1 n lag) s = .next (ccUpd
      (match r.2.2.2.2 with
        | some t => (knotTied s d (kPhys e) r.2.2.2.1 (some n)).bump (knotR t d) 1
        | none => if r.2.2.1 = r.2.2.2.1 then s else knotTied s d (kPhys e) r.2.2.2.1 (some n))
      n (ccJump ((s.core n).cc.pc + 1)))) ∧
  (∀ (tied : Bool) s n w c rest, CcAt s n w → ccOp w = (if tied then 0x2A else 0x2B) →
    let d := coreDie n
    let e := s.knotEntry d (s.ctxOf n) (knotOf s n w)
    kValid e = true → (s.knot d).recent = c :: rest → c.phys = kPhys e → s.clock < c.time + 4 → c.core ≠ some n → c.tied ≠ tied →
    exec (if tied then .wait n false 1 else .waitclr n false 1) s = .next (ccUpd s n (ccJump ((s.core n).cc.pc + 1))))

/-- Operations that wait at the store: command, OP, kind, whether the knot is tied, whether only in barrier mode. -/
def Sys2Proof.Claims.coreKnotWaits : List ((Nat → Instr) × Nat × KOp × Bool × Bool) :=
  [ (fun n => .tie n false, 0x28, .tie, true, true), (fun n => .untie n false, 0x29, .untie, false, true)
  , (fun n => .wait n false 0, 0x2A, .wait, false, false), (fun n => .waitclr n false 0, 0x2B, .waitclr, true, false)
  , (fun n => .take n false, 0x2C, .take, false, false) ]

/-- A WAIT or TAKE on a clear knot, a WAITCLR on a tied one, and in barrier mode a TIE of a tied or UNTIE of a clear knot (not persistent) stay pending at the store, the core waiting at its pc with WAITING 3; the knots stay as they are (R288, R289). A core's operation on a knot that its context does not map, and its TIE, UNTIE or TAKE of a persistent knot, change no knot: the core stops and KNOT_UNMAPPED (bit 2) or KNOT_ACCESS (bit 1) is set at the die's store, as a fault (R287, R301). -/
def Obligations.KnotWaitsOrStops : Prop :=
  (∀ r ∈ coreKnotWaits, ∀ s n w, CcAt s n w → ccOp w = r.2.1 →
    let d := coreDie n
    let e := s.knotEntry d (s.ctxOf n) (knotOf s n w)
    kValid e = true → (kPersist e = true → r.2.2.1 = .wait ∨ r.2.2.1 = .waitclr) → (r.2.2.2.2 = true → kBarrier e = true) →
    s.isTied d (kPhys e) = r.2.2.2.1 →
    ∃ t, exec (r.1 n) s = .next t ∧
      (t.core n).cc = { (s.core n).cc with waiting := 3 } ∧ (t.knot d).tied = (s.knot d).tied ∧
      (t.knot d).pend = (s.knot d).pend ++
        [{ src := .core n, op := r.2.2.1, ctx := s.ctxOf n, knot := knotOf s n w, phys := kPhys e }] ∧
      t.hbm = s.hbm ∧ t.scratch = s.scratch) ∧
  (∀ r ∈ coreKnots, ∀ s n lag w, CcAt s n w → ccOp w = r.2.1 →
    let d := coreDie n
    let e := s.knotEntry d (s.ctxOf n) (knotOf s n w)
    (kValid e = false ∨ kPersist e = true ∧ (r.2.1 = 0x28 ∨ r.2.1 = 0x29 ∨ r.2.1 = 0x2C)) →
    ∃ t, exec (r.1 n lag) s = .next t ∧ (t.core n).cc = { (s.core n).cc with mode := .stopped, waiting := 5 } ∧
      t.knots = s.knots ∧ t.step.fault = true ∧
      bit (t.reg (rid .KNOTST_STATUS (.knotStore d))) (if kValid e then 1 else 2) = true)

/-- A remote operation is dropped and counted stale where its target context is not ACTIVE with its generation, or its step and attempt are past (then KNOT_STALE is set); it waits in the die's queue where its step has not been entered, and before the queue where that is full; otherwise, on a clear valid knot at which nothing waits, a tie ties it (R293, R294). A station's oldest held operation leaves once nothing it waits for is in flight; one for another member goes out as a message. A core's pending operation that times out is cancelled with the knots as they were, the core stops at its instruction, and KNOT_TIMEOUT (bit 0) is set, a fault (R293, R296). A knot whose cell fails its parity is marked for a spare cell, and KNOT_CELL_ERR (bit 7 of the die controller) is set, before the operation acts (16 R414). -/
def Obligations.RemoteKnots : Prop :=
  (∀ s d (o : RemoteOp), d < 2 →
    let cur := (s.logline, s.step.attempt)
    let recv := s.bump (knotR .REMOTE_RECV_TOTAL d) 1
    let entered := (s.step.state = .running ∨ s.step.state = .draining) ∧ s.step.aborting = false
    let later := o.step > cur.1 ∨ o.step = cur.1 ∧ (o.attempt > cur.2 ∨ o.attempt = cur.2 ∧ ¬ entered)
    ((s.knot d).door = [] →
      (((s.ctx o.ctx).state ≠ .active ∨ (s.ctx o.ctx).gen ≠ o.gen) →
        exec (.remoteKnotOp d o false) s = .next (recv.bump (knotR .REMOTE_STALE_TOTAL d) 1)) ∧
      ((s.ctx o.ctx).state = .active → (s.ctx o.ctx).gen = o.gen →
        ((o.step < cur.1 ∨ o.step = cur.1 ∧ o.attempt < cur.2) →
          ∃ t, exec (.remoteKnotOp d o false) s = .next t ∧ t.knots = s.knots ∧
            bit (t.reg (rid .KNOTST_STATUS (.knotStore d))) 3 = true) ∧
        (later → (s.knot d).queue.length < 256 →
          exec (.remoteKnotOp d o false) s = .next (recv.setKnot d { s.knot d with queue := (s.knot d).queue ++ [o] })) ∧
        (later → 256 ≤ (s.knot d).queue.length →
          exec (.remoteKnotOp d o false) s = .next (s.setKnot d { s.knot d with door := [o] })) ∧
        ((o.step, o.attempt) = cur → entered → (s.knot d).pend = [] → (s.knot d).behind = [] →
          let e := s.knotEntry d o.ctx o.knot
          kValid e = true → kPersist e = false → s.isTied d (kPhys e) = false → o.tie = true →
          exec (.remoteKnotOp d o false) s = .next ((knotTied recv d (kPhys e) true none).bump (knotR .TIE_TOTAL d) 1)))) ∧
    ((s.knot d).door ≠ [] → exec (.remoteKnotOp d o false) s = .next (s.setKnot d { s.knot d with door := (s.knot d).door ++ [o] })) ∧
    exec (.remoteKnotOp d o true) s = exec (.remoteKnotOp d o false) (s.cellError d o.ctx o.knot) ∧
    (kValid (s.knotEntry d o.ctx o.knot) = true → bit ((s.cellError d o.ctx o.knot).reg (dieR .DIECTL_STATUS d)) 7 = true)) ∧
  ((∀ s n h rest, n < 384 → (s.core n).held = h :: rest → (∀ g ∈ h.fence, ∀ o ∈ (s.core n).cc.inFlight, o.tag ≠ g) →
    fld h.endpoint 13 0 ≠ s.job.member →
    ∃ t, exec (.remoteSend n) s = .next t ∧ (t.core n).held = rest ∧ t.knots = s.knots ∧
      .knot (fld h.endpoint 32 17) (fld h.endpoint 13 0) (fld h.endpoint 14 14)
        { tie := h.tie, ctx := fld h.endpoint 16 15, knot := h.knot, gen := (s.ctx (s.ctxOf n)).gen
          step := s.logline, attempt := s.step.attempt, srcMember := s.job.member, srcCore := n } ∈ t.out) ∧
  (∀ s n p, n < 384 → (s.knot (coreDie n)).pend.find? (fun p => p.src = .core n) = some p →
    ∃ t, exec (.knotTimeout n) s = .next t ∧ (t.knot (coreDie n)).tied = (s.knot (coreDie n)).tied ∧
      (t.knot (coreDie n)).pend = (s.knot (coreDie n)).pend.erase p ∧
      (t.core n).cc = { (s.core n).cc with mode := .stopped, waiting := 5 } ∧ t.step.fault = true ∧
      bit (t.reg (rid .KNOTST_STATUS (.knotStore (coreDie n)))) 0 = true))

/-- R303: a write to KNOT_HOST_OP is accepted only for a valid, persistent knot and an OP of 0, 1 or 2. Accepted, NOP changes nothing, and TIE and UNTIE take effect at the store in any step state: the store's own operation runs, which sets a clear or clears a tied knot where nothing else is pending (the module's readiness may follow from a feed's knot). The reserved OP 3, or a knot that is not both valid and persistent, discards the write: no knot changes and DECODE_ERROR is set. -/
def Obligations.HostKnots : Prop :=
  (∀ s d c k, d < 2 → c < 4 → k < 4096 →
    let e := s.knotEntry d c k
    (kValid e = true → kPersist e = true →
      exec (.hostNop d c k) s = .next s ∧
      exec (.hostTie d c k false) s = .next (((s.knotDo d c k .host .tie).1.flush d).feedPoll) ∧
      exec (.hostUntie d c k false) s = .next (((s.knotDo d c k .host .untie).1.flush d).feedPoll) ∧
      ((s.knot d).pend = [] → (s.knot d).behind = [] →
        (s.isTied d (kPhys e) = false → exec (.hostTie d c k false) s =
          .next (((knotTied s d (kPhys e) true none).bump (knotR .TIE_TOTAL d) 1).feedPoll)) ∧
        (s.isTied d (kPhys e) = true → exec (.hostUntie d c k false) s = .next ((knotTied s d (kPhys e) false none).feedPoll)))) ∧
    ((kValid e = false ∨ kPersist e = false) → ∀ i ∈ [Instr.hostNop d c k, .hostTie d c k false, .hostUntie d c k false],
      ∃ t, exec i s = .next t ∧ t.knots = s.knots ∧ bit (t.reg (rid .MODC_STATUS .module)) 0 = true)) ∧
  (∀ (s : State) d v ecc, d < 2 →
    let a : HostAccess := { write := true, addr := 0x021023000010 + d * 0x1000000000, size := 8, data := v.toNat }
    let e := s.knotEntry d (fld v 13 12) (fld v 11 0)
    s.silentAt a.addr = false →
    ((fld v 15 14 = 3 ∨ kValid e = false ∨ kPersist e = false) →
      ∃ t, exec (.registerWrite a ecc) s = .next t ∧ t.knots = s.knots ∧ bit (t.reg (rid .MODC_STATUS .module)) 0 = true) ∧
    (kValid e = true → kPersist e = true →
      (fld v 15 14 = 0 → exec (.registerWrite a ecc) s = .next s) ∧
      (fld v 15 14 = 1 → exec (.registerWrite a ecc) s = exec (.hostTie d (fld v 13 12) (fld v 11 0) false) s) ∧
      (fld v 15 14 = 2 → exec (.registerWrite a ecc) s = exec (.hostUntie d (fld v 13 12) (fld v 11 0) false) s)))

/- Plies, accumulators, quantiser, error control (03–06). -/

/-- Where the oldest descriptor of a core's ply in-box is of the command's kind and names the ply, it is no re-issue, and every member has room: if the checks of R121 pass, on the descriptor with its guarded operands at their layer's rung and with its QSPEC as written and at its site's rung, it leaves the in-box and joins the queue of every member; one that begins or continues a guard's consumer chain then joins that chain, and the unit decides what has become ready (R155, R159). If a check fails, no queue changes, PLY_REJECT_TOTAL counts one, the step record is marked REJECTED_OP and the operation completes (R114, R121, R124). -/
def Obligations.PlyAccepts : Prop :=
  ∀ s core ply m rest, core < 384 → ply < 4 → (s.core core).plyInbox = m :: rest → m.reissue = false → (plyDesc m.words).ply = ply →
    (∀ k ∈ (plyDesc m.words).members, (nth (s.core core).plies {} k).queue.length < 4) →
    ∀ i, ((plyDesc m.words).kind = 1 ∧ i = .matmul core ply ∨ (plyDesc m.words).kind = 2 ∧ i = .packed core ply) →
    let g := guardOf (s.core core) m
    let ws := ladderWords (s.core core) g m.words
    let p := plyDesc ws
    let queued := p.members.foldl
      (fun t k => t.setCore core { t.core core with plies := (t.core core).plies.modify k fun y => { y with queue := y.queue ++ [{ m with words := ws, guard := g }] } })
      (s.setCore core { s.core core with plyInbox := rest })
    (plyVerdict (s.core core) (s.ringSize core) m.words ws = none →
      (g = none → exec i s = .next queued) ∧
      (∀ k, g = some k → exec i s = .next ((queued.onGuard core k fun x => { x with
        chain := x.chain ++ [{ m with guard := some k }], epoch := if x.chain.isEmpty then p.epoch else x.epoch }).ecPoll core))) ∧
    (∀ e, plyVerdict (s.core core) (s.ringSize core) m.words ws = some e →
      ∃ t, exec i s = .next t ∧ (t.core core).plyInbox = rest ∧ (t.core core).plies = (s.core core).plies ∧
        t.step.rejected = true ∧ t.reg (plyR .PLY_REJECT_TOTAL core p.ply) = satAdd (s.reg (plyR .PLY_REJECT_TOTAL core p.ply)) 1 ∧
        ∀ o ∈ (t.core core).cc.inFlight, o.tag ≠ m.tag)

/-- A ply of which operation m has left the queue for slot q. -/
def Sys2Proof.Claims.slotTaken (m : OpMsg) (q : Nat) (y : Ply) : Ply :=
  { y with queue := y.queue.erase m, slots := y.slots.modify q fun sl => { sl with run := some { msg := m, kb := 0, done := false } } }

/-- BLOCK_STEP of an operation in a slot, with the plies that execute it: the products of that block-step's slots of A and B enter each member's tile, which before block-step 0 takes its preload (a continued sum stays); a REQ_T operand is staged first. While block-steps remain, the next is the operation's; after the last, a sum that is read out waits as finished, and one that is held (of an epoch not discarded) stays in the slot, which its operation leaves. PLY_STEP_TOTAL counts one on each member; the other slots and queues of the members, the other cores and HBM stay, and scratch but for what the staging writes (R99, R100, R108, R120, R122, R139). An operation whose REQ_T staging finds its port stalled waits (R95, R108). With no operation in the slot, the one that may begin there leaves its queue, takes the slot and runs its first block-step (R114). -/
def Obligations.BlockStepAccumulates : Prop :=
  (∀ s core ply quad stalls gap u, core < 384 → ply < 4 → quad < 4 → ((s.ply core ply).slot quad).run = some u → u.done = false →
    let p := plyDesc u.msg.words
    p.slot = quad → p.ply = ply →
    (s.reqBlocked core p = true → exec (.blockStep core ply quad stalls gap []) s = .next s) ∧
    (s.reqBlocked core p = false →
      let s1 := s.reqStage core p u.msg u.kb
      ∃ t, exec (.blockStep core ply quad stalls gap []) s = .next t ∧ t.scratch = s1.scratch ∧ t.hbm = s.hbm ∧ (∀ k, k ≠ core → t.core k = s.core k) ∧
        ∀ k ∈ p.members, ∀ y sl, (s.core core).plies[k]? = some y → y.slots[quad]? = some sl → sl.run = some u →
          ∃ y' sl', (t.core core).plies[k]? = some y' ∧ y'.queue = y.queue ∧ y'.slots[quad]? = some sl' ∧ (∀ q, q ≠ quad → y'.slots[q]? = y.slots[q]?) ∧
            t.reg (plyR .PLY_STEP_TOTAL core k) = satAdd (s.reg (plyR .PLY_STEP_TOTAL core k)) 1 ∧
            let tile := ((if u.kb = 0 ∧ p.preload ≠ 3 then (s1.preTile core p k).1 else sl.tile).blockStep
              (s1.feedBlock core p p.a false (p.rowOff k) p.side u.kb) (s1.feedBlock core p p.b true (p.colOff k) p.side u.kb)).1
            (u.kb + 1 ≠ p.kb → sl'.tile = tile ∧ sl'.run = some { u with kb := u.kb + 1 }) ∧
            (u.kb + 1 = p.kb → p.readout = true → sl'.tile = tile ∧ sl'.run = some { u with kb := u.kb + 1, done := true }) ∧
            (u.kb + 1 = p.kb → p.readout = false → s1.staleOp core u.msg = false → sl'.tile = tile ∧ sl'.run = none ∧ sl'.held = some u.msg))) ∧
  (∀ s core ply quad stalls gap m, core < 384 → ply < 4 → quad < 4 → ((s.ply core ply).slot quad).run = none → s.nextOp core ply quad = some m →
    let p := plyDesc m.words
    let begun := p.members.foldl (fun t k => t.setCore core { t.core core with plies := (t.core core).plies.modify k (slotTaken m quad) }) s
    p.slot = quad → p.ply = ply → ply ∈ p.members → (s.core core).plies.length = 4 → (∀ y ∈ (s.core core).plies, y.slots.length = 4) → s.reqBlocked core p = false →
    exec (.blockStep core ply quad stalls gap []) s = exec (.blockStep core ply quad stalls gap []) begun)

/-- R135: the resolved sum, flags, residue and counts of an accumulator do not depend on the order in which its entries come. -/
def Obligations.AccumulationOrderFree : Prop :=
  ∀ (a : Acc) (l l' : List Fl), l.Perm l' → a.enterAll l = a.enterAll l'

/-- From a cleared accumulator, after any entries within the limit of R134 (2^27 block-steps of 16 products), the residue kept entry by entry is the residue of the sum, so a check of R147 finds no difference that the model made itself. -/
def Obligations.ResidueFollowsSum : Prop :=
  ∀ l : List Fl, l.length ≤ 2 ^ 31 → (({} : Acc).enterAll l).1.res = resOf (({} : Acc).enterAll l).1.sum.toInt

/-- R136: a NaN entry sets NAN, an infinite one PINF or NINF, and neither changes the sum or the residue; R137: at read-out NAN, or PINF with NINF, gives NaN, and PINF or NINF alone its infinity. READ_OUT of a finished sum, on one ply or a rope, whose members' read-out buffers are free: where the residues agree, each member's slot is cleared and its OPS_TOTAL counts one, and one quantiser operation for its tile, epoch and message waits at port 0; where one does not, nothing reaches the quantiser, RESIDUE_FAULT (bit 20) is set, a fault, and the operation completes. While a member's buffer is occupied the sum stays and that member's READOUT_STALL_TOTAL counts one (R123, R141, R147, R148). -/
def Obligations.AccumulatorFlagsAndReadOut : Prop :=
  ((∀ a : Acc, (a.enter .nan).1 = { a with nan := true } ∧ (a.enter (.inf false)).1 = { a with pinf := true } ∧
    (a.enter (.inf true)).1 = { a with ninf := true }) ∧
  (∀ a : Acc, (a.nan = true ∨ a.pinf = true ∧ a.ninf = true → a.resolve.1 = .nan) ∧
    (a.nan = false → a.pinf = true → a.ninf = false → a.resolve.1 = .inf false) ∧
    (a.nan = false → a.pinf = false → a.ninf = true → a.resolve.1 = .inf true))) ∧
  (∀ s core ply quad u port, core < 384 → ply < 4 → quad < 4 → ((s.ply core ply).slot quad).run = some u → u.done = true →
    (s.core core).qnt.ports[0]? = some port →
    let p := plyDesc u.msg.words
    p.slot = quad → p.ply = ply →
    let busy := p.members.filter fun k => port.any fun o => o.plies.contains k
    let fails (k : Nat) : List (Nat × Nat × Nat) := (residueCheck ((s.ply core k).slot quad).tile (bit (s.reg (plyR .RESIDUE_INJECT core k)) 0)).1
    (busy = [] → (∀ k ∈ p.members, fails k = []) →
      ∃ t o, exec (.readOut core ply quad) s = .next t ∧ (t.core core).qnt.ports[0]? = some (port ++ [o]) ∧
        o.tile = p.tile ∧ o.epoch = p.epoch ∧ o.signal = some u.msg ∧ o.plies = p.members ∧ t.hbm = s.hbm ∧ t.scratch = s.scratch ∧
        ∀ k ∈ p.members, t.reg (plyR .OPS_TOTAL core k) = satAdd (s.reg (plyR .OPS_TOTAL core k)) 1 ∧
          ∀ y sl, (s.core core).plies[k]? = some y → y.slots[quad]? = some sl →
            ∃ y', (t.core core).plies[k]? = some y' ∧ y'.queue = y.queue ∧ y'.slots[quad]? = some { sl with run := none, held := none, tile := {} }) ∧
    (busy = [] → (∃ k ∈ p.members, fails k ≠ []) →
      ∃ t, exec (.readOut core ply quad) s = .next t ∧ (t.core core).qnt = (s.core core).qnt ∧ t.step.fault = true ∧
        bit (t.reg (coreR .CORE_STATUS core)) 20 = true ∧ ∀ o ∈ (t.core core).cc.inFlight, o.tag = u.msg.tag → u.msg.reissue = true) ∧
    (busy ≠ [] → exec (.readOut core ply quad) s = .next (busy.foldl (fun t k => t.bump (plyR .READOUT_STALL_TOTAL core k) 1) s)))

/-- QUANTISER_OPERATION runs the oldest operation of a port. Where the run finds its keep place and memory takes its writes (an operation that keeps nothing and writes core scratch always does), it leaves the port, and its damage record, with its site, tile and epoch and its keep entry, if it has one, goes to the error-control unit. One whose writes memory holds waits. One that finds no room in its keep ring stays at the port, and the stall is counted once in KEEP_STALL_TOTAL (R65, R92, R95). -/
def Obligations.QuantiserRuns : Prop :=
  ∀ s core port o rest, core < 384 → port < 4 → (s.core core).qnt.ports[port]? = some (o :: rest) →
    let q := qspecOf ((s.core core).ladder o.lo o.hi) o.hi
    (∀ r, s.runQOp core o = some r → r.2 ≠ some .held → ∃ t m, exec (.quantiserOperation core port) s = .next t ∧
      (t.core core).qnt.ports[port]? = some rest ∧ (t.core core).ec.inbox = (s.core core).ec.inbox ++ [m] ∧
      m.site = q.site ∧ m.tile = o.tile ∧ m.epoch = o.epoch ∧ m.keep.isSome = decide (q.keepFmt ≠ 0)) ∧
    (q.keepFmt = 0 → o.dst.hbm = false → ∃ r, s.runQOp core o = some r ∧ r.2 = none) ∧
    (∀ r, s.runQOp core o = some r → r.2 = some .held → exec (.quantiserOperation core port) s = .next s) ∧
    (s.runQOp core o = none →
      (nth (s.core core).qnt.stalled false port = true → exec (.quantiserOperation core port) s = .next s) ∧
      (nth (s.core core).qnt.stalled false port = false → exec (.quantiserOperation core port) s =
        .next ((s.bump (coreR .KEEP_STALL_TOTAL core) 1).setCore core { s.core core with qnt := { (s.core core).qnt with
          stalled := setNth (s.core core).qnt.stalled port true } })))

/-- DAMAGE_RECORD: the unit takes the oldest record delivered; one whose guard is at another epoch is discarded, its keep entry is released, and nothing else changes; any other joins its tile's record and then the unit decides what has become ready, so that with no guards in the image nothing but the tile's record and the totals change (R152, R159, R162). EC_LAYER_BOUND: in HELD, for a layer of the section with START_RUNG at most CEIL_RUNG, CEIL_RUNG at most the image's and START_RUNG at least the floor of its record, the bounds and the rung are set, runs and HELD clear; every other write is a decode error and changes no core (R170, R173). -/
def Obligations.ErrorControlTakes : Prop :=
  (∀ s core m rest, core < 384 → (s.core core).ec.inbox = m :: rest →
    let stale := ∃ g gs, m.guard = some g ∧ (s.core core).ec.guards[g]? = some gs ∧ gs.epoch ≠ m.epoch
    let taken := s.setCore core { s.core core with ec := { (s.core core).ec with inbox := rest } }
    (stale → exec (.damageRecord core) s = .next (s.setCore core { s.core core with
      ec := { (s.core core).ec with inbox := rest }
      qnt := { (s.core core).qnt with keeps := (s.core core).qnt.keeps.filter fun k => decide (m.keep ≠ some k) } })) ∧
    (¬ stale → exec (.damageRecord core) s = .next ((taken.ecRecord core m).ecPoll core)) ∧
    (¬ stale → (s.core core).ec.guards = [] → ∃ t r, exec (.damageRecord core) s = .next t ∧ (t.core core).ec.inbox = rest ∧
      (t.core core).ec.layers = (s.core core).ec.layers ∧ r ∈ (t.core core).ec.tiles ∧ r.site = m.site ∧ r.tile = m.tile ∧ r.epoch = m.epoch ∧
      m ∈ r.parts ∧ (m.last = true → r.judged.isSome = true) ∧ t.hbm = s.hbm ∧ t.scratch = s.scratch ∧ t.knots = s.knots)) ∧
  (∀ s core n v, core < 384 → n < 256 →
    let ok (l : EcLayer) : Prop := s.isHeld = true ∧ fld v 2 1 ≤ fld v 4 3 ∧ fld v 4 3 ≤ fld (nth l.words 0 0) 4 3 ∧ fld (nth l.words 0 3) 1 0 ≤ fld v 2 1
    (∀ l, sfind (s.core core).ec.layers n = some l → ok l →
      exec (.ecLayerBound core n v) s = .next (s.setCore core { s.core core with ec := { (s.core core).ec with
        layers := sset (s.core core).ec.layers n { l with mode := fld v 0 0, start := fld v 2 1, ceil := fld v 4 3
                                                          rung := fld v 2 1, storm := 0, calm := 0, held := false } } })) ∧
    ((∀ l, sfind (s.core core).ec.layers n = some l → ¬ ok l) → ∃ t, exec (.ecLayerBound core n v) s = .next t ∧ t.cores = s.cores ∧
      bit (t.reg (rid .MODC_STATUS .module)) 0 = true))

/-- RESIDUE_INJECT arms one ply in HELD, and is a decode error otherwise (R150). The ravel test port: a write to an input clears VALID, a write to INDEX also starts a computation, and its end gives the ravel of the inputs with VALID (R89). -/
def Obligations.TestPorts : Prop :=
  (∀ s core ply, core < 384 → ply < 4 →
    (s.isHeld = true → exec (.residueInject core ply) s =
      .next (s.setReg (plyR .RESIDUE_INJECT core ply) (setFld (s.reg (plyR .RESIDUE_INJECT core ply)) 0 0 1))) ∧
    (s.isHeld = false → ∃ t, exec (.residueInject core ply) s = .next t ∧ bit (t.reg (rid .MODC_STATUS .module)) 0 = true)) ∧
  (∀ s core sel v, core < 384 → sel < 4 →
    exec (.ravelTestInput core sel v) s = .next ((s.setReg (coreR (ravelSel sel) core) (if sel = 3 then w64 (fld v 31 0) else v)).setRegFld
      (coreR .RAVEL_TEST_RESULT core) 32 32 0)) ∧
  (∀ s core v, core < 384 → ∃ t, exec (.ravelTestIndex core v) s = .next t ∧ (t.core core).qnt.testRun = true ∧
    t.reg (coreR .RAVEL_TEST_INDEX core) = w64 (fld v 47 0) ∧ bit (t.reg (coreR .RAVEL_TEST_RESULT core)) 32 = false) ∧
  (∀ s core, core < 384 → (s.core core).qnt.testRun = true →
    let g (n : RegName) : Nat := (s.reg (coreR n core)).toNat
    ∃ t, exec (.ravelTestDone core) s = .next t ∧ (t.core core).qnt.testRun = false ∧
      t.reg (coreR .RAVEL_TEST_RESULT core) = w64 (2 ^ 32 + (ravel (g .RAVEL_TEST_SEED_LO + g .RAVEL_TEST_SEED_HI * 2 ^ 64)
        (g .RAVEL_TEST_STEP) (g .RAVEL_TEST_STREAM) (g .RAVEL_TEST_INDEX)).toNat))

/- Vector engine (07). -/

/-- A lane operation on VA, VB (or its broadcast) and VC. -/
def Sys2Proof.Claims.laneAbc (f : W32 → W32 → W32 → W32) (m : OpMsg) (w : W64) (x : Strand) (_t l : Nat) : W32 :=
  f (lane (x.reg (vVa w)) l) (lane (x.srcB m w) l) (lane (x.reg (vVc w)) l)

/-- Instructions that write lanes of VD: command, CLASS, OP, and the value of lane l on strand core t. -/
def Sys2Proof.Claims.laneOps : List ((Nat → Nat → Instr) × Nat × Nat × (OpMsg → W64 → Strand → Nat → Nat → W32)) :=
  [ (.vadd, 2, 0x00, laneAbc fun a b _ => toF32 ((f32 a).add (f32 b))), (.vsub, 2, 0x01, laneAbc fun a b _ => toF32 ((f32 a).sub (f32 b)))
  , (.vmul, 2, 0x02, laneAbc fun a b _ => toF32 ((f32 a).mul (f32 b)))
  , (.vfma, 2, 0x03, laneAbc fun a b c => toF32 (((f32 a).mul (f32 b)).add (f32 c)))
  , (.vfms, 2, 0x04, laneAbc fun a b c => toF32 (((f32 a).mul (f32 b)).sub (f32 c)))
  , (.vmin, 2, 0x05, laneAbc fun a b _ => vMinMax false a b), (.vmax, 2, 0x06, laneAbc fun a b _ => vMinMax true a b)
  , (.vabs, 2, 0x07, laneAbc fun a _ _ => toF32 (f32 a).abs), (.vneg, 2, 0x08, laneAbc fun a _ _ => toF32 (f32 a).neg)
  , (.vmov, 2, 0x09, laneAbc fun a _ _ => a) ] ++
  [ (.vrcp, 3, 0x00, laneAbc fun a _ _ => funcStage 0x00 a), (.vdiv, 3, 0x01, laneAbc fun a b _ => toF32 ((f32 a).div (f32 b)))
  , (.vsqrt, 3, 0x02, laneAbc fun a _ _ => toF32 (f32 a).sqrt), (.vrsq, 3, 0x03, laneAbc fun a _ _ => funcStage 0x03 a)
  , (.vexp2, 3, 0x04, laneAbc fun a _ _ => funcStage 0x04 a), (.vexp, 3, 0x05, laneAbc fun a _ _ => funcStage 0x05 a)
  , (.vlog2, 3, 0x06, laneAbc fun a _ _ => funcStage 0x06 a), (.vlog, 3, 0x07, laneAbc fun a _ _ => funcStage 0x07 a)
  , (.vtanh, 3, 0x08, laneAbc fun a _ _ => funcStage 0x08 a), (.vsigm, 3, 0x09, laneAbc fun a _ _ => funcStage 0x09 a)
  , (.verf, 3, 0x0A, laneAbc fun a _ _ => funcStage 0x0A a), (.vsin, 3, 0x0B, laneAbc fun a _ _ => funcStage 0x0B a)
  , (.vcos, 3, 0x0C, laneAbc fun a _ _ => funcStage 0x0C a) ] ++
  [ (.vsel, 4, 0x08, fun m w x _ l => if nbit (x.pred (vVc w % 8)) l then lane (x.reg (vVa w)) l else lane (x.srcB m w) l)
  , (.vcvti, 5, 0x00, laneAbc fun a _ _ => cvtI a), (.vcvtf, 5, 0x01, laneAbc fun a _ _ => toF32 (.ofInt a.toInt))
  , (.vrbf, 5, 0x02, fun _ w x _ l => BitVec.ofNat 32 ((FF.bf16.encode (fsSat (vFmt w)) (f32 (lane (x.reg (vVa w)) l))).1 * 2 ^ 16))
  , (.viadd, 5, 0x08, laneAbc fun a b _ => a + b), (.visub, 5, 0x09, laneAbc fun a b _ => a - b), (.vimul, 5, 0x0A, laneAbc fun a b _ => a * b)
  , (.vand, 5, 0x0B, laneAbc fun a b _ => a &&& b), (.vor, 5, 0x0C, laneAbc fun a b _ => a ||| b), (.vxor, 5, 0x0D, laneAbc fun a b _ => a ^^^ b)
  , (.vimin, 5, 0x11, laneAbc fun a b _ => if a.toInt < b.toInt then a else b)
  , (.vimax, 5, 0x12, laneAbc fun a b _ => if a.toInt < b.toInt then b else a)
  , (.vperm, 6, 0x00, fun m w x _ l => lane (x.reg (vVa w)) ((lane (x.srcB m w) l).toNat % 16))
  , (.vblane, 6, 0x01, fun _ w x _ _ => lane (x.reg (vVa w)) (w.toNat % 16))
  , (.viota, 6, 0x02, fun _ w _ t l => BitVec.ofInt 32 ((l : Int) + 16 * (t : Int) + vImm w))
  , (.vrot, 6, 0x03, fun _ w x _ l => lane (x.reg (vVa w)) (((l : Int) + vImm w) % 16).toNat) ]

/-- Shifts: command, OP, the shift by less than 32. -/
def Sys2Proof.Claims.laneShifts : List ((Nat → Nat → Instr) × Nat × (W32 → Nat → W32)) :=
  [ (.vshl, 0x0E, fun a k => a <<< k), (.vshra, 0x0F, fun a k => a.sshiftRight k), (.vshrl, 0x10, fun a k => a >>> k) ]

/-- Every lane-wise arithmetic, function-stage, convert, integer, select and permute instruction writes the active lanes of VD with its operation, leaves the others as PZ says, counts one instruction and passes on; nothing else changes (R180–R183, R192). The function stage's results inside its bounds are free (log 27). VSHL, VSHRA and VSHRL do so as well; a lane whose amount is 32 or more gets a free value (log 26). -/
def Obligations.VectorLanes : Prop :=
  (∀ r ∈ laneOps, ∀ s n t m w, VecAt s n t m w → vCls w = r.2.1 → vOp w = r.2.2.1 →
    exec (r.1 n t) s = .next (strandUpd s n t fun x => strandNext (vdWritten x w (r.2.2.2 m w x t)))) ∧
  (∀ r ∈ laneShifts, ∀ s n t m w, VecAt s n t m w → vCls w = 5 → vOp w = r.2.1 →
    exec (r.1 n t) s = .next (strandUpd s n t fun x => strandNext (vdWritten x w (laneAbc (fun a b _ =>
      if b.toNat < 32 then r.2.2 a b.toNat else Config.shiftOver r.2.1 a b) m w x t))))

/-- Tests and predicate operations: command, CLASS, OP, the value of lane l. -/
def Sys2Proof.Claims.lanePreds : List ((Nat → Nat → Instr) × Nat × Nat × (OpMsg → W64 → Strand → Nat → Bool)) :=
  let ab (f : W32 → W32 → Bool) (m : OpMsg) (w : W64) (x : Strand) (l : Nat) : Bool := f (lane (x.reg (vVa w)) l) (lane (x.srcB m w) l)
  let pq (f : Bool → Bool → Bool) (_ : OpMsg) (w : W64) (x : Strand) (l : Nat) : Bool :=
    f (nbit (x.pred (vVa w % 8)) l) (nbit (x.pred (vVb w % 8)) l)
  [ (.vceq, 4, 0x00, ab fun a b => (f32 a).beq (f32 b)), (.vclt, 4, 0x01, ab fun a b => (f32 a).lt (f32 b))
  , (.vcle, 4, 0x02, ab fun a b => (f32 a).le (f32 b)), (.vcun, 4, 0x03, ab fun a b => (f32 a).isNan || (f32 b).isNan)
  , (.pand, 4, 0x10, pq fun a b => a && b), (.por, 4, 0x11, pq fun a b => a || b), (.pxor, 4, 0x12, pq fun a b => a != b)
  , (.pnot, 4, 0x13, pq fun a _ => !a), (.viclt, 5, 0x13, ab fun a b => decide (a.toInt < b.toInt)) ]

/-- A test or predicate operation writes the active lanes of p[VD mod 8], inactive ones become 0 with PZ and else stay; a write to p0 is discarded and p0 reads as all ones; vector registers, memories and registers but INSN_TOTAL stay (R180, R182, R183). -/
def Obligations.VectorPredicates : Prop :=
  ∀ r ∈ lanePreds, ∀ s n t m w, VecAt s n t m w → vCls w = r.2.1 → vOp w = r.2.2.1 →
    let x := s.strand n t
    ∃ u, exec (r.1 n t) s = .next u ∧ (u.strand n t).pc = (x.pc + 1) % 8192 ∧ (u.strand n t).v = x.v ∧
      (u.strand n t).pred 0 = 0xFFFF ∧
      (vVd w % 8 ≠ 0 → ∀ l, l < 16 → nbit ((u.strand n t).pred (vVd w % 8)) l =
        if nbit (x.pred (vPg w)) l then r.2.2.2 m w x l else if vPz w then false else nbit (x.pred (vVd w % 8)) l) ∧
      (∀ d, d ≠ vVd w % 8 → (u.strand n t).pred d = x.pred d) ∧
      u.hbm = s.hbm ∧ u.scratch = s.scratch ∧ u.regs = (s.bump (coreR .INSN_TOTAL n) 1).regs

/-- The CONTROL class: NOP passes on; BR goes to IMM; BRANY goes there if the tested predicate has a 1 in an active lane; LSET sets a loop counter; LOOP decrements it modulo 2^16 and branches while it is not 0; VOUT writes lane 0 of VA, where active, to a result word of the launch; END ends the strand core's launch (R179, R183, R185). An instruction with a reserved CLASS, OP or field, or a branch target beyond the kernel store, is not executed: it ends the strand core's launch, VEC_ILLEGAL (bit 8) is set and the step record is marked REJECTED_OP (R185, R186). -/
def Obligations.VectorControl : Prop :=
  (∀ s n t m w, VecAt s n t m w → vCls w = 0 →
    let x := s.strand n t
    (vOp w = 0 → exec (.vecNop n t) s = .next (strandUpd s n t strandNext)) ∧
    (vOp w = 2 → exec (.br n t) s = .next (strandUpd s n t fun x => { x with pc := (vImm w).toNat })) ∧
    (vOp w = 3 → exec (.brany n t) s = .next (strandUpd s n t fun x =>
      if (List.range 16).any fun l => nbit (x.pred (vPg w)) l && nbit (x.pred (vVa w % 8)) l then { x with pc := (vImm w).toNat } else strandNext x)) ∧
    (vOp w = 4 → exec (.lset n t) s = .next (strandUpd s n t fun x =>
      strandNext { x with l := sset x.l (vVd w % 4) (if vBs w then (bcastLane m (vVb w % 8)).toNat % 2 ^ 16 else w.toNat % 2 ^ 16) })) ∧
    (vOp w = 5 → exec (.vecLoop n t) s = .next (strandUpd s n t fun x =>
      let v := (sget x.l 0 (vVd w % 4) + 65535) % 65536
      let y := { x with l := sset x.l (vVd w % 4) v }
      if v ≠ 0 then { y with pc := (vImm w).toNat } else strandNext y)) ∧
    (vOp w = 6 → ∃ u, exec (.vout n t) s = .next u ∧ u.strand n t = strandNext x ∧ u.hbm = s.hbm ∧ u.scratch = s.scratch ∧
      (∀ r ∈ (s.core n).cc.results, r.tag = m.tag → nbit (x.pred (vPg w)) 0 = true →
        { r with words := sset r.words (fld w 2 0) (lane (x.reg (vVa w)) 0) } ∈ (u.core n).cc.results) ∧
      (nbit (x.pred (vPg w)) 0 = false → (u.core n).cc = (s.core n).cc)) ∧
    (vOp w = 1 → ∃ u, exec (.strandEnd n t) s = .next u ∧ (u.strand n t) = { x with launch := none } ∧
      ∀ l ∈ (u.core n).vec.queue, l.msg.tag = m.tag → t ∈ l.ended)) ∧
  (∀ s n t w g l, n < 384 → t < 16 → vIllegal w = true → (s.core n).vec.insn (s.strand n t).pc = w →
    (s.strand n t).launch = some g → (s.core n).vec.queue.find? (fun l => l.msg.tag = g) = some l →
    ∃ u, exec (.vecNop n t) s = .next u ∧ u.strand n t = { s.strand n t with launch := none } ∧
      u.step.rejected = true ∧ bit (u.reg (rid .CORE_STATUS (.core n))) 8 = true ∧ u.hbm = s.hbm ∧ u.scratch = s.scratch)

/-- Loads and stores of the vector engine, with no scratch error met. VLD reads a cache line's lanes; VST (normalised) and VSTR (raw) write the active lanes of VD to a cache line and no other byte of scratch; a line beyond the cache reads +0 or is not written. VLDQ decodes a block of a tensor slot, with FILL at or beyond DIM, and FILL in every lane for a block that starts there; VSTQ sends a block to the quantiser's vector port under the launch's tile and epoch. An access with an active lane, and every RXPORT, RIMPORT or VSTQ, that lies outside sets VEC_OOB (bit 9) (R187–R191). -/
def Obligations.VectorMemory : Prop :=
  ∀ s n t m w stalls, VecAt s n t m w → vCls w = 1 → Memory.wf s.scratch = true →
    let x := s.strand n t
    let some1 := (List.range 16).any fun l => nbit (x.pred (vPg w)) l
    (∀ c, cacheLine x w = some c →
      (vOp w = 0 → ∃ u, exec (.vld n t stalls []) s = .next u ∧
        u.strand n t = strandNext (vdWritten x w fun l => BitVec.ofNat 32 (s.scrNat n ((0x6000 + c) * 64 + 4 * l) 4)) ∧
        u.scratch = s.scratch ∧ u.hbm = s.hbm) ∧
      (∀ raw : Bool, vOp w = (if raw then 2 else 1) →
        ∃ u, exec (if raw then .vstr n t stalls else .vst n t stalls) s = .next u ∧ u.strand n t = strandNext x ∧ u.hbm = s.hbm ∧
          (∀ l, l < 16 → nbit (x.pred (vPg w)) l = true → u.scrNat n ((0x6000 + c) * 64 + 4 * l) 4 =
            (if raw then lane (x.reg (vVd w)) l else tensorF32 (lane (x.reg (vVd w)) l)).toNat) ∧
          (∀ a, (∀ l, l < 16 → nbit (x.pred (vPg w)) l = true →
              a < scrAddr n ((0x6000 + c) * 64 + 4 * l) ∨ scrAddr n ((0x6000 + c) * 64 + 4 * l + 4) ≤ a) →
            memGet u.scratch a = memGet s.scratch a))) ∧
    (cacheLine x w = none →
      (vOp w = 0 → ∃ u, exec (.vld n t stalls []) s = .next u ∧ u.strand n t = strandNext (vdWritten x w fun _ => 0) ∧
        u.scratch = s.scratch ∧ u.hbm = s.hbm ∧ (some1 = true → bit (u.reg (coreR .CORE_STATUS n)) 9 = true)) ∧
      (∀ i, (vOp w = 1 ∧ i = .vst n t stalls ∨ vOp w = 2 ∧ i = .vstr n t stalls) →
        ∃ u, exec i s = .next u ∧ u.strand n t = strandNext x ∧ u.scratch = s.scratch ∧ u.hbm = s.hbm ∧
          (some1 = true → bit (u.reg (coreR .CORE_STATUS n)) 9 = true))) ∧
    (∀ b scr oc, slotBlock x w (m.tslot (vSlot w / 2)) = some b →
      (vOp w = 3 → ∃ u, exec (.vldq n t scr oc []) s = .next u ∧
        u.strand n t = strandNext (vdWritten x w fun l =>
          if 16 * b + l < (m.tslot (vSlot w / 2)).dim then s.slotLane n (m.tslot (vSlot w / 2)) false (16 * b + l)
          else BitVec.ofNat 32 (m.tslot (vSlot w / 2)).fill) ∧
        u.scratch = s.scratch ∧ u.hbm = s.hbm) ∧
      (vOp w = 4 → ∀ port, (s.core n).qnt.ports[1]? = some port →
        ∃ u o, exec (.vstq n t stalls) s = .next u ∧ u.strand n t = strandNext x ∧ (u.core n).qnt.ports[1]? = some (port ++ [o]) ∧
          o.lo = m.w (2 + 2 * (vSlot w % 2)) ∧ o.hi = m.w (3 + 2 * (vSlot w % 2)) ∧ o.tile = (m.w 14).toNat ∧
          o.epoch = fld (m.w 0) 41 34 ∧ o.launch = some m.tag ∧ u.scratch = s.scratch ∧ u.hbm = s.hbm)) ∧
    (slotBlock x w (m.tslot (vSlot w / 2)) = none →
      (∀ scr oc, vOp w = 3 → ∃ u, exec (.vldq n t scr oc []) s = .next u ∧
        u.strand n t = strandNext (vdWritten x w fun _ => BitVec.ofNat 32 (m.tslot (vSlot w / 2)).fill) ∧ u.scratch = s.scratch ∧ u.hbm = s.hbm ∧
        (some1 = true → bit (u.reg (coreR .CORE_STATUS n)) 9 = true)) ∧
      (vOp w = 4 → ∃ u, exec (.vstq n t stalls) s = .next u ∧ u.strand n t = strandNext x ∧ (u.core n).qnt = (s.core n).qnt ∧
        u.scratch = s.scratch ∧ u.hbm = s.hbm ∧ bit (u.reg (coreR .CORE_STATUS n)) 9 = true))

/-- Reduction states: RCLR clears; RADD adds the active lanes, exactly or by the fall-back tree; RMIN, and within the span of R199 RMAX, RARG and RSOFT, fold them, the counted ones advancing the position by 16; past the span these three set NAN, count in OVERSPAN_TOTAL and set VEC_OVERSPAN (bit 10) instead. RREAD writes a result to lane 0 of VD where active; RXPORT writes the state's cell to a cache line and no other byte, RIMPORT adds the cell of a cache line; VSMX writes VD by *Softmax row cases*, and on an empty row first seen sets VEC_EMPTY_ROW (bit 11) and counts it (R194–R201). -/
def Obligations.VectorReductions : Prop :=
  ∀ s n t m w, VecAt s n t m w → vCls w = 7 →
    let upd (f : Strand → RedState → RedState) : State := strandUpd s n t fun x =>
      strandNext { x with r := sset x.r (vSlot w % 4) (f x (sget x.r {} (vSlot w % 4))) }
    let act (x : Strand) : List Nat := (List.range 16).filter fun l => nbit (x.pred (vPg w)) l
    let x := s.strand n t
    let r := sget x.r {} (vSlot w % 4)
    (vOp w = 0 → exec (.rclr n t) s = .next (upd fun _ _ => {})) ∧
    (vOp w = 1 →
      (bit (m.w 0) 33 = false → exec (.radd n t) s = .next (upd fun x r =>
        r.withCell ((act x).foldl (fun c l => c.addLane (lane (x.reg (vVa w)) l)) r.cell))) ∧
      (bit (m.w 0) 33 = true → exec (.radd n t) s = .next (upd fun x r => { r with
        tree := toF32 ((f32 r.tree).add (f32 (treeSum ((List.range 16).map fun l =>
          if nbit (x.pred (vPg w)) l then lane (x.reg (vVa w)) l else 0)))) }))) ∧
    (vOp w = 3 → exec (.rmin n t) s = .next (upd fun x r => { r with
      m := some ((act x).foldl (fun a l => vMinMax false a (lane (x.reg (vVa w)) l)) (r.m.getD 0x7F800000)) })) ∧
    (r.n + 16 ≤ 2 ^ 20 →
      (vOp w = 2 → exec (.rmax n t) s = .next (upd fun x r => { r with
        m := some ((act x).foldl (fun a l => vMinMax true a (lane (x.reg (vVa w)) l)) (r.m.getD 0xFF800000)), n := r.n + 16 })) ∧
      (vOp w = 4 → exec (.rarg n t) s = .next (upd fun x r =>
        { (act x).foldl (fun r l => r.argLane (x.reg (vVa w)) l) r with n := r.n + 16 })) ∧
      (vOp w = 5 → exec (.rsoft n t) s = .next (upd fun x r =>
        { r.rsoft (bit (m.w 0) 33) (act x) (x.reg (vVa w)) with n := r.n + 16 }))) ∧
    (2 ^ 20 < r.n + 16 → ∀ i, (vOp w = 2 ∧ i = .rmax n t ∨ vOp w = 4 ∧ i = .rarg n t ∨ vOp w = 5 ∧ i = .rsoft n t) →
      ∃ u, exec i s = .next u ∧
        u.strand n t = strandNext { x with r := sset x.r (vSlot w % 4) { r with nan := true, n := min (r.n + 16) (2 ^ 21 - 1) } } ∧
        u.reg (coreR .OVERSPAN_TOTAL n) = satAdd (s.reg (coreR .OVERSPAN_TOTAL n)) 1 ∧ bit (u.reg (coreR .CORE_STATUS n)) 10 = true ∧
        u.scratch = s.scratch ∧ u.hbm = s.hbm) ∧
    (vOp w = 6 → exec (.rread n t) s = .next (strandUpd s n t fun x => strandNext (vdWritten x w fun l =>
      if l = 0 then r.read (bit (m.w 0) 33) (fld w 1 0) else lane (x.reg (vVd w)) l))) ∧
    (∀ stalls c, cacheLine x w = some c → Memory.wf s.scratch = true →
      (vOp w = 7 → ∃ u, exec (.rxport n t stalls) s = .next u ∧ u.strand n t = strandNext x ∧ u.hbm = s.hbm ∧
        u.scrRead n ((0x6000 + c) * 64) 64 = (r.export (bit (m.w 0) 33)).toBytes ∧
        (∀ a, a < scrAddr n ((0x6000 + c) * 64) ∨ scrAddr n ((0x6000 + c) * 64 + 64) ≤ a → memGet u.scratch a = memGet s.scratch a)) ∧
      (vOp w = 8 → ∃ u, exec (.rimport n t stalls []) s = .next u ∧ u.scratch = s.scratch ∧ u.hbm = s.hbm ∧
        u.strand n t = strandNext { x with
          r := sset x.r (vSlot w % 4) (r.import (bit (m.w 0) 33) (XCell.ofBytes (s.scrRead n ((0x6000 + c) * 64) 64))) })) ∧
    (cacheLine x w = none → ∀ stalls i, (vOp w = 7 ∧ i = .rxport n t stalls ∨ vOp w = 8 ∧ i = .rimport n t stalls []) →
      ∃ u, exec i s = .next u ∧ u.strand n t = strandNext x ∧ u.scratch = s.scratch ∧ u.hbm = s.hbm ∧ bit (u.reg (coreR .CORE_STATUS n)) 9 = true) ∧
    (vOp w = 9 →
      let empty := r.nan = false ∧ r.overSpan = false ∧ r.live = false
      let y (seen : Bool) : Strand := strandNext { x with
        v := sset x.v (vVd w) ((List.range 16).map fun l => if nbit (x.pred (vPg w)) l then r.smx (bit (m.w 0) 33) (lane (x.reg (vVa w)) l) else 0)
        r := sset x.r (vSlot w % 4) { r with emptySeen := seen } }
      (¬ empty → exec (.vsmx n t) s = .next (strandUpd s n t fun _ => y r.emptySeen)) ∧
      (empty → r.emptySeen = true → exec (.vsmx n t) s = .next (strandUpd s n t fun _ => y true)) ∧
      (empty → r.emptySeen = false → ∃ u, exec (.vsmx n t) s = .next u ∧ u.strand n t = y true ∧ u.scratch = s.scratch ∧ u.hbm = s.hbm ∧
        u.reg (coreR .EMPTY_ROW_TOTAL n) = satAdd (s.reg (coreR .EMPTY_ROW_TOTAL n)) 1 ∧ bit (u.reg (coreR .CORE_STATUS n)) 11 = true))

/-- R195: an exact sum does not depend on the order in which its lanes are added. -/
def Obligations.ExactSumOrderFree : Prop :=
  ∀ (c : XCell) (l l' : List W32), l.Perm l' → l.foldl XCell.addLane c = l'.foldl XCell.addLane c

/-- Gather and scatter, with no scratch error met: VGATH loads the addressed elements of a slot, FILL for an index outside it; VSCAT writes active lanes to a plain FP32 or BF16 slot, the highest lane of one element winning; VSCADD adds active lanes, in rising order, into an EXACT slot's cells; no byte outside the addressed elements changes, and an active lane whose index lies outside addresses none (R203–R206). -/
def Obligations.VectorGather : Prop :=
  ∀ s n t m w scr oc, VecAt s n t m w → vCls w = 8 → Memory.wf s.scratch = true →
    let x := s.strand n t
    let T := m.tslot (vSlot w / 2)
    let ix (l : Nat) : Option Nat := resolveIdx T.wrap T.dim (lane (x.reg (vVa w)) l)
    let act (l : Nat) : Bool := nbit (x.pred (vPg w)) l
    (vOp w = 0 → ∃ u, exec (.vgath n t scr oc []) s = .next u ∧ u.hbm = s.hbm ∧ u.scratch = s.scratch ∧
      u.strand n t = strandNext (vdWritten x w fun l => match ix l with
        | some e => s.slotLane n T true e
        | none => BitVec.ofNat 32 T.fill)) ∧
    (vOp w = 1 → T.exact = false →
      ∀ k (code : W32 → Nat), (fsCode T.fmt = 6 ∧ k = 4 ∧ code = (fun a => (tensorF32 a).toNat) ∨
        fsCode T.fmt = 5 ∧ k = 2 ∧ code = (fun a => let c := (FF.bf16.encode (fsSat T.fmt) (f32 a)).1; if c = 0x8000 then 0 else c)) →
      T.elem * 64 + k * T.dim ≤ 2 ^ 21 →
      ∃ u, exec (.vscat n t scr oc) s = .next u ∧ u.strand n t = strandNext x ∧ u.hbm = s.hbm ∧
        (∀ l e, l < 16 → act l = true → ix l = some e → (∀ j, l < j → j < 16 → act j = true → ix j ≠ some e) →
          u.scrNat n (T.elem * 64 + k * e) k = code (lane (x.srcB m w) l) % 256 ^ k) ∧
        (∀ a, (∀ l e, l < 16 → act l = true → ix l = some e → a < scrAddr n (T.elem * 64 + k * e) ∨ scrAddr n (T.elem * 64 + k * e + k) ≤ a) →
          memGet u.scratch a = memGet s.scratch a)) ∧
    (vOp w = 2 → T.exact = true → T.elem * 64 + 64 * T.dim ≤ 2 ^ 21 →
      ∃ u, exec (.vscadd n t scr oc []) s = .next u ∧ u.strand n t = strandNext x ∧ u.hbm = s.hbm ∧
        (∀ e, (∃ l, l < 16 ∧ act l = true ∧ ix l = some e) → XCell.ofBytes (u.scrRead n (T.elem * 64 + 64 * e) 64) =
          ((List.range 16).filter fun l => act l && decide (ix l = some e)).foldl (fun c l => c.addLane (lane (x.srcB m w) l))
            (XCell.ofBytes (s.scrRead n (T.elem * 64 + 64 * e) 64))) ∧
        (∀ a, (∀ l e, l < 16 → act l = true → ix l = some e → a < scrAddr n (T.elem * 64 + 64 * e) ∨ scrAddr n (T.elem * 64 + 64 * e + 64) ≤ a) →
          memGet u.scratch a = memGet s.scratch a))

/-- VLAUNCH: the oldest launch issued to the engine joins its queue when the checks of R178 pass; when they fail VEC_REJECT_TOTAL counts one, REJECTED_OP is marked and it completes at once. LAUNCH_COMPLETE: a launch at the front of the queue whose strand cores have all ended, with no quantiser operation out and no tile record of its own at the error-control unit, leaves the queue, and the control core sees it complete with its result words readable (R177–R179). -/
def Obligations.VectorLaunches : Prop :=
  (∀ s n m rest, n < 384 → (s.core n).vec.inbox = m :: rest →
    (launchBad (s.core n) (s.ringSize n) m = none → exec (.vlaunch n) s = .next (s.setCore n { s.core n with vec := { (s.core n).vec with
      inbox := rest, queue := (s.core n).vec.queue ++ [{ msg := m, pend := m.strands, ended := [], qops := 0 }] } })) ∧
    (∀ code, launchBad (s.core n) (s.ringSize n) m = some code → ∃ t, exec (.vlaunch n) s = .next t ∧ (t.core n).vec.inbox = rest ∧
      (t.core n).vec.queue = (s.core n).vec.queue ∧ t.step.rejected = true ∧
      t.reg (coreR .VEC_REJECT_TOTAL n) = satAdd (s.reg (coreR .VEC_REJECT_TOTAL n)) 1)) ∧
  (∀ s n l rest, n < 384 → (s.core n).vec.queue = l :: rest → l.qops = 0 → (∀ t ∈ l.msg.strands, t ∈ l.ended) →
    (s.core n).ec.inbox = [] → (s.core n).ec.tiles = [] → l.msg.reissue = false →
    ∃ t, exec (.launchComplete n) s = .next t ∧ (t.core n).vec.queue = rest ∧
      (∀ o ∈ (t.core n).cc.inFlight, o.tag ≠ l.msg.tag) ∧ (∀ r ∈ (t.core n).cc.results, r.tag = l.msg.tag → r.done = true))

/-- The function stage on special inputs: a NaN gives the canonical NaN for every function; VRCP of an infinity is a zero of its sign, VEXP2 and VEXP of −∞ are +0 and of +∞ are +∞, VLOG2 and VLOG of −∞ are NaN, VTANH and VERF of ±∞ are ±1, VSIN and VCOS of ±∞ are NaN (R193). -/
def Obligations.FunctionSpecials : Prop :=
  (∀ op w, (f32 w).isNan = true → funcStage op w = 0x7FC00000) ∧
  (∀ neg : Bool, let inf : W32 := if neg then 0xFF800000 else 0x7F800000
    funcStage 0x00 inf = (if neg then 0x80000000 else 0) ∧
    funcStage 0x04 inf = (if neg then 0 else 0x7F800000) ∧ funcStage 0x05 inf = (if neg then 0 else 0x7F800000) ∧
    funcStage 0x06 inf = (if neg then 0x7FC00000 else 0x7F800000) ∧ funcStage 0x07 inf = (if neg then 0x7FC00000 else 0x7F800000) ∧
    funcStage 0x08 inf = (if neg then 0xBF800000 else 0x3F800000) ∧ funcStage 0x0A inf = (if neg then 0xBF800000 else 0x3F800000) ∧
    funcStage 0x0B inf = 0x7FC00000 ∧ funcStage 0x0C inf = 0x7FC00000)

/-- R207: each out-of-bounds lane of VGATH, VSCAT or VSCADD counts once in OOB_READ_TOTAL or OOB_WRITE_TOTAL, and each instruction with such a lane raises VEC_OOB once (an active lane; a slot of the kind that the instruction takes). -/
def Obligations.OutOfBoundsLanes : Prop :=
  ∀ r ∈ ([ (fun n t scr oc => .vgath n t scr oc [], 0, .VEC_OOB_READ_TOTAL), (.vscat, 1, .VEC_OOB_WRITE_TOTAL)
      , (fun n t scr oc => .vscadd n t scr oc [], 2, .VEC_OOB_WRITE_TOTAL) ] : List ((Nat → Nat → Nat → Nat → Instr) × Nat × RegName)),
    ∀ s n t m w scr oc, VecAt s n t m w → vCls w = 8 → vOp w = r.2.1 →
    let x := s.strand n t
    let T := m.tslot (vSlot w / 2)
    let k := (List.range 16).countP fun l => nbit (x.pred (vPg w)) l && (resolveIdx T.wrap T.dim (lane (x.reg (vVa w)) l)).isNone
    (r.2.1 = 1 → T.exact = false ∧ isWide (fsCode T.fmt) = true) → (r.2.1 = 2 → T.exact = true) →
    ∃ u, exec (r.1 n t scr oc) s = .next u ∧
      u.reg (coreR r.2.2 n) = satAdd (s.reg (coreR r.2.2 n)) k ∧
      u.reg (coreR .CORE_COUNT n 9) = satAdd (s.reg (coreR .CORE_COUNT n 9)) (if 0 < k then 1 else 0) ∧
      (0 < k → bit (u.reg (coreR .CORE_STATUS n)) 9 = true)

/- DMA engine, host window, memory repair (12, 15, 00). -/

/-- DMA commands: command, and the kinds and index operations it runs (*DMA descriptor*). -/
def Sys2Proof.Claims.dmaKinds : List ((Nat → List EccEvent → List (Nat × Nat) → Nat → Instr) × Nat × List Nat) :=
  [ (.copy, 4, [0, 1, 2, 3]), (.dmaGather, 5, [0, 3]), (.dmaScatterStore, 5, [1]), (.dmaScatterAdd, 5, [2]) ]

/-- A core's next DMA descriptor of the command's kind: where a check of R334 fails it completes at once, moves nothing, DMA_REJECT_TOTAL counts one and the step record is marked REJECTED_OP; where they pass, its run is marked walked, its totals count, and its rows are walked in order, through the quantiser's operations where one is named and directly where none is; the fabric entries that crossed late count (R326–R334, 01 R34). One into a fenced core's scratch is marked lost and moves nothing (16 R413). DMA_COMPLETE: where acknowledgements arrive and the oldest walked descriptor then has none and no quantiser operation outstanding, it leaves the engine, DESC_TOTAL counts one and its control core no longer has it in flight (R334). PEER_WRITE, nothing of its channel waiting: a transaction of another generation or for a context that is not ACTIVE changes nothing but CTX_STALE_TOTAL (R398); one run that the page table lets through is written and acknowledged (R331); one that memory holds waits. -/
def Obligations.DmaRuns : Prop :=
  (∀ r ∈ dmaKinds, ∀ s n m, n < 384 → (s.core n).dmaNext = some m → fld (m.w 0) 3 0 = r.2.1 → fld (m.w 0) 28 27 ∈ r.2.2 →
    let p := dmaDesc n m.words
    let same (k : Nat) : Bool := s.job.used.contains k && s.ctxOf k = s.ctxOf n || k = n
    let mark (lost : Bool) := s.setCore n { s.core n with dma := (s.core n).dma.map fun x => if x.msg.tag = m.tag then { x with walked := true, lost := x.lost || lost } else x }
    p.versioned = false →
    (∀ code, p.check (s.core n) m.words (s.ringSize n) same = some code →
      ∃ t, exec (r.1 n [] [] 0) s = .next t ∧ t.hbm = s.hbm ∧ t.scratch = s.scratch ∧ t.step.rejected = true ∧
        (∀ x ∈ (t.core n).dma, x.msg.tag ≠ m.tag) ∧
        t.reg (coreR .DMA_REJECT_TOTAL n) = satAdd (s.reg (coreR .DMA_REJECT_TOTAL n)) 1) ∧
    (p.check (s.core n) m.words (s.ringSize n) same = none → p.dst.hbm = false → s.coreFenced p.target = true →
      exec (r.1 n [] [] 0) s = .next (mark true)) ∧
    (p.check (s.core n) m.words (s.ringSize n) same = none → (p.dst.hbm = true ∨ s.coreFenced p.target = false) → ∀ late,
      let u := ((mark false).dmaTotals n p).dmaTscale n p
      (p.quant = true → (u.dmaQuant n m p).2 = none → exec (r.1 n [] [] late) s = .next ((u.dmaQuant n m p).1.crossLate (coreDie n) late)) ∧
      (p.quant = false → (u.dmaPlain n m p).2 = none → exec (r.1 n [] [] late) s = .next ((u.dmaPlain n m p).1.crossLate (coreDie n) late)))) ∧
  ((∀ s n r rest acks, n < 384 → (s.core n).dma = r :: rest → r.walked = true → r.acks ≤ acks → r.qops = 0 → r.lost = false → r.msg.reissue = false →
    ∃ t, exec (.dmaComplete n acks 0) s = .next t ∧ (∀ x ∈ (t.core n).dma, x.msg.tag ≠ r.msg.tag) ∧
      (∀ o ∈ (t.core n).cc.inFlight, o.tag ≠ r.msg.tag) ∧
      t.reg (coreR .DESC_TOTAL n) = satAdd (s.reg (coreR .DESC_TOTAL n)) 1 ∧ t.hbm = s.hbm ∧ t.scratch = s.scratch) ∧
  (∀ s die member c gen runs, die < 2 → c < 4 → (s.waiting.any fun j => doorOf j = doorOf (.peerWrite die member c gen runs)) = false →
    (((s.ctx c).state ≠ .active ∨ (s.ctx c).gen ≠ gen) →
      exec (.peerWrite die member c gen runs) s = .next (s.bump (rid .CTX_STALE_TOTAL .module c) 1)) ∧
    (∀ a bs, runs = [(a, bs)] → (s.ctx c).state = .active → (s.ctx c).gen = gen →
      (∀ u, s.ctxWrite (.die die) c a bs = .ok u → exec (.peerWrite die member c gen runs) s = .next (u.send (.peerAck member))) ∧
      (s.ctxWrite (.die die) c a bs = .error .held →
        exec (.peerWrite die member c gen runs) s = .next { s with waiting := s.waiting ++ [.peerWrite die member c gen runs] }))))

/-- A COPY of one unpadded row between scratch memories in one scale-free format moves the row's bytes unchanged, whatever their overlap, and no other byte of scratch (R327, R330). -/
def Obligations.DmaCopiesRow : Prop :=
  ∀ s n m, n < 384 → (s.core n).dmaNext = some m → fld (m.w 0) 3 0 = 4 → Memory.wf s.scratch = true →
    let p := dmaDesc n m.words
    let same (k : Nat) : Bool := s.job.used.contains k && s.ctxOf k = s.ctxOf n || k = n
    p.versioned = false → p.check (s.core n) m.words (s.ringSize n) same = none → s.coreFenced p.target = false → p.quant = false → p.peer = false →
    p.src.spec = p.dst.spec → hasScale (fsCode p.src.spec) = false → p.src.hbm = false → p.dst.hbm = false → p.padded = false →
    p.counts = [1, 1, 1, 1] →
    let len := (p.dim 0).count * recBytes (fsCode p.src.spec)
    ∃ t, exec (.copy n [] [] 0) s = .next t ∧ t.hbm = s.hbm ∧
      t.scrRead p.dst.core p.dst.elem.toNat len = s.scrRead n p.src.elem.toNat len ∧
      (∀ a, a < scrAddr p.dst.core p.dst.elem.toNat ∨ scrAddr p.dst.core (p.dst.elem.toNat + len) ≤ a →
        memGet t.scratch a = memGet s.scratch a)

/-- The host window: an access is held while the block or HBM is not up, while memory holds it, and behind an earlier held one that shares a byte with it (01 R28, R314, R319). One that need not wait, within one 64-byte unit of a page under the host key: a write is read back, and a read of an unpoisoned unit answers its bytes, little-endian (00 R9, 12 R310, R317). HOST_ACCESS_TIMEOUT ends the oldest held access, a read with all ones (R381). Repair of the stacks. A migration request from an active to a spare channel with no migration active is recorded, any other is refused and MEM_REPAIR (bit 6) set; a retraining request is recorded; a chunk, where the repair regulator grants bursts and neither channel is retrained, moves the 64 rows at the watermark to the spare byte for byte and advances the watermark by 64; a patrol scrub that meets nothing counts its bursts and moves on; REFRESH_OVERRIDE keeps the new temperature and, where its need is above the rate in force, applies that rate and raises cause 7 (R311, R318–R321). -/
def Obligations.HbmAccessAndRepair : Prop :=
  ((∀ s (a : HostAccess), a.addr < 2 ^ 39 → (s.hostUp = false ∨ s.pwr.hbmReady = false ∨ s.hostWaits a = true) →
    exec (.hostHbmAccess a []) s = .next { s with hostOut := s.hostOut ++ [a] }) ∧
  (∀ s (a : HostAccess), s.hostUp = true → s.pwr.hbmReady = true → a.addr + a.size ≤ 480 * 2 ^ 30 → 0 < a.size →
    a.addr % 64 + a.size ≤ 64 → s.hostWaits a = false → sfind s.mem.pages (a.addr / 2 ^ 21) = none → Memory.wf s.hbm = true →
    (a.write = true → ∃ t, exec (.hostHbmAccess a []) s = .next t ∧ t.hbmRead a.addr a.size = leBytes a.size a.data ∧
      t.scratch = s.scratch ∧ t.cores = s.cores) ∧
    (a.write = false → s.poisoned a.addr a.size = false →
      ∃ t, exec (.hostHbmAccess a []) s = .next t ∧ t.hostReply = s.hostReply ++ [leNat (s.hbmRead a.addr a.size)] ∧
        t.hbm = s.hbm ∧ t.scratch = s.scratch ∧ t.cores = s.cores)) ∧
  (∀ s (a : HostAccess) rest, s.hostOut = a :: rest →
    exec .hostAccessTimeout s = .next { s with
      hostOut := rest, hostReply := if a.write then s.hostReply else s.hostReply ++ [2 ^ (8 * a.size) - 1] })) ∧
  (∀ s st, st < 8 →
    (∀ v, let src := fld v 4 0
      let dst := fld v 9 5
      (s.chan (32 * st + src) = .active → s.chan (32 * st + dst) = .spare → bit (s.reg (rid .LAY_MIG .module st)) 63 = false → ∃ t, exec (.migrationRequest st v) s = .next t ∧
          t.mem = { s.mem with migReq := sset s.mem.migReq st (src, dst) }) ∧
      ((s.chan (32 * st + src) ≠ .active ∨ s.chan (32 * st + dst) ≠ .spare ∨ bit (s.reg (rid .LAY_MIG .module st)) 63 = true) → ∃ t, exec (.migrationRequest st v) s = .next t ∧
        t.mem = s.mem ∧ bit (t.reg (rid .STACK_STATUS (.stack st))) 6 = true)) ∧
    (∀ src, src < 32 → ∃ t, exec (.retrain st src) s = .next t ∧ 32 * st + src ∈ t.mem.retrainReq ∧ t.hbm = s.hbm) ∧
    (let w := s.reg (rid .LAY_MIG .module st)
     let wm := fld w 30 10
     bit w 63 = true → wm < 2 ^ 20 → s.regBlocked st 6 = false → s.stackDown st = false → 32 * st + fld w 4 0 ∉ s.mem.retraining →
      32 * st + fld w 9 5 ∉ s.mem.retraining → fld w 4 0 ≠ fld w 9 5 → Memory.wf s.hbm = true →
      ∃ t, exec (.migrationChunk st) s = .next t ∧ fld (t.reg (rid .LAY_MIG .module st)) 30 10 = wm + 64 ∧ t.scratch = s.scratch ∧
        ∀ b, b < 64 * 2048 →
          memGet t.hbm (chanKey (32 * st + fld w 9 5) (wm * 2048 + b)) = memGet s.hbm (chanKey (32 * st + fld w 4 0) (wm * 2048 + b))) ∧
    (s.regBlocked st 6 = false → s.stackDown st = false → (∀ c, c < 32 → s.chan (32 * st + c) = .active → 32 * st + c ∉ s.mem.retraining) →
      ∃ t, exec (.patrolScrub st []) s = .next t ∧
      sget t.mem.patrol 0 st = sget s.mem.patrol 0 st + 1 ∧ t.hbm = s.hbm ∧ t.poison = s.poison ∧
      ∀ c, c < 32 → t.reg (rid .CH_BURST_TOTAL (.stack st) c) = satAdd (s.reg (rid .CH_BURST_TOTAL (.stack st) c)) (if s.chan (32 * st + c) = .active then 2 ^ 22 else 0)) ∧
    (∀ temp, let need := if temp < 85 then 0 else if temp < 95 then 1 else 2
      (need ≤ fld (s.reg (rid .REFRESH_CTRL (.stack st))) 5 4 →
        exec (.refreshOverride st temp) s = .next { s with mem := { s.mem with hot := sset s.mem.hot st temp } }) ∧
      (fld (s.reg (rid .REFRESH_CTRL (.stack st))) 5 4 < need → ∃ t, exec (.refreshOverride st temp) s = .next t ∧
        t.mem = { s.mem with hot := sset s.mem.hot st temp } ∧ fld (t.reg (rid .REFRESH_CTRL (.stack st))) 5 4 = need ∧
        bit (t.reg (rid .REFRESH_CTRL (.stack st))) 6 = false ∧ bit (t.reg (rid .STACK_STATUS (.stack st))) 7 = true)))

/- Capstan (08). -/

/-- Microprogram operations: command, OP, the result of sources A, B and C (R220). -/
def Sys2Proof.Claims.mpOps : List ((Nat → Instr) × Nat × (W32 → W32 → W32 → W32)) :=
  [ (.mpAdd, 1, fun a b _ => toF32 ((f32 a).add (f32 b))), (.mpSub, 2, fun a b _ => toF32 ((f32 a).sub (f32 b)))
  , (.mpMul, 3, fun a b _ => toF32 ((f32 a).mul (f32 b))), (.mpFma, 4, fun a b c => toF32 (((f32 a).mul (f32 b)).add (f32 c)))
  , (.mpDiv, 5, fun a b _ => toF32 ((f32 a).div (f32 b))), (.mpSqrt, 6, fun a _ _ => toF32 (f32 a).sqrt)
  , (.mpMin, 7, fun a b _ => mpMinMax false a b), (.mpMax, 8, fun a b _ => mpMinMax true a b)
  , (.mpAbs, 9, fun a _ _ => toF32 (f32 a).abs), (.mpNeg, 10, fun a _ _ => toF32 (f32 a).neg), (.mpSign, 11, fun a _ _ => sign32 a)
  , (.mpSelneg, 12, fun a b c => if (f32 a).lt .zero then b else c), (.mpMov, 13, fun a _ _ => a) ]

/-- One operation of a record's microprogram, before its last place and on a parameter that is not frozen: register D takes the operation of its sources, a stored −0 of the master being +0 (02 R62), and the program moves on; END of a parameter with more to come (the next not frozen) keeps registers r0 to r2 as its master and moments. Nothing else changes (R220). -/
def Obligations.Microprograms : Prop :=
  ∀ s st u r x, st < 8 → (s.cap st).mp = some u → s.capRec? st u.rcd = some r → s.capRead st r = .ok x →
    u.p < r.n → nth x.frozen false u.p = false →
    let w := nth (nth (s.cap st).mprogs [] r.mprog) 0 u.pc
    let k := capScal r (BitVec.ofNat 32 (s.reg (capR .SCHED_ETA st r.sched)).toNat) s.logline
    let w0 : W32 := if nth x.ws 0 u.p = 0x80000000 then 0 else nth x.ws 0 u.p
    let regs := if u.pc = 0 then [w0, nth x.ms 0 u.p, nth x.vs 0 u.p] ++ List.replicate 13 0 else u.regs
    let src (hi lo : Nat) : W32 :=
      mpSrc r k w0 (nth x.ms 0 u.p) (nth x.vs 0 u.p) (rmul u.c (nth x.gs 0 u.p)) regs (bits w.toNat hi lo)
    (u.pc < 31 → ∀ o ∈ mpOps, mpOp w = o.2.1 →
      exec (o.1 st) s = .next (s.onCap st fun c => { c with
        mp := some { u with pc := u.pc + 1, regs := regs.set (mpD w) (o.2.2 (src 22 17) (src 16 11) (src 10 5)) } })) ∧
    (u.pc < 32 → mpOp w = 0 → u.p + 1 < r.n → nth x.frozen false (u.p + 1) = false →
      exec (.mpEnd st) s = .next (s.onCap st fun c => { c with
        mp := some { u with p := u.p + 1, pc := 0, regs := [], outs := (nth regs 0 0, nth regs 0 1, nth regs 0 2) :: u.outs } }))

/-- The schedule test port: a write of MODE 0 computes a step's η of an entry, of MODE 1 a cosine-table entry; VALID is clear until the computation is done, and the result register then holds it (R236). The built-in optimisers on one parameter, every operation rounded once (R217): SGD with momentum (m' = β1·m + g, stepping by m', or by β1·m' + g with Nesterov), Adam with bias correction, Lion stepping by the sign of β1·m + (1 − β1)·g. -/
def Obligations.SchedulesAndOptimisers : Prop :=
  (∀ s st index entry, st < 8 →
    let e := nth (s.cap st).sched [] (entry % 8)
    let f := schedFrac e (s.reg (capR .SCHED_TEST_STEP st)).toNat
    (∀ ctMode : Bool, ∃ t, exec (if ctMode then .schedTestCt st index entry else .schedTestCompute st index entry) s = .next t ∧
      bit (t.reg (capR .SCHED_TEST_RESULT st)) 63 = false ∧
      t.reg (capR .SCHED_TEST_CTRL st) = w64 (entry % 8 + index % 1024 * 8 + b01 ctMode * 2 ^ 13) ∧
      (t.cap st).test = some (if ctMode then w64 (2 ^ 63 + ct (if index % 1024 = 0 ∧ entry % 8 = 1 then 1024 else index % 1024) * 2 ^ 32)
        else w64 (2 ^ 63 + f * 2 ^ 32 + (schedEta e f).toNat))) ∧
    (∀ v, (s.cap st).test = some v →
      exec (.schedTestDone st) s = .next ((s.setReg (capR .SCHED_TEST_RESULT st) v).onCap st fun c => { c with test := none }))) ∧
  (∀ (r : CapRec) (k : CapScal) (w m v g : W32),
    (r.opt = 0 → capUpdate r k w m v g =
      (let m' := rfma r.b1 m g
       (rsub (rmul w k.decay) (rmul k.eta (if r.nest then rfma r.b1 m' g else m')), m', v))) ∧
    (r.opt = 1 → capUpdate r k w m v g =
      (let m' := rfma r.b1 m (rmul k.oneB1 g)
       let v' := rfma r.b2 v (rmul k.oneB2 (rmul g g))
       (rsub (rmul w k.decay) (rmul k.eta (rdiv (rdiv m' k.c1) (radd (rsqrt (rdiv v' k.c2)) r.eps))), m', v'))) ∧
    (r.opt = 2 → capUpdate r k w m v g =
      (let u := sign32 (rfma r.b1 m (rmul k.oneB1 g))
       (toF32 ((f32 (rmul w k.decay)).sub ((f32 k.eta).mul (f32 u))), rfma r.b2 m (rmul k.oneB2 g), v))))

/-- NORM_PASS of the next clipped record, not skipped, its GRAD_KNOT tied: its reads are served and charged, its gradient's squares are added exactly to its group's cell and the record is marked; CLIP_NORM: a group's returned cell gives its Capstan the clip factor MAX/NORM where NORM exceeds MAX, 1 where not, and none (a veto) where NORM is not finite (R224, R225). UPDATE_PASS of the record whose turn it is: one that is skipped is marked done without a change to memory or scalars; an unclipped one whose GRAD_KNOT is not tied yet waits on it at the knot store (11 R288); one with a built-in optimiser updates every parameter that is not frozen, its gradient times the clip factor, and ends the pass; one with a microprogram starts it at parameter 0 (R213, R217, R220, R223). -/
def Obligations.CapstanPasses : Prop :=
  ((∀ s st i r gs ms, st < 8 → i < 4096 → s.capRec? st i = some r → s.capOn r = true → r.clip ≠ 15 → i ∉ (s.cap st).normDone →
    (∀ p ∈ (s.cap st).recs, p.1.clip = 15 ∨ i ≤ p.2 ∨ p.2 ∈ (s.cap st).normDone) →
    s.capSkip st i r = .ok (false, s) → s.gradReady st i r = true → s.capGrad st r = .ok gs → s.capMask st r = .ok ms →
    (∃ p ∈ (s.cap st).recs, p.1.clip = r.clip ∧ p.2 ≠ i ∧ p.2 ∉ (s.cap st).normDone) →
    (∀ g, g ≠ r.clip → g ∈ (s.cap st).handed ∨ (s.cap st).groupReady g = false ∨ (s.cap st).ofGroup g = []) →
    exec (.normPass st i) s = .next ((s.capLoad st r r.normReads).onCap st fun c => { c with
      normDone := i :: c.normDone
      cells := sset c.cells r.clip (((gs.zip ms).zipIdx).foldl (fun (c : XCell) p =>
        if p.1.2 || r.isPad p.2 then c else c.addLane (toF32 ((f32 p.1.1).mul (f32 p.1.1)))) (sget c.cells {} r.clip)) })) ∧
  (∀ s st g p cell, st < 8 → g < 15 → s.entered = true → sfind (s.cap st).clip g = none →
    (((s.whip 0).records.map xrec).zipIdx).find? (fun p => p.1.mode = 3 && !p.1.cellIn && p.1.site % 16 = g && ((s.whip 0).cellOf p.2).done) = some p →
    ((s.whip 0).cellOf p.2).res.head? = some cell →
    let nrm := f32 (toF32 (f32 cell.toF32).sqrt)
    let mx : W32 := (nth (s.cap st).groups 0 g).truncate 32
    ∃ t, exec (.clipNorm st g) s = .next t ∧ sfind (t.cap st).clip g = some
      (if nrm.isFin = false then none
       else if (f32 mx).lt nrm then some (toF32 ((f32 mx).div nrm)) else some 0x3F800000))) ∧
  (∀ s st i r, st < 8 → i < 4096 → s.capRec? st i = some r → s.capOn r = true → i ∉ (s.cap st).updDone →
    (s.cap st).mp = none → (s.cap st).updTurn i r = true →
    (s.capSkip st i r = .ok (true, s) → ∃ t, exec (.updatePass st i) s = .next t ∧ (t.cap st).updDone = i :: (s.cap st).updDone ∧
      t.hbm = s.hbm ∧ t.scratch = s.scratch) ∧
    (∀ x u, s.capSkip st i r = .ok (false, s) → (if r.clip = 15 then s.gradReady st i r = true else (sfind (s.cap st).clip r.clip).isSome = true) →
      s.capRead st r = .ok x → r.opt ≠ 3 →
      let s1 := s.capLoad st r (r.updReads (s.cap st) x.src)
      let k := capScal r (BitVec.ofNat 32 (s1.reg (capR .SCHED_ETA st r.sched)).toNat) s1.logline
      s1.capFinish st i r x (((x.ws.zip (x.ms.zip x.vs)).zip (x.gs.zip x.frozen)).map fun p =>
        if p.2.2 then (p.1.1, p.1.2.1, p.1.2.2)
        else capUpdate r k (if p.1.1 = 0x80000000 then 0 else p.1.1) p.1.2.1 p.1.2.2 (rmul (s.clipOf st r) p.2.1)) = some u →
      exec (.updatePass st i) s = .next u) ∧
    (s.capSkip st i r = .ok (false, s) → r.clip = 15 →
      (s.gradReady st i r = false → exec (.updatePass st i) s = .next (s.gradWait st i r)) ∧
      (∀ x, s.gradReady st i r = true → s.capRead st r = .ok x → r.opt = 3 →
        ∃ t, exec (.updatePass st i) s = .next t ∧ t.hbm = s.hbm ∧
          (t.cap st).mp = some { rcd := i, c := 0x3F800000, p := 0, pc := 0, regs := [], outs := [] })))

/- Gradient exchange (09, 14). -/

/-- Messages of the fragment kinds: command, KIND, whether FRAG_RECV_TOTAL counts it. -/
def Sys2Proof.Claims.fragKinds : List ((Nat → FragMsg → Instr) × Nat × Bool) :=
  [ (.topkMsg, 1, true), (.signMsg, 2, true), (.cancelMsg, 3, false), (.finalMsg, 4, false) ]

/-- A fragment message that finds none of its unit waiting: one of another generation, step or attempt, or for a record that is not there, is dropped as stale. One in force follows *Receiver actions*: a TOPK or SIGN of an epoch not below H fills its slot and sets H, and waits whole where memory holds that write; a CANCEL of such an epoch empties the slot and raises H past it; a FINAL of the epoch held makes the slot final, and of another epoch is WH_PROTOCOL (R247–R249, R255). Behind one that waits, a message waits. BUCKET_COMPRESS on a TOPK or SIGN record in force: while the bucket's tiles have not all reached the unit and nothing was sent, nothing changes; a bucket whose tiles are in is compressed and sent; once a bucket is sent and all its tiles are accepted, FINAL is marked and goes out under the bucket's epoch (R243–R248); on a BUCKET record it starts the rings that may start (R253). -/
def Obligations.Fragments : Prop :=
  (∀ q ∈ fragKinds, ∀ s d (m : FragMsg), d < 2 → fld m.h0 59 56 = q.2.1 →
    ((s.waiting.any fun j => doorOf j = some d) = true → exec (q.1 d m) s = .next { s with waiting := s.waiting ++ [q.1 d m] }) ∧
    ((s.waiting.any fun j => doorOf j = some d) = false →
    let s1 := if q.2.2 then s.bump (whipR .FRAG_RECV_TOTAL d) 1 else s
    let i := fld m.h1 7 0
    let snd := fld m.h1 46 32
    let e := fld m.h0 55 48
    let slot := (s.whip d).rxOf i (fld m.h1 31 8) snd
    (s.fragStale d m = true → ∃ t, exec (q.1 d m) s = .next t ∧ t.whips = s.whips ∧ t.hbm = s.hbm ∧
      t.reg (whipR .STALE_TOTAL d) = satAdd (s.reg (whipR .STALE_TOTAL d)) 1) ∧
    (∀ x, s.fragStale d m = false → (s.xrec? d i).map (s.xrecv d) = some x →
      (q.2.1 = 3 → slot.h ≤ e → exec (q.1 d m) s = .next ((s.setWhip d ((s.whip d).putRx { slot with h := e + 1, held := none, fin := false })).storeFill d)) ∧
      (q.2.1 = 4 → slot.held = some e → exec (q.1 d m) s = .next ((s.setWhip d ((s.whip d).putRx { slot with fin := true })).storeFill d)) ∧
      (q.2.1 = 4 → slot.held ≠ some e → ∃ t, exec (q.1 d m) s = .next t ∧ t.whips = s.whips ∧ t.step.fault = true ∧
        bit (t.reg (rid .WHIP_STATUS (.whip d))) 1 = true) ∧
      (∀ u, q.2.2 = true → slot.h ≤ e → slot.fin = false →
        s1.ctxWrite (.die d) x.ctx (x.slotAddr (fld m.h1 31 8) snd) ((fragBytes m).take x.slotBytes) = .ok u →
        exec (q.1 d m) s = .next (u.setWhip d ((s.whip d).putRx { slot with h := e, held := some e }))) ∧
      (q.2.2 = true → slot.h ≤ e → slot.fin = false →
        s1.ctxWrite (.die d) x.ctx (x.slotAddr (fld m.h1 31 8) snd) ((fragBytes m).take x.slotBytes) = .error .held →
        exec (q.1 d m) s = .next { s with waiting := s.waiting ++ [q.1 d m] })))) ∧
  (∀ s d i b x, d < 2 → i < 256 → s.xrec? d i = some x → s.whipOn x = true → x.mode = 2 →
    exec (.bucketCompress d i b) s = .next (s.ringStart d i x)) ∧
  (∀ s d i b x, d < 2 → i < 256 → s.xrec? d i = some x → s.whipOn x = true → x.mode ≤ 1 → b < x.buckets →
    let tx := (s.whip d).txOf i b
    (tx.sent = false → s.tilesAll d x b (fun n => x.spec || n.accepted) = false → exec (.bucketCompress d i b) s = .next s) ∧
    (∀ u, tx.sent = true → tx.fin = false → s.tilesAll d x b (·.accepted) = true →
      (s.setWhip d ((s.whip d).putTx { tx with fin := true })).fragSend d x b none
        ((s.setWhip d ((s.whip d).putTx { tx with fin := true })).fragHead x i 4 tx.epoch b 0 0 []) = some u →
      exec (.bucketCompress d i b) s = .next u) ∧
    (tx.sent = false → s.tilesAll d x b (fun n => x.spec || n.accepted) = true →
      (∀ u v, s.bucketSend d i b x = some u → u.bucketFinal d i b x = some v → exec (.bucketCompress d i b) s = .next v) ∧
      (s.bucketSend d i b x = none → exec (.bucketCompress d i b) s = .next s)))

/-- A DENSE or CELL message that finds none of its unit waiting. DENSE: one for a bridge's BUCKET record whose ring has not yet entered that bucket is kept for it; CELL: a piece of the result leg, with more to come, adds its cells, position by position, into that leg's sum; both count in FRAG_RECV_TOTAL, and one of another generation, step or attempt is dropped as stale (R247, R252, R253). BUCKET_MERGE of a bucket in the merge store, its slots all final: it is marked merged and leaves the store; its cells, which are the exact sums of its contributions, leave in the record's output format, written to its output plane, or at a bridge become its contribution to the ring; DONE_KNOT is tied after the last; the stalls count in MERGE_STALL_TOTAL where the store was full; where memory holds the write nothing happens (R250, R251, 14 R376). -/
def Obligations.RingAndMerge : Prop :=
  ((∀ s d (m : DenseMsg), d < 2 → (s.waiting.any fun j => doorOf j = some d) = false →
    s.fragStale d { h0 := m.h0, h1 := m.h1, h2 := 0, h3 := m.h3, payload := [] } = false →
    ∀ x p, s.xrec? d (fld m.h1 7 0) = some x → x.mode = 2 →
      (s.bump (whipR .FRAG_RECV_TOTAL d) 1).pairFor d x = some p → 2 ≤ x.group →
      fld m.h1 31 8 ∉ ((s.whip d).ringOf (fld m.h1 7 0)).went →
      exec (.denseMsg d m) s = .next ((s.bump (whipR .FRAG_RECV_TOTAL d) 1).setWhip d ((s.whip d).putRing
        { (s.whip d).ringOf (fld m.h1 7 0) with early := ((s.whip d).ringOf (fld m.h1 7 0)).early ++ [m] }))) ∧
  (∀ s d (m : CellMsg), d < 2 → m.leg = 2 → (s.waiting.any fun j => doorOf j = some d) = false →
    s.fragStale d { h0 := m.h0, h1 := m.h1, h2 := m.h2, h3 := m.h3, payload := [] } = false →
    ∀ x, s.xrec? d (fld m.h1 7 0) = some x → x.mode = 3 →
      let j := (s.whip d).cellOf (fld m.h1 7 0)
      (((fld m.h1 46 32, fld m.h1 31 8, m.cells.length) :: j.resGot).map fun g => g.2.2).sum < x.cellCount →
      exec (.cellMsg d m) s = .next ((s.bump (whipR .FRAG_RECV_TOTAL d) 1).onCell d (fld m.h1 7 0) fun j => { j with
        resGot := (fld m.h1 46 32, fld m.h1 31 8, m.cells.length) :: j.resGot
        res := addPiece x.cellCount j.res (fld m.h1 31 8) (m.cells.map XCell.ofBytes) })) ∧
  (∀ s d (m : CellMsg), d < 2 → (s.waiting.any fun j => doorOf j = some d) = false →
    s.fragStale d { h0 := m.h0, h1 := m.h1, h2 := m.h2, h3 := m.h3, payload := [] } = true →
    ∃ t, exec (.cellMsg d m) s = .next t ∧ t.whips = s.whips ∧ t.hbm = s.hbm ∧
      t.reg (whipR .STALE_TOTAL d) = satAdd (s.reg (whipR .STALE_TOTAL d)) 1 ∧ t.reg (whipR .FRAG_RECV_TOTAL d) = satAdd (s.reg (whipR .FRAG_RECV_TOTAL d)) 1) ∧
  (∀ s d (m : DenseMsg), d < 2 → (s.waiting.any fun j => doorOf j = some d) = false →
    s.fragStale d { h0 := m.h0, h1 := m.h1, h2 := 0, h3 := m.h3, payload := [] } = true →
    ∃ t, exec (.denseMsg d m) s = .next t ∧ t.whips = s.whips ∧ t.hbm = s.hbm ∧
      t.reg (whipR .STALE_TOTAL d) = satAdd (s.reg (whipR .STALE_TOTAL d)) 1 ∧ t.reg (whipR .FRAG_RECV_TOTAL d) = satAdd (s.reg (whipR .FRAG_RECV_TOTAL d)) 1)) ∧
  (∀ s d i b x cs u stalls, d < 2 → i < 256 → (s.xrec? d i).map (s.xrecv d) = some x → s.whipOn x = true →
    s.mergeReady d i b x = true → (i, b) ∈ (s.whip d).store →
    let s1 := s.bump (whipR .MERGE_STALL_TOTAL d) (if (s.whip d).store.length = 16 then stalls else 0)
    s1.mergeCells d x b = .ok cs →
    let s2 := s1.mergeLoad d x b
    let wr := s2.ctxWrite (.die d) x.ctx (x.outBase + (if x.owner then x.rank b x.mem else b) * 4096 * x.outBytes)
      ((cs.map fun c => leBytes x.outBytes (x.outCode (c.value.mul (f32n x.scale)))).flatten)
    (∀ p, s2.pairOf d x = some p → let t := s2.mergeMark d i b
      exec (.bucketMerge d i b stalls) s =
        .next ((t.setWhip d { t.whip d with bridged := (i, b, cs.map XCell.toF32) :: (t.whip d).bridged }).ringStart d p.2 p.1)) ∧
    (s2.pairOf d x = none → wr = .ok u → let t := u.mergeMark d i b
      (i, b) ∈ (t.whip d).merged ∧ (i, b) ∉ (t.whip d).store ∧
      exec (.bucketMerge d i b stalls) s =
        .next (if (x.received x.mem).all fun c => (t.whip d).merged.contains (i, c) then t.whipDone d i x else t)) ∧
    (s2.pairOf d x = none → wr = .error .held → exec (.bucketMerge d i b stalls) s = .next s))

/- The step cycle and the hank (10, 13, 16). -/

/-- The module sits in HELD with RUN clear. -/
def Sys2Proof.Claims.resting (s : State) : Prop := s.step.state = .held ∧ bit (s.reg (modR .STEP_CTRL)) 0 = false

/-- RUN written 0 takes an ARMED module to HELD and elsewhere changes RUN alone; RUN written 1 arms a module that R270 lets run (R270, R274). A write of STEP_LIMIT out of HELD changes STEP_LIMIT alone (R275). REISSUE without FAULT_HELD, or with ATTEMPT at 65,535, changes nothing; else ATTEMPT rises and FAULT_HELD clears (R277). -/
def Obligations.StepControls : Prop :=
  ∀ s : State,
    (s.step.state = .armed → s.step.aborting = false → ∃ t, exec (.run false) s = .next t ∧ t.step.state = .held ∧ bit (t.reg (modR .STEP_CTRL)) 0 = false ∧
      t.hbm = s.hbm ∧ t.scratch = s.scratch ∧ t.step.attempt = s.step.attempt) ∧
    (s.step.state ≠ .armed → exec (.run false) s = .next (s.setRegFld (modR .STEP_CTRL) 0 0 0)) ∧
    (s.step.state ≠ .held → exec (.run true) s = .next (s.setRegFld (modR .STEP_CTRL) 0 0 1)) ∧
    (let u := s.setRegFld (modR .STEP_CTRL) 0 0 1
     s.step.state = .held → s.step.faultHeld = false → s.load = none → u.canRun = true → u.keyRebuild.2 = true → s.step.holdTick = none →
      ∃ t, exec (.run true) s = .next t ∧ t.step.state = .armed ∧ t.step.fault = false ∧ t.step.attempt = s.step.attempt ∧ t.hbm = s.hbm) ∧
    (∀ v, s.step.state ≠ .held → exec (.stepLimit v) s = .next (s.setReg (modR .STEP_LIMIT) v)) ∧
    ((s.step.faultHeld = false ∨ 65535 ≤ s.step.attempt) → exec .reissue s = .next s) ∧
    (s.step.faultHeld = true → s.step.attempt < 65535 → resting s → ∃ t, exec .reissue s = .next t ∧
      t.step.attempt = s.step.attempt + 1 ∧ t.step.faultHeld = false ∧ t.step.state = .held ∧ t.reg (modR .LOGLINE) = s.reg (modR .LOGLINE))

/-- A LOAD out of HELD ends at once with code 8 and loads nothing; in HELD the container at IMAGE_BASE is judged and LOAD reads 1; while a load is under way it is ignored. A load that ends bad writes its code and section and leaves job, plan and cores; a good one puts its job and plan in force with ATTEMPT 0 (R262, R263). A ROUTE_CTRL write without LOAD changes BASE alone; a route load out of HELD is refused with code 8 and the routes in force stay (13 R361). -/
def Obligations.Loads : Prop :=
  ∀ s : State,
    (s.load.isSome = true → exec .load s = .next s) ∧
    (s.load = none → s.step.state ≠ .held → ∃ t, exec .load s = .next t ∧ t.reg (modR .IMG_LOAD_STATUS) = w64 8 ∧
      bit (t.reg (modR .STEP_CTRL)) 1 = false ∧ t.load = none ∧ t.job = s.job ∧ t.cores = s.cores ∧ bit (t.reg (modR .MODC_STATUS)) 1 = true) ∧
    (s.load = none → s.step.state = .held → ∃ t, exec .load s = .next t ∧ bit (t.reg (modR .STEP_CTRL)) 1 = true ∧
      t.load = some (s.judge (fld (s.reg (modR .IMAGE_BASE)) 47 0)) ∧ t.job = s.job ∧ t.cores = s.cores ∧ t.hbm = s.hbm) ∧
    (s.load = none → exec .loadDone s = .next s) ∧
    (∀ j, s.load = some j → j.code ≠ 0 → j.code < 2 ^ 32 → resting s → ∃ t, exec .loadDone s = .next t ∧
      t.reg (modR .IMG_LOAD_STATUS) = w64 (j.code + j.section_ * 2 ^ 32) ∧ bit (t.reg (modR .STEP_CTRL)) 1 = false ∧ t.load = none ∧
      t.job = s.job ∧ t.plan = s.plan ∧ t.cores = s.cores) ∧
    (∀ j, s.load = some j → j.code = 0 → resting s → ∃ t, exec .loadDone s = .next t ∧ t.load = none ∧
      t.job = jobOf (secBytes j.secs 1 0xFFFF) ∧ t.plan = planOf (secBytes j.secs 2 0xFFFF) ∧ t.step.attempt = 0 ∧
      t.step.imageValid = true ∧ t.step.faultHeld = false ∧ t.reg (modR .IMG_LOAD_STATUS) = 0 ∧ t.hbm = s.hbm) ∧
    (∀ v, bit v 0 = false → exec (.routeLoad v) s = .next (s.setRegFld (modR .ROUTE_CTRL) 47 1 (fld v 47 1))) ∧
    (∀ v, bit v 0 = true → s.step.state ≠ .held → exec (.routeLoad v) s =
      .next ((s.setRegFld (modR .ROUTE_CTRL) 47 1 (fld v 47 1)).setRegFld (modR .ROUTE_CTRL) 63 56 8))

/-- Reports, ticks and the start of a step (R270, R271, R355). A manager keeps a READY of the step and attempt in force until all its reporters are ready; another changes nothing. A member's tick with less than TICK_DELAY elapsed waits, a later one starts the step late (TICK_LATE_TOTAL), a hold takes it to HELD. Running starts every used core's control core at 0 and leaves memory. -/
def Obligations.TickStartsStep : Prop :=
  ∀ s : State,
    (∀ m st a, (s.isManager = false ∨ s.now st a = false ∨ m ∉ s.reporters) → exec (.ready m st a) s = .next s) ∧
    (∀ m st a, s.isManager = true → s.now st a = true → m ∈ s.reporters → m ∉ s.hank.ready →
      (∃ x ∈ s.reporters, x ≠ m ∧ x ∉ s.hank.ready) →
      exec (.ready m st a) s = .next (s.onHank fun h => { h with ready := m :: h.ready })) ∧
    (∀ st a hold e link res, link < 40 → s.job.role = 0 → s.route.standby = false →
      let late := e + (s.reg (linkR .LINK_LATENCY link)).toNat / 1000
      s.now st a = true → s.step.state = .armed → s.step.aborting = false →
      (hold = true → ∃ t, exec (.tick st a hold e link res) s = .next t ∧ t.step.state = .held ∧ t.hbm = s.hbm ∧ t.scratch = s.scratch) ∧
      (hold = false → s.step.readySent = true → late < s.route.tickDelay →
        exec (.tick st a hold e link res) s = .next (s.onStep fun c => { c with tick := some late })) ∧
      (hold = false → s.step.readySent = true → s.route.tickDelay ≤ late → s.usedCores ≠ [] →
        ∃ t, exec (.tick st a hold e link res) s = .next t ∧ t.step.state = .running ∧
          t.reg (modR .TICK_LATE_TOTAL) = satAdd (s.reg (modR .TICK_LATE_TOTAL)) 1 ∧ bit (t.reg (modR .MODC_STATUS)) 6 = true)) ∧
    ((s.step.state ≠ .armed ∨ s.step.tick = none ∨ s.step.aborting = true) → exec .enterRunning s = .next s) ∧
    (s.step.state = .armed → s.step.tick.isSome = true → s.step.aborting = false → s.usedCores ≠ [] →
      ∃ t, exec .enterRunning s = .next t ∧ t.step.state = .running ∧ t.hbm = s.hbm ∧ t.scratch = s.scratch ∧
        ∀ n ∈ s.usedCores, n < 384 → (t.core n).cc.pc = 0 ∧ (t.core n).cc.mode = .running ∧ (t.core n).cc.sregs = [] ∧
          (t.core n).cc.stream = (s.core n).cc.stream)

/-- A member's drained step, its mirror data acknowledged, sends its summary once, and acknowledgements still out are counted down; a manager combines the summaries that reach it and drops a repeat; a drain that times out is a fault, MODULE_STATUS bit 5 (R272, R358). COMMIT to a member that has sent its summary, with no commit word that memory holds, passes LOGLINE to the next step with ATTEMPT 0 and counts the step; to any other member, or of another step, it changes nothing; the root's own commit, once it has decided, does the same (R273, R358). SLOT_NOW in HELD opens an unscheduled maintenance slot, and elsewhere or during a load changes nothing; MAINTENANCE_END leaves MAINTENANCE with no channel in retraining (R274, R276). -/
def Obligations.DrainsCommitsAndSlots : Prop :=
  ∀ s : State,
    (∀ acks, (s.drained = false ∨ s.step.summarySent = true) → exec (.drainComplete acks) s = .next s) ∧
    (∀ acks, s.drained = true → s.step.summarySent = false → s.step.mirrorSent = true → s.isManager = false →
      ∃ t, exec (.drainComplete acks) s = .next t ∧ t.step.mirrorOut = s.step.mirrorOut - acks ∧
        t.step.summarySent = decide (s.step.mirrorOut ≤ acks) ∧ t.step.state = .draining ∧ t.hbm = s.hbm ∧ t.scratch = s.scratch) ∧
    ((s.step.state ≠ .draining ∨ s.step.aborting = true) → exec .drainTimeout s = .next s) ∧
    (s.step.state = .draining → s.step.aborting = false → ∃ t, exec .drainTimeout s = .next t ∧ t.step.fault = true ∧
      bit (t.reg (modR .MODC_STATUS)) 5 = true ∧ t.hbm = s.hbm ∧ t.scratch = s.scratch) ∧
    (∀ m st a u, (s.isManager = false ∨ s.now st a = false ∨ s.inStep = false ∨ m ∈ s.hank.sums) → exec (.stepSummary m st a u) s = .next s) ∧
    (∀ m st a u, s.isManager = true → s.now st a = true → s.inStep = true → m ∉ s.hank.sums → m ∈ s.reporters →
      (∃ x ∈ s.reporters, x ≠ m ∧ x ∉ s.hank.sums) →
      exec (.stepSummary m st a u) s = .next (s.onHank fun h => { h with
        sums := m :: h.sums, total := some (match h.total with | none => u | some c => addSummary c u) })) ∧
    (∀ st a u k f, (s.waiting.any fun j => doorOf j = some 8) = true → exec (.commit st a u k f) s = .next { s with waiting := s.waiting ++ [.commit st a u k f] }) ∧
    (∀ st a u k f, s.job.role = 0 → (s.waiting.any fun j => doorOf j = some 8) = false → (s.now st a = false ∨ s.step.state ≠ .draining ∨ s.step.aborting = true ∨ s.step.summarySent = false) →
      exec (.commit st a u k f) s = .next s) ∧
    (∀ st a u k f, s.job.role = 0 → (s.waiting.any fun j => doorOf j = some 8) = false → s.now st a = true → s.step.state = .draining →
      s.step.aborting = false → s.step.summarySent = true → (∀ b, b < 8 → s.capCommitHeld b u.vetoes.contains = false) →
      ∃ t, exec (.commit st a u k f) s = .next t ∧ t.step.attempt = 0 ∧ t.reg (modR .LOGLINE) = w64 (s.logline + 1) ∧
        (t.step.state = .armed ∨ t.step.state = .held ∨ t.step.state = .maintenance) ∧
        (t.step.state = .maintenance → s.logline % max s.plan.maintPeriod 1 = max s.plan.maintPeriod 1 - 1)) ∧
    (∀ st a u k f, s.job.role = 2 → (s.waiting.any fun j => doorOf j = some 8) = false → s.now st a = true → s.step.state = .draining →
      s.step.aborting = false → s.step.summarySent = true → s.hank.decided = true → (∀ b, b < 8 → s.capCommitHeld b ((s.hank.total.getD u).vetoes.contains) = false) →
      ∃ t, exec (.commit st a u k f) s = .next t ∧ t.step.attempt = 0 ∧ t.reg (modR .LOGLINE) = w64 (s.logline + 1) ∧
        (t.step.state = .armed ∨ t.step.state = .held ∨ t.step.state = .maintenance)) ∧
    (∀ f, (s.step.state ≠ .held ∨ s.load.isSome = true) → exec (.slotNow f) s = .next s) ∧
    (∀ f, s.step.state = .held → s.load = none → ∃ t, exec (.slotNow f) s = .next t ∧ t.step.state = .maintenance ∧ t.step.unscheduled = true ∧
      t.reg (modR .MAINT_TOTAL) = satAdd (s.reg (modR .MAINT_TOTAL)) 1) ∧
    (s.step.state ≠ .maintenance → exec .maintenanceEnd s = .next s) ∧
    (s.step.state = .maintenance → ∃ t, exec .maintenanceEnd s = .next t ∧ (t.step.state = .held ∨ t.step.state = .armed) ∧ t.mem.retraining = [])

/-- ABORT to a member of the step in force stops its cores and empties their queues, with memory as it is; once quiet, the module holds FAULT_HELD with the step not committed; REISSUE of the next attempt ends that (R277, 16 R409). -/
def Obligations.StepAborts : Prop :=
  ∀ s : State,
    (∀ st a, s.job.role = 0 → (s.now st a = false ∨ s.inStep = false) → exec (.abortStep st a) s = .next s) ∧
    (∀ st a, s.job.role = 0 → s.now st a = true → s.inStep = true → ∃ t, exec (.abortStep st a) s = .next t ∧ t.step.aborting = true ∧
      t.hbm = s.hbm ∧ t.scratch = s.scratch ∧ t.regs = s.regs ∧
      ∀ n ∈ s.job.used, n < 384 → (t.core n).cc.mode = .idle ∧ (t.core n).cc.inFlight = [] ∧ (t.core n).vec.queue = [] ∧ (t.core n).dma = []) ∧
    (∀ l, s.step.aborting = false → exec (.quiesceCheck l) s = .next s) ∧
    (s.step.aborting = true → ∃ t, exec (.quiesceCheck []) s = .next t ∧ t.step.state = .held ∧ t.step.faultHeld = true ∧ t.step.aborting = false ∧
      t.reg (modR .FAULT_STEP_TOTAL) = satAdd (s.reg (modR .FAULT_STEP_TOTAL)) 1 ∧ t.reg (modR .LOGLINE) = s.reg (modR .LOGLINE) ∧ t.hbm = s.hbm) ∧
    (∀ st a, s.job.role = 0 → (st ≠ s.logline ∨ a ≠ s.step.attempt + 1 ∨ s.step.faultHeld = false) → exec (.reissueMessage st a) s = .next s) ∧
    (∀ st a, s.job.role = 0 → st = s.logline → a = s.step.attempt + 1 → s.step.faultHeld = true → resting s →
      ∃ t, exec (.reissueMessage st a) s = .next t ∧ t.step.attempt = a ∧ t.step.faultHeld = false ∧ t.step.state = .held ∧ t.regs = s.regs)

/-- Fault reports, heartbeats and losses (R358, R359). A member ignores a report; a manager passes it to the root; the root aborts the step in progress, not decided on, on the report of a member's loss (R359). HEARTBEAT_TIMER adds one miss for each watched module, HEARTBEAT of a watched one clears its misses; at MISS_LIMIT a manager raises HANK_MEMBER_LOST (once, until the module is heard) and a member HANK_MANAGER_LOST, and under it nothing happens. -/
def Obligations.HeartbeatsAndLosses : Prop :=
  ∀ s : State,
    (∀ m en, s.job.role = 0 → exec (.faultReport m en) s = .next s) ∧
    (∀ m en, s.job.role = 1 → exec (.faultReport m en) s = .next (s.send (.report s.route.mgrRoute s.route.root en))) ∧
    (∀ m en, s.job.role = 2 → reportLost en = none → (fld (nth en 0 1) 47 0 ≠ s.logline % 2 ^ 48 ∨ fld (nth en 0 1) 63 48 ≠ s.step.attempt) →
      exec (.faultReport m en) s = .next s) ∧
    (∀ m en x, s.job.role = 2 → m ≠ s.job.member → reportLost en = some x → s.inStep = true → s.hank.decided = false →
      ∃ t, exec (.faultReport m en) s = .next t ∧ t.step.aborting = true ∧ x ∈ t.hank.lost ∧ t.hbm = s.hbm ∧ t.scratch = s.scratch) ∧
    (s.inJob = false → exec .heartbeatTimer s = .next s) ∧
    (s.inJob = true → ∃ t, exec .heartbeatTimer s = .next t ∧ t.hbm = s.hbm ∧ t.step = s.step ∧ t.hank.lost = s.hank.lost ∧
      (∀ x, x ∉ s.watched → sget t.hank.misses 0 x = sget s.hank.misses 0 x) ∧
      (s.watched.Nodup → ∀ x ∈ s.watched, sget t.hank.misses 0 x = sget s.hank.misses 0 x + 1)) ∧
    (∀ m k sb, m ∉ s.watched → exec (.heartbeat m k sb) s = .next s) ∧
    (∀ m k sb, m ∈ s.watched → exec (.heartbeat m k sb) s = .next (s.onHank fun h => { h with
      misses := sdel h.misses m, lost := h.lost.filter (· ≠ m), props := if s.isManager then sset h.props m k else h.props
      standbys := (if sb then [m] else []) ++ h.standbys.filter (· ≠ m) })) ∧
    (∀ m, (s.isManager = false ∨ s.silent m = false ∨ m ∈ s.hank.lost) → exec (.hankMemberLost m) s = .next s) ∧
    (∀ m, s.isManager = true → s.silent m = true → m ∉ s.hank.lost → ∃ t, exec (.hankMemberLost m) s = .next t ∧ m ∈ t.hank.lost ∧
      t.step.fault = true ∧ bit (t.reg (modR .MODC_STATUS)) 7 = true) ∧
    ((s.isManager = true ∨ s.silent s.route.manager = false) → exec .hankManagerLost s = .next s) ∧
    (s.isManager = false → s.silent s.route.manager = true → ∃ t, exec .hankManagerLost s = .next t ∧
      bit (t.reg (modR .MODC_STATUS)) 8 = true ∧ t.hank = s.hank ∧ t.step = s.step)

/- Mirrors, the state block, reliability and the journal (16). -/

/-- Messages and controls that find none of their unit waiting. Mirror data of a context that is not ACTIVE in the message's generation is dropped and counted (15 R398), of neither the step in progress nor a committed one is dropped, and without a directory entry raises MIRROR_ERROR; data in force goes into the half that the commit word does not name, and is acknowledged, or waits while memory holds that write; the entry's account of what is in takes note of it, final or not (R426). MIRROR_CTRL and STATE_CTRL are accepted only while HELD (R433); a send whose reads memory serves leaves memory and sets DONE. Restore data must find the module HELD one step past its version, and goes to slot 0 or to the plane of that step, for a live context of its generation (R427, 15 R398). SAVE writes the 279,616-byte block at STATE_BASE, RESTORE of a block that does not match is REFUSED with STATE_REFUSED, and else puts its ratchet states and maxima in force (R429). -/
def Obligations.MirrorsAndState : Prop :=
  ∀ s : State,
    let free (door : Nat) : Prop := (s.waiting.any fun j => doorOf j = some door) = false
    let stale (c g : Nat) : Prop := (s.ctx c).state ≠ .active ∨ (s.ctx c).gen ≠ g
    (∀ m, free 4 → stale m.ctx m.gen → exec (.mirrorData m) s = .next (s.bump (modR .CTX_STALE_TOTAL m.ctx) 1)) ∧
    (∀ m, free 4 → ¬ stale m.ctx m.gen → (s.entered = false ∨ m.step ≠ s.logline ∨ m.attempt ≠ s.step.attempt) →
      (s.step.state ≠ .held ∨ s.logline ≤ m.step) → exec (.mirrorData m) s = .next s) ∧
    (∀ m, free 4 → ¬ stale m.ctx m.gen → s.entered = true → m.step = s.logline → m.attempt = s.step.attempt →
      (s.mirFor m = none → ∃ t, exec (.mirrorData m) s = .next t ∧ bit (t.reg (modR .MODC_STATUS)) 14 = true ∧ t.hbm = s.hbm) ∧
      (∀ e i, s.mirFor m = some (e, i) → let a := s.mirHalf e (!bit (s.mirCommit e) 0) + m.off
        (s.accessHeld 4 true a m.bytes.length = true → exec (.mirrorData m) s = .next { s with waiting := s.waiting ++ [.mirrorData m] }) ∧
        (s.accessHeld 4 true a m.bytes.length = false → m.final = false → m.off + m.bytes.length ≤ e.size →
          exec (.mirrorData m) s = .next { ((s.charge 4 true a m.bytes.length).hbmWrite a m.bytes).send (.mirrorAck m.member) with
            mirror := s.mirNote i m :: s.mirror.filter fun x => x.entry ≠ i }) ∧
        (s.accessHeld 4 true a m.bytes.length = false → m.final = true →
          ∃ t, exec (.mirrorData m) s = .next t ∧ t.mirror = s.mirNote i m :: s.mirror.filter fun x => x.entry ≠ i))) ∧
    (∀ i ∈ [Instr.save, .restore], s.step.state ≠ .held → ∃ t, exec i s = .next t ∧ bit (t.reg (modR .MODC_STATUS)) 0 = true ∧
      t.hbm = s.hbm ∧ t.cores = s.cores ∧ t.siteMax = s.siteMax) ∧
    (∀ v, ∀ i ∈ [Instr.mirrorRestore v, .mirrorRebuild v], s.step.state ≠ .held → ∃ t, exec i s = .next t ∧ t.hbm = s.hbm ∧ t.scratch = s.scratch ∧
      t.step.state = s.step.state ∧ bit (t.reg (modR .MODC_STATUS)) 0 = true ∧ t.reg (modR .MIRROR_CTRL) = s.reg (modR .MIRROR_CTRL)) ∧
    (∀ v, s.step.state = .held → free 6 →
      let w (mode : Nat) := setFld (setFld v 63 63 1) 62 62 mode
      let u (mode : Nat) := s.setReg (modR .MIRROR_CTRL) (setFld (setFld (w mode) 63 63 0) 61 30 0)
      (((u 0).mirrorRestore (fld (w 0) 29 14) (fld (w 0) 13 0)).held = false → ∃ t, exec (.mirrorRestore v) s = .next t ∧
        t.hbm = s.hbm ∧ t.scratch = s.scratch ∧ t.step.state = .held ∧ bit (t.reg (modR .MIRROR_STATUS)) 63 = true) ∧
      (((u 1).mirrorRebuild (fld (w 1) 29 14) (fld (w 1) 13 0)).held = false → ∃ t, exec (.mirrorRebuild v) s = .next t ∧
        t.hbm = s.hbm ∧ t.scratch = s.scratch ∧ t.step.state = .held ∧ bit (t.reg (modR .MIRROR_STATUS)) 63 = true)) ∧
    (∀ m, free 5 → (s.step.state ≠ .held ∨ m.step + 1 ≠ s.logline) → ∃ t, exec (.restoreData m) s = .next t ∧
      bit (t.reg (modR .MODC_STATUS)) 14 = true ∧ t.hbm = s.hbm ∧ t.scratch = s.scratch) ∧
    (∀ m, free 5 → s.step.state = .held → m.step + 1 = s.logline →
      (∀ x u, m.exch = true → s.xrec? m.unit m.rcd = some x → ¬ stale x.ctx m.gen → s.live x.ctx = true →
        s.ctxWrite (.cap (4 * m.unit)) x.ctx (x.plane (m.step % 2) + m.off) (m.bytes.take (4 * x.elems - m.off)) = .ok u → exec (.restoreData m) s = .next u) ∧
      (∀ r u, m.exch = false → m.final = false → s.capRec? m.unit m.rcd = some r → ¬ stale r.ctx m.gen → s.live r.ctx = true →
        s.ctxWrite (.cap m.unit) r.ctx (r.slot0 + m.off) (m.bytes.take (r.halfBytes (s.cap m.unit) - m.off)) = .ok u → exec (.restoreData m) s = .next u) ∧
      (∀ r, m.exch = false → s.capRec? m.unit m.rcd = some r → stale r.ctx m.gen →
        exec (.restoreData m) s = .next (s.bump (modR .CTX_STALE_TOTAL r.ctx) 1))) ∧
    s.stateBlock.length = 279616 ∧
    (s.step.state = .held → free 7 →
      let a := fld (s.reg (modR .STATE_BASE)) 47 0
      let good := s.step.ran = false ∧ s.hbmNat a 4 = 0x45545453 ∧ s.hbmNat (a + 4) 4 = 1 ∧ s.hbmNat (a + 8) 8 = s.logline ∧ s.hbmNat (a + 16) 8 = s.job.jobId
      (s.accessHeld 4 true a 279616 = false → exec .save s = .next ((s.charge 4 true a 279616).hbmWrite a s.stateBlock)) ∧
      (s.accessHeld 4 true a 279616 = true → exec .save s = .next { s with waiting := s.waiting ++ [.save] }) ∧
      (¬ good → s.accessHeld 4 false a 279616 = false → ∃ t, exec .restore s = .next t ∧ bit (t.reg (modR .STATE_CTRL)) 2 = true ∧ bit (t.reg (modR .MODC_STATUS)) 15 = true ∧
        t.cores = s.cores ∧ t.siteMax = s.siteMax ∧ t.wMax = s.wMax ∧ t.hbm = s.hbm) ∧
      (good → s.accessHeld 4 false a 279616 = false → s.job.used.Nodup → ∃ t, exec .restore s = .next t ∧ t.siteMax = s.blockMaxima (a + 0x440) 4096 ∧
        t.wMax = s.blockMaxima (a + 0x4440) 65536 ∧ t.reg (modR .STATE_CTRL) = s.reg (modR .STATE_CTRL) ∧ t.hbm = s.hbm ∧
        ∀ c ∈ s.job.used, c < 384 → (t.core c).ec.layers = (s.core c).ec.layers.map fun p => (p.1, p.2.ofBlock (s.hbmNat (a + 0x40 + 4 * p.1) 4))))

/-- A core's part that has work and reaches its tether raises its cause, counts it, marks TETHER_STATUS and begins the core reset; with no work, or a reset begun, nothing happens (R411, R412). A stage that passes its bound goes on to the next; one that is done ends it, and a core reset leaves the core's stores and scratch, a cluster power-cycle leaves scratch empty (R413). The failure of a compute die is marked on it (DESIGN CHOICE of the event, log 131). SPARE_REQ without VALID marks nothing; with it, a core, or with CLUSTER a cluster whatever CORE holds, that has its spare free is marked (R417). -/
def Obligations.ResetsAndSpares : Prop :=
  ∀ s : State,
    (∀ c p, c < 384 → p < 5 → (s.tetherWork c p = false ∨ (s.core c).reset.isSome = true) → exec (.tether c p) s = .next s) ∧
    (∀ c p, c < 384 → p < 5 → s.tetherWork c p = true → (s.core c).reset = none → ∃ t, exec (.tether c p) s = .next t ∧
      (t.core c).reset = some ⟨p, 0⟩ ∧ bit (t.reg (coreR .TETHER_STATUS c)) p = true ∧
      t.reg (coreR .TETHER_TOTAL c) = satAdd (s.reg (coreR .TETHER_TOTAL c)) 1 ∧ bit (t.reg (coreR .CORE_STATUS c)) (24 + p) = true ∧
      t.step.fault = true ∧ t.scratch = s.scratch ∧ t.hbm = s.hbm) ∧
    (∀ c, c < 384 → (s.core c).reset = none → exec (.resetDone 0 c) s = .next s ∧ exec (.resetEscalated 0 c) s = .next s) ∧
    (∀ c r, c < 384 → (s.core c).reset = some r → r.stage < 2 → ∃ t, exec (.resetEscalated 0 c) s = .next t ∧
      (t.core c).reset = some { r with stage := r.stage + 1 } ∧ bit (t.reg (dieR .DIECTL_STATUS (coreDie c))) 4 = true ∧ t.scratch = s.scratch) ∧
    (∀ c r, c < 384 → (s.core c).reset = some r → ∃ t, exec (.resetDone 0 c) s = .next t ∧ (t.core c).reset = none ∧
      (t.core c).cc.stream = (s.core c).cc.stream ∧ (t.core c).cc.mode = .idle ∧ (t.core c).vec.kernel = (s.core c).vec.kernel ∧ t.hbm = s.hbm ∧
      (r.stage ≠ 2 → t.scratch = s.scratch) ∧
      (r.stage = 2 → ∀ n ∈ clusterCores c, ∀ a < 2 ^ 21, memGet t.scratch (scrAddr n a) = 0)) ∧
    (∀ st, st < 8 → sfind s.stackReset st = some 0 →
      exec (.resetDone 1 st) s = .next { (s.onCap st Cap.fresh) with stackReset := sdel s.stackReset st } ∧
      ∃ t, exec (.resetEscalated 1 st) s = .next t ∧ sfind t.stackReset st = some 1 ∧ t.caps = s.caps) ∧
    (∀ d, d < 2 → exec (.resetEscalated 2 d) s = .next (s.onRel d fun x => { x with failed := true })) ∧
    (∀ d v, d < 2 → bit v 13 = false → ∃ t, exec (.spareReq d v) s = .next t ∧ t.rel = s.rel ∧ t.clusterMap = s.clusterMap) ∧
    (∀ d v, d < 2 → bit v 13 = true → fld v 4 0 < 24 → (∀ m ∈ (s.dieRel d).marks, m.kind ≠ 2) →
      (bit v 12 = true → s.clusterUsed d = false → ∃ t, exec (.spareReq d v) s = .next t ∧ ⟨2, fld v 4 0, 0⟩ ∈ (t.dieRel d).marks ∧ t.clusterMap = s.clusterMap) ∧
      (bit v 12 = false → fld v 11 8 < 8 → s.coreUsed d (fld (s.clusterEntry d (fld v 4 0)) 4 0) = false → (∀ m ∈ (s.dieRel d).marks, m.kind ≤ 2 → m.unit ≠ fld v 4 0) →
        ∃ t, exec (.spareReq d v) s = .next t ∧ ⟨1, fld v 4 0, fld v 11 8⟩ ∈ (t.dieRel d).marks ∧ t.clusterMap = s.clusterMap))

/-- A dump is taken where none is held, and else counted in MISSED; its VALID clears by release (R421). CHAFE_TAIL retires up to an unretired entry and else nothing (R420). An acknowledged outbox slot is freed and takes the oldest queued entry (R423). JOURNAL_RESUME is accepted only while HELD; served by memory, an entry that this module's key does not verify restarts the chain at JSEQ 0, so that the next is 1; one accepted is followed by JSEQ + 1 (R424). A submitted body is signed as one more entry. -/
def Obligations.LogsDumpsJournal : Prop :=
  ∀ s : State,
    (∀ d, d < 2 → bit (s.reg (dieR .DUMP_STATUS d)) 63 = true → exec (.takeDump d) s = .next (s.setRegFld (dieR .DUMP_STATUS d) 31 0
      (min (fld (s.reg (dieR .DUMP_STATUS d)) 31 0 + 1) (2 ^ 32 - 1)))) ∧
    (∀ d, d < 2 → bit (s.reg (dieR .DUMP_STATUS d)) 63 = false → ∃ t u, exec (.takeDump d) s = .next t ∧ (t.dieRel d).dump = some u ∧
      u.reason = 3 ∧ u.logline = s.logline ∧ u.attempt = s.step.attempt ∧ bit (t.reg (dieR .DUMP_STATUS d)) 63 = true ∧
      bit (t.reg (dieR .DIECTL_STATUS d)) 6 = true ∧ t.hbm = s.hbm ∧ t.cores = s.cores) ∧
    (∀ d, d < 2 → exec (.releaseDump d) s = .next (s.setRegFld (dieR .DUMP_STATUS d) 63 63 0)) ∧
    (∀ d v, d < 2 →
      let tail := fld (s.reg (dieR .CHAFE_TAIL d)) 8 0
      let n := (fld v 8 0 + 512 - tail) % 512
      (n ≠ 0 → n ≤ s.chafeUsed d → exec (.chafeTail d v) s = .next
        ((s.setReg (dieR .CHAFE_TAIL d) (w64 (fld v 8 0))).setReg (dieR .CHAFE_HEAD d) (w64 (fld (s.reg (dieR .CHAFE_HEAD d)) 8 0)))) ∧
      ((s.chafeUsed d < n ∨ n = 0 ∧ s.chafeUsed d ≠ 512) → exec (.chafeTail d v) s = .next s)) ∧
    (∀ k, (sfind s.journal.out (k % 32) = none → exec (.journalAck k) s = .next s) ∧
      (∀ e, sfind s.journal.out (k % 32) = some e → ∃ t, exec (.journalAck k) s = .next t ∧ t.journal.jseq = s.journal.jseq ∧
        (s.journal.queue = [] → sfind t.journal.out (k % 32) = none) ∧
        (∀ q l, s.journal.queue = q :: l → sfind t.journal.out (k % 32) = some q ∧ t.journal.queue = l ∧ bit (t.reg (modR .MODC_STATUS)) 12 = true))) ∧
    (∀ v, s.step.state ≠ .held → ∃ t, exec (.journalResume v) s = .next t ∧ t.journal = s.journal ∧ bit (t.reg (modR .MODC_STATUS)) 0 = true) ∧
    (∀ v, s.step.state = .held → (s.waiting.any fun j => doorOf j = some 9) = false → s.accessHeld 4 false (fld v 47 1 * 2) 512 = false →
      let e := s.hbmRead (fld v 47 1 * 2) 512
      let good := ecdsaVerify (publicKey s.sec.devid) (sha512 (e.take 256)) ((e.drop 256).take 66) ((e.drop 322).take 66) &&
        decide (leNat ((e.drop 12).take 4) ≤ s.sec.otpCount)
      (bit v 0 = false → exec (.journalResume v) s = .next (s.setReg (modR .JOURNAL_RESUME) (setFld v 0 0 0))) ∧
      (bit v 0 = true → ∃ t, exec (.journalResume v) s = .next t ∧ t.journal.started = true ∧ t.hbm = s.hbm ∧
        t.journal.jseq = if good then leNat (e.take 8) + 2 else 1)) ∧
    (∀ v, (bit v 0 = false → exec (.journalSubmit v) s = .next (s.setReg (modR .JOURNAL_SUBMIT) (setFld v 0 0 0))) ∧
      (bit v 0 = true → s.journal.started = true → (s.waiting.any fun j => doorOf j = some 9) = false → s.accessHeld 4 false (fld v 47 1 * 2) 128 = false →
        ∃ t, exec (.journalSubmit v) s = .next t ∧ t.journal.jseq = s.journal.jseq + 1 ∧ t.hbm = s.hbm ∧
        (sfind s.journal.out 0 = none → ∃ x, sfind t.journal.out 0 = some x ∧ bit (t.reg (modR .MODC_STATUS)) 12 = true)))

/- Contexts and registers (15, 00). -/

/-- CREATE of a context that no ground of R394 refuses makes it ACTIVE with its GEN; HELD, a FREE context and a GEN other than the last are among those grounds. TEARDOWN of an ACTIVE context while HELD remembers its GEN, raises it and drains; a refused one of either kind sets REFUSED and CTX_REFUSED and changes no context (R394, R399). An expired drain goes to the scrub with CTX_DRAIN_FORCED, and the scrub ends with the context FREE, its key erased, and its pages and cores' scratch reading zero (R399, 17 R454). -/
def Obligations.ContextLifecycle : Prop :=
  ∀ s : State, ∀ c < 4,
    (∀ g, s.createOk c (g % 256) = true → ∃ t, exec (.create c g) s = .next t ∧ (t.ctx c).state = .active ∧
      (t.ctx c).gen = g % 256 ∧ (t.ctx c).lastGen = (s.ctx c).lastGen ∧ (∀ k, k ≠ c → t.ctx k = s.ctx k) ∧ t.hbm = s.hbm) ∧
    (∀ g, (s.step.state ≠ .held ∨ (s.ctx c).state ≠ .free ∨ g % 256 = (s.ctx c).lastGen ∨ s.createOk c (g % 256) = false) →
      ∃ t, exec (.create c g) s = .next t ∧ t.ctxs = s.ctxs ∧ bit (t.reg (modR .CTX_CTRL c)) 34 = true ∧ bit (t.reg (modR .MODC_STATUS)) 11 = true) ∧
    ((s.step.state ≠ .held ∨ (s.ctx c).state ≠ .active) → ∃ t, exec (.teardown c) s = .next t ∧ t.ctxs = s.ctxs ∧
      bit (t.reg (modR .CTX_CTRL c)) 34 = true ∧ bit (t.reg (modR .MODC_STATUS)) 11 = true) ∧
    (s.step.state = .held → (s.ctx c).state = .active → ∃ t, exec (.teardown c) s = .next t ∧
      ((t.ctx c).state = .draining ∨ (t.ctx c).state = .scrubbing) ∧ (t.ctx c).lastGen = (s.ctx c).gen ∧
      (t.ctx c).gen = ((s.ctx c).gen + 1) % 256 ∧ c ∈ t.job.inert ∧ t.hbm = s.hbm ∧ t.scratch = s.scratch) ∧
    ((s.ctx c).state ≠ .draining → exec (.ctxDrainForced c) s = .next s) ∧
    ((s.ctx c).state = .draining → ∃ t, exec (.ctxDrainForced c) s = .next t ∧ (t.ctx c).state = .scrubbing ∧
      bit (t.reg (modR .MODC_STATUS)) 10 = true ∧ t.hbm = s.hbm ∧ t.scratch = s.scratch ∧ ∀ n ∈ s.ctxCores c, n < 384 → (t.core n).dma = []) ∧
    ((s.ctx c).state ≠ .scrubbing → exec (.ctxTeardownDone c) s = .next s) ∧
    ((s.ctx c).state = .scrubbing → ∃ t, exec (.ctxTeardownDone c) s = .next t ∧ (t.ctx c).state = .free ∧ (t.ctx c).key = none ∧
      bit (t.reg (modR .MODC_STATUS)) 9 = true ∧ (∀ n ∈ s.ctxCores c, ∀ a < 2 ^ 21, memGet t.scratch (scrAddr n a) = 0) ∧
      (∀ p ∈ s.ctxPages c, (p + 1) * 2 ^ 21 ≤ hbmSize → ∀ o < 2 ^ 21, t.hbmRead (p * 2 ^ 21 + o) 1 = [0]))

/-- Host accesses outside the HBM window (R381, R389, 00 R8–R12): an aligned 64-bit read of a register replies its value; a write to a register that takes a plain one follows each field's access code, so that RW bits take the value and RO bits stay; an access where no register stands is a decode error, reads 0 and writes nothing, with the first address kept in MOD_DECODE_DETAIL; scratch takes the bytes written and, out of RUNNING, replies those it holds; in RUNNING the reply is undefined (10 R282), a free value of Config; an access to a part that does not answer is held. -/
def Obligations.HostAccesses : Prop :=
  ∀ (s : State) (a : HostAccess), 2 ^ 39 ≤ a.addr → a.addr < 2 ^ 48 →
    (s.silentAt a.addr = true → exec (.registerWrite a []) s = .next (s.hold a)) ∧
    (s.silentAt a.addr = false →
      let scr := 2 ^ 40 ≤ a.addr ∧ a.addr < 0x020000000000
      let n := (a.addr - 2 ^ 40) / 2 ^ 22
      let o := a.addr % 2 ^ 22
      (¬ scr → regAt a.addr = none → ∃ t, exec (.registerWrite a []) s = .next t ∧
        bit (t.reg (modR .MODC_STATUS)) 0 = true ∧ t.hostReply = s.hostReply ++ (if a.write then [] else [0]) ∧
        (bit (s.reg (modR .MOD_DECODE_DETAIL)) 63 = true → t.reg (modR .MOD_DECODE_DETAIL) = s.reg (modR .MOD_DECODE_DETAIL)) ∧
        (bit (s.reg (modR .MOD_DECODE_DETAIL)) 63 = false → t.reg (modR .MOD_DECODE_DETAIL) =
          setFld (w64 (a.addr % 2 ^ 48 + b01 a.write * 2 ^ 62)) 63 63 1) ∧ t.cores = s.cores ∧ t.scratch = s.scratch ∧ t.hbm = s.hbm) ∧
      (∀ id, ¬ scr → a.size = 8 → a.addr % 8 = 0 → regAt a.addr = some id → a.write = false → id.name ≠ .SEC_STATUS →
        exec (.registerWrite a []) s = .next (s.reply (s.readReg id).toNat)) ∧
      (∀ id, ¬ scr → a.size = 8 → a.addr % 8 = 0 → regAt a.addr = some id → a.write = true →
        (∃ l : Leaf, id.name = l.enable) → exec (.registerWrite a []) s = .next (s.plainWrite id (w64 a.data)) ∧
        ∀ b < 64, bit ((s.plainWrite id (w64 a.data)).reg id) b =
          if (regDef id.name).fields.any (fun f => f.acc = .rw && f.lo ≤ b && b ≤ f.hi) then bit (w64 a.data) b else bit (s.reg id) b) ∧
      (scr → n < 384 → o + a.size ≤ 2 ^ 21 → a.write = true → exec (.registerWrite a []) s = .next (s.scrWrite n o (leBytes a.size a.data))) ∧
      (scr → n < 384 → o + a.size ≤ 2 ^ 21 → a.write = false → s.step.state ≠ .running →
        exec (.registerWrite a []) s = .next (s.reply (s.scrNat n o a.size))) ∧
      (scr → n < 384 → o + a.size ≤ 2 ^ 21 → a.write = false → s.step.state = .running →
        exec (.registerWrite a []) s = .next (s.reply (leNat ((List.range a.size).map fun i => Config.busyScratch n (o + i) s.hostReply.length)))) ∧
      (scr → (384 ≤ n ∨ 2 ^ 21 < o + a.size) → ∃ t, exec (.registerWrite a []) s = .next t ∧ bit (t.reg (modR .MODC_STATUS)) 0 = true ∧
        t.scratch = s.scratch ∧ t.hostReply = s.hostReply ++ (if a.write then [] else [0])))

/-- An occurrence of a cause sets its STATUS bit and adds one to its COUNT (but for CHAFE_FULL itself, which a full log counts); a one written to STATUS clears a cause, a zero leaves it, and a cause that occurs in the write's cycle is set and counts; a one written to VALID of a first-event detail register clears VALID alone, and an event of that cycle wins; an event on one with VALID set is not recorded (R384–R386, R483). -/
def Obligations.CausesAndDetails : Prop :=
  ∀ s : State,
    (∀ p b ctx det, b < 64 → (leafOf p ≠ .dieCtl ∨ b ≠ 0) →
      bit ((s.raise p b ctx det).reg (rid (leafOf p).status p)) b = true ∧
      (s.raise p b ctx det).reg (rid (leafOf p).count p b) = satAdd (s.reg (rid (leafOf p).count p b)) 1) ∧
    (∀ a v id, regAt a = some id → isStatus id.name = true → s.silentAt a = false → ∃ x, exec (.statusClear a v 0) s = .next (s.setReg id x) ∧
      ∀ b < 64, bit x b = (bit (s.reg id) b && !(bit v b && (regDef id.name).fields.any fun f => f.lo ≤ b && b ≤ f.hi))) ∧
    (∀ a v met id, regAt a = some id → isStatus id.name = true → s.silentAt a = false → ∃ t, exec (.statusClear a v met) s = .next t ∧
      ∀ b ∈ causesMet id.part met, (leafOf id.part ≠ .dieCtl ∨ b ≠ 0) → bit (t.reg (rid (leafOf id.part).status id.part)) b = true ∧
        t.reg (rid (leafOf id.part).count id.part b) = satAdd (s.reg (rid (leafOf id.part).count id.part b)) 1) ∧
    (∀ a v met id, regAt a = some id → isDetail id.name = true → s.silentAt a = false → bit met 63 = true →
      exec (.detailValidClear a v met) s = .next (s.detail id met)) ∧
    (∀ a v met id, regAt a = some id → isStatus id.name = true → s.silentAt a = true →
      exec (.statusClear a v met) s = .next (s.hold { write := true, addr := a, size := 8, data := v.toNat })) ∧
    (∀ a v id, regAt a = some id → isDetail id.name = true → s.silentAt a = false → ∃ x, exec (.detailValidClear a v 0) s = .next (s.setReg id x) ∧
      (bit v 63 = true → bit x 63 = false) ∧ (bit v 63 = false → x = s.reg id) ∧ ∀ b < 63, bit x b = bit (s.reg id) b) ∧
    (∀ id v, (bit (s.reg id) 63 = true → s.detail id v = s) ∧ (bit (s.reg id) 63 = false → (s.detail id v).reg id = setFld v 63 63 1))

/-- R10: an access to a register range that is narrower than 64 bits or misaligned reads zero, and is discarded if it is a write; it also sets the decode-error cause (and its COUNT and detail register, and nothing else). -/
def Obligations.NarrowAccesses : Prop :=
  ∀ (s : State) (a : HostAccess), 0x020000000000 ≤ a.addr → a.addr < 2 ^ 48 → s.silentAt a.addr = false →
    (a.size < 8 ∨ a.addr % 8 ≠ 0) →
    ∃ t, exec (.registerWrite a []) s = .next t ∧ bit (t.reg (modR .MODC_STATUS)) 0 = true ∧
      (∀ id, id ≠ modR .MODC_STATUS → id ≠ modR .MODC_COUNT 0 → id ≠ modR .MOD_DECODE_DETAIL → t.reg id = s.reg id) ∧
      t = { s with regs := t.regs, hostReply := if a.write then s.hostReply else s.hostReply ++ [0] }

/- Hawser links (13, 17). -/

/-- Lanes, training and keys. LANE_CTRL is accepted only while HELD with a floor not above the ceiling, and a reserved code leaves its field (R363, 00 R12). A margin below its limit marks a lane once, cause bit 4; a lock lost in a step on an active lane takes the link down (R341). Training in which every lane locks: with another identity than the image's it ends down with LINK_MISCABLED; with rate ranges that do not overlap, with LINK_RATE_CONFLICT; else the link is up at the settled rate (R338, R339). KEY_PHASE_REPORT notes the far end's phase (17 R456). -/
def Obligations.LinkTraining : Prop :=
  ∀ s : State, ∀ h < 40,
    (∀ v, let keep (hi lo : Nat) : Nat := if fld v hi lo = 3 then fld (s.laneReg h) hi lo else fld v hi lo
      (s.step.state ≠ .held ∨ keep 3 2 < keep 1 0) → ∃ t, exec (.laneCtrl h v) s = .next t ∧
      t.reg (linkR .LANE_CTRL h) = s.reg (linkR .LANE_CTRL h) ∧ t.links = s.links ∧ bit (t.reg (modR .MODC_STATUS)) 0 = true) ∧
    (∀ v, let keep (hi lo : Nat) : Nat := if fld v hi lo = 3 then fld (s.laneReg h) hi lo else fld v hi lo
      s.step.state = .held → keep 1 0 ≤ keep 3 2 → ∃ t, exec (.laneCtrl h v) s = .next t ∧
      fld (t.reg (linkR .LANE_CTRL h)) 1 0 = keep 1 0 ∧ fld (t.reg (linkR .LANE_CTRL h)) 3 2 = keep 3 2 ∧
      t.linkState h = if s.linkOn h = true ∧ s.linkState h ≠ 3 then 1 else s.linkState h) ∧
    (∀ l < 5, let marked := bit (s.laneReg h) (19 + l) = true ∨ bit (s.laneReg h) (14 + l) = true
      (marked → exec (.linkLaneMarked h l) s = .next s) ∧
      (¬ marked → ∃ t, exec (.linkLaneMarked h l) s = .next t ∧ bit (t.laneReg h) (19 + l) = true ∧
        bit (t.reg (linkR .LINKC_STATUS h)) 4 = true ∧ t.links = s.links)) ∧
    (∀ l < 5, ∃ t, exec (.laneLockLoss h l) s = .next t ∧ bit (t.reg (linkR .LANE_STATUS h)) l = false ∧
      (s.entered = false → t.linkState h = s.linkState h) ∧
      (s.entered = true → s.linkState h = 2 → s.laneActive h l = true → t.linkState h = 0 ∧ bit (t.reg (linkR .LINKC_STATUS h)) 0 = true)) ∧
    (∀ p, exec (.keyPhaseReport h p) s = .next (s.setLink h { s.link h with peerPhase := some (p % 2) })) ∧
    (∀ m, s.linkState h ≠ 1 → exec (.trainingExchange h m) s = .next s) ∧
    (∀ m : TrainMsg, s.linkState h = 1 → (m.jobId ≠ s.job.jobId ∨ m.slot ≠ fld (s.linkSec h) 23 9 ∨ m.peerLink ≠ fld (s.linkSec h) 29 24) →
      ∃ t, exec (.trainingExchange h m) s = .next t ∧ t.linkState h = 0 ∧ bit (t.reg (linkR .LINKC_STATUS h)) 1 = true) ∧
    (∀ m : TrainMsg, s.linkState h = 1 → m.jobId = s.job.jobId → m.slot = fld (s.linkSec h) 23 9 → m.peerLink = fld (s.linkSec h) 29 24 →
      m.lanes = 31 → 4 ≤ s.lanesUsable h → (s.link h).lower = false →
      let r := settleRate (fld (s.laneReg h) 1 0) (fld (s.laneReg h) 3 2) m.support m
      (r = none → ∃ t, exec (.trainingExchange h m) s = .next t ∧ t.linkState h = 0 ∧ bit (t.reg (linkR .LINKC_STATUS h)) 2 = true) ∧
      (∀ rate held, r = some (rate, held) → rate < 4 → ∃ t, exec (.trainingExchange h m) s = .next t ∧ t.linkState h = 2 ∧
        fld (t.laneReg h) 9 8 = rate ∧ bit (t.laneReg h) 10 = held))

/-- Flits, replay and release (R342–R351). A flit that the PHY could not correct, or of a wrong CRC, counts and moves no SEQ; a data flit of the awaited SEQ moves it by one modulo 4,096, and of another SEQ does not. A NAK counts in RETRY_TOTAL and raises LINK_RETRY while flits are outstanding, and the sixteenth in a row, like an acknowledgement timeout, takes the link down with its buffers. A message's full send time is the one congruent to SEND_TIME's beats modulo 2^28 nearest the receiver's T (R352). In a step a release before the deadline, the send time plus RELEASE plus the flits after the first, changes nothing; any other takes the message from the receive buffer, and a late one counts (R351). -/
def Obligations.LinkFlits : Prop :=
  ∀ s : State, ∀ h < 40,
    (∀ b p, s.linkState h ≠ 2 → exec (.flit h b p) s = .next s) ∧
    (∀ b stalls, s.linkState h = 2 →
      (∃ t, exec (.flit h b { fecBad := true, lanes := [], stalls := stalls }) s = .next t ∧ (t.link h).rxSeq = (s.link h).rxSeq ∧
        t.reg (linkR .FEC_UNCORR_TOTAL h) = satAdd (s.reg (linkR .FEC_UNCORR_TOTAL h)) 1 ∧
        t.reg (linkR .FLIT_RX_TOTAL h) = satAdd (s.reg (linkR .FLIT_RX_TOTAL h)) 1) ∧
      ((b.length ≠ 256 ∨ crc32 (b.take 252) ≠ leNat (b.drop 252)) →
        ∃ t, exec (.flit h b { fecBad := false, lanes := [], stalls := stalls }) s = .next t ∧ (t.link h).rxSeq = (s.link h).rxSeq ∧
          t.reg (linkR .CRC_ERR_TOTAL h) = satAdd (s.reg (linkR .CRC_ERR_TOTAL h)) 1) ∧
      (let head := leNat (b.take 8)
       b.length = 256 → crc32 (b.take 252) = leNat (b.drop 252) → s.linkEnc h = false → bits head 29 28 = 1 → nbit head 25 = false →
        ∃ t, exec (.flit h b { fecBad := false, lanes := [], stalls := stalls }) s = .next t ∧
          (t.link h).rxSeq = if bits head 11 0 = (s.link h).rxSeq then ((s.link h).rxSeq + 1) % 4096 else (s.link h).rxSeq)) ∧
    (∀ a, s.linkState h = 2 → ackReplay (s.link h).replay (a % 4096) = (s.link h).replay → (s.link h).replay ≠ [] → (s.link h).retries < 15 →
      ∃ t, exec (.nak h a) s = .next t ∧ t.linkState h = 2 ∧ t.reg (linkR .RETRY_TOTAL h) = satAdd (s.reg (linkR .RETRY_TOTAL h)) 1 ∧
        bit (t.reg (linkR .LINKC_STATUS h)) 5 = true) ∧
    (∀ a, s.linkState h = 2 → ackReplay (s.link h).replay (a % 4096) = (s.link h).replay → (s.link h).replay ≠ [] → 15 ≤ (s.link h).retries →
      s.step.state ≠ .held → ∃ t, exec (.nak h a) s = .next t ∧ t.linkState h = 0 ∧ (t.link h).replay = [] ∧
        bit (t.reg (linkR .LINKC_STATUS h)) 0 = true) ∧
    ((s.linkState h ≠ 2 ∨ (s.link h).replay = []) → exec (.ackTimeout h) s = .next s) ∧
    (s.linkState h = 2 → (s.link h).replay ≠ [] → s.step.state ≠ .held → ∃ t, exec (.ackTimeout h) s = .next t ∧ t.linkState h = 0 ∧
      (t.link h).replay = [] ∧ t.reg (linkR .DOWN_TOTAL h) = satAdd (s.reg (linkR .DOWN_TOTAL h)) 1 ∧ bit (t.reg (linkR .LINKC_STATUS h)) 0 = true) ∧
    (∀ i r, (s.link h).inbox[i]? = none → exec (.messageRelease h i r) s = .next s) ∧
    (∀ beats t, (sendTime beats t - beats) % 2 ^ 28 = 0 ∧ (t : Int) - 2 ^ 27 < sendTime beats t ∧ sendTime beats t ≤ t + 2 ^ 27) ∧
    (∀ i r m, (s.link h).inbox[i]? = some m →
      let T := m.arrived - s.step.runAt
      let k := max s.clkK 1
      let due := s.deadline h m r T
      let late := due < (T * 5000 * k : Nat) ∨ (T : Int) + 1 < sendTime (fld m.h1 59 32) T
      let early := ((s.clock - s.step.runAt) * 5000 * k : Nat) < due
      (s.entered = true → ¬ late → early → exec (.messageRelease h i r) s = .next s) ∧
      (¬ (s.entered = true ∧ ¬ late ∧ early) → ∃ t, exec (.messageRelease h i r) s = .next t ∧
        (t.link h).inbox = (s.link h).inbox.eraseIdx i ∧
        t.reg (linkR .LATE_RELEASE_TOTAL h) = satAdd (s.reg (linkR .LATE_RELEASE_TOTAL h)) (if s.entered && (decide (due < (T * 5000 * k : Nat)) || decide ((T : Int) + 1 < sendTime (fld m.h1 59 32) T)) then 1 else 0)))

/- Power, clocks and the sideband (18). -/

/-- Software bounds and the loops. VOLT_BOUND, CLK_BOUND and POWER_CAP are accepted only while HELD and within their ranges (R482). A voltage-loop step moves VCORE by 2.5 mV toward a 10 % margin within its bounds, HELD where they stop it; at less than 3 % on the ceiling the die is throttled (R466, R467, R471). -/
def Obligations.BoundsAndLoops : Prop :=
  ∀ s : State,
    (∀ v, let ok := s.step.state = .held ∧ 8 ≤ fld v 7 0 ∧ fld v 15 8 ≤ 15 ∧ fld v 7 0 ≤ fld v 15 8
      (ok → exec (.clkBound v) s = .next ((s.setRegFld (modR .CLK_BOUND) 15 8 (fld v 15 8)).setRegFld (modR .CLK_BOUND) 7 0 (fld v 7 0))) ∧
      (¬ ok → ∃ t, exec (.clkBound v) s = .next t ∧ t.reg (modR .CLK_BOUND) = s.reg (modR .CLK_BOUND) ∧ bit (t.reg (modR .MODC_STATUS)) 0 = true)) ∧
    (∀ v, let ok := s.step.state = .held ∧ 900 ≤ fld v 11 0 ∧ fld v 11 0 ≤ 2600
      (ok → exec (.powerCap v) s = .next (s.setRegFld (modR .POWER_CAP) 11 0 (fld v 11 0))) ∧
      (¬ ok → ∃ t, exec (.powerCap v) s = .next t ∧ t.reg (modR .POWER_CAP) = s.reg (modR .POWER_CAP) ∧ bit (t.reg (modR .MODC_STATUS)) 0 = true)) ∧
    (∀ d v, d < 2 → let ok := s.step.state = .held ∧ 600 ≤ fld v 15 0 ∧ fld v 31 16 ≤ 850 ∧ fld v 15 0 ≤ fld v 31 16
      (ok → s.pwr.vcore.length = 2 → ∃ t, exec (.voltBound d v) s = .next t ∧ fld (t.reg (modR .VOLT_BOUND d)) 15 0 = fld v 15 0 ∧
        fld (t.reg (modR .VOLT_BOUND d)) 31 16 = fld v 31 16 ∧ 2 * fld v 15 0 ≤ nth t.pwr.vcore 0 d ∧ nth t.pwr.vcore 0 d ≤ 2 * fld v 31 16) ∧
      (¬ ok → ∃ t, exec (.voltBound d v) s = .next t ∧ t.reg (modR .VOLT_BOUND d) = s.reg (modR .VOLT_BOUND d) ∧ t.pwr = s.pwr ∧
        bit (t.reg (modR .MODC_STATUS)) 0 = true)) ∧
    (∀ d m, d < 2 → s.pwr.pwrGood = false → exec (.voltageLoop d m) s = .next s) ∧
    (∀ d m, d < 2 → s.pwr.pwrGood = true → s.pwr.vcore.length = 2 → s.pwr.thr.length = 2 →
      let lo := 2 * fld (s.reg (modR .VOLT_BOUND d)) 15 0
      let hi := 2 * fld (s.reg (modR .VOLT_BOUND d)) 31 16
      let v := nth s.pwr.vcore 0 d
      let want := if m < 100 then v + 5 else if 100 < m then v - 5 else v
      lo ≤ hi → ∃ t, exec (.voltageLoop d m) s = .next t ∧
        nth t.pwr.vcore 0 d = (if want < lo then lo else if hi < want then hi else want) ∧
        bit (t.reg (modR .VOLT_BOUND d)) 48 = decide (want < lo ∨ hi < want) ∧
        (m < 30 → hi ≤ want → nth t.pwr.thr 0 d ≠ 0) ∧ (nth s.pwr.thr 0 d ≤ 7 → 30 ≤ m → nth t.pwr.thr 0 d = nth s.pwr.thr 0 d % 4))

/-- Supply, reset and boot. Loss of PWR_EN, a latched input fault and a thermal trip lose all but OTP and flash; RESET_N resets every unit but the chafe logs, the dumps, the marks and volatile repairs, the layer states and the COUNT registers (06 R174, 16 R416, R386, R462, R473, R480; the choice between R386 and R480 is log entry 67). Boot starts where PWR_GOOD is high and RESET_N low; a verified image runs, a bad one leads to recovery with the failing check's stage and ALERT bit 7, and a recovery image is booted in its place (R434–R438); the HBM is zeroed once it is ready (R479). Input and temperature excursions raise their alerts and throttle (R462, R471); a shed phase is counted and alerts (R464); a lost reference alerts, and holdover that runs out resets the module (R474). -/
def Obligations.SupplyAndReset : Prop :=
  ∀ s : State,
    let lost (t : State) : Prop := t.regs = [] ∧ t.hbm = [] ∧ t.scratch = [] ∧ t.cores = [] ∧ t.job = {} ∧ t.pwr.pwrGood = false ∧
      t.sec.otp = s.sec.otp ∧ t.sec.flash = s.sec.flash
    let same (i : Instr) : Prop := exec i s = .next s
    let alert (i : Instr) (b c d : Nat) : Prop := ∃ t, exec i s = .next t ∧ bit (t.reg (modR .ALERT_STATUS)) b = true ∧
      bit (t.reg (dieR .DIECTL_STATUS d)) c = true ∧ t.hbm = s.hbm ∧ t.scratch = s.scratch
    (s.pwr.pwrEn = true → same .pwrEnRise ∧ ∃ t, exec .pwrEnFall s = .next t ∧ lost t ∧ t.pwr.pwrEn = false) ∧
    (s.pwr.pwrEn = false → same .pwrEnFall ∧ ∃ t, exec .pwrEnRise s = .next t ∧ t.pwr.pwrEn = true ∧ t.pwr.pwrGood = true ∧
      t.sec.lifecycle = s.sec.lifeOtp ∧ t.sec.otp = s.sec.otp) ∧
    (s.pwr.resetN = false → same .resetNAssert) ∧
    (s.pwr.resetN = true → ∃ t, exec .resetNAssert s = .next t ∧ t.pwr.resetN = false ∧ t.hbm = [] ∧ t.scratch = [] ∧ t.sec.otp = s.sec.otp ∧
      (∀ n, t.core n = { ec := { layers := (s.core n).ec.layers } }) ∧
      (∀ d, (t.dieRel d).dump = (s.dieRel d).dump ∧ (t.dieRel d).marks = (s.dieRel d).marks ∧ (t.dieRel d).volatile = (s.dieRel d).volatile) ∧
      (∀ d i, t.reg (rid .CHAFE (.dieCtl d) i) = s.reg (rid .CHAFE (.dieCtl d) i)) ∧ ∀ n b, t.reg (coreR .CORE_STATUS n) = 0 ∧ t.reg (coreR .CORE_COUNT n b) = s.reg (coreR .CORE_COUNT n b)) ∧
    ((s.pwr.pwrGood = false ∨ s.pwr.resetN = true) → same .firmwareBoot) ∧
    (s.pwr.pwrGood = true → s.pwr.resetN = false → s.pwr.refLost = [] → ∃ t, exec .firmwareBoot s = .next t ∧ t.pwr.resetN = true ∧
      t.sec.booting = decide (s.sec.lifecycle ≠ 4) ∧ t.sec.mode = 0) ∧
    (s.sec.booting = false → same .firmwareVerified) ∧
    (s.sec.booting = true →
      (s.sec.lifecycle = 0 ∨ s.sec.fwCheck = 0 → ∃ t, exec .firmwareVerified s = .next t ∧ t.sec.mode = 1 ∧ t.sec.booting = false ∧
        t.sec.fwDigest = fwDigestOf s.sec.flash) ∧
      (s.sec.lifecycle ≠ 0 → s.sec.fwCheck ≠ 0 → ∃ t, exec .firmwareVerified s = .next t ∧ t.sec.mode = 2 ∧ t.sec.booting = false ∧
        t.sec.stage = s.sec.fwCheck ∧ bit (t.reg (modR .ALERT_STATUS)) 7 = true)) ∧
    (∀ b, (s.sec.mode ≠ 2 → same (.recoveryImage b)) ∧
      (s.sec.mode = 2 → exec (.recoveryImage b) s = .next { s with sec := { s.sec with flash := b, booting := true, mode := 0, stage := 0 } })) ∧
    ((s.sec.mode ≠ 1 ∨ s.pwr.hbmReady = true) → same .hbmReady) ∧
    (s.sec.mode = 1 → s.pwr.hbmReady = false → s.hostOut = [] → ∃ t, exec .hbmReady s = .next t ∧ t.hbm = [] ∧ t.poison = [] ∧
      t.pwr.hbmReady = true ∧ t.scratch = s.scratch) ∧
    (∀ mv, s.pwr.pwrGood = true → ((mv < 33500 ∨ 39500 < mv) → alert (.vinWarn mv) 0 8 0) ∧
      (33500 ≤ mv → mv ≤ 39500 → exec (.vinWarn mv) s = .next (s.onPwr fun p => { p with vin := mv, cond := 0 })) ∧
      ((mv < 32000 ∨ 41000 < mv) → ∃ t, exec (.vinFault mv) s = .next t ∧ lost t ∧ t.pwr.latched = true) ∧
      (32000 ≤ mv → mv ≤ 41000 → exec (.vinFault mv) s = .next (s.onPwr fun p => { p with vin := mv }))) ∧
    (∀ ma, s.pwr.pwrGood = true → s.pwr.thr.length = 2 → (80000 < ma → alert (.vinOvercurrent ma) 0 8 0 ∧
        ∃ t, exec (.vinOvercurrent ma) s = .next t ∧ nth t.pwr.thr 0 0 ≠ 0 ∧ nth t.pwr.thr 0 1 ≠ 0) ∧
      (ma ≤ 80000 → ∃ t, exec (.vinOvercurrent ma) s = .next t ∧ t.pwr.iin = ma ∧ t.regs = s.regs)) ∧
    (∀ p < 28, (bit (s.reg (modR .PHASE_STATUS)) p = true → same (.phaseShed p)) ∧
      (s.pwr.pwrGood = true → bit (s.reg (modR .PHASE_STATUS)) p = false → 20 < s.phasesUsable → alert (.phaseShed p) 2 10 0 ∧
        ∃ t, exec (.phaseShed p) s = .next t ∧ bit (t.reg (modR .PHASE_STATUS)) p = true ∧
          t.reg (modR .PHASE_SHED_TOTAL) = satAdd (s.reg (modR .PHASE_SHED_TOTAL)) 1)) ∧
    (∀ d temp, d < 2 → s.pwr.thr.length = 2 → s.pwr.pwrGood = true →
      (95 ≤ temp → ∃ t, exec (.thermalThrottle d temp) s = .next t ∧ nbit (nth t.pwr.thr 0 d) 0 = true ∧ t.hbm = s.hbm) ∧
      (95 ≤ temp → nth s.pwr.thr 0 d = 0 → alert (.thermalThrottle d temp) 4 11 d) ∧
      (temp ≤ 92 → ∃ t, exec (.throttleRelease d temp) s = .next t ∧ nbit (nth t.pwr.thr 0 d) 0 = false ∧ t.regs = s.regs)) ∧
    (∀ p temp, p < 4 → (s.pwr.pwrGood = true → 105 ≤ temp → ∃ t, exec (.thermTrip p temp) s = .next t ∧ lost t ∧ t.pwr.tripN = false ∧ t.pwr.latched = true) ∧
      (temp < 105 → ∃ t, exec (.thermTrip p temp) s = .next t ∧ t.regs = s.regs ∧ t.hbm = s.hbm ∧ t.pwr.pwrGood = s.pwr.pwrGood)) ∧
    (∀ r < 2, (r ∈ s.pwr.refLost → same (.refLost r) ∧ ∃ t, exec (.refReturn r) s = .next t ∧ r ∉ t.pwr.refLost ∧ t.regs = s.regs) ∧
      (r ∉ s.pwr.refLost → same (.refReturn r) ∧ alert (.refLost r) 5 12 r)) ∧
    ((s.pwr.refLost = [] ∨ s.pwr.inReset = true) → same .refHoldoverExpiry) ∧
    (s.pwr.refLost ≠ [] → s.pwr.inReset = false → ∃ t, exec .refHoldoverExpiry s = .next t ∧ t.pwr.inReset = true ∧ t.pwr.resetN = s.pwr.resetN ∧
      (∀ n, t.core n = { ec := { layers := (s.core n).ec.layers } }) ∧ bit (t.reg (modR .ALERT_STATUS)) 5 = true)

/-- A PMBus read: command, the bytes it returns (R477). -/
def Sys2Proof.Claims.pmbusReads (s : State) : List (Instr × List Byte) :=
  [ (.vinUvWarnLimit, linBytes 33500), (.statusWord, leBytes 2 s.statusWord), (.statusInput, leBytes 1 s.statusInput)
  , (.statusTemperature, leBytes 1 s.statusTemp), (.readVin, linBytes s.pwr.vin), (.readIin, linBytes s.pwr.iin)
  , (.readTemperature1, linBytes (1000 * max (nth s.pwr.dieTemp 0 0) (nth s.pwr.dieTemp 0 1)))
  , (.readTemperature2, linBytes (1000 * s.pwr.baseTemp)), (.readPin, linBytes (1000 * s.pwr.pin))
  , (.capability, [Config.pmbusCapability]), (.mfrId, [4, 0x49, 0x58, 0x56, 0x52]), (.mfrModel, [8, 0x46, 0x58, 0x33, 0x4D, 0x2D, 0x35, 0x31, 0x32]) ]

/-- A PMBus read answers its bytes while PWR_GOOD is high and changes nothing else (CAPABILITY's byte is a free value, log entry 68); a LINEAR11 word of a value in whole thousandths below 1,023 × 2^15 units is at most half of its own step off (R477). A one written to an ALERT_STATUS bit clears it unless its condition holds, a zero leaves it, and CLEAR_FAULTS writes ones (R478). -/
def Obligations.PmbusAndAlerts : Prop :=
  ∀ s : State,
    (∀ r ∈ pmbusReads s, exec r.1 s = .next (if s.pwr.pwrGood = true then { s with i3c := s.i3c ++ [r.2] } else s)) ∧
    (∀ milli, milli < 1000 * 1023 * 2 ^ 15 →
      let w := linear11 milli
      let e := w / 2 ^ 11
      let y := w % 2 ^ 11
      w < 2 ^ 16 ∧ y ≤ 1023 ∧
      (16 ≤ e → 2 * (y * 1000) ≤ 2 * (milli * 2 ^ (32 - e)) + 1000 ∧ 2 * (milli * 2 ^ (32 - e)) ≤ 2 * (y * 1000) + 1000) ∧
      (e < 16 → 2 * (y * 1000 * 2 ^ e) ≤ 2 * milli + 1000 * 2 ^ e ∧ 2 * milli ≤ 2 * (y * 1000 * 2 ^ e) + 1000 * 2 ^ e)) ∧
    (∀ v, exec (.alertStatusClear v) s = .next (s.alertClear (fld v 7 0)) ∧ ∀ b < 8,
      bit ((s.alertClear (fld v 7 0)).reg (modR .ALERT_STATUS)) b =
        (bit (s.reg (modR .ALERT_STATUS)) b && (!bit v b || nbit s.alertCond b))) ∧
    exec .clearFaults s = .next (if s.pwr.pwrGood = true then s.alertClear 0xFF else s)

/- Security (17). -/

/-- An SPDM request over I3C is answered from the state as it is, busy while a relayed one is in progress, and by none before the firmware runs; it changes only how far negotiation has gone. An unknown slot or block is an error; a certificate is the chain's bytes from the offset asked for; digests are those of the chain (R445–R449). -/
def Obligations.SpdmAnswers : Prop :=
  ∀ s : State, ∀ slot off len op signed nonce, ∀ r ∈ ([ (.getVersion, .version), (.getCapabilities, .capabilities), (.negotiateAlgorithms, .algorithms), (.getDigests, .digests)
      , (.getCertificate slot off len, .certificate slot off len), (.challenge slot nonce, .challenge slot (padTo 32 nonce))
      , (.getMeasurements op signed nonce, .measurements op signed (padTo 32 nonce)) ] : List (Instr × SpdmReq)),
    (s.sec.mode = 0 → exec r.1 s = .next s) ∧
    (s.sec.mode ≠ 0 → s.pwr.pwrGood = true → ∃ t, exec r.1 s = .next t ∧ t.regs = s.regs ∧ t.hbm = s.hbm ∧ t.sec.otp = s.sec.otp ∧ t.sec.busy = s.sec.busy ∧
      t.i3c = s.i3c ++ [if (s.sec.busy.map (·.op)) = some 8 then spdmError 3 else s.spdmAnswer r.2]) ∧
    (slot ≠ 0 → s.spdmAnswer (.certificate slot off len) = spdmError 1 ∧ s.spdmAnswer (.challenge slot nonce) = spdmError 1) ∧
    (8 < op → op ≠ 0xFF → s.spdmAnswer (.measurements op signed nonce) = spdmError 1) ∧
    (let part := (s.certChain.drop off).take len
     s.spdmAnswer (.certificate 0 off len) = [0x12, 0x02, 0, 0] ++ leBytes 2 part.length ++ leBytes 2 (s.certChain.length - off - part.length) ++ part) ∧
    s.spdmAnswer .digests = [0x12, 0x01, 0, 1] ++ leBytes 64 (sha512 s.certChain).toNat

/-- The security mailbox (R439, R440, R442, R451, R458, R459): GO while BUSY changes nothing but SEC_BUSY_TOTAL; else it sets BUSY and leaves code and result for its completion, and memory as it is. CTX_KEY_GEN needs HELD and a FREE context, policy and lifecycle writes HELD, a failed entropy source refuses what draws on it; a nonce serves one attempt to unlock. Completion writes RESULT and CODE with BUSY clear, and raises SEC_CMD_ERROR for a code other than 0; arguments and results are zeroed where due, by time or by a read of SEC_STATUS. -/
def Obligations.SecurityMailbox : Prop :=
  ∀ s : State,
    (∀ c slot, c < 16 → slot < 16 → ∀ r ∈ ([ (.ctxKeyGen c, 1, c), (.linkSecret, 2, 0), (.imageKey, 3, 0), (.policyWrite, 4, 0), (.lifecycleAdvance, 5, 0)
        , (.debugChallenge, 6, 0), (.debugUnlock slot, 7, slot), (.spdmRelay, 8, 0), (.randomBytes, 9, 0) ] : List (Instr × Nat × Nat)),
      (∀ j, s.sec.busy = some j → exec r.1 s = .next (s.bump (modR .SEC_BUSY_TOTAL) 1)) ∧
      (s.sec.busy = none → ∃ t j, exec r.1 s = .next t ∧ t.sec.busy = some j ∧ j.op = r.2.1 ∧
        j.code = ((s.setReg (modR .SEC_CMD) (w64 (r.2.1 + r.2.2 * 2 ^ 8))).secRun r.2.1 r.2.2).2.1 ∧
        bit (t.reg (modR .SEC_STATUS)) 8 = true ∧ t.hbm = s.hbm ∧ t.scratch = s.scratch ∧ t.step.state = s.step.state)) ∧
    (∀ c < 4, ((s.step.state ≠ .held ∨ (s.ctx c).state ≠ .free) → s.ctxKeyGen c = (s, 2, [])) ∧
      (s.step.state = .held → (s.ctx c).state = .free → s.sec.trngFail = true → s.ctxKeyGen c = (s, 7, [])) ∧
      (s.step.state = .held → (s.ctx c).state = .free → s.sec.trngFail = false →
        (s.ctxKeyGen c).2.1 = 0 ∧ ((s.ctxKeyGen c).1.ctx c).key = some (s.sec.draws + 1))) ∧
    (s.step.state ≠ .held → s.policyWrite = (s, 2, []) ∧ s.lifeAdvance = (s, 2, [])) ∧
    (s.sec.trngFail = true → s.debugChallenge = (s, 7, []) ∧ s.secRandom = (s, 7, [])) ∧
    (∀ slot, (s.sec.nonce = none → s.debugUnlock slot = (s, 2, [])) ∧
      (s.sec.nonce ≠ none → (s.debugUnlock slot).1.sec.nonce = none ∧
        (s.debugUnlock slot).1.sec.debug = (s.sec.debug || decide ((s.debugUnlock slot).2.1 = 0)) ∧
        (s.sec.custHash slot ≠ some (sha512 (s.secArg.take 133)).toNat → (s.debugUnlock slot).2.1 ≠ 0))) ∧
    (s.sec.busy = none → exec .secCmdDone s = .next s) ∧
    (∃ t, exec .trngFail s = .next t ∧ t.sec.trngFail = true ∧ bit (t.reg (dieR .DIECTL_STATUS 0)) 21 = true) ∧
    (∀ j, s.sec.busy = some j → j.code < 256 → ∃ t, exec .secCmdDone s = .next t ∧ t.sec.busy = none ∧ t.reg (modR .SEC_STATUS) = w64 j.code ∧
      (∀ i < 64, t.reg (modR .SEC_RESULT i) = w64 (leNat ((j.result.drop (8 * i)).take 8))) ∧
      (j.code ≠ 0 → bit (t.reg (dieR .DIECTL_STATUS 0)) 16 = true) ∧ t.hbm = s.hbm) ∧
    (∀ i ∈ [Instr.secArgZeroing, .secStatusRead], ∃ t, exec i s = .next t ∧ t.hbm = s.hbm ∧
      (s.sec.zeroDue = true → s.sec.busy = none → t.sec.zeroDue = false ∧ ∀ k < 64, t.reg (modR .SEC_ARG k) = 0 ∧ t.reg (modR .SEC_RESULT k) = 0) ∧
      ((s.sec.zeroDue = false ∨ s.sec.busy ≠ none) → t.regs = s.regs)) ∧
    (exec .secStatusRead s = .next (s.reply (s.readReg (modR .SEC_STATUS)).toNat).secZero)

/- The whole machine. -/

/-- A step with command c at the front of the queue runs c on the state with the queue's rest; with no command waiting one cycle of the management clock passes, in which memory and the contexts go on, and nothing else changes where no access, message or drained context waits (log entries 3, 128). -/
def Obligations.StepRunsFront : Prop :=
  ∀ s : State, (∀ c rest, s.pending = c :: rest → step s = exec c { s with pending := rest }) ∧
    (s.pending = [] → step s = s.tick.serveHeld.ctxPoll.retryWaiting) ∧
    (s.pending = [] → s.waiting = [] → s.hostOut = [] → (∀ c, c < 4 → (s.ctx c).state ≠ .draining) →
      ∃ t, step s = .next t ∧ t.clock = s.clock + (if s.pwr.pwrGood then 1 else 0) ∧ t.pending = [] ∧ t.cores = s.cores ∧ t.hbm = s.hbm ∧ t.scratch = s.scratch ∧
      ∀ id, id.name ≠ .THROTTLE_CYCLE_TOTAL → t.reg id = s.reg id)

/-- Every step from a state whose two memories are in canonical form leaves them so, and takes one command from the queue and adds none. -/
def Obligations.MemoriesStayCanonical : Prop :=
  ∀ s t : State, MemWf s → step s = .next t → MemWf t ∧ t.pending = s.pending.tail

/-- No step changes an OTP word that is written, not even one that takes power away (R441). -/
def Obligations.FusesNeverClear : Prop :=
  ∀ s t : State, step s = .next t → OtpKept s t

/-- After reset: the queue, memories and knots are empty, the controller is HELD with no image, no load and RUN clear, every context is FREE, every core idle, OTP unwritten, and the registers hold the values that their tables give. That this is the module with power good and RESET_N low is the model's choice (log entry 1). -/
def Obligations.ResetState : Prop :=
  let s := State.reset
  s.pending = [] ∧ s.waiting = [] ∧ s.hostOut = [] ∧ s.hbm = [] ∧ s.scratch = [] ∧ MemWf s ∧ s.step.state = .held ∧ s.step.imageValid = false ∧ s.step.faultHeld = false ∧ s.load = none ∧
  bit (s.reg (modR .STEP_CTRL)) 0 = false ∧ s.logline = 0 ∧ s.step.attempt = 0 ∧
  (∀ c, (s.ctx c).state = .free ∧ (s.ctx c).gen = 0) ∧ (∀ n, (s.core n).cc.mode = .idle ∧ (s.core n).cc.pc = 0) ∧ (∀ d p, s.isTied d p = false) ∧
  (∀ d w, s.sec.word d w = 0) ∧ (∀ h, s.linkState h = 0) ∧
  s.reg (modR .STEP_REC_HEAD) = 0xFF ∧ s.reg (modR .STEP_LIMIT) = 0 ∧ s.reg (modR .POWER_CAP) = 2600 ∧
  fld (s.reg (modR .CLK_BOUND)) 7 0 = 15 ∧ fld (s.reg (modR .CLK_BOUND)) 15 8 = 15 ∧
  (∀ d, fld (s.reg (modR .VOLT_BOUND d)) 15 0 = 600 ∧ fld (s.reg (modR .VOLT_BOUND d)) 31 16 = 850) ∧
  (∀ n, s.reg (coreR .TETHER_LIMIT n) = 3000000) ∧ s.reg (modR .CTX_DRAIN_BOUND) = 1000 ∧
  (∀ d, s.reg (dieR .CHAFE_HEAD d) = 0x1FF ∧ s.reg (dieR .CHAFE_TAIL d) = 0x1FF ∧ s.chafeUsed d = 0 ∧ s.reg (dieR .DIE_IRQ_LINE_EN d) = 0xFF) ∧
  (∀ n b, bit (s.reg (coreR .CORE_STATUS n)) b = false ∧ s.reg (coreR .CORE_COUNT n b) = 0) ∧
  bit (s.reg (coreR .CORE_ENABLE 0)) 11 = false ∧ bit (s.reg (coreR .CORE_ENABLE 0)) 0 = true ∧ bit (s.reg (modR .MODC_ENABLE)) 4 = false
end

