-- ==== Sys2Proof/Laws/State.lean ====
section
/-! SUPPORT. What each update of State leaves in each field, and what the keyed readers see after a keyed write. -/

namespace Sys2Proof.Machine

/- Sparse maps and registers. -/

/-- A map entry after a write: the written key holds the value, every other key what it held. -/
theorem sget_sset {α : Type} (m : SMap α) (d : α) (k : Nat) (v : α) (j : Nat) :
    sget (sset m k v) d j = if j = k then v else sget m d j := by
  have flip : ∀ a b : Nat, (a = b) = (b = a) := fun a b => propext ⟨Eq.symm, Eq.symm⟩
  induction m with
  | nil => simp only [sset, sget, flip k j]
  | cons p t ih =>
    obtain ⟨a, b⟩ := p
    simp only [sset]
    split
    · simp only [sget, flip k j]
    · split
      · rename_i h; subst h; simp only [sget, flip k j]; split <;> rfl
      · rename_i h
        simp only [sget, ih]
        by_cases hj : j = k
        · have ha : ¬ a = j := fun e => h (by omega)
          simp only [hj, if_pos]
          rw [if_neg (by omega)]
        · simp only [hj, if_neg, not_false_eq_true]

/-- The register file after a write of one register. -/
theorem regLook_regPut (l : List (RegId × W64)) (i j : RegId) (v : W64) :
    regLook (regPut l i v) j = if j = i then some v else regLook l j := by
  have flip : ∀ a b : RegId, (a = b) = (b = a) := fun a b => propext ⟨Eq.symm, Eq.symm⟩
  induction l with
  | nil => simp only [regPut, regLook, flip i j]
  | cons p t ih =>
    obtain ⟨a, b⟩ := p
    simp only [regPut]
    split
    · rename_i h; subst h; simp only [regLook, flip a j]; split <;> rfl
    · rename_i h
      simp only [regLook, ih]
      by_cases hj : j = i
      · subst hj; simp [h]
      · simp only [hj, if_neg, not_false_eq_true]

theorem State.reg_setReg (s : State) (i j : RegId) (v : W64) :
    (s.setReg i v).reg j = if j = i then v else s.reg j := by
  simp only [State.reg, State.setReg, regLook_regPut]; split <;> simp_all

@[simp] theorem State.reg_setReg_same (s : State) (i : RegId) (v : W64) : (s.setReg i v).reg i = v := by
  simp [State.reg_setReg]

theorem State.reg_setReg_ne (s : State) (i j : RegId) (v : W64) (h : j ≠ i) : (s.setReg i v).reg j = s.reg j := by
  simp [State.reg_setReg, h]

theorem State.core_setCore (s : State) (n k : Nat) (c : Core) :
    (s.setCore n c).core k = if k = n then c else s.core k := sget_sset ..

@[simp] theorem State.core_setCore_same (s : State) (n : Nat) (c : Core) : (s.setCore n c).core n = c := by
  simp [State.core_setCore]

theorem State.core_onCore (s : State) (n k : Nat) (f : Core → Core) :
    (s.onCore n f).core k = if k = n then f (s.core n) else s.core k := s.core_setCore ..

@[simp] theorem State.core_onCore_same (s : State) (n : Nat) (f : Core → Core) : (s.onCore n f).core n = f (s.core n) := by
  simp [State.core_onCore]

theorem State.core_onCC (s : State) (n k : Nat) (f : ControlCore → ControlCore) :
    (s.onCC n f).core k = if k = n then { s.core n with cc := f (s.core n).cc } else s.core k := s.core_onCore ..

@[simp] theorem State.core_onCC_same (s : State) (n : Nat) (f : ControlCore → ControlCore) :
    (s.onCC n f).core n = { s.core n with cc := f (s.core n).cc } := by
  simp [State.core_onCC]

theorem State.knot_setKnot (s : State) (d e : Nat) (k : KnotStore) :
    (s.setKnot d k).knot e = if e = d then k else s.knot e := sget_sset ..

@[simp] theorem State.knot_setKnot_same (s : State) (d : Nat) (k : KnotStore) : (s.setKnot d k).knot d = k := by
  simp [State.knot_setKnot]

theorem State.link_setLink (s : State) (h j : Nat) (l : LinkSt) :
    (s.setLink h l).link j = if j = h then l else s.link j := sget_sset ..

theorem State.whip_setWhip (s : State) (d e : Nat) (w : Whip) :
    (s.setWhip d w).whip e = if e = d then w else s.whip e := sget_sset ..

theorem State.cap_onCap (s : State) (n k : Nat) (f : Cap → Cap) :
    (s.onCap n f).cap k = if k = n then f (s.cap n) else s.cap k := sget_sset ..

theorem State.ctx_onCtx (s : State) (n k : Nat) (f : Ctx → Ctx) :
    (s.onCtx n f).ctx k = if k = n then f (s.ctx n) else s.ctx k := sget_sset ..

theorem State.dieRel_onRel (s : State) (n k : Nat) (f : DieRel → DieRel) :
    (s.onRel n f).dieRel k = if k = n then f (s.dieRel n) else s.dieRel k := sget_sset ..

theorem State.clusterEntry_setMap (s : State) (d l : Nat) (v : W64) : (s.setMap d l v).clusterEntry d l = v := by
  simp [State.setMap, State.clusterEntry, sget_sset]

theorem State.reg_bump (s : State) (i : RegId) (k : Nat) : (s.bump i k).reg i = if k = 0 then s.reg i else satAdd (s.reg i) k := by
  unfold State.bump; split <;> simp

theorem State.reg_bump_ne (s : State) (i j : RegId) (k : Nat) (h : j ≠ i) : (s.bump i k).reg j = s.reg j := by
  unfold State.bump; split <;> simp [State.reg_setReg, h]

/-- A cause raised: its STATUS bits or, its COUNT one more, every other register unchanged. -/
theorem State.reg_setCause_ne (s : State) (p : Part) (b : Nat) (j : RegId)
    (h1 : j ≠ rid (leafOf p).status p) (h2 : j ≠ rid (leafOf p).count p b) : (s.setCause p b).reg j = s.reg j := by
  simp [State.setCause, State.reg_bump_ne _ _ _ _ h2, State.reg_setReg, h1]

/- Updates, field by field. -/

@[simp] theorem State.setReg_pending (s : State) (id : RegId) (v : W64) : (s.setReg id v).pending = s.pending := rfl
@[simp] theorem State.setReg_clock (s : State) (id : RegId) (v : W64) : (s.setReg id v).clock = s.clock := rfl
@[simp] theorem State.setReg_free (s : State) (id : RegId) (v : W64) : (s.setReg id v).free = s.free := rfl
@[simp] theorem State.setReg_out (s : State) (id : RegId) (v : W64) : (s.setReg id v).out = s.out := rfl
@[simp] theorem State.setReg_hostReply (s : State) (id : RegId) (v : W64) : (s.setReg id v).hostReply = s.hostReply := rfl
@[simp] theorem State.setReg_cores (s : State) (id : RegId) (v : W64) : (s.setReg id v).cores = s.cores := rfl
@[simp] theorem State.setReg_knots (s : State) (id : RegId) (v : W64) : (s.setReg id v).knots = s.knots := rfl
@[simp] theorem State.setReg_ctxs (s : State) (id : RegId) (v : W64) : (s.setReg id v).ctxs = s.ctxs := rfl
@[simp] theorem State.setReg_hbm (s : State) (id : RegId) (v : W64) : (s.setReg id v).hbm = s.hbm := rfl
@[simp] theorem State.setReg_scratch (s : State) (id : RegId) (v : W64) : (s.setReg id v).scratch = s.scratch := rfl
@[simp] theorem State.setReg_poison (s : State) (id : RegId) (v : W64) : (s.setReg id v).poison = s.poison := rfl
@[simp] theorem State.setReg_mem (s : State) (id : RegId) (v : W64) : (s.setReg id v).mem = s.mem := rfl
@[simp] theorem State.setReg_step (s : State) (id : RegId) (v : W64) : (s.setReg id v).step = s.step := rfl
@[simp] theorem State.setReg_job (s : State) (id : RegId) (v : W64) : (s.setReg id v).job = s.job := rfl
@[simp] theorem State.setReg_siteMax (s : State) (id : RegId) (v : W64) : (s.setReg id v).siteMax = s.siteMax := rfl
@[simp] theorem State.setReg_sitePend (s : State) (id : RegId) (v : W64) : (s.setReg id v).sitePend = s.sitePend := rfl
@[simp] theorem State.setReg_clusterMap (s : State) (id : RegId) (v : W64) : (s.setReg id v).clusterMap = s.clusterMap := rfl
@[simp] theorem State.setReg_whips (s : State) (id : RegId) (v : W64) : (s.setReg id v).whips = s.whips := rfl
@[simp] theorem State.setReg_caps (s : State) (id : RegId) (v : W64) : (s.setReg id v).caps = s.caps := rfl
@[simp] theorem State.setReg_wMax (s : State) (id : RegId) (v : W64) : (s.setReg id v).wMax = s.wMax := rfl
@[simp] theorem State.setReg_wPend (s : State) (id : RegId) (v : W64) : (s.setReg id v).wPend = s.wPend := rfl
@[simp] theorem State.setReg_plan (s : State) (id : RegId) (v : W64) : (s.setReg id v).plan = s.plan := rfl
@[simp] theorem State.setReg_route (s : State) (id : RegId) (v : W64) : (s.setReg id v).route = s.route := rfl
@[simp] theorem State.setReg_hank (s : State) (id : RegId) (v : W64) : (s.setReg id v).hank = s.hank := rfl
@[simp] theorem State.setReg_links (s : State) (id : RegId) (v : W64) : (s.setReg id v).links = s.links := rfl
@[simp] theorem State.setReg_sec (s : State) (id : RegId) (v : W64) : (s.setReg id v).sec = s.sec := rfl
@[simp] theorem State.setReg_journal (s : State) (id : RegId) (v : W64) : (s.setReg id v).journal = s.journal := rfl
@[simp] theorem State.setReg_mirror (s : State) (id : RegId) (v : W64) : (s.setReg id v).mirror = s.mirror := rfl
@[simp] theorem State.setReg_rel (s : State) (id : RegId) (v : W64) : (s.setReg id v).rel = s.rel := rfl
@[simp] theorem State.setReg_pwr (s : State) (id : RegId) (v : W64) : (s.setReg id v).pwr = s.pwr := rfl
@[simp] theorem State.setReg_load (s : State) (id : RegId) (v : W64) : (s.setReg id v).load = s.load := rfl
@[simp] theorem State.setReg_hostOut (s : State) (id : RegId) (v : W64) : (s.setReg id v).hostOut = s.hostOut := rfl
@[simp] theorem State.setReg_i3c (s : State) (id : RegId) (v : W64) : (s.setReg id v).i3c = s.i3c := rfl
@[simp] theorem State.setReg_waiting (s : State) (id : RegId) (v : W64) : (s.setReg id v).waiting = s.waiting := rfl
@[simp] theorem State.setReg_stackReset (s : State) (id : RegId) (v : W64) : (s.setReg id v).stackReset = s.stackReset := rfl
@[simp] theorem State.setReg_core (s : State) (id : RegId) (v : W64) (j : Nat) : (s.setReg id v).core j = s.core j := rfl
@[simp] theorem State.setReg_knot (s : State) (id : RegId) (v : W64) (j : Nat) : (s.setReg id v).knot j = s.knot j := rfl
@[simp] theorem State.setReg_link (s : State) (id : RegId) (v : W64) (j : Nat) : (s.setReg id v).link j = s.link j := rfl
@[simp] theorem State.setReg_whip (s : State) (id : RegId) (v : W64) (j : Nat) : (s.setReg id v).whip j = s.whip j := rfl
@[simp] theorem State.setReg_cap (s : State) (id : RegId) (v : W64) (j : Nat) : (s.setReg id v).cap j = s.cap j := rfl
@[simp] theorem State.setReg_ctx (s : State) (id : RegId) (v : W64) (j : Nat) : (s.setReg id v).ctx j = s.ctx j := rfl
@[simp] theorem State.setReg_ctxOf (s : State) (id : RegId) (v : W64) (j : Nat) : (s.setReg id v).ctxOf j = s.ctxOf j := rfl
@[simp] theorem State.setCore_pending (s : State) (n : Nat) (c : Core) : (s.setCore n c).pending = s.pending := rfl
@[simp] theorem State.setCore_clock (s : State) (n : Nat) (c : Core) : (s.setCore n c).clock = s.clock := rfl
@[simp] theorem State.setCore_free (s : State) (n : Nat) (c : Core) : (s.setCore n c).free = s.free := rfl
@[simp] theorem State.setCore_out (s : State) (n : Nat) (c : Core) : (s.setCore n c).out = s.out := rfl
@[simp] theorem State.setCore_hostReply (s : State) (n : Nat) (c : Core) : (s.setCore n c).hostReply = s.hostReply := rfl
@[simp] theorem State.setCore_regs (s : State) (n : Nat) (c : Core) : (s.setCore n c).regs = s.regs := rfl
@[simp] theorem State.setCore_knots (s : State) (n : Nat) (c : Core) : (s.setCore n c).knots = s.knots := rfl
@[simp] theorem State.setCore_ctxs (s : State) (n : Nat) (c : Core) : (s.setCore n c).ctxs = s.ctxs := rfl
@[simp] theorem State.setCore_hbm (s : State) (n : Nat) (c : Core) : (s.setCore n c).hbm = s.hbm := rfl
@[simp] theorem State.setCore_scratch (s : State) (n : Nat) (c : Core) : (s.setCore n c).scratch = s.scratch := rfl
@[simp] theorem State.setCore_poison (s : State) (n : Nat) (c : Core) : (s.setCore n c).poison = s.poison := rfl
@[simp] theorem State.setCore_mem (s : State) (n : Nat) (c : Core) : (s.setCore n c).mem = s.mem := rfl
@[simp] theorem State.setCore_step (s : State) (n : Nat) (c : Core) : (s.setCore n c).step = s.step := rfl
@[simp] theorem State.setCore_job (s : State) (n : Nat) (c : Core) : (s.setCore n c).job = s.job := rfl
@[simp] theorem State.setCore_siteMax (s : State) (n : Nat) (c : Core) : (s.setCore n c).siteMax = s.siteMax := rfl
@[simp] theorem State.setCore_sitePend (s : State) (n : Nat) (c : Core) : (s.setCore n c).sitePend = s.sitePend := rfl
@[simp] theorem State.setCore_clusterMap (s : State) (n : Nat) (c : Core) : (s.setCore n c).clusterMap = s.clusterMap := rfl
@[simp] theorem State.setCore_whips (s : State) (n : Nat) (c : Core) : (s.setCore n c).whips = s.whips := rfl
@[simp] theorem State.setCore_caps (s : State) (n : Nat) (c : Core) : (s.setCore n c).caps = s.caps := rfl
@[simp] theorem State.setCore_wMax (s : State) (n : Nat) (c : Core) : (s.setCore n c).wMax = s.wMax := rfl
@[simp] theorem State.setCore_wPend (s : State) (n : Nat) (c : Core) : (s.setCore n c).wPend = s.wPend := rfl
@[simp] theorem State.setCore_plan (s : State) (n : Nat) (c : Core) : (s.setCore n c).plan = s.plan := rfl
@[simp] theorem State.setCore_route (s : State) (n : Nat) (c : Core) : (s.setCore n c).route = s.route := rfl
@[simp] theorem State.setCore_hank (s : State) (n : Nat) (c : Core) : (s.setCore n c).hank = s.hank := rfl
@[simp] theorem State.setCore_links (s : State) (n : Nat) (c : Core) : (s.setCore n c).links = s.links := rfl
@[simp] theorem State.setCore_sec (s : State) (n : Nat) (c : Core) : (s.setCore n c).sec = s.sec := rfl
@[simp] theorem State.setCore_journal (s : State) (n : Nat) (c : Core) : (s.setCore n c).journal = s.journal := rfl
@[simp] theorem State.setCore_mirror (s : State) (n : Nat) (c : Core) : (s.setCore n c).mirror = s.mirror := rfl
@[simp] theorem State.setCore_rel (s : State) (n : Nat) (c : Core) : (s.setCore n c).rel = s.rel := rfl
@[simp] theorem State.setCore_pwr (s : State) (n : Nat) (c : Core) : (s.setCore n c).pwr = s.pwr := rfl
@[simp] theorem State.setCore_load (s : State) (n : Nat) (c : Core) : (s.setCore n c).load = s.load := rfl
@[simp] theorem State.setCore_hostOut (s : State) (n : Nat) (c : Core) : (s.setCore n c).hostOut = s.hostOut := rfl
@[simp] theorem State.setCore_i3c (s : State) (n : Nat) (c : Core) : (s.setCore n c).i3c = s.i3c := rfl
@[simp] theorem State.setCore_waiting (s : State) (n : Nat) (c : Core) : (s.setCore n c).waiting = s.waiting := rfl
@[simp] theorem State.setCore_stackReset (s : State) (n : Nat) (c : Core) : (s.setCore n c).stackReset = s.stackReset := rfl
@[simp] theorem State.setCore_reg (s : State) (n : Nat) (c : Core) (j : RegId) : (s.setCore n c).reg j = s.reg j := rfl
@[simp] theorem State.setCore_knot (s : State) (n : Nat) (c : Core) (j : Nat) : (s.setCore n c).knot j = s.knot j := rfl
@[simp] theorem State.setCore_link (s : State) (n : Nat) (c : Core) (j : Nat) : (s.setCore n c).link j = s.link j := rfl
@[simp] theorem State.setCore_whip (s : State) (n : Nat) (c : Core) (j : Nat) : (s.setCore n c).whip j = s.whip j := rfl
@[simp] theorem State.setCore_cap (s : State) (n : Nat) (c : Core) (j : Nat) : (s.setCore n c).cap j = s.cap j := rfl
@[simp] theorem State.setCore_ctx (s : State) (n : Nat) (c : Core) (j : Nat) : (s.setCore n c).ctx j = s.ctx j := rfl
@[simp] theorem State.setCore_ctxOf (s : State) (n : Nat) (c : Core) (j : Nat) : (s.setCore n c).ctxOf j = s.ctxOf j := rfl
@[simp] theorem State.onCore_pending (s : State) (n : Nat) (f : Core → Core) : (s.onCore n f).pending = s.pending := rfl
@[simp] theorem State.onCore_clock (s : State) (n : Nat) (f : Core → Core) : (s.onCore n f).clock = s.clock := rfl
@[simp] theorem State.onCore_free (s : State) (n : Nat) (f : Core → Core) : (s.onCore n f).free = s.free := rfl
@[simp] theorem State.onCore_out (s : State) (n : Nat) (f : Core → Core) : (s.onCore n f).out = s.out := rfl
@[simp] theorem State.onCore_hostReply (s : State) (n : Nat) (f : Core → Core) : (s.onCore n f).hostReply = s.hostReply := rfl
@[simp] theorem State.onCore_regs (s : State) (n : Nat) (f : Core → Core) : (s.onCore n f).regs = s.regs := rfl
@[simp] theorem State.onCore_knots (s : State) (n : Nat) (f : Core → Core) : (s.onCore n f).knots = s.knots := rfl
@[simp] theorem State.onCore_ctxs (s : State) (n : Nat) (f : Core → Core) : (s.onCore n f).ctxs = s.ctxs := rfl
@[simp] theorem State.onCore_hbm (s : State) (n : Nat) (f : Core → Core) : (s.onCore n f).hbm = s.hbm := rfl
@[simp] theorem State.onCore_scratch (s : State) (n : Nat) (f : Core → Core) : (s.onCore n f).scratch = s.scratch := rfl
@[simp] theorem State.onCore_poison (s : State) (n : Nat) (f : Core → Core) : (s.onCore n f).poison = s.poison := rfl
@[simp] theorem State.onCore_mem (s : State) (n : Nat) (f : Core → Core) : (s.onCore n f).mem = s.mem := rfl
@[simp] theorem State.onCore_step (s : State) (n : Nat) (f : Core → Core) : (s.onCore n f).step = s.step := rfl
@[simp] theorem State.onCore_job (s : State) (n : Nat) (f : Core → Core) : (s.onCore n f).job = s.job := rfl
@[simp] theorem State.onCore_siteMax (s : State) (n : Nat) (f : Core → Core) : (s.onCore n f).siteMax = s.siteMax := rfl
@[simp] theorem State.onCore_sitePend (s : State) (n : Nat) (f : Core → Core) : (s.onCore n f).sitePend = s.sitePend := rfl
@[simp] theorem State.onCore_clusterMap (s : State) (n : Nat) (f : Core → Core) : (s.onCore n f).clusterMap = s.clusterMap := rfl
@[simp] theorem State.onCore_whips (s : State) (n : Nat) (f : Core → Core) : (s.onCore n f).whips = s.whips := rfl
@[simp] theorem State.onCore_caps (s : State) (n : Nat) (f : Core → Core) : (s.onCore n f).caps = s.caps := rfl
@[simp] theorem State.onCore_wMax (s : State) (n : Nat) (f : Core → Core) : (s.onCore n f).wMax = s.wMax := rfl
@[simp] theorem State.onCore_wPend (s : State) (n : Nat) (f : Core → Core) : (s.onCore n f).wPend = s.wPend := rfl
@[simp] theorem State.onCore_plan (s : State) (n : Nat) (f : Core → Core) : (s.onCore n f).plan = s.plan := rfl
@[simp] theorem State.onCore_route (s : State) (n : Nat) (f : Core → Core) : (s.onCore n f).route = s.route := rfl
@[simp] theorem State.onCore_hank (s : State) (n : Nat) (f : Core → Core) : (s.onCore n f).hank = s.hank := rfl
@[simp] theorem State.onCore_links (s : State) (n : Nat) (f : Core → Core) : (s.onCore n f).links = s.links := rfl
@[simp] theorem State.onCore_sec (s : State) (n : Nat) (f : Core → Core) : (s.onCore n f).sec = s.sec := rfl
@[simp] theorem State.onCore_journal (s : State) (n : Nat) (f : Core → Core) : (s.onCore n f).journal = s.journal := rfl
@[simp] theorem State.onCore_mirror (s : State) (n : Nat) (f : Core → Core) : (s.onCore n f).mirror = s.mirror := rfl
@[simp] theorem State.onCore_rel (s : State) (n : Nat) (f : Core → Core) : (s.onCore n f).rel = s.rel := rfl
@[simp] theorem State.onCore_pwr (s : State) (n : Nat) (f : Core → Core) : (s.onCore n f).pwr = s.pwr := rfl
@[simp] theorem State.onCore_load (s : State) (n : Nat) (f : Core → Core) : (s.onCore n f).load = s.load := rfl
@[simp] theorem State.onCore_hostOut (s : State) (n : Nat) (f : Core → Core) : (s.onCore n f).hostOut = s.hostOut := rfl
@[simp] theorem State.onCore_i3c (s : State) (n : Nat) (f : Core → Core) : (s.onCore n f).i3c = s.i3c := rfl
@[simp] theorem State.onCore_waiting (s : State) (n : Nat) (f : Core → Core) : (s.onCore n f).waiting = s.waiting := rfl
@[simp] theorem State.onCore_stackReset (s : State) (n : Nat) (f : Core → Core) : (s.onCore n f).stackReset = s.stackReset := rfl
@[simp] theorem State.onCore_reg (s : State) (n : Nat) (f : Core → Core) (j : RegId) : (s.onCore n f).reg j = s.reg j := rfl
@[simp] theorem State.onCore_knot (s : State) (n : Nat) (f : Core → Core) (j : Nat) : (s.onCore n f).knot j = s.knot j := rfl
@[simp] theorem State.onCore_link (s : State) (n : Nat) (f : Core → Core) (j : Nat) : (s.onCore n f).link j = s.link j := rfl
@[simp] theorem State.onCore_whip (s : State) (n : Nat) (f : Core → Core) (j : Nat) : (s.onCore n f).whip j = s.whip j := rfl
@[simp] theorem State.onCore_cap (s : State) (n : Nat) (f : Core → Core) (j : Nat) : (s.onCore n f).cap j = s.cap j := rfl
@[simp] theorem State.onCore_ctx (s : State) (n : Nat) (f : Core → Core) (j : Nat) : (s.onCore n f).ctx j = s.ctx j := rfl
@[simp] theorem State.onCore_ctxOf (s : State) (n : Nat) (f : Core → Core) (j : Nat) : (s.onCore n f).ctxOf j = s.ctxOf j := rfl
@[simp] theorem State.onCC_pending (s : State) (n : Nat) (f : ControlCore → ControlCore) : (s.onCC n f).pending = s.pending := rfl
@[simp] theorem State.onCC_clock (s : State) (n : Nat) (f : ControlCore → ControlCore) : (s.onCC n f).clock = s.clock := rfl
@[simp] theorem State.onCC_free (s : State) (n : Nat) (f : ControlCore → ControlCore) : (s.onCC n f).free = s.free := rfl
@[simp] theorem State.onCC_out (s : State) (n : Nat) (f : ControlCore → ControlCore) : (s.onCC n f).out = s.out := rfl
@[simp] theorem State.onCC_hostReply (s : State) (n : Nat) (f : ControlCore → ControlCore) : (s.onCC n f).hostReply = s.hostReply := rfl
@[simp] theorem State.onCC_regs (s : State) (n : Nat) (f : ControlCore → ControlCore) : (s.onCC n f).regs = s.regs := rfl
@[simp] theorem State.onCC_knots (s : State) (n : Nat) (f : ControlCore → ControlCore) : (s.onCC n f).knots = s.knots := rfl
@[simp] theorem State.onCC_ctxs (s : State) (n : Nat) (f : ControlCore → ControlCore) : (s.onCC n f).ctxs = s.ctxs := rfl
@[simp] theorem State.onCC_hbm (s : State) (n : Nat) (f : ControlCore → ControlCore) : (s.onCC n f).hbm = s.hbm := rfl
@[simp] theorem State.onCC_scratch (s : State) (n : Nat) (f : ControlCore → ControlCore) : (s.onCC n f).scratch = s.scratch := rfl
@[simp] theorem State.onCC_poison (s : State) (n : Nat) (f : ControlCore → ControlCore) : (s.onCC n f).poison = s.poison := rfl
@[simp] theorem State.onCC_mem (s : State) (n : Nat) (f : ControlCore → ControlCore) : (s.onCC n f).mem = s.mem := rfl
@[simp] theorem State.onCC_step (s : State) (n : Nat) (f : ControlCore → ControlCore) : (s.onCC n f).step = s.step := rfl
@[simp] theorem State.onCC_job (s : State) (n : Nat) (f : ControlCore → ControlCore) : (s.onCC n f).job = s.job := rfl
@[simp] theorem State.onCC_siteMax (s : State) (n : Nat) (f : ControlCore → ControlCore) : (s.onCC n f).siteMax = s.siteMax := rfl
@[simp] theorem State.onCC_sitePend (s : State) (n : Nat) (f : ControlCore → ControlCore) : (s.onCC n f).sitePend = s.sitePend := rfl
@[simp] theorem State.onCC_clusterMap (s : State) (n : Nat) (f : ControlCore → ControlCore) : (s.onCC n f).clusterMap = s.clusterMap := rfl
@[simp] theorem State.onCC_whips (s : State) (n : Nat) (f : ControlCore → ControlCore) : (s.onCC n f).whips = s.whips := rfl
@[simp] theorem State.onCC_caps (s : State) (n : Nat) (f : ControlCore → ControlCore) : (s.onCC n f).caps = s.caps := rfl
@[simp] theorem State.onCC_wMax (s : State) (n : Nat) (f : ControlCore → ControlCore) : (s.onCC n f).wMax = s.wMax := rfl
@[simp] theorem State.onCC_wPend (s : State) (n : Nat) (f : ControlCore → ControlCore) : (s.onCC n f).wPend = s.wPend := rfl
@[simp] theorem State.onCC_plan (s : State) (n : Nat) (f : ControlCore → ControlCore) : (s.onCC n f).plan = s.plan := rfl
@[simp] theorem State.onCC_route (s : State) (n : Nat) (f : ControlCore → ControlCore) : (s.onCC n f).route = s.route := rfl
@[simp] theorem State.onCC_hank (s : State) (n : Nat) (f : ControlCore → ControlCore) : (s.onCC n f).hank = s.hank := rfl
@[simp] theorem State.onCC_links (s : State) (n : Nat) (f : ControlCore → ControlCore) : (s.onCC n f).links = s.links := rfl
@[simp] theorem State.onCC_sec (s : State) (n : Nat) (f : ControlCore → ControlCore) : (s.onCC n f).sec = s.sec := rfl
@[simp] theorem State.onCC_journal (s : State) (n : Nat) (f : ControlCore → ControlCore) : (s.onCC n f).journal = s.journal := rfl
@[simp] theorem State.onCC_mirror (s : State) (n : Nat) (f : ControlCore → ControlCore) : (s.onCC n f).mirror = s.mirror := rfl
@[simp] theorem State.onCC_rel (s : State) (n : Nat) (f : ControlCore → ControlCore) : (s.onCC n f).rel = s.rel := rfl
@[simp] theorem State.onCC_pwr (s : State) (n : Nat) (f : ControlCore → ControlCore) : (s.onCC n f).pwr = s.pwr := rfl
@[simp] theorem State.onCC_load (s : State) (n : Nat) (f : ControlCore → ControlCore) : (s.onCC n f).load = s.load := rfl
@[simp] theorem State.onCC_hostOut (s : State) (n : Nat) (f : ControlCore → ControlCore) : (s.onCC n f).hostOut = s.hostOut := rfl
@[simp] theorem State.onCC_i3c (s : State) (n : Nat) (f : ControlCore → ControlCore) : (s.onCC n f).i3c = s.i3c := rfl
@[simp] theorem State.onCC_waiting (s : State) (n : Nat) (f : ControlCore → ControlCore) : (s.onCC n f).waiting = s.waiting := rfl
@[simp] theorem State.onCC_stackReset (s : State) (n : Nat) (f : ControlCore → ControlCore) : (s.onCC n f).stackReset = s.stackReset := rfl
@[simp] theorem State.onCC_reg (s : State) (n : Nat) (f : ControlCore → ControlCore) (j : RegId) : (s.onCC n f).reg j = s.reg j := rfl
@[simp] theorem State.onCC_knot (s : State) (n : Nat) (f : ControlCore → ControlCore) (j : Nat) : (s.onCC n f).knot j = s.knot j := rfl
@[simp] theorem State.onCC_link (s : State) (n : Nat) (f : ControlCore → ControlCore) (j : Nat) : (s.onCC n f).link j = s.link j := rfl
@[simp] theorem State.onCC_whip (s : State) (n : Nat) (f : ControlCore → ControlCore) (j : Nat) : (s.onCC n f).whip j = s.whip j := rfl
@[simp] theorem State.onCC_cap (s : State) (n : Nat) (f : ControlCore → ControlCore) (j : Nat) : (s.onCC n f).cap j = s.cap j := rfl
@[simp] theorem State.onCC_ctx (s : State) (n : Nat) (f : ControlCore → ControlCore) (j : Nat) : (s.onCC n f).ctx j = s.ctx j := rfl
@[simp] theorem State.onCC_ctxOf (s : State) (n : Nat) (f : ControlCore → ControlCore) (j : Nat) : (s.onCC n f).ctxOf j = s.ctxOf j := rfl
@[simp] theorem State.setKnot_pending (s : State) (d : Nat) (k : KnotStore) : (s.setKnot d k).pending = s.pending := rfl
@[simp] theorem State.setKnot_clock (s : State) (d : Nat) (k : KnotStore) : (s.setKnot d k).clock = s.clock := rfl
@[simp] theorem State.setKnot_free (s : State) (d : Nat) (k : KnotStore) : (s.setKnot d k).free = s.free := rfl
@[simp] theorem State.setKnot_out (s : State) (d : Nat) (k : KnotStore) : (s.setKnot d k).out = s.out := rfl
@[simp] theorem State.setKnot_hostReply (s : State) (d : Nat) (k : KnotStore) : (s.setKnot d k).hostReply = s.hostReply := rfl
@[simp] theorem State.setKnot_regs (s : State) (d : Nat) (k : KnotStore) : (s.setKnot d k).regs = s.regs := rfl
@[simp] theorem State.setKnot_cores (s : State) (d : Nat) (k : KnotStore) : (s.setKnot d k).cores = s.cores := rfl
@[simp] theorem State.setKnot_ctxs (s : State) (d : Nat) (k : KnotStore) : (s.setKnot d k).ctxs = s.ctxs := rfl
@[simp] theorem State.setKnot_hbm (s : State) (d : Nat) (k : KnotStore) : (s.setKnot d k).hbm = s.hbm := rfl
@[simp] theorem State.setKnot_scratch (s : State) (d : Nat) (k : KnotStore) : (s.setKnot d k).scratch = s.scratch := rfl
@[simp] theorem State.setKnot_poison (s : State) (d : Nat) (k : KnotStore) : (s.setKnot d k).poison = s.poison := rfl
@[simp] theorem State.setKnot_mem (s : State) (d : Nat) (k : KnotStore) : (s.setKnot d k).mem = s.mem := rfl
@[simp] theorem State.setKnot_step (s : State) (d : Nat) (k : KnotStore) : (s.setKnot d k).step = s.step := rfl
@[simp] theorem State.setKnot_job (s : State) (d : Nat) (k : KnotStore) : (s.setKnot d k).job = s.job := rfl
@[simp] theorem State.setKnot_siteMax (s : State) (d : Nat) (k : KnotStore) : (s.setKnot d k).siteMax = s.siteMax := rfl
@[simp] theorem State.setKnot_sitePend (s : State) (d : Nat) (k : KnotStore) : (s.setKnot d k).sitePend = s.sitePend := rfl
@[simp] theorem State.setKnot_clusterMap (s : State) (d : Nat) (k : KnotStore) : (s.setKnot d k).clusterMap = s.clusterMap := rfl
@[simp] theorem State.setKnot_whips (s : State) (d : Nat) (k : KnotStore) : (s.setKnot d k).whips = s.whips := rfl
@[simp] theorem State.setKnot_caps (s : State) (d : Nat) (k : KnotStore) : (s.setKnot d k).caps = s.caps := rfl
@[simp] theorem State.setKnot_wMax (s : State) (d : Nat) (k : KnotStore) : (s.setKnot d k).wMax = s.wMax := rfl
@[simp] theorem State.setKnot_wPend (s : State) (d : Nat) (k : KnotStore) : (s.setKnot d k).wPend = s.wPend := rfl
@[simp] theorem State.setKnot_plan (s : State) (d : Nat) (k : KnotStore) : (s.setKnot d k).plan = s.plan := rfl
@[simp] theorem State.setKnot_route (s : State) (d : Nat) (k : KnotStore) : (s.setKnot d k).route = s.route := rfl
@[simp] theorem State.setKnot_hank (s : State) (d : Nat) (k : KnotStore) : (s.setKnot d k).hank = s.hank := rfl
@[simp] theorem State.setKnot_links (s : State) (d : Nat) (k : KnotStore) : (s.setKnot d k).links = s.links := rfl
@[simp] theorem State.setKnot_sec (s : State) (d : Nat) (k : KnotStore) : (s.setKnot d k).sec = s.sec := rfl
@[simp] theorem State.setKnot_journal (s : State) (d : Nat) (k : KnotStore) : (s.setKnot d k).journal = s.journal := rfl
@[simp] theorem State.setKnot_mirror (s : State) (d : Nat) (k : KnotStore) : (s.setKnot d k).mirror = s.mirror := rfl
@[simp] theorem State.setKnot_rel (s : State) (d : Nat) (k : KnotStore) : (s.setKnot d k).rel = s.rel := rfl
@[simp] theorem State.setKnot_pwr (s : State) (d : Nat) (k : KnotStore) : (s.setKnot d k).pwr = s.pwr := rfl
@[simp] theorem State.setKnot_load (s : State) (d : Nat) (k : KnotStore) : (s.setKnot d k).load = s.load := rfl
@[simp] theorem State.setKnot_hostOut (s : State) (d : Nat) (k : KnotStore) : (s.setKnot d k).hostOut = s.hostOut := rfl
@[simp] theorem State.setKnot_i3c (s : State) (d : Nat) (k : KnotStore) : (s.setKnot d k).i3c = s.i3c := rfl
@[simp] theorem State.setKnot_waiting (s : State) (d : Nat) (k : KnotStore) : (s.setKnot d k).waiting = s.waiting := rfl
@[simp] theorem State.setKnot_stackReset (s : State) (d : Nat) (k : KnotStore) : (s.setKnot d k).stackReset = s.stackReset := rfl
@[simp] theorem State.setKnot_reg (s : State) (d : Nat) (k : KnotStore) (j : RegId) : (s.setKnot d k).reg j = s.reg j := rfl
@[simp] theorem State.setKnot_core (s : State) (d : Nat) (k : KnotStore) (j : Nat) : (s.setKnot d k).core j = s.core j := rfl
@[simp] theorem State.setKnot_link (s : State) (d : Nat) (k : KnotStore) (j : Nat) : (s.setKnot d k).link j = s.link j := rfl
@[simp] theorem State.setKnot_whip (s : State) (d : Nat) (k : KnotStore) (j : Nat) : (s.setKnot d k).whip j = s.whip j := rfl
@[simp] theorem State.setKnot_cap (s : State) (d : Nat) (k : KnotStore) (j : Nat) : (s.setKnot d k).cap j = s.cap j := rfl
@[simp] theorem State.setKnot_ctx (s : State) (d : Nat) (k : KnotStore) (j : Nat) : (s.setKnot d k).ctx j = s.ctx j := rfl
@[simp] theorem State.setKnot_ctxOf (s : State) (d : Nat) (k : KnotStore) (j : Nat) : (s.setKnot d k).ctxOf j = s.ctxOf j := rfl
@[simp] theorem State.setLink_pending (s : State) (h : Nat) (l : LinkSt) : (s.setLink h l).pending = s.pending := rfl
@[simp] theorem State.setLink_clock (s : State) (h : Nat) (l : LinkSt) : (s.setLink h l).clock = s.clock := rfl
@[simp] theorem State.setLink_free (s : State) (h : Nat) (l : LinkSt) : (s.setLink h l).free = s.free := rfl
@[simp] theorem State.setLink_out (s : State) (h : Nat) (l : LinkSt) : (s.setLink h l).out = s.out := rfl
@[simp] theorem State.setLink_hostReply (s : State) (h : Nat) (l : LinkSt) : (s.setLink h l).hostReply = s.hostReply := rfl
@[simp] theorem State.setLink_regs (s : State) (h : Nat) (l : LinkSt) : (s.setLink h l).regs = s.regs := rfl
@[simp] theorem State.setLink_cores (s : State) (h : Nat) (l : LinkSt) : (s.setLink h l).cores = s.cores := rfl
@[simp] theorem State.setLink_knots (s : State) (h : Nat) (l : LinkSt) : (s.setLink h l).knots = s.knots := rfl
@[simp] theorem State.setLink_ctxs (s : State) (h : Nat) (l : LinkSt) : (s.setLink h l).ctxs = s.ctxs := rfl
@[simp] theorem State.setLink_hbm (s : State) (h : Nat) (l : LinkSt) : (s.setLink h l).hbm = s.hbm := rfl
@[simp] theorem State.setLink_scratch (s : State) (h : Nat) (l : LinkSt) : (s.setLink h l).scratch = s.scratch := rfl
@[simp] theorem State.setLink_poison (s : State) (h : Nat) (l : LinkSt) : (s.setLink h l).poison = s.poison := rfl
@[simp] theorem State.setLink_mem (s : State) (h : Nat) (l : LinkSt) : (s.setLink h l).mem = s.mem := rfl
@[simp] theorem State.setLink_step (s : State) (h : Nat) (l : LinkSt) : (s.setLink h l).step = s.step := rfl
@[simp] theorem State.setLink_job (s : State) (h : Nat) (l : LinkSt) : (s.setLink h l).job = s.job := rfl
@[simp] theorem State.setLink_siteMax (s : State) (h : Nat) (l : LinkSt) : (s.setLink h l).siteMax = s.siteMax := rfl
@[simp] theorem State.setLink_sitePend (s : State) (h : Nat) (l : LinkSt) : (s.setLink h l).sitePend = s.sitePend := rfl
@[simp] theorem State.setLink_clusterMap (s : State) (h : Nat) (l : LinkSt) : (s.setLink h l).clusterMap = s.clusterMap := rfl
@[simp] theorem State.setLink_whips (s : State) (h : Nat) (l : LinkSt) : (s.setLink h l).whips = s.whips := rfl
@[simp] theorem State.setLink_caps (s : State) (h : Nat) (l : LinkSt) : (s.setLink h l).caps = s.caps := rfl
@[simp] theorem State.setLink_wMax (s : State) (h : Nat) (l : LinkSt) : (s.setLink h l).wMax = s.wMax := rfl
@[simp] theorem State.setLink_wPend (s : State) (h : Nat) (l : LinkSt) : (s.setLink h l).wPend = s.wPend := rfl
@[simp] theorem State.setLink_plan (s : State) (h : Nat) (l : LinkSt) : (s.setLink h l).plan = s.plan := rfl
@[simp] theorem State.setLink_route (s : State) (h : Nat) (l : LinkSt) : (s.setLink h l).route = s.route := rfl
@[simp] theorem State.setLink_hank (s : State) (h : Nat) (l : LinkSt) : (s.setLink h l).hank = s.hank := rfl
@[simp] theorem State.setLink_sec (s : State) (h : Nat) (l : LinkSt) : (s.setLink h l).sec = s.sec := rfl
@[simp] theorem State.setLink_journal (s : State) (h : Nat) (l : LinkSt) : (s.setLink h l).journal = s.journal := rfl
@[simp] theorem State.setLink_mirror (s : State) (h : Nat) (l : LinkSt) : (s.setLink h l).mirror = s.mirror := rfl
@[simp] theorem State.setLink_rel (s : State) (h : Nat) (l : LinkSt) : (s.setLink h l).rel = s.rel := rfl
@[simp] theorem State.setLink_pwr (s : State) (h : Nat) (l : LinkSt) : (s.setLink h l).pwr = s.pwr := rfl
@[simp] theorem State.setLink_load (s : State) (h : Nat) (l : LinkSt) : (s.setLink h l).load = s.load := rfl
@[simp] theorem State.setLink_hostOut (s : State) (h : Nat) (l : LinkSt) : (s.setLink h l).hostOut = s.hostOut := rfl
@[simp] theorem State.setLink_i3c (s : State) (h : Nat) (l : LinkSt) : (s.setLink h l).i3c = s.i3c := rfl
@[simp] theorem State.setLink_waiting (s : State) (h : Nat) (l : LinkSt) : (s.setLink h l).waiting = s.waiting := rfl
@[simp] theorem State.setLink_stackReset (s : State) (h : Nat) (l : LinkSt) : (s.setLink h l).stackReset = s.stackReset := rfl
@[simp] theorem State.setLink_reg (s : State) (h : Nat) (l : LinkSt) (j : RegId) : (s.setLink h l).reg j = s.reg j := rfl
@[simp] theorem State.setLink_core (s : State) (h : Nat) (l : LinkSt) (j : Nat) : (s.setLink h l).core j = s.core j := rfl
@[simp] theorem State.setLink_knot (s : State) (h : Nat) (l : LinkSt) (j : Nat) : (s.setLink h l).knot j = s.knot j := rfl
@[simp] theorem State.setLink_whip (s : State) (h : Nat) (l : LinkSt) (j : Nat) : (s.setLink h l).whip j = s.whip j := rfl
@[simp] theorem State.setLink_cap (s : State) (h : Nat) (l : LinkSt) (j : Nat) : (s.setLink h l).cap j = s.cap j := rfl
@[simp] theorem State.setLink_ctx (s : State) (h : Nat) (l : LinkSt) (j : Nat) : (s.setLink h l).ctx j = s.ctx j := rfl
@[simp] theorem State.setLink_ctxOf (s : State) (h : Nat) (l : LinkSt) (j : Nat) : (s.setLink h l).ctxOf j = s.ctxOf j := rfl
@[simp] theorem State.setWhip_pending (s : State) (d : Nat) (w : Whip) : (s.setWhip d w).pending = s.pending := rfl
@[simp] theorem State.setWhip_clock (s : State) (d : Nat) (w : Whip) : (s.setWhip d w).clock = s.clock := rfl
@[simp] theorem State.setWhip_free (s : State) (d : Nat) (w : Whip) : (s.setWhip d w).free = s.free := rfl
@[simp] theorem State.setWhip_out (s : State) (d : Nat) (w : Whip) : (s.setWhip d w).out = s.out := rfl
@[simp] theorem State.setWhip_hostReply (s : State) (d : Nat) (w : Whip) : (s.setWhip d w).hostReply = s.hostReply := rfl
@[simp] theorem State.setWhip_regs (s : State) (d : Nat) (w : Whip) : (s.setWhip d w).regs = s.regs := rfl
@[simp] theorem State.setWhip_cores (s : State) (d : Nat) (w : Whip) : (s.setWhip d w).cores = s.cores := rfl
@[simp] theorem State.setWhip_knots (s : State) (d : Nat) (w : Whip) : (s.setWhip d w).knots = s.knots := rfl
@[simp] theorem State.setWhip_ctxs (s : State) (d : Nat) (w : Whip) : (s.setWhip d w).ctxs = s.ctxs := rfl
@[simp] theorem State.setWhip_hbm (s : State) (d : Nat) (w : Whip) : (s.setWhip d w).hbm = s.hbm := rfl
@[simp] theorem State.setWhip_scratch (s : State) (d : Nat) (w : Whip) : (s.setWhip d w).scratch = s.scratch := rfl
@[simp] theorem State.setWhip_poison (s : State) (d : Nat) (w : Whip) : (s.setWhip d w).poison = s.poison := rfl
@[simp] theorem State.setWhip_mem (s : State) (d : Nat) (w : Whip) : (s.setWhip d w).mem = s.mem := rfl
@[simp] theorem State.setWhip_step (s : State) (d : Nat) (w : Whip) : (s.setWhip d w).step = s.step := rfl
@[simp] theorem State.setWhip_job (s : State) (d : Nat) (w : Whip) : (s.setWhip d w).job = s.job := rfl
@[simp] theorem State.setWhip_siteMax (s : State) (d : Nat) (w : Whip) : (s.setWhip d w).siteMax = s.siteMax := rfl
@[simp] theorem State.setWhip_sitePend (s : State) (d : Nat) (w : Whip) : (s.setWhip d w).sitePend = s.sitePend := rfl
@[simp] theorem State.setWhip_clusterMap (s : State) (d : Nat) (w : Whip) : (s.setWhip d w).clusterMap = s.clusterMap := rfl
@[simp] theorem State.setWhip_caps (s : State) (d : Nat) (w : Whip) : (s.setWhip d w).caps = s.caps := rfl
@[simp] theorem State.setWhip_wMax (s : State) (d : Nat) (w : Whip) : (s.setWhip d w).wMax = s.wMax := rfl
@[simp] theorem State.setWhip_wPend (s : State) (d : Nat) (w : Whip) : (s.setWhip d w).wPend = s.wPend := rfl
@[simp] theorem State.setWhip_plan (s : State) (d : Nat) (w : Whip) : (s.setWhip d w).plan = s.plan := rfl
@[simp] theorem State.setWhip_route (s : State) (d : Nat) (w : Whip) : (s.setWhip d w).route = s.route := rfl
@[simp] theorem State.setWhip_hank (s : State) (d : Nat) (w : Whip) : (s.setWhip d w).hank = s.hank := rfl
@[simp] theorem State.setWhip_links (s : State) (d : Nat) (w : Whip) : (s.setWhip d w).links = s.links := rfl
@[simp] theorem State.setWhip_sec (s : State) (d : Nat) (w : Whip) : (s.setWhip d w).sec = s.sec := rfl
@[simp] theorem State.setWhip_journal (s : State) (d : Nat) (w : Whip) : (s.setWhip d w).journal = s.journal := rfl
@[simp] theorem State.setWhip_mirror (s : State) (d : Nat) (w : Whip) : (s.setWhip d w).mirror = s.mirror := rfl
@[simp] theorem State.setWhip_rel (s : State) (d : Nat) (w : Whip) : (s.setWhip d w).rel = s.rel := rfl
@[simp] theorem State.setWhip_pwr (s : State) (d : Nat) (w : Whip) : (s.setWhip d w).pwr = s.pwr := rfl
@[simp] theorem State.setWhip_load (s : State) (d : Nat) (w : Whip) : (s.setWhip d w).load = s.load := rfl
@[simp] theorem State.setWhip_hostOut (s : State) (d : Nat) (w : Whip) : (s.setWhip d w).hostOut = s.hostOut := rfl
@[simp] theorem State.setWhip_i3c (s : State) (d : Nat) (w : Whip) : (s.setWhip d w).i3c = s.i3c := rfl
@[simp] theorem State.setWhip_waiting (s : State) (d : Nat) (w : Whip) : (s.setWhip d w).waiting = s.waiting := rfl
@[simp] theorem State.setWhip_stackReset (s : State) (d : Nat) (w : Whip) : (s.setWhip d w).stackReset = s.stackReset := rfl
@[simp] theorem State.setWhip_reg (s : State) (d : Nat) (w : Whip) (j : RegId) : (s.setWhip d w).reg j = s.reg j := rfl
@[simp] theorem State.setWhip_core (s : State) (d : Nat) (w : Whip) (j : Nat) : (s.setWhip d w).core j = s.core j := rfl
@[simp] theorem State.setWhip_knot (s : State) (d : Nat) (w : Whip) (j : Nat) : (s.setWhip d w).knot j = s.knot j := rfl
@[simp] theorem State.setWhip_link (s : State) (d : Nat) (w : Whip) (j : Nat) : (s.setWhip d w).link j = s.link j := rfl
@[simp] theorem State.setWhip_cap (s : State) (d : Nat) (w : Whip) (j : Nat) : (s.setWhip d w).cap j = s.cap j := rfl
@[simp] theorem State.setWhip_ctx (s : State) (d : Nat) (w : Whip) (j : Nat) : (s.setWhip d w).ctx j = s.ctx j := rfl
@[simp] theorem State.setWhip_ctxOf (s : State) (d : Nat) (w : Whip) (j : Nat) : (s.setWhip d w).ctxOf j = s.ctxOf j := rfl
@[simp] theorem State.onCap_pending (s : State) (st : Nat) (f : Cap → Cap) : (s.onCap st f).pending = s.pending := rfl
@[simp] theorem State.onCap_clock (s : State) (st : Nat) (f : Cap → Cap) : (s.onCap st f).clock = s.clock := rfl
@[simp] theorem State.onCap_free (s : State) (st : Nat) (f : Cap → Cap) : (s.onCap st f).free = s.free := rfl
@[simp] theorem State.onCap_out (s : State) (st : Nat) (f : Cap → Cap) : (s.onCap st f).out = s.out := rfl
@[simp] theorem State.onCap_hostReply (s : State) (st : Nat) (f : Cap → Cap) : (s.onCap st f).hostReply = s.hostReply := rfl
@[simp] theorem State.onCap_regs (s : State) (st : Nat) (f : Cap → Cap) : (s.onCap st f).regs = s.regs := rfl
@[simp] theorem State.onCap_cores (s : State) (st : Nat) (f : Cap → Cap) : (s.onCap st f).cores = s.cores := rfl
@[simp] theorem State.onCap_knots (s : State) (st : Nat) (f : Cap → Cap) : (s.onCap st f).knots = s.knots := rfl
@[simp] theorem State.onCap_ctxs (s : State) (st : Nat) (f : Cap → Cap) : (s.onCap st f).ctxs = s.ctxs := rfl
@[simp] theorem State.onCap_hbm (s : State) (st : Nat) (f : Cap → Cap) : (s.onCap st f).hbm = s.hbm := rfl
@[simp] theorem State.onCap_scratch (s : State) (st : Nat) (f : Cap → Cap) : (s.onCap st f).scratch = s.scratch := rfl
@[simp] theorem State.onCap_poison (s : State) (st : Nat) (f : Cap → Cap) : (s.onCap st f).poison = s.poison := rfl
@[simp] theorem State.onCap_mem (s : State) (st : Nat) (f : Cap → Cap) : (s.onCap st f).mem = s.mem := rfl
@[simp] theorem State.onCap_step (s : State) (st : Nat) (f : Cap → Cap) : (s.onCap st f).step = s.step := rfl
@[simp] theorem State.onCap_job (s : State) (st : Nat) (f : Cap → Cap) : (s.onCap st f).job = s.job := rfl
@[simp] theorem State.onCap_siteMax (s : State) (st : Nat) (f : Cap → Cap) : (s.onCap st f).siteMax = s.siteMax := rfl
@[simp] theorem State.onCap_sitePend (s : State) (st : Nat) (f : Cap → Cap) : (s.onCap st f).sitePend = s.sitePend := rfl
@[simp] theorem State.onCap_clusterMap (s : State) (st : Nat) (f : Cap → Cap) : (s.onCap st f).clusterMap = s.clusterMap := rfl
@[simp] theorem State.onCap_whips (s : State) (st : Nat) (f : Cap → Cap) : (s.onCap st f).whips = s.whips := rfl
@[simp] theorem State.onCap_wMax (s : State) (st : Nat) (f : Cap → Cap) : (s.onCap st f).wMax = s.wMax := rfl
@[simp] theorem State.onCap_wPend (s : State) (st : Nat) (f : Cap → Cap) : (s.onCap st f).wPend = s.wPend := rfl
@[simp] theorem State.onCap_plan (s : State) (st : Nat) (f : Cap → Cap) : (s.onCap st f).plan = s.plan := rfl
@[simp] theorem State.onCap_route (s : State) (st : Nat) (f : Cap → Cap) : (s.onCap st f).route = s.route := rfl
@[simp] theorem State.onCap_hank (s : State) (st : Nat) (f : Cap → Cap) : (s.onCap st f).hank = s.hank := rfl
@[simp] theorem State.onCap_links (s : State) (st : Nat) (f : Cap → Cap) : (s.onCap st f).links = s.links := rfl
@[simp] theorem State.onCap_sec (s : State) (st : Nat) (f : Cap → Cap) : (s.onCap st f).sec = s.sec := rfl
@[simp] theorem State.onCap_journal (s : State) (st : Nat) (f : Cap → Cap) : (s.onCap st f).journal = s.journal := rfl
@[simp] theorem State.onCap_mirror (s : State) (st : Nat) (f : Cap → Cap) : (s.onCap st f).mirror = s.mirror := rfl
@[simp] theorem State.onCap_rel (s : State) (st : Nat) (f : Cap → Cap) : (s.onCap st f).rel = s.rel := rfl
@[simp] theorem State.onCap_pwr (s : State) (st : Nat) (f : Cap → Cap) : (s.onCap st f).pwr = s.pwr := rfl
@[simp] theorem State.onCap_load (s : State) (st : Nat) (f : Cap → Cap) : (s.onCap st f).load = s.load := rfl
@[simp] theorem State.onCap_hostOut (s : State) (st : Nat) (f : Cap → Cap) : (s.onCap st f).hostOut = s.hostOut := rfl
@[simp] theorem State.onCap_i3c (s : State) (st : Nat) (f : Cap → Cap) : (s.onCap st f).i3c = s.i3c := rfl
@[simp] theorem State.onCap_waiting (s : State) (st : Nat) (f : Cap → Cap) : (s.onCap st f).waiting = s.waiting := rfl
@[simp] theorem State.onCap_stackReset (s : State) (st : Nat) (f : Cap → Cap) : (s.onCap st f).stackReset = s.stackReset := rfl
@[simp] theorem State.onCap_reg (s : State) (st : Nat) (f : Cap → Cap) (j : RegId) : (s.onCap st f).reg j = s.reg j := rfl
@[simp] theorem State.onCap_core (s : State) (st : Nat) (f : Cap → Cap) (j : Nat) : (s.onCap st f).core j = s.core j := rfl
@[simp] theorem State.onCap_knot (s : State) (st : Nat) (f : Cap → Cap) (j : Nat) : (s.onCap st f).knot j = s.knot j := rfl
@[simp] theorem State.onCap_link (s : State) (st : Nat) (f : Cap → Cap) (j : Nat) : (s.onCap st f).link j = s.link j := rfl
@[simp] theorem State.onCap_whip (s : State) (st : Nat) (f : Cap → Cap) (j : Nat) : (s.onCap st f).whip j = s.whip j := rfl
@[simp] theorem State.onCap_ctx (s : State) (st : Nat) (f : Cap → Cap) (j : Nat) : (s.onCap st f).ctx j = s.ctx j := rfl
@[simp] theorem State.onCap_ctxOf (s : State) (st : Nat) (f : Cap → Cap) (j : Nat) : (s.onCap st f).ctxOf j = s.ctxOf j := rfl
@[simp] theorem State.onCtx_pending (s : State) (c : Nat) (f : Ctx → Ctx) : (s.onCtx c f).pending = s.pending := rfl
@[simp] theorem State.onCtx_clock (s : State) (c : Nat) (f : Ctx → Ctx) : (s.onCtx c f).clock = s.clock := rfl
@[simp] theorem State.onCtx_free (s : State) (c : Nat) (f : Ctx → Ctx) : (s.onCtx c f).free = s.free := rfl
@[simp] theorem State.onCtx_out (s : State) (c : Nat) (f : Ctx → Ctx) : (s.onCtx c f).out = s.out := rfl
@[simp] theorem State.onCtx_hostReply (s : State) (c : Nat) (f : Ctx → Ctx) : (s.onCtx c f).hostReply = s.hostReply := rfl
@[simp] theorem State.onCtx_regs (s : State) (c : Nat) (f : Ctx → Ctx) : (s.onCtx c f).regs = s.regs := rfl
@[simp] theorem State.onCtx_cores (s : State) (c : Nat) (f : Ctx → Ctx) : (s.onCtx c f).cores = s.cores := rfl
@[simp] theorem State.onCtx_knots (s : State) (c : Nat) (f : Ctx → Ctx) : (s.onCtx c f).knots = s.knots := rfl
@[simp] theorem State.onCtx_hbm (s : State) (c : Nat) (f : Ctx → Ctx) : (s.onCtx c f).hbm = s.hbm := rfl
@[simp] theorem State.onCtx_scratch (s : State) (c : Nat) (f : Ctx → Ctx) : (s.onCtx c f).scratch = s.scratch := rfl
@[simp] theorem State.onCtx_poison (s : State) (c : Nat) (f : Ctx → Ctx) : (s.onCtx c f).poison = s.poison := rfl
@[simp] theorem State.onCtx_mem (s : State) (c : Nat) (f : Ctx → Ctx) : (s.onCtx c f).mem = s.mem := rfl
@[simp] theorem State.onCtx_step (s : State) (c : Nat) (f : Ctx → Ctx) : (s.onCtx c f).step = s.step := rfl
@[simp] theorem State.onCtx_job (s : State) (c : Nat) (f : Ctx → Ctx) : (s.onCtx c f).job = s.job := rfl
@[simp] theorem State.onCtx_siteMax (s : State) (c : Nat) (f : Ctx → Ctx) : (s.onCtx c f).siteMax = s.siteMax := rfl
@[simp] theorem State.onCtx_sitePend (s : State) (c : Nat) (f : Ctx → Ctx) : (s.onCtx c f).sitePend = s.sitePend := rfl
@[simp] theorem State.onCtx_clusterMap (s : State) (c : Nat) (f : Ctx → Ctx) : (s.onCtx c f).clusterMap = s.clusterMap := rfl
@[simp] theorem State.onCtx_whips (s : State) (c : Nat) (f : Ctx → Ctx) : (s.onCtx c f).whips = s.whips := rfl
@[simp] theorem State.onCtx_caps (s : State) (c : Nat) (f : Ctx → Ctx) : (s.onCtx c f).caps = s.caps := rfl
@[simp] theorem State.onCtx_wMax (s : State) (c : Nat) (f : Ctx → Ctx) : (s.onCtx c f).wMax = s.wMax := rfl
@[simp] theorem State.onCtx_wPend (s : State) (c : Nat) (f : Ctx → Ctx) : (s.onCtx c f).wPend = s.wPend := rfl
@[simp] theorem State.onCtx_plan (s : State) (c : Nat) (f : Ctx → Ctx) : (s.onCtx c f).plan = s.plan := rfl
@[simp] theorem State.onCtx_route (s : State) (c : Nat) (f : Ctx → Ctx) : (s.onCtx c f).route = s.route := rfl
@[simp] theorem State.onCtx_hank (s : State) (c : Nat) (f : Ctx → Ctx) : (s.onCtx c f).hank = s.hank := rfl
@[simp] theorem State.onCtx_links (s : State) (c : Nat) (f : Ctx → Ctx) : (s.onCtx c f).links = s.links := rfl
@[simp] theorem State.onCtx_sec (s : State) (c : Nat) (f : Ctx → Ctx) : (s.onCtx c f).sec = s.sec := rfl
@[simp] theorem State.onCtx_journal (s : State) (c : Nat) (f : Ctx → Ctx) : (s.onCtx c f).journal = s.journal := rfl
@[simp] theorem State.onCtx_mirror (s : State) (c : Nat) (f : Ctx → Ctx) : (s.onCtx c f).mirror = s.mirror := rfl
@[simp] theorem State.onCtx_rel (s : State) (c : Nat) (f : Ctx → Ctx) : (s.onCtx c f).rel = s.rel := rfl
@[simp] theorem State.onCtx_pwr (s : State) (c : Nat) (f : Ctx → Ctx) : (s.onCtx c f).pwr = s.pwr := rfl
@[simp] theorem State.onCtx_load (s : State) (c : Nat) (f : Ctx → Ctx) : (s.onCtx c f).load = s.load := rfl
@[simp] theorem State.onCtx_hostOut (s : State) (c : Nat) (f : Ctx → Ctx) : (s.onCtx c f).hostOut = s.hostOut := rfl
@[simp] theorem State.onCtx_i3c (s : State) (c : Nat) (f : Ctx → Ctx) : (s.onCtx c f).i3c = s.i3c := rfl
@[simp] theorem State.onCtx_waiting (s : State) (c : Nat) (f : Ctx → Ctx) : (s.onCtx c f).waiting = s.waiting := rfl
@[simp] theorem State.onCtx_stackReset (s : State) (c : Nat) (f : Ctx → Ctx) : (s.onCtx c f).stackReset = s.stackReset := rfl
@[simp] theorem State.onCtx_reg (s : State) (c : Nat) (f : Ctx → Ctx) (j : RegId) : (s.onCtx c f).reg j = s.reg j := rfl
@[simp] theorem State.onCtx_core (s : State) (c : Nat) (f : Ctx → Ctx) (j : Nat) : (s.onCtx c f).core j = s.core j := rfl
@[simp] theorem State.onCtx_knot (s : State) (c : Nat) (f : Ctx → Ctx) (j : Nat) : (s.onCtx c f).knot j = s.knot j := rfl
@[simp] theorem State.onCtx_link (s : State) (c : Nat) (f : Ctx → Ctx) (j : Nat) : (s.onCtx c f).link j = s.link j := rfl
@[simp] theorem State.onCtx_whip (s : State) (c : Nat) (f : Ctx → Ctx) (j : Nat) : (s.onCtx c f).whip j = s.whip j := rfl
@[simp] theorem State.onCtx_cap (s : State) (c : Nat) (f : Ctx → Ctx) (j : Nat) : (s.onCtx c f).cap j = s.cap j := rfl
@[simp] theorem State.onCtx_ctxOf (s : State) (c : Nat) (f : Ctx → Ctx) (j : Nat) : (s.onCtx c f).ctxOf j = s.ctxOf j := rfl
@[simp] theorem State.onSec_pending (s : State) (f : Sec → Sec) : (s.onSec f).pending = s.pending := rfl
@[simp] theorem State.onSec_clock (s : State) (f : Sec → Sec) : (s.onSec f).clock = s.clock := rfl
@[simp] theorem State.onSec_free (s : State) (f : Sec → Sec) : (s.onSec f).free = s.free := rfl
@[simp] theorem State.onSec_out (s : State) (f : Sec → Sec) : (s.onSec f).out = s.out := rfl
@[simp] theorem State.onSec_hostReply (s : State) (f : Sec → Sec) : (s.onSec f).hostReply = s.hostReply := rfl
@[simp] theorem State.onSec_regs (s : State) (f : Sec → Sec) : (s.onSec f).regs = s.regs := rfl
@[simp] theorem State.onSec_cores (s : State) (f : Sec → Sec) : (s.onSec f).cores = s.cores := rfl
@[simp] theorem State.onSec_knots (s : State) (f : Sec → Sec) : (s.onSec f).knots = s.knots := rfl
@[simp] theorem State.onSec_ctxs (s : State) (f : Sec → Sec) : (s.onSec f).ctxs = s.ctxs := rfl
@[simp] theorem State.onSec_hbm (s : State) (f : Sec → Sec) : (s.onSec f).hbm = s.hbm := rfl
@[simp] theorem State.onSec_scratch (s : State) (f : Sec → Sec) : (s.onSec f).scratch = s.scratch := rfl
@[simp] theorem State.onSec_poison (s : State) (f : Sec → Sec) : (s.onSec f).poison = s.poison := rfl
@[simp] theorem State.onSec_mem (s : State) (f : Sec → Sec) : (s.onSec f).mem = s.mem := rfl
@[simp] theorem State.onSec_step (s : State) (f : Sec → Sec) : (s.onSec f).step = s.step := rfl
@[simp] theorem State.onSec_job (s : State) (f : Sec → Sec) : (s.onSec f).job = s.job := rfl
@[simp] theorem State.onSec_siteMax (s : State) (f : Sec → Sec) : (s.onSec f).siteMax = s.siteMax := rfl
@[simp] theorem State.onSec_sitePend (s : State) (f : Sec → Sec) : (s.onSec f).sitePend = s.sitePend := rfl
@[simp] theorem State.onSec_clusterMap (s : State) (f : Sec → Sec) : (s.onSec f).clusterMap = s.clusterMap := rfl
@[simp] theorem State.onSec_whips (s : State) (f : Sec → Sec) : (s.onSec f).whips = s.whips := rfl
@[simp] theorem State.onSec_caps (s : State) (f : Sec → Sec) : (s.onSec f).caps = s.caps := rfl
@[simp] theorem State.onSec_wMax (s : State) (f : Sec → Sec) : (s.onSec f).wMax = s.wMax := rfl
@[simp] theorem State.onSec_wPend (s : State) (f : Sec → Sec) : (s.onSec f).wPend = s.wPend := rfl
@[simp] theorem State.onSec_plan (s : State) (f : Sec → Sec) : (s.onSec f).plan = s.plan := rfl
@[simp] theorem State.onSec_route (s : State) (f : Sec → Sec) : (s.onSec f).route = s.route := rfl
@[simp] theorem State.onSec_hank (s : State) (f : Sec → Sec) : (s.onSec f).hank = s.hank := rfl
@[simp] theorem State.onSec_links (s : State) (f : Sec → Sec) : (s.onSec f).links = s.links := rfl
@[simp] theorem State.onSec_journal (s : State) (f : Sec → Sec) : (s.onSec f).journal = s.journal := rfl
@[simp] theorem State.onSec_mirror (s : State) (f : Sec → Sec) : (s.onSec f).mirror = s.mirror := rfl
@[simp] theorem State.onSec_rel (s : State) (f : Sec → Sec) : (s.onSec f).rel = s.rel := rfl
@[simp] theorem State.onSec_pwr (s : State) (f : Sec → Sec) : (s.onSec f).pwr = s.pwr := rfl
@[simp] theorem State.onSec_load (s : State) (f : Sec → Sec) : (s.onSec f).load = s.load := rfl
@[simp] theorem State.onSec_hostOut (s : State) (f : Sec → Sec) : (s.onSec f).hostOut = s.hostOut := rfl
@[simp] theorem State.onSec_i3c (s : State) (f : Sec → Sec) : (s.onSec f).i3c = s.i3c := rfl
@[simp] theorem State.onSec_waiting (s : State) (f : Sec → Sec) : (s.onSec f).waiting = s.waiting := rfl
@[simp] theorem State.onSec_stackReset (s : State) (f : Sec → Sec) : (s.onSec f).stackReset = s.stackReset := rfl
@[simp] theorem State.onSec_reg (s : State) (f : Sec → Sec) (j : RegId) : (s.onSec f).reg j = s.reg j := rfl
@[simp] theorem State.onSec_core (s : State) (f : Sec → Sec) (j : Nat) : (s.onSec f).core j = s.core j := rfl
@[simp] theorem State.onSec_knot (s : State) (f : Sec → Sec) (j : Nat) : (s.onSec f).knot j = s.knot j := rfl
@[simp] theorem State.onSec_link (s : State) (f : Sec → Sec) (j : Nat) : (s.onSec f).link j = s.link j := rfl
@[simp] theorem State.onSec_whip (s : State) (f : Sec → Sec) (j : Nat) : (s.onSec f).whip j = s.whip j := rfl
@[simp] theorem State.onSec_cap (s : State) (f : Sec → Sec) (j : Nat) : (s.onSec f).cap j = s.cap j := rfl
@[simp] theorem State.onSec_ctx (s : State) (f : Sec → Sec) (j : Nat) : (s.onSec f).ctx j = s.ctx j := rfl
@[simp] theorem State.onSec_ctxOf (s : State) (f : Sec → Sec) (j : Nat) : (s.onSec f).ctxOf j = s.ctxOf j := rfl
@[simp] theorem State.onRel_pending (s : State) (d : Nat) (f : DieRel → DieRel) : (s.onRel d f).pending = s.pending := rfl
@[simp] theorem State.onRel_clock (s : State) (d : Nat) (f : DieRel → DieRel) : (s.onRel d f).clock = s.clock := rfl
@[simp] theorem State.onRel_free (s : State) (d : Nat) (f : DieRel → DieRel) : (s.onRel d f).free = s.free := rfl
@[simp] theorem State.onRel_out (s : State) (d : Nat) (f : DieRel → DieRel) : (s.onRel d f).out = s.out := rfl
@[simp] theorem State.onRel_hostReply (s : State) (d : Nat) (f : DieRel → DieRel) : (s.onRel d f).hostReply = s.hostReply := rfl
@[simp] theorem State.onRel_regs (s : State) (d : Nat) (f : DieRel → DieRel) : (s.onRel d f).regs = s.regs := rfl
@[simp] theorem State.onRel_cores (s : State) (d : Nat) (f : DieRel → DieRel) : (s.onRel d f).cores = s.cores := rfl
@[simp] theorem State.onRel_knots (s : State) (d : Nat) (f : DieRel → DieRel) : (s.onRel d f).knots = s.knots := rfl
@[simp] theorem State.onRel_ctxs (s : State) (d : Nat) (f : DieRel → DieRel) : (s.onRel d f).ctxs = s.ctxs := rfl
@[simp] theorem State.onRel_hbm (s : State) (d : Nat) (f : DieRel → DieRel) : (s.onRel d f).hbm = s.hbm := rfl
@[simp] theorem State.onRel_scratch (s : State) (d : Nat) (f : DieRel → DieRel) : (s.onRel d f).scratch = s.scratch := rfl
@[simp] theorem State.onRel_poison (s : State) (d : Nat) (f : DieRel → DieRel) : (s.onRel d f).poison = s.poison := rfl
@[simp] theorem State.onRel_mem (s : State) (d : Nat) (f : DieRel → DieRel) : (s.onRel d f).mem = s.mem := rfl
@[simp] theorem State.onRel_step (s : State) (d : Nat) (f : DieRel → DieRel) : (s.onRel d f).step = s.step := rfl
@[simp] theorem State.onRel_job (s : State) (d : Nat) (f : DieRel → DieRel) : (s.onRel d f).job = s.job := rfl
@[simp] theorem State.onRel_siteMax (s : State) (d : Nat) (f : DieRel → DieRel) : (s.onRel d f).siteMax = s.siteMax := rfl
@[simp] theorem State.onRel_sitePend (s : State) (d : Nat) (f : DieRel → DieRel) : (s.onRel d f).sitePend = s.sitePend := rfl
@[simp] theorem State.onRel_clusterMap (s : State) (d : Nat) (f : DieRel → DieRel) : (s.onRel d f).clusterMap = s.clusterMap := rfl
@[simp] theorem State.onRel_whips (s : State) (d : Nat) (f : DieRel → DieRel) : (s.onRel d f).whips = s.whips := rfl
@[simp] theorem State.onRel_caps (s : State) (d : Nat) (f : DieRel → DieRel) : (s.onRel d f).caps = s.caps := rfl
@[simp] theorem State.onRel_wMax (s : State) (d : Nat) (f : DieRel → DieRel) : (s.onRel d f).wMax = s.wMax := rfl
@[simp] theorem State.onRel_wPend (s : State) (d : Nat) (f : DieRel → DieRel) : (s.onRel d f).wPend = s.wPend := rfl
@[simp] theorem State.onRel_plan (s : State) (d : Nat) (f : DieRel → DieRel) : (s.onRel d f).plan = s.plan := rfl
@[simp] theorem State.onRel_route (s : State) (d : Nat) (f : DieRel → DieRel) : (s.onRel d f).route = s.route := rfl
@[simp] theorem State.onRel_hank (s : State) (d : Nat) (f : DieRel → DieRel) : (s.onRel d f).hank = s.hank := rfl
@[simp] theorem State.onRel_links (s : State) (d : Nat) (f : DieRel → DieRel) : (s.onRel d f).links = s.links := rfl
@[simp] theorem State.onRel_sec (s : State) (d : Nat) (f : DieRel → DieRel) : (s.onRel d f).sec = s.sec := rfl
@[simp] theorem State.onRel_journal (s : State) (d : Nat) (f : DieRel → DieRel) : (s.onRel d f).journal = s.journal := rfl
@[simp] theorem State.onRel_mirror (s : State) (d : Nat) (f : DieRel → DieRel) : (s.onRel d f).mirror = s.mirror := rfl
@[simp] theorem State.onRel_pwr (s : State) (d : Nat) (f : DieRel → DieRel) : (s.onRel d f).pwr = s.pwr := rfl
@[simp] theorem State.onRel_load (s : State) (d : Nat) (f : DieRel → DieRel) : (s.onRel d f).load = s.load := rfl
@[simp] theorem State.onRel_hostOut (s : State) (d : Nat) (f : DieRel → DieRel) : (s.onRel d f).hostOut = s.hostOut := rfl
@[simp] theorem State.onRel_i3c (s : State) (d : Nat) (f : DieRel → DieRel) : (s.onRel d f).i3c = s.i3c := rfl
@[simp] theorem State.onRel_waiting (s : State) (d : Nat) (f : DieRel → DieRel) : (s.onRel d f).waiting = s.waiting := rfl
@[simp] theorem State.onRel_stackReset (s : State) (d : Nat) (f : DieRel → DieRel) : (s.onRel d f).stackReset = s.stackReset := rfl
@[simp] theorem State.onRel_reg (s : State) (d : Nat) (f : DieRel → DieRel) (j : RegId) : (s.onRel d f).reg j = s.reg j := rfl
@[simp] theorem State.onRel_core (s : State) (d : Nat) (f : DieRel → DieRel) (j : Nat) : (s.onRel d f).core j = s.core j := rfl
@[simp] theorem State.onRel_knot (s : State) (d : Nat) (f : DieRel → DieRel) (j : Nat) : (s.onRel d f).knot j = s.knot j := rfl
@[simp] theorem State.onRel_link (s : State) (d : Nat) (f : DieRel → DieRel) (j : Nat) : (s.onRel d f).link j = s.link j := rfl
@[simp] theorem State.onRel_whip (s : State) (d : Nat) (f : DieRel → DieRel) (j : Nat) : (s.onRel d f).whip j = s.whip j := rfl
@[simp] theorem State.onRel_cap (s : State) (d : Nat) (f : DieRel → DieRel) (j : Nat) : (s.onRel d f).cap j = s.cap j := rfl
@[simp] theorem State.onRel_ctx (s : State) (d : Nat) (f : DieRel → DieRel) (j : Nat) : (s.onRel d f).ctx j = s.ctx j := rfl
@[simp] theorem State.onRel_ctxOf (s : State) (d : Nat) (f : DieRel → DieRel) (j : Nat) : (s.onRel d f).ctxOf j = s.ctxOf j := rfl
@[simp] theorem State.setMap_pending (s : State) (d l : Nat) (v : W64) : (s.setMap d l v).pending = s.pending := rfl
@[simp] theorem State.setMap_clock (s : State) (d l : Nat) (v : W64) : (s.setMap d l v).clock = s.clock := rfl
@[simp] theorem State.setMap_free (s : State) (d l : Nat) (v : W64) : (s.setMap d l v).free = s.free := rfl
@[simp] theorem State.setMap_out (s : State) (d l : Nat) (v : W64) : (s.setMap d l v).out = s.out := rfl
@[simp] theorem State.setMap_hostReply (s : State) (d l : Nat) (v : W64) : (s.setMap d l v).hostReply = s.hostReply := rfl
@[simp] theorem State.setMap_regs (s : State) (d l : Nat) (v : W64) : (s.setMap d l v).regs = s.regs := rfl
@[simp] theorem State.setMap_cores (s : State) (d l : Nat) (v : W64) : (s.setMap d l v).cores = s.cores := rfl
@[simp] theorem State.setMap_knots (s : State) (d l : Nat) (v : W64) : (s.setMap d l v).knots = s.knots := rfl
@[simp] theorem State.setMap_ctxs (s : State) (d l : Nat) (v : W64) : (s.setMap d l v).ctxs = s.ctxs := rfl
@[simp] theorem State.setMap_hbm (s : State) (d l : Nat) (v : W64) : (s.setMap d l v).hbm = s.hbm := rfl
@[simp] theorem State.setMap_scratch (s : State) (d l : Nat) (v : W64) : (s.setMap d l v).scratch = s.scratch := rfl
@[simp] theorem State.setMap_poison (s : State) (d l : Nat) (v : W64) : (s.setMap d l v).poison = s.poison := rfl
@[simp] theorem State.setMap_mem (s : State) (d l : Nat) (v : W64) : (s.setMap d l v).mem = s.mem := rfl
@[simp] theorem State.setMap_step (s : State) (d l : Nat) (v : W64) : (s.setMap d l v).step = s.step := rfl
@[simp] theorem State.setMap_job (s : State) (d l : Nat) (v : W64) : (s.setMap d l v).job = s.job := rfl
@[simp] theorem State.setMap_siteMax (s : State) (d l : Nat) (v : W64) : (s.setMap d l v).siteMax = s.siteMax := rfl
@[simp] theorem State.setMap_sitePend (s : State) (d l : Nat) (v : W64) : (s.setMap d l v).sitePend = s.sitePend := rfl
@[simp] theorem State.setMap_whips (s : State) (d l : Nat) (v : W64) : (s.setMap d l v).whips = s.whips := rfl
@[simp] theorem State.setMap_caps (s : State) (d l : Nat) (v : W64) : (s.setMap d l v).caps = s.caps := rfl
@[simp] theorem State.setMap_wMax (s : State) (d l : Nat) (v : W64) : (s.setMap d l v).wMax = s.wMax := rfl
@[simp] theorem State.setMap_wPend (s : State) (d l : Nat) (v : W64) : (s.setMap d l v).wPend = s.wPend := rfl
@[simp] theorem State.setMap_plan (s : State) (d l : Nat) (v : W64) : (s.setMap d l v).plan = s.plan := rfl
@[simp] theorem State.setMap_route (s : State) (d l : Nat) (v : W64) : (s.setMap d l v).route = s.route := rfl
@[simp] theorem State.setMap_hank (s : State) (d l : Nat) (v : W64) : (s.setMap d l v).hank = s.hank := rfl
@[simp] theorem State.setMap_links (s : State) (d l : Nat) (v : W64) : (s.setMap d l v).links = s.links := rfl
@[simp] theorem State.setMap_sec (s : State) (d l : Nat) (v : W64) : (s.setMap d l v).sec = s.sec := rfl
@[simp] theorem State.setMap_journal (s : State) (d l : Nat) (v : W64) : (s.setMap d l v).journal = s.journal := rfl
@[simp] theorem State.setMap_mirror (s : State) (d l : Nat) (v : W64) : (s.setMap d l v).mirror = s.mirror := rfl
@[simp] theorem State.setMap_rel (s : State) (d l : Nat) (v : W64) : (s.setMap d l v).rel = s.rel := rfl
@[simp] theorem State.setMap_pwr (s : State) (d l : Nat) (v : W64) : (s.setMap d l v).pwr = s.pwr := rfl
@[simp] theorem State.setMap_load (s : State) (d l : Nat) (v : W64) : (s.setMap d l v).load = s.load := rfl
@[simp] theorem State.setMap_hostOut (s : State) (d l : Nat) (v : W64) : (s.setMap d l v).hostOut = s.hostOut := rfl
@[simp] theorem State.setMap_i3c (s : State) (d l : Nat) (v : W64) : (s.setMap d l v).i3c = s.i3c := rfl
@[simp] theorem State.setMap_waiting (s : State) (d l : Nat) (v : W64) : (s.setMap d l v).waiting = s.waiting := rfl
@[simp] theorem State.setMap_stackReset (s : State) (d l : Nat) (v : W64) : (s.setMap d l v).stackReset = s.stackReset := rfl
@[simp] theorem State.setMap_reg (s : State) (d l : Nat) (v : W64) (j : RegId) : (s.setMap d l v).reg j = s.reg j := rfl
@[simp] theorem State.setMap_core (s : State) (d l : Nat) (v : W64) (j : Nat) : (s.setMap d l v).core j = s.core j := rfl
@[simp] theorem State.setMap_knot (s : State) (d l : Nat) (v : W64) (j : Nat) : (s.setMap d l v).knot j = s.knot j := rfl
@[simp] theorem State.setMap_link (s : State) (d l : Nat) (v : W64) (j : Nat) : (s.setMap d l v).link j = s.link j := rfl
@[simp] theorem State.setMap_whip (s : State) (d l : Nat) (v : W64) (j : Nat) : (s.setMap d l v).whip j = s.whip j := rfl
@[simp] theorem State.setMap_cap (s : State) (d l : Nat) (v : W64) (j : Nat) : (s.setMap d l v).cap j = s.cap j := rfl
@[simp] theorem State.setMap_ctx (s : State) (d l : Nat) (v : W64) (j : Nat) : (s.setMap d l v).ctx j = s.ctx j := rfl
@[simp] theorem State.setMap_ctxOf (s : State) (d l : Nat) (v : W64) (j : Nat) : (s.setMap d l v).ctxOf j = s.ctxOf j := rfl
@[simp] theorem State.onPwr_pending (s : State) (f : Power → Power) : (s.onPwr f).pending = s.pending := rfl
@[simp] theorem State.onPwr_clock (s : State) (f : Power → Power) : (s.onPwr f).clock = s.clock := rfl
@[simp] theorem State.onPwr_free (s : State) (f : Power → Power) : (s.onPwr f).free = s.free := rfl
@[simp] theorem State.onPwr_out (s : State) (f : Power → Power) : (s.onPwr f).out = s.out := rfl
@[simp] theorem State.onPwr_hostReply (s : State) (f : Power → Power) : (s.onPwr f).hostReply = s.hostReply := rfl
@[simp] theorem State.onPwr_regs (s : State) (f : Power → Power) : (s.onPwr f).regs = s.regs := rfl
@[simp] theorem State.onPwr_cores (s : State) (f : Power → Power) : (s.onPwr f).cores = s.cores := rfl
@[simp] theorem State.onPwr_knots (s : State) (f : Power → Power) : (s.onPwr f).knots = s.knots := rfl
@[simp] theorem State.onPwr_ctxs (s : State) (f : Power → Power) : (s.onPwr f).ctxs = s.ctxs := rfl
@[simp] theorem State.onPwr_hbm (s : State) (f : Power → Power) : (s.onPwr f).hbm = s.hbm := rfl
@[simp] theorem State.onPwr_scratch (s : State) (f : Power → Power) : (s.onPwr f).scratch = s.scratch := rfl
@[simp] theorem State.onPwr_poison (s : State) (f : Power → Power) : (s.onPwr f).poison = s.poison := rfl
@[simp] theorem State.onPwr_mem (s : State) (f : Power → Power) : (s.onPwr f).mem = s.mem := rfl
@[simp] theorem State.onPwr_step (s : State) (f : Power → Power) : (s.onPwr f).step = s.step := rfl
@[simp] theorem State.onPwr_job (s : State) (f : Power → Power) : (s.onPwr f).job = s.job := rfl
@[simp] theorem State.onPwr_siteMax (s : State) (f : Power → Power) : (s.onPwr f).siteMax = s.siteMax := rfl
@[simp] theorem State.onPwr_sitePend (s : State) (f : Power → Power) : (s.onPwr f).sitePend = s.sitePend := rfl
@[simp] theorem State.onPwr_clusterMap (s : State) (f : Power → Power) : (s.onPwr f).clusterMap = s.clusterMap := rfl
@[simp] theorem State.onPwr_whips (s : State) (f : Power → Power) : (s.onPwr f).whips = s.whips := rfl
@[simp] theorem State.onPwr_caps (s : State) (f : Power → Power) : (s.onPwr f).caps = s.caps := rfl
@[simp] theorem State.onPwr_wMax (s : State) (f : Power → Power) : (s.onPwr f).wMax = s.wMax := rfl
@[simp] theorem State.onPwr_wPend (s : State) (f : Power → Power) : (s.onPwr f).wPend = s.wPend := rfl
@[simp] theorem State.onPwr_plan (s : State) (f : Power → Power) : (s.onPwr f).plan = s.plan := rfl
@[simp] theorem State.onPwr_route (s : State) (f : Power → Power) : (s.onPwr f).route = s.route := rfl
@[simp] theorem State.onPwr_hank (s : State) (f : Power → Power) : (s.onPwr f).hank = s.hank := rfl
@[simp] theorem State.onPwr_links (s : State) (f : Power → Power) : (s.onPwr f).links = s.links := rfl
@[simp] theorem State.onPwr_sec (s : State) (f : Power → Power) : (s.onPwr f).sec = s.sec := rfl
@[simp] theorem State.onPwr_journal (s : State) (f : Power → Power) : (s.onPwr f).journal = s.journal := rfl
@[simp] theorem State.onPwr_mirror (s : State) (f : Power → Power) : (s.onPwr f).mirror = s.mirror := rfl
@[simp] theorem State.onPwr_rel (s : State) (f : Power → Power) : (s.onPwr f).rel = s.rel := rfl
@[simp] theorem State.onPwr_load (s : State) (f : Power → Power) : (s.onPwr f).load = s.load := rfl
@[simp] theorem State.onPwr_hostOut (s : State) (f : Power → Power) : (s.onPwr f).hostOut = s.hostOut := rfl
@[simp] theorem State.onPwr_i3c (s : State) (f : Power → Power) : (s.onPwr f).i3c = s.i3c := rfl
@[simp] theorem State.onPwr_waiting (s : State) (f : Power → Power) : (s.onPwr f).waiting = s.waiting := rfl
@[simp] theorem State.onPwr_stackReset (s : State) (f : Power → Power) : (s.onPwr f).stackReset = s.stackReset := rfl
@[simp] theorem State.onPwr_reg (s : State) (f : Power → Power) (j : RegId) : (s.onPwr f).reg j = s.reg j := rfl
@[simp] theorem State.onPwr_core (s : State) (f : Power → Power) (j : Nat) : (s.onPwr f).core j = s.core j := rfl
@[simp] theorem State.onPwr_knot (s : State) (f : Power → Power) (j : Nat) : (s.onPwr f).knot j = s.knot j := rfl
@[simp] theorem State.onPwr_link (s : State) (f : Power → Power) (j : Nat) : (s.onPwr f).link j = s.link j := rfl
@[simp] theorem State.onPwr_whip (s : State) (f : Power → Power) (j : Nat) : (s.onPwr f).whip j = s.whip j := rfl
@[simp] theorem State.onPwr_cap (s : State) (f : Power → Power) (j : Nat) : (s.onPwr f).cap j = s.cap j := rfl
@[simp] theorem State.onPwr_ctx (s : State) (f : Power → Power) (j : Nat) : (s.onPwr f).ctx j = s.ctx j := rfl
@[simp] theorem State.onPwr_ctxOf (s : State) (f : Power → Power) (j : Nat) : (s.onPwr f).ctxOf j = s.ctxOf j := rfl
@[simp] theorem State.onStep_pending (s : State) (f : StepCtl → StepCtl) : (s.onStep f).pending = s.pending := rfl
@[simp] theorem State.onStep_clock (s : State) (f : StepCtl → StepCtl) : (s.onStep f).clock = s.clock := rfl
@[simp] theorem State.onStep_free (s : State) (f : StepCtl → StepCtl) : (s.onStep f).free = s.free := rfl
@[simp] theorem State.onStep_out (s : State) (f : StepCtl → StepCtl) : (s.onStep f).out = s.out := rfl
@[simp] theorem State.onStep_hostReply (s : State) (f : StepCtl → StepCtl) : (s.onStep f).hostReply = s.hostReply := rfl
@[simp] theorem State.onStep_regs (s : State) (f : StepCtl → StepCtl) : (s.onStep f).regs = s.regs := rfl
@[simp] theorem State.onStep_cores (s : State) (f : StepCtl → StepCtl) : (s.onStep f).cores = s.cores := rfl
@[simp] theorem State.onStep_knots (s : State) (f : StepCtl → StepCtl) : (s.onStep f).knots = s.knots := rfl
@[simp] theorem State.onStep_ctxs (s : State) (f : StepCtl → StepCtl) : (s.onStep f).ctxs = s.ctxs := rfl
@[simp] theorem State.onStep_hbm (s : State) (f : StepCtl → StepCtl) : (s.onStep f).hbm = s.hbm := rfl
@[simp] theorem State.onStep_scratch (s : State) (f : StepCtl → StepCtl) : (s.onStep f).scratch = s.scratch := rfl
@[simp] theorem State.onStep_poison (s : State) (f : StepCtl → StepCtl) : (s.onStep f).poison = s.poison := rfl
@[simp] theorem State.onStep_mem (s : State) (f : StepCtl → StepCtl) : (s.onStep f).mem = s.mem := rfl
@[simp] theorem State.onStep_job (s : State) (f : StepCtl → StepCtl) : (s.onStep f).job = s.job := rfl
@[simp] theorem State.onStep_siteMax (s : State) (f : StepCtl → StepCtl) : (s.onStep f).siteMax = s.siteMax := rfl
@[simp] theorem State.onStep_sitePend (s : State) (f : StepCtl → StepCtl) : (s.onStep f).sitePend = s.sitePend := rfl
@[simp] theorem State.onStep_clusterMap (s : State) (f : StepCtl → StepCtl) : (s.onStep f).clusterMap = s.clusterMap := rfl
@[simp] theorem State.onStep_whips (s : State) (f : StepCtl → StepCtl) : (s.onStep f).whips = s.whips := rfl
@[simp] theorem State.onStep_caps (s : State) (f : StepCtl → StepCtl) : (s.onStep f).caps = s.caps := rfl
@[simp] theorem State.onStep_wMax (s : State) (f : StepCtl → StepCtl) : (s.onStep f).wMax = s.wMax := rfl
@[simp] theorem State.onStep_wPend (s : State) (f : StepCtl → StepCtl) : (s.onStep f).wPend = s.wPend := rfl
@[simp] theorem State.onStep_plan (s : State) (f : StepCtl → StepCtl) : (s.onStep f).plan = s.plan := rfl
@[simp] theorem State.onStep_route (s : State) (f : StepCtl → StepCtl) : (s.onStep f).route = s.route := rfl
@[simp] theorem State.onStep_hank (s : State) (f : StepCtl → StepCtl) : (s.onStep f).hank = s.hank := rfl
@[simp] theorem State.onStep_links (s : State) (f : StepCtl → StepCtl) : (s.onStep f).links = s.links := rfl
@[simp] theorem State.onStep_sec (s : State) (f : StepCtl → StepCtl) : (s.onStep f).sec = s.sec := rfl
@[simp] theorem State.onStep_journal (s : State) (f : StepCtl → StepCtl) : (s.onStep f).journal = s.journal := rfl
@[simp] theorem State.onStep_mirror (s : State) (f : StepCtl → StepCtl) : (s.onStep f).mirror = s.mirror := rfl
@[simp] theorem State.onStep_rel (s : State) (f : StepCtl → StepCtl) : (s.onStep f).rel = s.rel := rfl
@[simp] theorem State.onStep_pwr (s : State) (f : StepCtl → StepCtl) : (s.onStep f).pwr = s.pwr := rfl
@[simp] theorem State.onStep_load (s : State) (f : StepCtl → StepCtl) : (s.onStep f).load = s.load := rfl
@[simp] theorem State.onStep_hostOut (s : State) (f : StepCtl → StepCtl) : (s.onStep f).hostOut = s.hostOut := rfl
@[simp] theorem State.onStep_i3c (s : State) (f : StepCtl → StepCtl) : (s.onStep f).i3c = s.i3c := rfl
@[simp] theorem State.onStep_waiting (s : State) (f : StepCtl → StepCtl) : (s.onStep f).waiting = s.waiting := rfl
@[simp] theorem State.onStep_stackReset (s : State) (f : StepCtl → StepCtl) : (s.onStep f).stackReset = s.stackReset := rfl
@[simp] theorem State.onStep_reg (s : State) (f : StepCtl → StepCtl) (j : RegId) : (s.onStep f).reg j = s.reg j := rfl
@[simp] theorem State.onStep_core (s : State) (f : StepCtl → StepCtl) (j : Nat) : (s.onStep f).core j = s.core j := rfl
@[simp] theorem State.onStep_knot (s : State) (f : StepCtl → StepCtl) (j : Nat) : (s.onStep f).knot j = s.knot j := rfl
@[simp] theorem State.onStep_link (s : State) (f : StepCtl → StepCtl) (j : Nat) : (s.onStep f).link j = s.link j := rfl
@[simp] theorem State.onStep_whip (s : State) (f : StepCtl → StepCtl) (j : Nat) : (s.onStep f).whip j = s.whip j := rfl
@[simp] theorem State.onStep_cap (s : State) (f : StepCtl → StepCtl) (j : Nat) : (s.onStep f).cap j = s.cap j := rfl
@[simp] theorem State.onStep_ctx (s : State) (f : StepCtl → StepCtl) (j : Nat) : (s.onStep f).ctx j = s.ctx j := rfl
@[simp] theorem State.onStep_ctxOf (s : State) (f : StepCtl → StepCtl) (j : Nat) : (s.onStep f).ctxOf j = s.ctxOf j := rfl
@[simp] theorem State.onHank_pending (s : State) (f : Hank → Hank) : (s.onHank f).pending = s.pending := rfl
@[simp] theorem State.onHank_clock (s : State) (f : Hank → Hank) : (s.onHank f).clock = s.clock := rfl
@[simp] theorem State.onHank_free (s : State) (f : Hank → Hank) : (s.onHank f).free = s.free := rfl
@[simp] theorem State.onHank_out (s : State) (f : Hank → Hank) : (s.onHank f).out = s.out := rfl
@[simp] theorem State.onHank_hostReply (s : State) (f : Hank → Hank) : (s.onHank f).hostReply = s.hostReply := rfl
@[simp] theorem State.onHank_regs (s : State) (f : Hank → Hank) : (s.onHank f).regs = s.regs := rfl
@[simp] theorem State.onHank_cores (s : State) (f : Hank → Hank) : (s.onHank f).cores = s.cores := rfl
@[simp] theorem State.onHank_knots (s : State) (f : Hank → Hank) : (s.onHank f).knots = s.knots := rfl
@[simp] theorem State.onHank_ctxs (s : State) (f : Hank → Hank) : (s.onHank f).ctxs = s.ctxs := rfl
@[simp] theorem State.onHank_hbm (s : State) (f : Hank → Hank) : (s.onHank f).hbm = s.hbm := rfl
@[simp] theorem State.onHank_scratch (s : State) (f : Hank → Hank) : (s.onHank f).scratch = s.scratch := rfl
@[simp] theorem State.onHank_poison (s : State) (f : Hank → Hank) : (s.onHank f).poison = s.poison := rfl
@[simp] theorem State.onHank_mem (s : State) (f : Hank → Hank) : (s.onHank f).mem = s.mem := rfl
@[simp] theorem State.onHank_step (s : State) (f : Hank → Hank) : (s.onHank f).step = s.step := rfl
@[simp] theorem State.onHank_job (s : State) (f : Hank → Hank) : (s.onHank f).job = s.job := rfl
@[simp] theorem State.onHank_siteMax (s : State) (f : Hank → Hank) : (s.onHank f).siteMax = s.siteMax := rfl
@[simp] theorem State.onHank_sitePend (s : State) (f : Hank → Hank) : (s.onHank f).sitePend = s.sitePend := rfl
@[simp] theorem State.onHank_clusterMap (s : State) (f : Hank → Hank) : (s.onHank f).clusterMap = s.clusterMap := rfl
@[simp] theorem State.onHank_whips (s : State) (f : Hank → Hank) : (s.onHank f).whips = s.whips := rfl
@[simp] theorem State.onHank_caps (s : State) (f : Hank → Hank) : (s.onHank f).caps = s.caps := rfl
@[simp] theorem State.onHank_wMax (s : State) (f : Hank → Hank) : (s.onHank f).wMax = s.wMax := rfl
@[simp] theorem State.onHank_wPend (s : State) (f : Hank → Hank) : (s.onHank f).wPend = s.wPend := rfl
@[simp] theorem State.onHank_plan (s : State) (f : Hank → Hank) : (s.onHank f).plan = s.plan := rfl
@[simp] theorem State.onHank_route (s : State) (f : Hank → Hank) : (s.onHank f).route = s.route := rfl
@[simp] theorem State.onHank_links (s : State) (f : Hank → Hank) : (s.onHank f).links = s.links := rfl
@[simp] theorem State.onHank_sec (s : State) (f : Hank → Hank) : (s.onHank f).sec = s.sec := rfl
@[simp] theorem State.onHank_journal (s : State) (f : Hank → Hank) : (s.onHank f).journal = s.journal := rfl
@[simp] theorem State.onHank_mirror (s : State) (f : Hank → Hank) : (s.onHank f).mirror = s.mirror := rfl
@[simp] theorem State.onHank_rel (s : State) (f : Hank → Hank) : (s.onHank f).rel = s.rel := rfl
@[simp] theorem State.onHank_pwr (s : State) (f : Hank → Hank) : (s.onHank f).pwr = s.pwr := rfl
@[simp] theorem State.onHank_load (s : State) (f : Hank → Hank) : (s.onHank f).load = s.load := rfl
@[simp] theorem State.onHank_hostOut (s : State) (f : Hank → Hank) : (s.onHank f).hostOut = s.hostOut := rfl
@[simp] theorem State.onHank_i3c (s : State) (f : Hank → Hank) : (s.onHank f).i3c = s.i3c := rfl
@[simp] theorem State.onHank_waiting (s : State) (f : Hank → Hank) : (s.onHank f).waiting = s.waiting := rfl
@[simp] theorem State.onHank_stackReset (s : State) (f : Hank → Hank) : (s.onHank f).stackReset = s.stackReset := rfl
@[simp] theorem State.onHank_reg (s : State) (f : Hank → Hank) (j : RegId) : (s.onHank f).reg j = s.reg j := rfl
@[simp] theorem State.onHank_core (s : State) (f : Hank → Hank) (j : Nat) : (s.onHank f).core j = s.core j := rfl
@[simp] theorem State.onHank_knot (s : State) (f : Hank → Hank) (j : Nat) : (s.onHank f).knot j = s.knot j := rfl
@[simp] theorem State.onHank_link (s : State) (f : Hank → Hank) (j : Nat) : (s.onHank f).link j = s.link j := rfl
@[simp] theorem State.onHank_whip (s : State) (f : Hank → Hank) (j : Nat) : (s.onHank f).whip j = s.whip j := rfl
@[simp] theorem State.onHank_cap (s : State) (f : Hank → Hank) (j : Nat) : (s.onHank f).cap j = s.cap j := rfl
@[simp] theorem State.onHank_ctx (s : State) (f : Hank → Hank) (j : Nat) : (s.onHank f).ctx j = s.ctx j := rfl
@[simp] theorem State.onHank_ctxOf (s : State) (f : Hank → Hank) (j : Nat) : (s.onHank f).ctxOf j = s.ctxOf j := rfl
@[simp] theorem State.setRegFld_pending (s : State) (id : RegId) (hi lo v : Nat) : (s.setRegFld id hi lo v).pending = s.pending := rfl
@[simp] theorem State.setRegFld_clock (s : State) (id : RegId) (hi lo v : Nat) : (s.setRegFld id hi lo v).clock = s.clock := rfl
@[simp] theorem State.setRegFld_free (s : State) (id : RegId) (hi lo v : Nat) : (s.setRegFld id hi lo v).free = s.free := rfl
@[simp] theorem State.setRegFld_out (s : State) (id : RegId) (hi lo v : Nat) : (s.setRegFld id hi lo v).out = s.out := rfl
@[simp] theorem State.setRegFld_hostReply (s : State) (id : RegId) (hi lo v : Nat) : (s.setRegFld id hi lo v).hostReply = s.hostReply := rfl
@[simp] theorem State.setRegFld_cores (s : State) (id : RegId) (hi lo v : Nat) : (s.setRegFld id hi lo v).cores = s.cores := rfl
@[simp] theorem State.setRegFld_knots (s : State) (id : RegId) (hi lo v : Nat) : (s.setRegFld id hi lo v).knots = s.knots := rfl
@[simp] theorem State.setRegFld_ctxs (s : State) (id : RegId) (hi lo v : Nat) : (s.setRegFld id hi lo v).ctxs = s.ctxs := rfl
@[simp] theorem State.setRegFld_hbm (s : State) (id : RegId) (hi lo v : Nat) : (s.setRegFld id hi lo v).hbm = s.hbm := rfl
@[simp] theorem State.setRegFld_scratch (s : State) (id : RegId) (hi lo v : Nat) : (s.setRegFld id hi lo v).scratch = s.scratch := rfl
@[simp] theorem State.setRegFld_poison (s : State) (id : RegId) (hi lo v : Nat) : (s.setRegFld id hi lo v).poison = s.poison := rfl
@[simp] theorem State.setRegFld_mem (s : State) (id : RegId) (hi lo v : Nat) : (s.setRegFld id hi lo v).mem = s.mem := rfl
@[simp] theorem State.setRegFld_step (s : State) (id : RegId) (hi lo v : Nat) : (s.setRegFld id hi lo v).step = s.step := rfl
@[simp] theorem State.setRegFld_job (s : State) (id : RegId) (hi lo v : Nat) : (s.setRegFld id hi lo v).job = s.job := rfl
@[simp] theorem State.setRegFld_siteMax (s : State) (id : RegId) (hi lo v : Nat) : (s.setRegFld id hi lo v).siteMax = s.siteMax := rfl
@[simp] theorem State.setRegFld_sitePend (s : State) (id : RegId) (hi lo v : Nat) : (s.setRegFld id hi lo v).sitePend = s.sitePend := rfl
@[simp] theorem State.setRegFld_clusterMap (s : State) (id : RegId) (hi lo v : Nat) : (s.setRegFld id hi lo v).clusterMap = s.clusterMap := rfl
@[simp] theorem State.setRegFld_whips (s : State) (id : RegId) (hi lo v : Nat) : (s.setRegFld id hi lo v).whips = s.whips := rfl
@[simp] theorem State.setRegFld_caps (s : State) (id : RegId) (hi lo v : Nat) : (s.setRegFld id hi lo v).caps = s.caps := rfl
@[simp] theorem State.setRegFld_wMax (s : State) (id : RegId) (hi lo v : Nat) : (s.setRegFld id hi lo v).wMax = s.wMax := rfl
@[simp] theorem State.setRegFld_wPend (s : State) (id : RegId) (hi lo v : Nat) : (s.setRegFld id hi lo v).wPend = s.wPend := rfl
@[simp] theorem State.setRegFld_plan (s : State) (id : RegId) (hi lo v : Nat) : (s.setRegFld id hi lo v).plan = s.plan := rfl
@[simp] theorem State.setRegFld_route (s : State) (id : RegId) (hi lo v : Nat) : (s.setRegFld id hi lo v).route = s.route := rfl
@[simp] theorem State.setRegFld_hank (s : State) (id : RegId) (hi lo v : Nat) : (s.setRegFld id hi lo v).hank = s.hank := rfl
@[simp] theorem State.setRegFld_links (s : State) (id : RegId) (hi lo v : Nat) : (s.setRegFld id hi lo v).links = s.links := rfl
@[simp] theorem State.setRegFld_sec (s : State) (id : RegId) (hi lo v : Nat) : (s.setRegFld id hi lo v).sec = s.sec := rfl
@[simp] theorem State.setRegFld_journal (s : State) (id : RegId) (hi lo v : Nat) : (s.setRegFld id hi lo v).journal = s.journal := rfl
@[simp] theorem State.setRegFld_mirror (s : State) (id : RegId) (hi lo v : Nat) : (s.setRegFld id hi lo v).mirror = s.mirror := rfl
@[simp] theorem State.setRegFld_rel (s : State) (id : RegId) (hi lo v : Nat) : (s.setRegFld id hi lo v).rel = s.rel := rfl
@[simp] theorem State.setRegFld_pwr (s : State) (id : RegId) (hi lo v : Nat) : (s.setRegFld id hi lo v).pwr = s.pwr := rfl
@[simp] theorem State.setRegFld_load (s : State) (id : RegId) (hi lo v : Nat) : (s.setRegFld id hi lo v).load = s.load := rfl
@[simp] theorem State.setRegFld_hostOut (s : State) (id : RegId) (hi lo v : Nat) : (s.setRegFld id hi lo v).hostOut = s.hostOut := rfl
@[simp] theorem State.setRegFld_i3c (s : State) (id : RegId) (hi lo v : Nat) : (s.setRegFld id hi lo v).i3c = s.i3c := rfl
@[simp] theorem State.setRegFld_waiting (s : State) (id : RegId) (hi lo v : Nat) : (s.setRegFld id hi lo v).waiting = s.waiting := rfl
@[simp] theorem State.setRegFld_stackReset (s : State) (id : RegId) (hi lo v : Nat) : (s.setRegFld id hi lo v).stackReset = s.stackReset := rfl
@[simp] theorem State.setRegFld_core (s : State) (id : RegId) (hi lo v : Nat) (j : Nat) : (s.setRegFld id hi lo v).core j = s.core j := rfl
@[simp] theorem State.setRegFld_knot (s : State) (id : RegId) (hi lo v : Nat) (j : Nat) : (s.setRegFld id hi lo v).knot j = s.knot j := rfl
@[simp] theorem State.setRegFld_link (s : State) (id : RegId) (hi lo v : Nat) (j : Nat) : (s.setRegFld id hi lo v).link j = s.link j := rfl
@[simp] theorem State.setRegFld_whip (s : State) (id : RegId) (hi lo v : Nat) (j : Nat) : (s.setRegFld id hi lo v).whip j = s.whip j := rfl
@[simp] theorem State.setRegFld_cap (s : State) (id : RegId) (hi lo v : Nat) (j : Nat) : (s.setRegFld id hi lo v).cap j = s.cap j := rfl
@[simp] theorem State.setRegFld_ctx (s : State) (id : RegId) (hi lo v : Nat) (j : Nat) : (s.setRegFld id hi lo v).ctx j = s.ctx j := rfl
@[simp] theorem State.setRegFld_ctxOf (s : State) (id : RegId) (hi lo v : Nat) (j : Nat) : (s.setRegFld id hi lo v).ctxOf j = s.ctxOf j := rfl
@[simp] theorem State.bump_pending (s : State) (id : RegId) (k : Nat) : (s.bump id k).pending = s.pending := by unfold State.bump; split <;> rfl
@[simp] theorem State.bump_clock (s : State) (id : RegId) (k : Nat) : (s.bump id k).clock = s.clock := by unfold State.bump; split <;> rfl
@[simp] theorem State.bump_free (s : State) (id : RegId) (k : Nat) : (s.bump id k).free = s.free := by unfold State.bump; split <;> rfl
@[simp] theorem State.bump_out (s : State) (id : RegId) (k : Nat) : (s.bump id k).out = s.out := by unfold State.bump; split <;> rfl
@[simp] theorem State.bump_hostReply (s : State) (id : RegId) (k : Nat) : (s.bump id k).hostReply = s.hostReply := by unfold State.bump; split <;> rfl
@[simp] theorem State.bump_cores (s : State) (id : RegId) (k : Nat) : (s.bump id k).cores = s.cores := by unfold State.bump; split <;> rfl
@[simp] theorem State.bump_knots (s : State) (id : RegId) (k : Nat) : (s.bump id k).knots = s.knots := by unfold State.bump; split <;> rfl
@[simp] theorem State.bump_ctxs (s : State) (id : RegId) (k : Nat) : (s.bump id k).ctxs = s.ctxs := by unfold State.bump; split <;> rfl
@[simp] theorem State.bump_hbm (s : State) (id : RegId) (k : Nat) : (s.bump id k).hbm = s.hbm := by unfold State.bump; split <;> rfl
@[simp] theorem State.bump_scratch (s : State) (id : RegId) (k : Nat) : (s.bump id k).scratch = s.scratch := by unfold State.bump; split <;> rfl
@[simp] theorem State.bump_poison (s : State) (id : RegId) (k : Nat) : (s.bump id k).poison = s.poison := by unfold State.bump; split <;> rfl
@[simp] theorem State.bump_mem (s : State) (id : RegId) (k : Nat) : (s.bump id k).mem = s.mem := by unfold State.bump; split <;> rfl
@[simp] theorem State.bump_step (s : State) (id : RegId) (k : Nat) : (s.bump id k).step = s.step := by unfold State.bump; split <;> rfl
@[simp] theorem State.bump_job (s : State) (id : RegId) (k : Nat) : (s.bump id k).job = s.job := by unfold State.bump; split <;> rfl
@[simp] theorem State.bump_siteMax (s : State) (id : RegId) (k : Nat) : (s.bump id k).siteMax = s.siteMax := by unfold State.bump; split <;> rfl
@[simp] theorem State.bump_sitePend (s : State) (id : RegId) (k : Nat) : (s.bump id k).sitePend = s.sitePend := by unfold State.bump; split <;> rfl
@[simp] theorem State.bump_clusterMap (s : State) (id : RegId) (k : Nat) : (s.bump id k).clusterMap = s.clusterMap := by unfold State.bump; split <;> rfl
@[simp] theorem State.bump_whips (s : State) (id : RegId) (k : Nat) : (s.bump id k).whips = s.whips := by unfold State.bump; split <;> rfl
@[simp] theorem State.bump_caps (s : State) (id : RegId) (k : Nat) : (s.bump id k).caps = s.caps := by unfold State.bump; split <;> rfl
@[simp] theorem State.bump_wMax (s : State) (id : RegId) (k : Nat) : (s.bump id k).wMax = s.wMax := by unfold State.bump; split <;> rfl
@[simp] theorem State.bump_wPend (s : State) (id : RegId) (k : Nat) : (s.bump id k).wPend = s.wPend := by unfold State.bump; split <;> rfl
@[simp] theorem State.bump_plan (s : State) (id : RegId) (k : Nat) : (s.bump id k).plan = s.plan := by unfold State.bump; split <;> rfl
@[simp] theorem State.bump_route (s : State) (id : RegId) (k : Nat) : (s.bump id k).route = s.route := by unfold State.bump; split <;> rfl
@[simp] theorem State.bump_hank (s : State) (id : RegId) (k : Nat) : (s.bump id k).hank = s.hank := by unfold State.bump; split <;> rfl
@[simp] theorem State.bump_links (s : State) (id : RegId) (k : Nat) : (s.bump id k).links = s.links := by unfold State.bump; split <;> rfl
@[simp] theorem State.bump_sec (s : State) (id : RegId) (k : Nat) : (s.bump id k).sec = s.sec := by unfold State.bump; split <;> rfl
@[simp] theorem State.bump_journal (s : State) (id : RegId) (k : Nat) : (s.bump id k).journal = s.journal := by unfold State.bump; split <;> rfl
@[simp] theorem State.bump_mirror (s : State) (id : RegId) (k : Nat) : (s.bump id k).mirror = s.mirror := by unfold State.bump; split <;> rfl
@[simp] theorem State.bump_rel (s : State) (id : RegId) (k : Nat) : (s.bump id k).rel = s.rel := by unfold State.bump; split <;> rfl
@[simp] theorem State.bump_pwr (s : State) (id : RegId) (k : Nat) : (s.bump id k).pwr = s.pwr := by unfold State.bump; split <;> rfl
@[simp] theorem State.bump_load (s : State) (id : RegId) (k : Nat) : (s.bump id k).load = s.load := by unfold State.bump; split <;> rfl
@[simp] theorem State.bump_hostOut (s : State) (id : RegId) (k : Nat) : (s.bump id k).hostOut = s.hostOut := by unfold State.bump; split <;> rfl
@[simp] theorem State.bump_i3c (s : State) (id : RegId) (k : Nat) : (s.bump id k).i3c = s.i3c := by unfold State.bump; split <;> rfl
@[simp] theorem State.bump_waiting (s : State) (id : RegId) (k : Nat) : (s.bump id k).waiting = s.waiting := by unfold State.bump; split <;> rfl
@[simp] theorem State.bump_stackReset (s : State) (id : RegId) (k : Nat) : (s.bump id k).stackReset = s.stackReset := by unfold State.bump; split <;> rfl
@[simp] theorem State.bump_core (s : State) (id : RegId) (k : Nat) (j : Nat) : (s.bump id k).core j = s.core j := by unfold State.bump; split <;> rfl
@[simp] theorem State.bump_knot (s : State) (id : RegId) (k : Nat) (j : Nat) : (s.bump id k).knot j = s.knot j := by unfold State.bump; split <;> rfl
@[simp] theorem State.bump_link (s : State) (id : RegId) (k : Nat) (j : Nat) : (s.bump id k).link j = s.link j := by unfold State.bump; split <;> rfl
@[simp] theorem State.bump_whip (s : State) (id : RegId) (k : Nat) (j : Nat) : (s.bump id k).whip j = s.whip j := by unfold State.bump; split <;> rfl
@[simp] theorem State.bump_cap (s : State) (id : RegId) (k : Nat) (j : Nat) : (s.bump id k).cap j = s.cap j := by unfold State.bump; split <;> rfl
@[simp] theorem State.bump_ctx (s : State) (id : RegId) (k : Nat) (j : Nat) : (s.bump id k).ctx j = s.ctx j := by unfold State.bump; split <;> rfl
@[simp] theorem State.bump_ctxOf (s : State) (id : RegId) (k : Nat) (j : Nat) : (s.bump id k).ctxOf j = s.ctxOf j := by unfold State.bump; split <;> rfl
@[simp] theorem State.detail_pending (s : State) (id : RegId) (v : W64) : (s.detail id v).pending = s.pending := by unfold State.detail; split <;> rfl
@[simp] theorem State.detail_clock (s : State) (id : RegId) (v : W64) : (s.detail id v).clock = s.clock := by unfold State.detail; split <;> rfl
@[simp] theorem State.detail_free (s : State) (id : RegId) (v : W64) : (s.detail id v).free = s.free := by unfold State.detail; split <;> rfl
@[simp] theorem State.detail_out (s : State) (id : RegId) (v : W64) : (s.detail id v).out = s.out := by unfold State.detail; split <;> rfl
@[simp] theorem State.detail_hostReply (s : State) (id : RegId) (v : W64) : (s.detail id v).hostReply = s.hostReply := by unfold State.detail; split <;> rfl
@[simp] theorem State.detail_cores (s : State) (id : RegId) (v : W64) : (s.detail id v).cores = s.cores := by unfold State.detail; split <;> rfl
@[simp] theorem State.detail_knots (s : State) (id : RegId) (v : W64) : (s.detail id v).knots = s.knots := by unfold State.detail; split <;> rfl
@[simp] theorem State.detail_ctxs (s : State) (id : RegId) (v : W64) : (s.detail id v).ctxs = s.ctxs := by unfold State.detail; split <;> rfl
@[simp] theorem State.detail_hbm (s : State) (id : RegId) (v : W64) : (s.detail id v).hbm = s.hbm := by unfold State.detail; split <;> rfl
@[simp] theorem State.detail_scratch (s : State) (id : RegId) (v : W64) : (s.detail id v).scratch = s.scratch := by unfold State.detail; split <;> rfl
@[simp] theorem State.detail_poison (s : State) (id : RegId) (v : W64) : (s.detail id v).poison = s.poison := by unfold State.detail; split <;> rfl
@[simp] theorem State.detail_mem (s : State) (id : RegId) (v : W64) : (s.detail id v).mem = s.mem := by unfold State.detail; split <;> rfl
@[simp] theorem State.detail_step (s : State) (id : RegId) (v : W64) : (s.detail id v).step = s.step := by unfold State.detail; split <;> rfl
@[simp] theorem State.detail_job (s : State) (id : RegId) (v : W64) : (s.detail id v).job = s.job := by unfold State.detail; split <;> rfl
@[simp] theorem State.detail_siteMax (s : State) (id : RegId) (v : W64) : (s.detail id v).siteMax = s.siteMax := by unfold State.detail; split <;> rfl
@[simp] theorem State.detail_sitePend (s : State) (id : RegId) (v : W64) : (s.detail id v).sitePend = s.sitePend := by unfold State.detail; split <;> rfl
@[simp] theorem State.detail_clusterMap (s : State) (id : RegId) (v : W64) : (s.detail id v).clusterMap = s.clusterMap := by unfold State.detail; split <;> rfl
@[simp] theorem State.detail_whips (s : State) (id : RegId) (v : W64) : (s.detail id v).whips = s.whips := by unfold State.detail; split <;> rfl
@[simp] theorem State.detail_caps (s : State) (id : RegId) (v : W64) : (s.detail id v).caps = s.caps := by unfold State.detail; split <;> rfl
@[simp] theorem State.detail_wMax (s : State) (id : RegId) (v : W64) : (s.detail id v).wMax = s.wMax := by unfold State.detail; split <;> rfl
@[simp] theorem State.detail_wPend (s : State) (id : RegId) (v : W64) : (s.detail id v).wPend = s.wPend := by unfold State.detail; split <;> rfl
@[simp] theorem State.detail_plan (s : State) (id : RegId) (v : W64) : (s.detail id v).plan = s.plan := by unfold State.detail; split <;> rfl
@[simp] theorem State.detail_route (s : State) (id : RegId) (v : W64) : (s.detail id v).route = s.route := by unfold State.detail; split <;> rfl
@[simp] theorem State.detail_hank (s : State) (id : RegId) (v : W64) : (s.detail id v).hank = s.hank := by unfold State.detail; split <;> rfl
@[simp] theorem State.detail_links (s : State) (id : RegId) (v : W64) : (s.detail id v).links = s.links := by unfold State.detail; split <;> rfl
@[simp] theorem State.detail_sec (s : State) (id : RegId) (v : W64) : (s.detail id v).sec = s.sec := by unfold State.detail; split <;> rfl
@[simp] theorem State.detail_journal (s : State) (id : RegId) (v : W64) : (s.detail id v).journal = s.journal := by unfold State.detail; split <;> rfl
@[simp] theorem State.detail_mirror (s : State) (id : RegId) (v : W64) : (s.detail id v).mirror = s.mirror := by unfold State.detail; split <;> rfl
@[simp] theorem State.detail_rel (s : State) (id : RegId) (v : W64) : (s.detail id v).rel = s.rel := by unfold State.detail; split <;> rfl
@[simp] theorem State.detail_pwr (s : State) (id : RegId) (v : W64) : (s.detail id v).pwr = s.pwr := by unfold State.detail; split <;> rfl
@[simp] theorem State.detail_load (s : State) (id : RegId) (v : W64) : (s.detail id v).load = s.load := by unfold State.detail; split <;> rfl
@[simp] theorem State.detail_hostOut (s : State) (id : RegId) (v : W64) : (s.detail id v).hostOut = s.hostOut := by unfold State.detail; split <;> rfl
@[simp] theorem State.detail_i3c (s : State) (id : RegId) (v : W64) : (s.detail id v).i3c = s.i3c := by unfold State.detail; split <;> rfl
@[simp] theorem State.detail_waiting (s : State) (id : RegId) (v : W64) : (s.detail id v).waiting = s.waiting := by unfold State.detail; split <;> rfl
@[simp] theorem State.detail_stackReset (s : State) (id : RegId) (v : W64) : (s.detail id v).stackReset = s.stackReset := by unfold State.detail; split <;> rfl
@[simp] theorem State.detail_core (s : State) (id : RegId) (v : W64) (j : Nat) : (s.detail id v).core j = s.core j := by unfold State.detail; split <;> rfl
@[simp] theorem State.detail_knot (s : State) (id : RegId) (v : W64) (j : Nat) : (s.detail id v).knot j = s.knot j := by unfold State.detail; split <;> rfl
@[simp] theorem State.detail_link (s : State) (id : RegId) (v : W64) (j : Nat) : (s.detail id v).link j = s.link j := by unfold State.detail; split <;> rfl
@[simp] theorem State.detail_whip (s : State) (id : RegId) (v : W64) (j : Nat) : (s.detail id v).whip j = s.whip j := by unfold State.detail; split <;> rfl
@[simp] theorem State.detail_cap (s : State) (id : RegId) (v : W64) (j : Nat) : (s.detail id v).cap j = s.cap j := by unfold State.detail; split <;> rfl
@[simp] theorem State.detail_ctx (s : State) (id : RegId) (v : W64) (j : Nat) : (s.detail id v).ctx j = s.ctx j := by unfold State.detail; split <;> rfl
@[simp] theorem State.detail_ctxOf (s : State) (id : RegId) (v : W64) (j : Nat) : (s.detail id v).ctxOf j = s.ctxOf j := by unfold State.detail; split <;> rfl
@[simp] theorem State.setCause_pending (s : State) (p : Part) (b : Nat) : (s.setCause p b).pending = s.pending := by simp [State.setCause]
@[simp] theorem State.setCause_clock (s : State) (p : Part) (b : Nat) : (s.setCause p b).clock = s.clock := by simp [State.setCause]
@[simp] theorem State.setCause_free (s : State) (p : Part) (b : Nat) : (s.setCause p b).free = s.free := by simp [State.setCause]
@[simp] theorem State.setCause_out (s : State) (p : Part) (b : Nat) : (s.setCause p b).out = s.out := by simp [State.setCause]
@[simp] theorem State.setCause_hostReply (s : State) (p : Part) (b : Nat) : (s.setCause p b).hostReply = s.hostReply := by simp [State.setCause]
@[simp] theorem State.setCause_cores (s : State) (p : Part) (b : Nat) : (s.setCause p b).cores = s.cores := by simp [State.setCause]
@[simp] theorem State.setCause_knots (s : State) (p : Part) (b : Nat) : (s.setCause p b).knots = s.knots := by simp [State.setCause]
@[simp] theorem State.setCause_ctxs (s : State) (p : Part) (b : Nat) : (s.setCause p b).ctxs = s.ctxs := by simp [State.setCause]
@[simp] theorem State.setCause_hbm (s : State) (p : Part) (b : Nat) : (s.setCause p b).hbm = s.hbm := by simp [State.setCause]
@[simp] theorem State.setCause_scratch (s : State) (p : Part) (b : Nat) : (s.setCause p b).scratch = s.scratch := by simp [State.setCause]
@[simp] theorem State.setCause_poison (s : State) (p : Part) (b : Nat) : (s.setCause p b).poison = s.poison := by simp [State.setCause]
@[simp] theorem State.setCause_mem (s : State) (p : Part) (b : Nat) : (s.setCause p b).mem = s.mem := by simp [State.setCause]
@[simp] theorem State.setCause_step (s : State) (p : Part) (b : Nat) : (s.setCause p b).step = s.step := by simp [State.setCause]
@[simp] theorem State.setCause_job (s : State) (p : Part) (b : Nat) : (s.setCause p b).job = s.job := by simp [State.setCause]
@[simp] theorem State.setCause_siteMax (s : State) (p : Part) (b : Nat) : (s.setCause p b).siteMax = s.siteMax := by simp [State.setCause]
@[simp] theorem State.setCause_sitePend (s : State) (p : Part) (b : Nat) : (s.setCause p b).sitePend = s.sitePend := by simp [State.setCause]
@[simp] theorem State.setCause_clusterMap (s : State) (p : Part) (b : Nat) : (s.setCause p b).clusterMap = s.clusterMap := by simp [State.setCause]
@[simp] theorem State.setCause_whips (s : State) (p : Part) (b : Nat) : (s.setCause p b).whips = s.whips := by simp [State.setCause]
@[simp] theorem State.setCause_caps (s : State) (p : Part) (b : Nat) : (s.setCause p b).caps = s.caps := by simp [State.setCause]
@[simp] theorem State.setCause_wMax (s : State) (p : Part) (b : Nat) : (s.setCause p b).wMax = s.wMax := by simp [State.setCause]
@[simp] theorem State.setCause_wPend (s : State) (p : Part) (b : Nat) : (s.setCause p b).wPend = s.wPend := by simp [State.setCause]
@[simp] theorem State.setCause_plan (s : State) (p : Part) (b : Nat) : (s.setCause p b).plan = s.plan := by simp [State.setCause]
@[simp] theorem State.setCause_route (s : State) (p : Part) (b : Nat) : (s.setCause p b).route = s.route := by simp [State.setCause]
@[simp] theorem State.setCause_hank (s : State) (p : Part) (b : Nat) : (s.setCause p b).hank = s.hank := by simp [State.setCause]
@[simp] theorem State.setCause_links (s : State) (p : Part) (b : Nat) : (s.setCause p b).links = s.links := by simp [State.setCause]
@[simp] theorem State.setCause_sec (s : State) (p : Part) (b : Nat) : (s.setCause p b).sec = s.sec := by simp [State.setCause]
@[simp] theorem State.setCause_journal (s : State) (p : Part) (b : Nat) : (s.setCause p b).journal = s.journal := by simp [State.setCause]
@[simp] theorem State.setCause_mirror (s : State) (p : Part) (b : Nat) : (s.setCause p b).mirror = s.mirror := by simp [State.setCause]
@[simp] theorem State.setCause_rel (s : State) (p : Part) (b : Nat) : (s.setCause p b).rel = s.rel := by simp [State.setCause]
@[simp] theorem State.setCause_pwr (s : State) (p : Part) (b : Nat) : (s.setCause p b).pwr = s.pwr := by simp [State.setCause]
@[simp] theorem State.setCause_load (s : State) (p : Part) (b : Nat) : (s.setCause p b).load = s.load := by simp [State.setCause]
@[simp] theorem State.setCause_hostOut (s : State) (p : Part) (b : Nat) : (s.setCause p b).hostOut = s.hostOut := by simp [State.setCause]
@[simp] theorem State.setCause_i3c (s : State) (p : Part) (b : Nat) : (s.setCause p b).i3c = s.i3c := by simp [State.setCause]
@[simp] theorem State.setCause_waiting (s : State) (p : Part) (b : Nat) : (s.setCause p b).waiting = s.waiting := by simp [State.setCause]
@[simp] theorem State.setCause_stackReset (s : State) (p : Part) (b : Nat) : (s.setCause p b).stackReset = s.stackReset := by simp [State.setCause]
@[simp] theorem State.setCause_core (s : State) (p : Part) (b : Nat) (j : Nat) : (s.setCause p b).core j = s.core j := by simp [State.setCause]
@[simp] theorem State.setCause_knot (s : State) (p : Part) (b : Nat) (j : Nat) : (s.setCause p b).knot j = s.knot j := by simp [State.setCause]
@[simp] theorem State.setCause_link (s : State) (p : Part) (b : Nat) (j : Nat) : (s.setCause p b).link j = s.link j := by simp [State.setCause]
@[simp] theorem State.setCause_whip (s : State) (p : Part) (b : Nat) (j : Nat) : (s.setCause p b).whip j = s.whip j := by simp [State.setCause]
@[simp] theorem State.setCause_cap (s : State) (p : Part) (b : Nat) (j : Nat) : (s.setCause p b).cap j = s.cap j := by simp [State.setCause]
@[simp] theorem State.setCause_ctx (s : State) (p : Part) (b : Nat) (j : Nat) : (s.setCause p b).ctx j = s.ctx j := by simp [State.setCause]
@[simp] theorem State.setCause_ctxOf (s : State) (p : Part) (b : Nat) (j : Nat) : (s.setCause p b).ctxOf j = s.ctxOf j := by simp [State.setCause]

end Sys2Proof.Machine
end

