-- ==== Sys2Proof/Laws/Frame.lean ====
section
/-! SUPPORT. What sending a message and raising a cause leave alone: every field but the registers, links, outputs and the step's fault flag, and every register but the causes' own. -/

namespace Sys2Proof.Machine

/-- Two states agree on everything but registers, links, outputs and the step controller. -/
structure SameBody (s t : State) : Prop where
  pending : t.pending = s.pending
  clock : t.clock = s.clock
  free : t.free = s.free
  hostReply : t.hostReply = s.hostReply
  cores : t.cores = s.cores
  knots : t.knots = s.knots
  ctxs : t.ctxs = s.ctxs
  hbm : t.hbm = s.hbm
  scratch : t.scratch = s.scratch
  poison : t.poison = s.poison
  mem : t.mem = s.mem
  job : t.job = s.job
  siteMax : t.siteMax = s.siteMax
  sitePend : t.sitePend = s.sitePend
  clusterMap : t.clusterMap = s.clusterMap
  whips : t.whips = s.whips
  caps : t.caps = s.caps
  wMax : t.wMax = s.wMax
  wPend : t.wPend = s.wPend
  plan : t.plan = s.plan
  route : t.route = s.route
  hank : t.hank = s.hank
  sec : t.sec = s.sec
  journal : t.journal = s.journal
  mirror : t.mirror = s.mirror
  rel : t.rel = s.rel
  pwr : t.pwr = s.pwr
  load : t.load = s.load
  hostOut : t.hostOut = s.hostOut
  i3c : t.i3c = s.i3c
  waiting : t.waiting = s.waiting
  stackReset : t.stackReset = s.stackReset

theorem SameBody.refl (s : State) : SameBody s s := by constructor <;> rfl

theorem SameBody.trans {s t u : State} (a : SameBody s t) (b : SameBody t u) : SameBody s u where
  pending := b.pending.trans a.pending
  clock := b.clock.trans a.clock
  free := b.free.trans a.free
  hostReply := b.hostReply.trans a.hostReply
  cores := b.cores.trans a.cores
  knots := b.knots.trans a.knots
  ctxs := b.ctxs.trans a.ctxs
  hbm := b.hbm.trans a.hbm
  scratch := b.scratch.trans a.scratch
  poison := b.poison.trans a.poison
  mem := b.mem.trans a.mem
  job := b.job.trans a.job
  siteMax := b.siteMax.trans a.siteMax
  sitePend := b.sitePend.trans a.sitePend
  clusterMap := b.clusterMap.trans a.clusterMap
  whips := b.whips.trans a.whips
  caps := b.caps.trans a.caps
  wMax := b.wMax.trans a.wMax
  wPend := b.wPend.trans a.wPend
  plan := b.plan.trans a.plan
  route := b.route.trans a.route
  hank := b.hank.trans a.hank
  sec := b.sec.trans a.sec
  journal := b.journal.trans a.journal
  mirror := b.mirror.trans a.mirror
  rel := b.rel.trans a.rel
  pwr := b.pwr.trans a.pwr
  load := b.load.trans a.load
  hostOut := b.hostOut.trans a.hostOut
  i3c := b.i3c.trans a.i3c
  waiting := b.waiting.trans a.waiting
  stackReset := b.stackReset.trans a.stackReset

theorem SameBody.core {s t : State} (h : SameBody s t) (n : Nat) : t.core n = s.core n := by
  simp only [State.core, h.cores]

theorem SameBody.knot {s t : State} (h : SameBody s t) (d : Nat) : t.knot d = s.knot d := by
  simp only [State.knot, h.knots]

theorem SameBody.whip {s t : State} (h : SameBody s t) (d : Nat) : t.whip d = s.whip d := by
  simp only [State.whip, h.whips]

theorem SameBody.cap {s t : State} (h : SameBody s t) (n : Nat) : t.cap n = s.cap n := by
  simp only [State.cap, h.caps]

theorem SameBody.ctx {s t : State} (h : SameBody s t) (n : Nat) : t.ctx n = s.ctx n := by
  simp only [State.ctx, h.ctxs]

theorem SameBody.ctxOf {s t : State} (h : SameBody s t) (n : Nat) : t.ctxOf n = s.ctxOf n := by
  simp only [State.ctxOf, h.job]

/-- What sending does: beside links and outputs, only flit counts change. -/
structure Sent (s t : State) : Prop where
  body : SameBody s t
  step : t.step = s.step
  reg : ∀ i : RegId, i.name ≠ .FLIT_TX_TOTAL → t.reg i = s.reg i

theorem Sent.refl (s : State) : Sent s s := ⟨.refl s, rfl, fun _ _ => rfl⟩

theorem Sent.trans {s t u : State} (a : Sent s t) (b : Sent t u) : Sent s u :=
  ⟨a.body.trans b.body, b.step.trans a.step, fun i h => (b.reg i h).trans (a.reg i h)⟩

/-- A fold keeps what each of its steps keeps. -/
theorem foldl_rel {α : Type} {R : State → State → Prop} (refl : ∀ s, R s s)
    (trans : ∀ {s t u}, R s t → R t u → R s u) (f : State → α → State) (h : ∀ s a, R s (f s a)) (l : List α) (s : State) :
    R s (l.foldl f s) := by
  induction l generalizing s with
  | nil => exact refl s
  | cons a t ih => exact trans (h s a) (ih (f s a))

theorem sent_setLink (s : State) (h : Nat) (l : LinkSt) : Sent s (s.setLink h l) := by
  refine ⟨by constructor <;> rfl, rfl, fun i _ => rfl⟩

theorem sent_out (s : State) (l : List OutMsg) : Sent s { s with out := l } := by
  refine ⟨by constructor <;> rfl, rfl, fun i _ => rfl⟩

theorem sent_wireFlit (s : State) (h head : Nat) (data : List Byte) : Sent s (s.wireFlit h head data).1 := by
  unfold State.wireFlit
  refine ⟨by constructor <;> simp, by simp, fun i hi => ?_⟩
  show ((s.setLink h _).bump (linkR .FLIT_TX_TOTAL h) 1).reg i = s.reg i
  rw [State.reg_bump_ne _ _ _ _ (by rintro rfl; exact hi rfl)]
  rfl

theorem sent_sendControl (s : State) (h : Nat) (nak : Bool) (a b : Nat) : Sent s (s.sendControl h nak a b) := by
  unfold State.sendControl
  split
  · exact sent_wireFlit ..
  · exact .refl s

/-- Credits returned, or held back. -/
theorem sent_giveCredits (s : State) (h vc n : Nat) : Sent s (s.giveCredits h vc n) := by
  unfold State.giveCredits
  split
  · exact sent_setLink ..
  · extract_lets t
    have ht : Sent s t := by
      simp only [t]
      split
      · exact sent_sendControl ..
      · exact .refl s
    split
    · exact ht.trans (sent_sendControl ..)
    · exact ht

theorem sent_sendData (s : State) (h vc : Nat) : Sent s (s.sendData h vc) := by
  unfold State.sendData
  extract_lets
  split
  · exact .refl s
  · extract_lets
    split
    · exact (((sent_setLink ..).trans (sent_wireFlit ..)).trans (sent_setLink ..)).trans (sent_giveCredits ..)
    · exact ((sent_setLink ..).trans (sent_wireFlit ..)).trans (sent_setLink ..)

theorem sent_pumpGo (n : Nat) (s : State) (h : Nat) : Sent s (State.pumpGo n s h) := by
  induction n generalizing s with
  | zero => exact .refl s
  | succ n ih =>
    unfold State.pumpGo
    extract_lets
    split
    · exact .refl s
    · split
      · exact .refl s
      · exact (sent_sendData ..).trans (ih _)

theorem sent_enqueue (s : State) (h vc : Nat) (m : TxMsg) : Sent s (s.enqueue h vc m) :=
  (sent_setLink ..).trans (sent_pumpGo ..)

theorem sent_sendBodies (s : State) (set : Nat) (dest : Option Nat) (vc ctx : Nat) (bodies : List (List Byte)) :
    Sent s (s.sendBodies set dest vc ctx bodies) := by
  unfold State.sendBodies
  refine foldl_rel Sent.refl Sent.trans _ (fun s e => ?_) _ s
  dsimp only
  split
  · exact .refl s
  · exact foldl_rel Sent.refl Sent.trans _ (fun s b => sent_enqueue ..) _ s

/-- Sending a message changes only links, outputs and flit counts. -/
theorem sent_send (s : State) (m : OutMsg) : Sent s (s.send m) := by
  unfold State.send
  extract_lets
  split
  · exact sent_out ..
  · exact (sent_out ..).trans (sent_sendBodies ..)

/-- Registers that raising a cause of part `p`, number `b`, may change. -/
def causeReg (p : Part) (b : Nat) (i : RegId) : Prop :=
  i = rid (leafOf p).status p ∨ i = rid (leafOf p).count p b ∨ i.name = .CHAFE ∨ i.name = .CHAFE_HEAD ∨
  i.name = .CHAFE_OVF_TOTAL ∨ i.name = .DIECTL_STATUS ∨ i.name = .DIECTL_COUNT ∨ i.name = .FLIT_TX_TOTAL

/-- What raising a cause does: its bit and count, the chafe log, a report; and for a fault the step's flag. -/
structure Raised (p : Part) (b : Nat) (s t : State) : Prop where
  body : SameBody s t
  step : t.step = s.step ∨ t.step = { s.step with fault := true }
  reg : ∀ i, ¬ causeReg p b i → t.reg i = s.reg i

theorem Raised.refl (p : Part) (b : Nat) (s : State) : Raised p b s s := ⟨.refl s, .inl rfl, fun _ _ => rfl⟩

theorem Raised.trans {p : Part} {b : Nat} {s t u : State} (x : Raised p b s t) (y : Raised p b t u) : Raised p b s u := by
  refine ⟨x.body.trans y.body, ?_, fun i h => (y.reg i h).trans (x.reg i h)⟩
  rcases x.step with e | e <;> rcases y.step with e' | e' <;> simp [e, e']

theorem raised_setReg (p : Part) (b : Nat) (s : State) (i : RegId) (v : W64) (h : causeReg p b i) : Raised p b s (s.setReg i v) := by
  refine ⟨by constructor <;> rfl, .inl rfl, fun j hj => State.reg_setReg_ne _ _ _ _ (by rintro rfl; exact hj h)⟩

theorem raised_bump (p : Part) (b : Nat) (s : State) (i : RegId) (k : Nat) (h : causeReg p b i) : Raised p b s (s.bump i k) := by
  unfold State.bump; split
  · exact .refl ..
  · exact raised_setReg _ _ _ _ _ h

theorem raised_setCause (p : Part) (b : Nat) (s : State) : Raised p b s (s.setCause p b) :=
  (raised_setReg _ _ _ _ _ (.inl rfl)).trans (raised_bump _ _ _ _ _ (.inr (.inl rfl)))

theorem raised_sent {p : Part} {b : Nat} {s t : State} (h : Sent s t) : Raised p b s t :=
  ⟨h.body, .inl h.step, fun i hi => h.reg i fun e => hi (by simp [causeReg, e])⟩

theorem raised_chafe (p : Part) (b : Nat) (s : State) (d : Nat) (ws : List W64) : Raised p b s (s.chafe d ws) := by
  unfold State.chafe
  extract_lets hid s' i s1 s2
  have hh : causeReg p b hid := by simp [causeReg, hid, rid]
  split
  · have h1 : Raised p b s s' := raised_bump _ _ _ _ _ (by simp [causeReg, rid])
    split
    · exact h1
    · have h2 : Raised p b s (s'.setRegFld hid 10 10 1) := h1.trans (raised_setReg _ _ _ _ _ hh)
      exact h2.trans <| (raised_setReg _ _ _ _ _ (by simp [causeReg, leafOf, Leaf.status, rid])).trans
        (raised_bump _ _ _ _ _ (by simp [causeReg, leafOf, Leaf.count, rid]))
  · have h1 : Raised p b s s1 :=
      foldl_rel (Raised.refl p b) Raised.trans _ (fun s a => raised_setReg _ _ _ _ _ (by simp [causeReg, rid])) _ s
    have h2 : Raised p b s s2 := h1.trans (raised_setReg _ _ _ _ _ hh)
    split
    · exact h2.trans (raised_setReg _ _ _ _ _ hh)
    · exact h2

theorem raised_fault (p : Part) (b : Nat) (s : State) (d : Nat) (ws : List W64) : Raised p b s (s.fault d ws) := by
  unfold State.fault
  extract_lets s1
  refine ((raised_chafe p b s d ws).trans ?_).trans (raised_sent (sent_send ..))
  exact ⟨by constructor <;> rfl, .inr rfl, fun _ _ => rfl⟩

/-- Everything that raising a cause can change. -/
theorem raised_raiseWith (s : State) (p : Part) (b ctx : Nat) (det : W64) (f : Bool) : Raised p b s (s.raiseWith p b ctx det f) := by
  unfold State.raiseWith
  extract_lets s1 g src ws
  have h1 : Raised p b s s1 := raised_setCause ..
  split
  · exact h1.trans (raised_fault ..)
  · clear_value ws g
    cases g <;> first | exact h1.trans (raised_chafe ..) | exact h1

/-- The STATUS register of a cause that is not the die controller's: its bit is or'ed in. -/
theorem reg_raiseWith_status (s : State) (p : Part) (b ctx : Nat) (det : W64) (f : Bool) (h : leafOf p ≠ .dieCtl) :
    (s.raiseWith p b ctx det f).reg (rid (leafOf p).status p) = s.reg (rid (leafOf p).status p) ||| w64 (2 ^ b) := by
  have hs : (s.setCause p b).reg (rid (leafOf p).status p) = s.reg (rid (leafOf p).status p) ||| w64 (2 ^ b) := by
    unfold State.setCause
    extract_lets l s1
    rw [State.reg_bump_ne _ _ _ _ (by intro e; cases hl : leafOf p <;> simp [rid, l, hl, Leaf.status, Leaf.count] at e)]
    simp [s1, l]
  have hn : ∀ q, ¬ causeReg (.fabric q) 0 (rid (leafOf p).status p) := by
    intro q e
    cases hp : p <;> subst hp <;> simp [causeReg, rid, leafOf, Leaf.status, Leaf.count] at e h
  unfold State.raiseWith
  extract_lets s1 g src ws
  split
  · rw [(raised_fault (.fabric 0) 0 s1 (partDie p) ws).reg _ (hn 0)]; exact hs
  · clear_value ws g
    cases g <;> first
      | exact hs
      | (rw [(raised_chafe (.fabric 0) 0 s1 (partDie p) ws).reg _ (hn 0)]; exact hs)

/-- An or'ed bit reads 1. -/
theorem bit_or_pow (w : W64) (b : Nat) (h : b < 64) : bit (w ||| w64 (2 ^ b)) b = true := by
  simp only [bit, fld, bits, w64, BitVec.toNat_or, BitVec.toNat_ofNat, decide_eq_true_eq]
  rw [Nat.mod_eq_of_lt (Nat.pow_lt_pow_right (by omega) h), Nat.shiftRight_eq_div_pow]
  have : (w.toNat ||| 2 ^ b).testBit b = true := by simp [Nat.testBit_or, Nat.testBit_two_pow_self]
  simp [Nat.testBit_eq_decide_div_mod_eq] at this
  simpa using this

theorem raised_raise (s : State) (p : Part) (b ctx : Nat) (det : W64) : Raised p b s (s.raise p b ctx det) :=
  raised_raiseWith ..

end Sys2Proof.Machine
end

