-- ==== Sys2Proof/Laws/Memory.lean ====
section
/-! SUPPORT. Memories: every operation keeps the canonical form; a byte read after a write; what byte runs and numbers say of each other; what one step's writers keep. -/

namespace Sys2Proof.Machine

/- Bytes and numbers (00 R9). -/

@[simp] theorem leBytes_length (n v : Nat) : (leBytes n v).length = n := by
  induction n generalizing v with
  | zero => rfl
  | succ n ih => simp [leBytes, ih]

theorem leNat_leBytes (n v : Nat) : leNat (leBytes n v) = v % 256 ^ n := by
  induction n generalizing v with
  | zero => simp [leBytes, leNat, Nat.mod_one]
  | succ n ih =>
    simp only [leBytes, leNat, ih, BitVec.toNat_ofNat]
    rw [Nat.pow_succ' (m := 256), Nat.mod_mul]

/-- A number that fits its bytes is read back. -/
theorem leNat_leBytes_of_lt {n v : Nat} (h : v < 256 ^ n) : leNat (leBytes n v) = v := by
  rw [leNat_leBytes, Nat.mod_eq_of_lt h]

theorem crcBit_lt {c : Nat} (h : c < 2 ^ 32) : crcBit c < 2 ^ 32 := by
  unfold crcBit
  split
  · exact Nat.xor_lt_two_pow (by omega) (by decide)
  · omega

theorem crcByte_lt {c : Nat} (b : Byte) (h : c < 2 ^ 32) : crcByte c b < 2 ^ 32 := by
  have go : ∀ (l : List Nat) (c : Nat), c < 2 ^ 32 → l.foldl (fun c _ => crcBit c) c < 2 ^ 32 := by
    intro l
    induction l with
    | nil => exact fun _ h => h
    | cons _ l ih => exact fun c h => ih _ (crcBit_lt h)
  exact go _ _ (Nat.xor_lt_two_pow h (by have := b.isLt; omega))

/-- A CRC is a 32-bit number. -/
theorem crc32_lt (bs : List Byte) : crc32 bs < 2 ^ 32 := by
  have go : ∀ (l : List Byte) (c : Nat), c < 2 ^ 32 → l.foldl crcByte c < 2 ^ 32 := by
    intro l
    induction l with
    | nil => exact fun _ h => h
    | cons b l ih => exact fun c h => ih _ (crcByte_lt b h)
  exact Nat.xor_lt_two_pow (go _ _ (by decide)) (by decide)

/- The canonical form. -/

theorem Memory.wfFrom_mono {lo lo' : Nat} {m : List Host.Cell} (h : lo' ≤ lo) (w : Memory.wfFrom lo m = true) : Memory.wfFrom lo' m = true := by
  cases m with
  | nil => rfl
  | cons p t => simp only [Memory.wfFrom, Bool.and_eq_true, decide_eq_true_eq] at w ⊢; exact ⟨⟨by omega, w.1.2⟩, w.2⟩

/-- A byte written keeps the form. -/
theorem Memory.wfFrom_memSet {lo : Nat} {m : List Host.Cell} (a : Nat) (b : Byte) (ha : lo ≤ a) (w : Memory.wfFrom lo m = true) :
    Memory.wfFrom lo (memSet m a b) = true := by
  induction m generalizing lo with
  | nil =>
    simp only [memSet]
    split
    · rfl
    · simp only [Memory.wfFrom, Bool.and_eq_true, decide_eq_true_eq]; exact ⟨⟨ha, by assumption⟩, trivial⟩
  | cons p t ih =>
    obtain ⟨k, v⟩ := p
    simp only [Memory.wfFrom, Bool.and_eq_true, decide_eq_true_eq] at w
    obtain ⟨⟨h1, h2⟩, h3⟩ := w
    simp only [memSet]
    split
    · split
      · simp only [Memory.wfFrom, Bool.and_eq_true, decide_eq_true_eq]; exact ⟨⟨h1, h2⟩, h3⟩
      · rename_i h _
        simp only [Memory.wfFrom, Bool.and_eq_true, decide_eq_true_eq]
        exact ⟨⟨ha, by assumption⟩, ⟨by omega, h2⟩, h3⟩
    · split
      · split
        · exact Memory.wfFrom_mono (by omega) h3
        · rename_i h hb
          subst h
          simp only [Memory.wfFrom, Bool.and_eq_true, decide_eq_true_eq]
          exact ⟨⟨ha, hb⟩, h3⟩
      · simp only [Memory.wfFrom, Bool.and_eq_true, decide_eq_true_eq]
        exact ⟨⟨h1, h2⟩, ih (by omega) h3⟩

/-- A byte written keeps a memory canonical. -/
theorem Memory.wf_memSet {m : List Host.Cell} (a : Nat) (b : Byte) (w : Memory.wf m = true) : Memory.wf (memSet m a b) = true :=
  Memory.wfFrom_memSet a b (Nat.zero_le a) w

/-- A run of bytes written keeps a memory canonical. -/
theorem Memory.wf_memWrite {m : List Host.Cell} (a : Nat) (bs : List Byte) (w : Memory.wf m = true) : Memory.wf (memWrite m a bs) = true := by
  induction bs generalizing m a with
  | nil => exact w
  | cons b t ih => exact ih (a + 1) (Memory.wf_memSet a b w)

/-- Cells taken out keep the form. -/
theorem Memory.wfFrom_filter {lo : Nat} {m : List Host.Cell} (f : Host.Cell → Bool) (w : Memory.wfFrom lo m = true) :
    Memory.wfFrom lo (m.filter f) = true := by
  induction m generalizing lo with
  | nil => rfl
  | cons p t ih =>
    simp only [Memory.wfFrom, Bool.and_eq_true, decide_eq_true_eq] at w
    simp only [List.filter]
    split
    · simp only [Memory.wfFrom, Bool.and_eq_true, decide_eq_true_eq]
      exact ⟨w.1, ih w.2⟩
    · exact ih (Memory.wfFrom_mono (by omega) w.2)

/-- Cells taken out keep a memory canonical. -/
theorem Memory.wf_filter {m : List Host.Cell} (f : Host.Cell → Bool) (w : Memory.wf m = true) : Memory.wf (m.filter f) = true :=
  Memory.wfFrom_filter f w

/- A read after a write. -/

/-- Below the least listed address nothing is listed. -/
theorem memGet_of_lt {lo : Nat} {m : List Host.Cell} {a : Nat} (w : Memory.wfFrom lo m = true) (h : a < lo) : memGet m a = 0 := by
  cases m with
  | nil => rfl
  | cons p t =>
    simp only [Memory.wfFrom, Bool.and_eq_true, decide_eq_true_eq] at w
    simp only [memGet]
    rw [if_neg (by omega), if_pos (by omega)]

/-- A byte after a write of one byte. -/
theorem memGet_memSet {lo : Nat} {m : List Host.Cell} (w : Memory.wfFrom lo m = true) (a : Nat) (b : Byte) (x : Nat) :
    memGet (memSet m a b) x = if x = a then b else memGet m x := by
  induction m generalizing lo with
  | nil =>
    simp only [memSet]
    split
    · rename_i h; subst h; simp [memGet]
    · simp only [memGet]
      by_cases h : x = a
      · simp [h]
      · rw [if_neg (fun e => h e.symm), if_neg h]; split <;> rfl
  | cons p t ih =>
    obtain ⟨k, v⟩ := p
    simp only [Memory.wfFrom, Bool.and_eq_true, decide_eq_true_eq] at w
    obtain ⟨⟨h1, h2⟩, h3⟩ := w
    simp only [memSet]
    split
    · rename_i hlt
      split
      · rename_i hb; subst hb
        by_cases h : x = a
        · subst h; simp only [memGet, if_true]; rw [if_neg (by omega), if_pos hlt]
        · rw [if_neg h]
      · by_cases h : x = a
        · subst h; simp [memGet]
        · rw [if_neg h]
          by_cases hx : x < a
          · simp only [memGet]; rw [if_neg (by omega), if_pos hx, if_neg (by omega), if_pos (by omega)]
          · conv => lhs; rw [memGet]
            rw [if_neg (by omega), if_neg hx]
    · split
      · rename_i hk
        subst hk
        split
        · rename_i hb; subst hb
          by_cases h : x = a
          · subst h; simp only [if_true]; exact memGet_of_lt h3 (by omega)
          · rw [if_neg h]
            simp only [memGet]
            rw [if_neg (fun e => h e.symm)]
            by_cases hx : x < a
            · rw [if_pos hx]; exact memGet_of_lt h3 (by omega)
            · rw [if_neg hx]
        · simp only [memGet]
          by_cases h : a = x
          · subst h; simp
          · have h' : ¬x = a := fun e => h e.symm
            simp only [if_neg h, if_neg h']
      · simp only [memGet]
        by_cases hk : k = x
        · rw [if_pos hk, if_pos hk, if_neg (by omega)]
        · rw [if_neg hk, if_neg hk]
          by_cases hx : x < k
          · rw [if_pos hx, if_pos hx, if_neg (by omega)]
          · rw [if_neg hx, if_neg hx]; exact ih h3

/-- A byte after a write of a run. -/
theorem memGet_memWrite {m : List Host.Cell} (w : Memory.wf m = true) (a : Nat) (bs : List Byte) (x : Nat) :
    memGet (memWrite m a bs) x = if a ≤ x ∧ x < a + bs.length then nth bs 0 (x - a) else memGet m x := by
  induction bs generalizing m a with
  | nil => simp only [memWrite, List.length_nil, Nat.add_zero]; rw [if_neg (by omega)]
  | cons b t ih =>
    simp only [memWrite, ih (Memory.wf_memSet a b w), memGet_memSet w, List.length_cons]
    by_cases h : x = a
    · subst h; rw [if_neg (by omega), if_pos rfl, if_pos (by omega)]; simp [nth]
    · by_cases h2 : a + 1 ≤ x ∧ x < a + 1 + t.length
      · rw [if_pos h2, if_pos (by omega)]
        obtain ⟨k, hk⟩ : ∃ k, x - a = k + 1 := ⟨x - a - 1, by omega⟩
        rw [hk, show x - (a + 1) = k by omega]; rfl
      · rw [if_neg h2, if_neg h, if_neg (by omega)]

/-- A byte after cells are taken out by address. -/
theorem memGet_filter {lo : Nat} {m : List Host.Cell} (w : Memory.wfFrom lo m = true) (f : Nat → Bool) (x : Nat) :
    memGet (m.filter fun p => f p.1) x = if f x then memGet m x else 0 := by
  induction m generalizing lo with
  | nil => simp [memGet]
  | cons p t ih =>
    obtain ⟨k, v⟩ := p
    simp only [Memory.wfFrom, Bool.and_eq_true, decide_eq_true_eq] at w
    obtain ⟨⟨h1, h2⟩, h3⟩ := w
    simp only [List.filter]
    split
    · rename_i hf
      simp only [memGet, ih h3]
      by_cases hk : k = x
      · subst hk; simp [hf]
      · rw [if_neg hk, if_neg hk]; split <;> split <;> rfl
    · rename_i hf
      rw [ih h3]
      simp only [memGet]
      by_cases hk : k = x
      · subst hk; simp [hf]
      · rw [if_neg hk]
        by_cases hx : x < k
        · rw [if_pos hx, memGet_of_lt h3 (by omega)]
        · rw [if_neg hx]

/-- A run read is the bytes at its addresses. -/
theorem memRead_congr {m m' : List Host.Cell} {a n : Nat} (h : ∀ i < n, memGet m (a + i) = memGet m' (a + i)) : memRead m a n = memRead m' a n := by
  simp only [memRead]
  exact List.map_congr_left fun i hi => h i (List.mem_range.mp hi)

/- What a step's writers keep. -/

open Sys2Proof.Safety

/-- The queue is as it was, the memories stay canonical, and no written fuse changes. -/
structure Keeps (s t : State) : Prop where
  pending : t.pending = s.pending
  hbm : Memory.wf s.hbm = true → Memory.wf t.hbm = true
  scratch : Memory.wf s.scratch = true → Memory.wf t.scratch = true
  otp : OtpKept s t

theorem Keeps.refl (s : State) : Keeps s s := ⟨rfl, id, id, fun _ _ => rfl⟩

theorem Keeps.trans {s t u : State} (a : Keeps s t) (b : Keeps t u) : Keeps s u :=
  ⟨b.pending.trans a.pending, b.hbm ∘ a.hbm, b.scratch ∘ a.scratch, fun k h => by
    have e := a.otp k h
    exact (b.otp k (e ▸ h)).trans e⟩

/-- A change of other fields alone keeps them. -/
theorem Keeps.of_eq {s t : State} (h1 : t.pending = s.pending) (h2 : t.hbm = s.hbm) (h3 : t.scratch = s.scratch) (h4 : t.sec.otp = s.sec.otp) : Keeps s t :=
  ⟨h1, fun h => h2 ▸ h, fun h => h3 ▸ h, fun k _ => by rw [h4]⟩

/-- Sending and raising keep them. -/
theorem SameBody.keeps {s t : State} (h : SameBody s t) : Keeps s t := .of_eq h.pending h.hbm h.scratch (by rw [h.sec])

theorem Keeps.foldl {α : Type} {f : State → α → State} (h : ∀ s a, Keeps s (f s a)) (l : List α) (s : State) : Keeps s (l.foldl f s) := by
  induction l generalizing s with
  | nil => exact .refl s
  | cons a l ih => exact (h s a).trans (ih _)

theorem keeps_setReg (s : State) (id : RegId) (v : W64) : Keeps s (s.setReg id v) := .of_eq rfl rfl rfl rfl
theorem keeps_bump (s : State) (id : RegId) (k : Nat) : Keeps s (s.bump id k) := .of_eq (by simp) (by simp) (by simp) (by simp)
theorem keeps_setCore (s : State) (n : Nat) (c : Core) : Keeps s (s.setCore n c) := .of_eq rfl rfl rfl rfl

/-- A write of scratch keeps them. -/
theorem keeps_scrWrite (s : State) (n a : Nat) (bs : List Byte) : Keeps s (s.scrWrite n a bs) :=
  ⟨rfl, id, fun w => Memory.wf_memWrite _ _ w, fun _ _ => rfl⟩

theorem keeps_unitStore (s : State) (a : Nat) (bs : List Byte) : Keeps s (s.unitStore a bs) := by
  unfold State.unitStore
  refine Keeps.foldl ?_ _ s
  exact fun _ _ => ⟨rfl, fun w => Memory.wf_memWrite _ _ w, id, fun _ _ => rfl⟩

theorem keeps_hbmWriteUnit (s : State) (a : Nat) (bs : List Byte) : Keeps s (s.hbmWriteUnit a bs) := by
  unfold State.hbmWriteUnit
  split
  · exact keeps_unitStore ..
  · simp only
    split
    · exact keeps_unitStore ..
    · split <;> exact (keeps_unitStore ..).trans (.of_eq rfl rfl rfl rfl)

/-- A write of the HBM window keeps them. -/
theorem keeps_hbmWrite (s : State) (a : Nat) (bs : List Byte) : Keeps s (s.hbmWrite a bs) := by
  unfold State.hbmWrite
  generalize runsOf a bs.length = l
  induction l generalizing s bs with
  | nil => exact .refl s
  | cons p t ih => exact (keeps_hbmWriteUnit s p.1 _).trans (ih _ _)

/-- Bursts counted and charged to a regulator keep them. -/
theorem keeps_takeTokens (s : State) (st p n : Nat) : Keeps s (s.takeTokens st p n) := by
  unfold State.takeTokens
  exact .of_eq (by simp) (by simp) (by simp) (by simp)

theorem keeps_charge (s : State) (p : Nat) (write : Bool) (a n : Nat) : Keeps s (s.charge p write a n) := by
  unfold State.charge
  refine Keeps.foldl (fun s r => ?_) _ s
  unfold State.chargeBurst
  exact Keeps.foldl (fun s c => (keeps_bump ..).trans (keeps_takeTokens ..)) _ s

/-- A page entry taken keeps them. -/
theorem keeps_pageUse (s : State) (u : MemPort) (c i : Nat) : Keeps s (s.pageUse u c i) := by
  unfold State.pageUse
  split
  · exact .refl s
  · extract_lets e t own m
    split
    · exact keeps_charge ..
    · exact (keeps_charge ..).trans (.of_eq rfl rfl rfl rfl)

/-- A write of a context's address space keeps them. -/
theorem keeps_ctxWrite {s t : State} {u : MemPort} {c a : Nat} {bs : List Byte} (h : s.ctxWrite u c a bs = .ok t) : Keeps s t := by
  unfold State.ctxWrite at h
  generalize pageRuns (bs.length / 2 ^ 21 + 2) a bs.length = l at h
  induction l generalizing s bs with
  | nil => simp only [State.ctxWriteGo, Except.ok.injEq] at h; exact h ▸ .refl s
  | cons p r ih =>
    simp only [State.ctxWriteGo] at h
    split at h
    · cases h
    · exact ((keeps_pageUse ..).trans (keeps_charge ..)).trans ((keeps_hbmWrite ..).trans (ih h))

/-- A migration's copy of a chunk keeps a memory canonical (12 R321). -/
theorem Memory.wf_copyChan {m : List Host.Cell} (src dst b n : Nat) (w : Memory.wf m = true) : Memory.wf (copyChan m src dst b n) = true := by
  unfold copyChan
  have go : ∀ (l : List Host.Cell) (acc : List Host.Cell) (f : Nat → Nat), Memory.wf acc = true →
      Memory.wf (l.foldl (fun acc p => memSet acc (f p.1) p.2) acc) = true := by
    intro l
    induction l with
    | nil => exact fun _ _ h => h
    | cons p l ih => exact fun acc f h => ih _ f (Memory.wf_memSet _ _ h)
  exact go _ _ (fun k => chanKey dst b + (k - chanKey src b)) (Memory.wf_filter _ w)

/-- Scratch that loses what was written, and a page scrubbed, keep them (16 R413, 15 R399). -/
theorem keeps_wipeScratch (s : State) (n : Nat) : Keeps s (s.wipeScratch n) := ⟨rfl, id, fun w => Memory.wf_filter _ w, fun _ _ => rfl⟩

theorem keeps_zeroGranule (s : State) (a : Nat) : Keeps s (s.zeroGranule a) := by
  unfold State.zeroGranule
  refine Keeps.foldl ?_ _ s
  exact fun _ _ => ⟨rfl, fun w => Memory.wf_filter _ w, id, fun _ _ => rfl⟩

theorem keeps_setMem (s : State) (m : MemSys) : Keeps s { s with mem := m } := .of_eq rfl rfl rfl rfl

theorem keeps_zeroPage (s : State) (p : Nat) : Keeps s (s.zeroPage p) := by
  unfold State.zeroPage
  extract_lets u
  have h : Keeps s u := by
    simp only [u]
    split
    · exact Keeps.foldl (fun s i => keeps_zeroGranule s _) _ s
    · exact .refl s
  exact h.trans (keeps_setMem u _)

/-- A fuse write keeps every written fuse (17 R441). -/
theorem Sec.otp_burn_kept (x : Sec) (d w : Nat) (v : W64) (k : Nat) (h : sget x.otp 0 k ≠ 0) : sget (x.burn d w v).otp 0 k = sget x.otp 0 k := by
  unfold Sec.burn
  split
  · rename_i hz
    simp only [sget_sset]
    split
    · rename_i hk; subst hk; exact absurd hz h
    · rfl
  · rfl

end Sys2Proof.Machine
end

