-- ==== Sys2Proof/Tests/Slice0.lean ====
section
/-! SUPPORT. The model's own tests: ill-formed terms that WellFormed refuses, worked examples of the spec, and for each statement states and operands that meet its hypotheses. -/

set_option Elab.async false

namespace Sys2Proof.Tests

open Sys2Proof.Machine Sys2Proof.Safety Sys2Proof.Claims

/- States for the tests. -/

/-- Core 0 runs the one instruction `w`, in a running step. -/
def ccState (w : W64) : State :=
  { State.reset with cores := [(0, { cc := { mode := .running, stream := [w] } })], step := { state := .running } }

/-- A control-core instruction with only its OP. -/
def opWord (op : Nat) : W64 := w64 (op * 2 ^ 58)

theorem ccState_at (w : W64) : CcAt (ccState w) 0 w := ⟨by decide, rfl, rfl, rfl⟩

/- Control cores. -/

theorem witness_CoreWritesRegister : ∀ r ∈ coreWrites, ∃ s n w, CcAt s n w ∧ ccOp w = r.2.1 ∧ r.2.2.1 s n w := by
  intro r hr
  refine ⟨ccState (opWord r.2.1), 0, opWord r.2.1, ccState_at _, ?_, ?_⟩ <;>
    (simp only [coreWrites, List.mem_cons, List.not_mem_nil, or_false] at hr
     rcases hr with rfl | rfl | rfl | rfl | rfl | rfl | rfl | rfl | rfl | rfl | rfl | rfl | rfl | rfl <;> trivial)

theorem witness_CoreRegisterZero : ∃ d m : Nat, d ≠ 0 ∧ m ≠ d := ⟨31, 30, by decide⟩

/-- A core with one valid endpoint and `k` operations held at its station. -/
def endpointState (w : W64) (k : Nat) : State :=
  { ccState w with knots := [(0, { endpoints := [w64 (2 ^ 33)] })]
                   cores := [(0, { cc := { mode := .running, stream := [w] }, held := List.replicate k ⟨0, true, 0, []⟩ })] }

/-- A core with nothing or an operation of the plies in flight. -/
def busyState (busy : Bool) (w : W64) : State :=
  { ccState w with cores := [(0, { cc := { mode := .running, stream := [w], inFlight := if busy then [⟨0, 0⟩] else [] } })] }

theorem witness_CorePasses :
    (∃ s n w, CcAt s n w ∧ ccOp w = 0x00) ∧
    (∀ busy : Bool, ∃ s n w, CcAt s n w ∧ ccOp w = 0x21 ∧ ((s.core n).cc.inFlight.any fun o => nbit (ccExt w) o.unit) = busy) ∧
    ∀ tie full : Bool, ∃ s n w e, CcAt s n w ∧ ccOp w = (if tie then 0x2D else 0x2E) ∧
      (s.knot (coreDie n)).endpoints[ccExt w]? = some e ∧ bit e 33 = true ∧ decide (16 ≤ (s.core n).held.length) = full ∧
      (full = false → (s.core n).held.length = 15) := by
  refine ⟨⟨_, 0, _, ccState_at (opWord 0), by decide⟩, fun busy => ?_, fun tie full => ?_⟩
  · exact ⟨busyState busy (w64 (0x21 * 2 ^ 58 + 2 ^ 32)), 0, _, ⟨by decide, rfl, rfl, rfl⟩, by cases busy <;> decide, by cases busy <;> decide⟩
  · exact ⟨endpointState (opWord (if tie then 0x2D else 0x2E)) (if full then 16 else 15), 0, _, w64 (2 ^ 33), ⟨by decide, rfl, rfl, rfl⟩,
      by cases tie <;> decide, by cases tie <;> cases full <;> decide, by decide, by cases tie <;> cases full <;> decide,
      by cases tie <;> cases full <;> decide⟩

/-- Core 0 with s1 = 1 and s2 = 2, at the one instruction `w`. -/
def regState (w : W64) : State :=
  { State.reset with cores := [(0, { cc := { mode := .running, stream := [w], sregs := [(1, 1), (2, 2)] } })], step := { state := .running } }

theorem regState_at (w : W64) : CcAt (regState w) 0 w := ⟨by decide, rfl, rfl, rfl⟩

theorem witness_CoreBranches :
    (∀ r ∈ coreBranches, ∀ taken : Bool, ∃ s n w, CcAt s n w ∧ ccOp w = r.2.1 ∧
      r.2.2 ((s.core n).cc.get (ccSa w)) ((s.core n).cc.get (ccSb w)) = taken ∧ w.toNat % 2 ^ 32 < (s.core n).cc.stream.length) ∧
    ∀ v ∈ [(1 : W64), 2], ∃ s n w, CcAt s n w ∧ ccOp w = 0x1C ∧ ccSd w ≠ 0 ∧ (s.core n).cc.get (ccSd w) = v ∧
      w.toNat % 2 ^ 32 < (s.core n).cc.stream.length := by
  constructor
  · intro r hr taken
    refine ⟨regState (w64 (r.2.1 * 2 ^ 58 + (if (r.2.1 = 0x18) = (taken = true) then 1 else 0) * 2 ^ 48 + (if r.2.1 = 0x18 ∨ taken = false then 1 else 2) * 2 ^ 43)), 0, _,
      regState_at _, ?_⟩
    simp only [coreBranches, List.mem_cons, List.not_mem_nil, or_false] at hr
    rcases hr with rfl | rfl | rfl | rfl <;> cases taken <;> decide
  · intro v hv
    refine ⟨regState (w64 (0x1C * 2 ^ 58 + v.toNat * 2 ^ 53)), 0, _, regState_at _, ?_⟩
    simp only [List.mem_cons, List.not_mem_nil, or_false] at hv
    rcases hv with rfl | rfl <;> decide

/-- Core 0 at `w` with a descriptor of KIND `k` at the start of its pool. -/
def poolState (w k : W64) : State :=
  { State.reset with cores := [(0, { cc := { mode := .running, stream := [w], pool := [k] } })], step := { state := .running } }

/-- The descriptor that an ISSUE of core 0 reads, as `CoreIssues` says it. -/
def issued (s : State) (w : W64) : List W64 :=
  let c := (s.core 0).cc
  let a := (c.get (ccSa w) + ccImm w).toNat
  let ws0 := (List.range 16).map fun i => if a / 8 + i < 8192 then nth c.pool 0 (a / 8 + i) else Config.poolPast 0 (a / 8 + i)
  let ws1 := if nbit (ccExt w) 4 then ws0.set (bits (ccExt w) 3 0) (nth ws0 0 (bits (ccExt w) 3 0) + c.get (ccSb w)) else ws0
  if nbit (ccExt w) 9 then ws1.set (bits (ccExt w) 8 5) (nth ws1 0 (bits (ccExt w) 8 5) + c.get ((ccSb w + 1) % 32)) else ws1

/-- `poolState` with 127 or 128 operations in flight. -/
def fullState (k n : Nat) : State :=
  { poolState (opWord 0x20) (w64 k) with
    cores := [(0, { cc := { mode := .running, stream := [opWord 0x20], pool := [w64 k], inFlight := List.replicate n ⟨0, 0⟩ } })] }

set_option maxRecDepth 20000 in
theorem witness_CoreIssues : ∀ k ∈ [(1, 0), (3, 1), (4, 2)], ∀ full : Bool, ∃ s w u, CcAt s 0 w ∧ ccOp w = 0x20 ∧
    ((s.core 0).cc.get (ccSa w) + ccImm w).toNat % 64 = 0 ∧ unitOfKind (fld (nth (issued s w) 0 0) 3 0) = some u ∧ u = k.2 ∧
    decide (128 ≤ (s.core 0).cc.inFlight.length) = full ∧ s.unitFull 0 (issued s w) = false := by
  intro k hk full
  simp only [List.mem_cons, List.not_mem_nil, or_false] at hk
  cases full
  · rcases hk with rfl | rfl | rfl
    · exact ⟨fullState 1 127, _, 0, ⟨by decide, rfl, rfl, rfl⟩, by decide⟩
    · exact ⟨fullState 3 127, _, 1, ⟨by decide, rfl, rfl, rfl⟩, by decide⟩
    · exact ⟨fullState 4 127, _, 2, ⟨by decide, rfl, rfl, rfl⟩, by decide⟩
  · rcases hk with rfl | rfl | rfl
    · exact ⟨fullState 1 128, _, 0, ⟨by decide, rfl, rfl, rfl⟩, by decide⟩
    · exact ⟨fullState 3 128, _, 1, ⟨by decide, rfl, rfl, rfl⟩, by decide⟩
    · exact ⟨fullState 4 128, _, 2, ⟨by decide, rfl, rfl, rfl⟩, by decide⟩

/-- Cores 0 and 1 are used by context 0, which is ACTIVE; core 0 stands at `w`, core 1 in mode `m`. -/
def twoCores (w : W64) (m : CcMode) (done : Bool := true) : State :=
  { State.reset with
    cores := [(0, { cc := { mode := .running, stream := [w], results := [⟨0, done, []⟩] } }), (1, { cc := { mode := m } })]
    step := { state := .running }, ctxs := [(0, { state := .active })], job := { used := [0, 1] } }

theorem twoCores_at (w : W64) (m : CcMode) (b : Bool) : CcAt (twoCores w m b) 0 w := ⟨by decide, rfl, rfl, rfl⟩

theorem witness_CoreEndsAndStops :
    (∃ (s : State) (n : Nat), n < 384 ∧ (s.core n).cc.mode = .running ∧ s.knotPending n = false ∧ (s.core n).cc.stream[(s.core n).cc.pc]? = none) ∧
    (∃ s n w, CcAt s n w ∧ ccDefined.contains (ccOp w) = false) ∧ (∃ s n w, CcAt s n w ∧ ccOp w = 0x11 ∧ 4 < ccExt w) ∧
    (∀ op ∈ [0x10, 0x20], ∃ s n w, CcAt s n w ∧ ccOp w = op ∧ ((s.core n).cc.get (ccSa w) + ccImm w).toNat % 8 ≠ 0) ∧
    (∃ s w, CcAt s 0 w ∧ ccOp w = 0x20 ∧ unitOfKind (fld (nth (s.issueWords 0 w ((s.core 0).cc.get (ccSa w) + ccImm w).toNat) 0 0) 3 0) = none) ∧
    (∀ r ∈ coreBranches, ∃ s n w, CcAt s n w ∧ ccOp w = r.2.1 ∧ r.2.2 ((s.core n).cc.get (ccSa w)) ((s.core n).cc.get (ccSb w)) = true ∧
      (s.core n).cc.stream.length ≤ w.toNat % 2 ^ 32) ∧
    (∃ s n w, CcAt s n w ∧ ccOp w = 0x1C ∧ ccSd w ≠ 0 ∧ (s.core n).cc.get (ccSd w) ≠ 1 ∧ (s.core n).cc.stream.length ≤ w.toNat % 2 ^ 32) ∧
    (∃ s n w, CcAt s n w ∧ ccOp w = 0x01 ∧ s.step.state ≠ .running) ∧
    (∃ s n w, CcAt s n w ∧ ccOp w = 0x01 ∧ s.step.state = .running ∧ ∃ k ∈ s.usedCores, k ≠ n ∧ (s.core k).cc.mode ≠ .ended) ∧
    (∃ s n w, CcAt s n w ∧ ccOp w = 0x01 ∧ s.step.state = .running ∧ ∀ k ∈ s.usedCores, k ≠ n → (s.core k).cc.mode = .ended) ∧
    (∀ done : Bool, ∃ s n w r, CcAt s n w ∧ ccOp w = 0x22 ∧ (s.core n).cc.results.find? (fun r => w64 r.tag = (s.core n).cc.get (ccSa w)) = some r ∧ r.done = done) ∧
    ∃ s n w, CcAt s n w ∧ ccOp w = 0x22 ∧ ∀ r ∈ (s.core n).cc.results, w64 r.tag ≠ (s.core n).cc.get (ccSa w) := by
  refine ⟨⟨{ ccState 0 with cores := [(0, { cc := { mode := .running } })] }, 0, by decide⟩, ⟨_, 0, _, ccState_at (opWord 0x3F), by decide⟩,
    ⟨_, 0, _, ccState_at (w64 (0x11 * 2 ^ 58 + 5 * 2 ^ 32)), by decide⟩, ?_, ⟨poolState (opWord 0x20) 0, _, ⟨by decide, rfl, rfl, rfl⟩, by decide⟩, ?_,
    ⟨regState (w64 (0x1C * 2 ^ 58 + 2 * 2 ^ 53 + 1)), 0, _, regState_at _, by decide⟩,
    ⟨{ ccState (opWord 1) with step := { state := .draining } }, 0, _, ⟨by decide, rfl, rfl, rfl⟩, by decide⟩,
    ⟨_, 0, _, twoCores_at (opWord 1) .running true, by decide⟩, ⟨_, 0, _, twoCores_at (opWord 1) .ended true, by decide⟩,
    fun done => ⟨twoCores (opWord 0x22) .ended done, 0, _, ⟨0, done, []⟩, twoCores_at _ _ _, by cases done <;> decide⟩, ⟨_, 0, _, ccState_at (opWord 0x22), by decide⟩⟩
  · intro op h
    simp only [List.mem_cons, List.not_mem_nil, or_false] at h
    rcases h with rfl | rfl
    · exact ⟨_, 0, _, ccState_at (w64 (0x10 * 2 ^ 58 + 1)), by decide⟩
    · exact ⟨_, 0, _, ccState_at (w64 (0x20 * 2 ^ 58 + 1)), by decide⟩
  · intro r h
    refine ⟨regState (w64 (r.2.1 * 2 ^ 58 + 1 * 2 ^ 48 + (if r.2.1 = 0x18 then 1 else 2) * 2 ^ 43 + 1)), 0, _, regState_at _, ?_⟩
    simp only [coreBranches, List.mem_cons, List.not_mem_nil, or_false] at h
    rcases h with rfl | rfl | rfl | rfl <;> decide

/- Knots. -/

/-- Core 0 at `w`; its context's knot 0 has entry `e`; physical knot 0 tied or clear, `pend` waiting. -/
def knotState (w e : W64) (tied : Bool) (pend : List KnotPend := []) (door : List RemoteOp := []) (recent : List KnotChange := []) (queue : List RemoteOp := []) : State :=
  { ccState w with knots := [(0, { xlate := [(0, e)], tied := if tied then [0] else [], pend := pend, door := door, recent := recent, queue := queue })]
                   ctxs := [(0, { state := .active })] }

theorem knotState_at (w e : W64) (t : Bool) : CcAt (knotState w e t) 0 w := ⟨by decide, rfl, rfl, rfl⟩

/-- The knots waited for: clear at the store and tied in the view, or the other way round, by a change of 3 cycles ago that core 1's station made. -/
def lagState (tied : Bool) : State :=
  { knotState (opWord (if tied then 0x2A else 0x2B)) (w64 (2 ^ 14)) (!tied) [] [] [⟨0, !tied, 0, some 1⟩] with clock := 3 }

theorem witness_KnotTakesEffect :
    (∀ r ∈ coreKnots, ∀ persist : Bool, (persist = true → r.2.2.1 = r.2.2.2.1) → ∃ s n w, CcAt s n w ∧ ccOp w = r.2.1 ∧
      (s.knot (coreDie n)).pend = [] ∧ (s.knot (coreDie n)).behind = [] ∧
      let e := s.knotEntry (coreDie n) (s.ctxOf n) (knotOf s n w)
      kValid e = true ∧ kPersist e = persist ∧ s.isTied (coreDie n) (kPhys e) = r.2.2.1) ∧
    ∀ tied : Bool, ∃ w c, CcAt (lagState tied) 0 w ∧ ccOp w = (if tied then 0x2A else 0x2B) ∧
      let e := (lagState tied).knotEntry 0 ((lagState tied).ctxOf 0) (knotOf (lagState tied) 0 w)
      kValid e = true ∧ ((lagState tied).knot 0).recent = [c] ∧ c.phys = kPhys e ∧ (lagState tied).clock < c.time + 4 ∧ c.core ≠ some 0 ∧ c.tied ≠ tied := by
  refine ⟨fun r hr p hp => ?_, fun tied => ?_⟩
  · refine ⟨knotState (opWord r.2.1) (w64 (2 ^ 14 + b01 p * 2 ^ 16)) r.2.2.1, 0, _, knotState_at _ _ _, ?_⟩
    simp only [coreKnots, List.mem_cons, List.not_mem_nil, or_false] at hr
    rcases hr with rfl | rfl | rfl | rfl | rfl <;> cases p <;> decide
  · exact ⟨opWord (if tied then 0x2A else 0x2B), ⟨0, !tied, 0, some 1⟩, ⟨by decide, rfl, by cases tied <;> rfl, rfl⟩, by cases tied <;> decide⟩

theorem witness_KnotWaitsOrStops :
    (∀ r ∈ coreKnotWaits, ∃ s n w, CcAt s n w ∧ ccOp w = r.2.1 ∧
      let e := s.knotEntry (coreDie n) (s.ctxOf n) (knotOf s n w)
      kValid e = true ∧ kPersist e = false ∧ (r.2.2.2.2 = true → kBarrier e = true) ∧ s.isTied (coreDie n) (kPhys e) = r.2.2.2.1) ∧
    (∀ r ∈ coreKnots, ∃ s n w, CcAt s n w ∧ ccOp w = r.2.1 ∧ kValid (s.knotEntry (coreDie n) (s.ctxOf n) (knotOf s n w)) = false) ∧
    ∀ r ∈ coreKnots, (r.2.1 = 0x28 ∨ r.2.1 = 0x29 ∨ r.2.1 = 0x2C) → ∃ s n w, CcAt s n w ∧ ccOp w = r.2.1 ∧
      kValid (s.knotEntry (coreDie n) (s.ctxOf n) (knotOf s n w)) = true ∧ kPersist (s.knotEntry (coreDie n) (s.ctxOf n) (knotOf s n w)) = true := by
  refine ⟨fun r hr => ?_, fun r hr => ?_, fun r hr _ => ?_⟩
  · refine ⟨knotState (opWord r.2.1) (w64 (2 ^ 14 + 2 ^ 15)) r.2.2.2.1, 0, _, knotState_at _ _ _, ?_⟩
    simp only [coreKnotWaits, List.mem_cons, List.not_mem_nil, or_false] at hr
    rcases hr with rfl | rfl | rfl | rfl | rfl <;> decide
  · refine ⟨knotState (opWord r.2.1) 0 false, 0, _, knotState_at _ _ _, ?_⟩
    simp only [coreKnots, List.mem_cons, List.not_mem_nil, or_false] at hr
    rcases hr with rfl | rfl | rfl | rfl | rfl <;> decide
  · refine ⟨knotState (opWord r.2.1) (w64 (2 ^ 14 + 2 ^ 16)) false, 0, _, knotState_at _ _ _, ?_⟩
    simp only [coreKnots, List.mem_cons, List.not_mem_nil, or_false] at hr
    rcases hr with rfl | rfl | rfl | rfl | rfl <;> decide

/-- A remote tie of context 0's knot 0 for a step and attempt. -/
def remoteTie (step attempt : Nat) : RemoteOp :=
  { tie := true, ctx := 0, knot := 0, gen := 0, step := step, attempt := attempt, srcMember := 1, srcCore := 0 }

/-- A core whose station holds a tie for member 1. -/
def heldState : State := { ccState 0 with cores := [(0, { held := [{ endpoint := 1, tie := true, knot := 0, fence := [] }] })] }

/-- An operation of core 0 that waits at the store. -/
def waiting : KnotPend := { src := .core 0, op := .wait, ctx := 0, knot := 0, phys := 0 }

set_option maxRecDepth 20000 in
theorem witness_RemoteKnots :
    (∃ (s : State) (o : RemoteOp), (s.ctx o.ctx).state ≠ .active) ∧ (∃ (s : State) (o : RemoteOp), (s.ctx o.ctx).gen ≠ o.gen) ∧
    (∃ (s : State) (o : RemoteOp), (s.ctx o.ctx).state = .active ∧ (s.ctx o.ctx).gen = o.gen ∧ o.step = s.logline ∧ o.attempt < s.step.attempt) ∧
    (∃ (s : State) (o : RemoteOp), (s.ctx o.ctx).state = .active ∧ (s.ctx o.ctx).gen = o.gen ∧ o.step = s.logline ∧ o.attempt = s.step.attempt ∧ s.step.state = .held ∧
      (s.knot 0).queue.length = 255) ∧
    (∃ (s : State) (o : RemoteOp), (s.ctx o.ctx).state = .active ∧ (s.ctx o.ctx).gen = o.gen ∧ o.step > s.logline ∧ (s.knot 0).queue.length = 256) ∧
    (∃ s : State, (s.knot 0).door ≠ []) ∧
    (let s := knotState 0 (w64 (2 ^ 14)) false
     let o := remoteTie 0 0
     let e := s.knotEntry 0 o.ctx o.knot
     (o.step, o.attempt) = (s.logline, s.step.attempt) ∧ s.step.state = .running ∧ s.step.aborting = false ∧ (s.ctx o.ctx).state = .active ∧ (s.ctx o.ctx).gen = o.gen ∧
      (s.knot 0).pend = [] ∧ (s.knot 0).behind = [] ∧ kValid e = true ∧ kPersist e = false ∧ s.isTied 0 (kPhys e) = false ∧ o.tie = true) ∧
    (∃ s n h rest, n < 384 ∧ (State.core s n).held = h :: rest ∧ (∀ g ∈ h.fence, ∀ o ∈ (s.core n).cc.inFlight, o.tag ≠ g) ∧ fld h.endpoint 13 0 ≠ s.job.member) ∧
    ∃ s n p, n < 384 ∧ (State.knot s (coreDie n)).pend.find? (fun p => p.src = .core n) = some p :=
  ⟨⟨State.reset, remoteTie 0 0, by decide⟩, ⟨State.reset, { remoteTie 0 0 with gen := 1 }, by decide⟩,
    ⟨{ knotState 0 0 false with step := { attempt := 1 } }, remoteTie 0 0, by decide⟩,
    ⟨{ knotState 0 0 false [] [] [] (List.replicate 255 (remoteTie 0 0)) with step := {} }, remoteTie 0 0, by decide, by decide, by decide, by decide, by decide, rfl⟩,
    ⟨knotState 0 0 false [] [] [] (List.replicate 256 (remoteTie 0 0)), remoteTie 1 0, by decide, by decide, by decide, rfl⟩,
    ⟨knotState 0 0 false [] [remoteTie 0 0], by decide⟩, by decide,
    ⟨heldState, 0, _, [], by decide, rfl, by decide⟩, ⟨knotState 0 0 false [waiting], 0, waiting, by decide⟩⟩

/-- The host can reach the module. -/
def hostState (e : W64) (tied : Bool) : State :=
  { knotState 0 e tied with pwr := { resetN := true }, sec := { mode := 1 } }

theorem witness_HostKnots :
    (∀ t : Bool, let s := hostState (w64 (2 ^ 14 + 2 ^ 16)) t
      kValid (s.knotEntry 0 0 0) = true ∧ kPersist (s.knotEntry 0 0 0) = true ∧ (s.knot 0).pend = [] ∧ (s.knot 0).behind = [] ∧
        s.isTied 0 (kPhys (s.knotEntry 0 0 0)) = t ∧ s.hostUp = true) ∧
    kValid (State.reset.knotEntry 0 0 0) = false ∧ kPersist ((hostState (w64 (2 ^ 14)) false).knotEntry 0 0 0) = false ∧
    (∀ op < 4, fld (w64 (op * 2 ^ 14)) 15 14 = op) ∧ ∀ d < 2, (hostState 0 false).silentAt (0x021023000010 + d * 0x1000000000) = false := by decide

/- Plies, quantiser, error control. -/

/-- A descriptor's message. -/
def msgOf (ws : List W64) : OpMsg := { words := ws, idx := 0, occ := 0, tag := 0, reissue := false, bcast := [] }

/-- A ply operation on ply 0: KIND, format code of A and B, KB, READOUT and FEED of A, PRE_FMT BF16, and a BF16 result. -/
def plyWords (kind fmt kb : Nat) (readout : Bool := true) (feed : Nat := 0) : List W64 :=
  [w64 (kind + fmt * 2 ^ 8 + fmt * 2 ^ 16 + feed * 2 ^ 24 + b01 readout * 2 ^ 34 + kb * 2 ^ 37), 0, w64 (16 * 2 ^ 40), 0, w64 (16 * 2 ^ 40), 1000, w64 (16 * 2 ^ 40),
    w64 (0x3F800000 * (2 ^ 32 + 1)), 0, 5, 0x3F800000, w64 (5 * 2 ^ 35), 0, 0, 0, w64 (16 + 16 * 2 ^ 20)]

/-- A state with core 0 as given. -/
def coreState (c : Core) : State := { State.reset with cores := [(0, c)], step := { state := .running } }

theorem witness_PlyAccepts : ∀ guarded : Bool, ∀ q ∈ [(1, 0, true), (2, 0, true), (1, 6, false)],
    let m := msgOf (plyWords q.1 q.2.1 1)
    let s := coreState { plyInbox := [m], ec := { plyMask := 0xF, guards := if guarded then [{ words := [] }] else [] } }
    let p := plyDesc m.words
    let g := guardOf (s.core 0) m
    (s.core 0).plyInbox = m :: [] ∧ m.reissue = false ∧ g = (if guarded then some 0 else none) ∧ p.ply = 0 ∧ p.kind = q.1 ∧
      (∀ k ∈ p.members, (nth (s.core 0).plies {} k).queue.length < 4) ∧
      (plyVerdict (s.core 0) (s.ringSize 0) m.words (ladderWords (s.core 0) g m.words)).isNone = q.2.2 := by decide

/-- Ply 0 of core 0 runs the one-ply operation `ws`, at block-step `kb` or at its end, with the tile `tile`; port 0 holds `port`, and the DMA-load port is stalled or not. -/
def runState (ws : List W64) (kb : Nat) (done : Bool) (port : List QOp) (stalled : Bool := false) (tile : AccTile := {}) : State :=
  coreState { plies := [{ slots := [{ run := some { msg := msgOf ws, kb := kb, done := done }, tile := tile }, {}, {}, {}] }]
              qnt := { ports := [port, [], [], []], stalled := [false, false, stalled, false] } }

theorem witness_BlockStepAccumulates :
    (∀ readout : Bool, ∀ kb < 3, let s := runState (plyWords 1 0 3 readout) kb false []
      ∃ y sl u, (s.core 0).plies[0]? = some y ∧ y.slots[0]? = some sl ∧ sl.run = some u ∧ ((s.ply 0 0).slot 0).run = some u ∧ u.done = false ∧
        u.kb = kb ∧ let p := plyDesc u.msg.words
        p.members = [0] ∧ p.slot = 0 ∧ p.ply = 0 ∧ p.kb = 3 ∧ p.readout = readout ∧ p.preload ≠ 3 ∧ s.reqBlocked 0 p = false ∧ s.staleOp 0 u.msg = false) ∧
    (let s := runState (plyWords 1 0 3 true 2) 1 false [] true
     ∃ u, ((s.ply 0 0).slot 0).run = some u ∧ u.done = false ∧ (plyDesc u.msg.words).slot = 0 ∧ (plyDesc u.msg.words).ply = 0 ∧ s.reqBlocked 0 (plyDesc u.msg.words) = true) ∧
    ∀ q ∈ [1, 2], let m := msgOf (plyWords q 0 3)
      let s := coreState { plies := [{ queue := [m] }, {}, {}, {}] }
      ((s.ply 0 0).slot 0).run = none ∧ s.nextOp 0 0 0 = some m ∧ (plyDesc m.words).slot = 0 ∧ (plyDesc m.words).ply = 0 ∧ 0 ∈ (plyDesc m.words).members ∧
        (s.core 0).plies.length = 4 ∧ (∀ y ∈ (s.core 0).plies, y.slots.length = 4) ∧ s.reqBlocked 0 (plyDesc m.words) = false := by
  refine ⟨fun readout kb hkb => ?_, ⟨_, rfl, by decide⟩, by decide⟩
  rcases kb with _ | _ | _ | kb
  · cases readout <;> exact ⟨_, _, _, rfl, rfl, rfl, rfl, by decide⟩
  · cases readout <;> exact ⟨_, _, _, rfl, rfl, rfl, rfl, by decide⟩
  · cases readout <;> exact ⟨_, _, _, rfl, rfl, rfl, rfl, by decide⟩
  · omega

theorem witness_AccumulationOrderFree : [Fl.nan, .inf false].Perm [.inf false, .nan] := by decide

theorem witness_ResidueFollowsSum : [Fl.nan, Fl.nan].length ≤ 2 ^ 31 := by decide

/-- A quantiser operation of ply 0 with specification word `lo`. -/
def qop (lo : W64) : QOp :=
  { lo := lo, hi := 0x3F800000, rows := [], dst := ⟨false, 0, 0, 0, none, 16⟩, tile := 0, epoch := 0, accTrunc := 0, accSat := 0, plies := [0], quad := 0
    signal := none, launch := none, guard := none, last := true }

theorem witness_AccumulatorFlagsAndReadOut :
    (∃ a : Acc, a.nan = true) ∧ (∃ a : Acc, a.pinf = true ∧ a.ninf = true) ∧ (∃ a : Acc, a.nan = false ∧ a.pinf = true ∧ a.ninf = false) ∧
    (∃ a : Acc, a.nan = false ∧ a.pinf = false ∧ a.ninf = true) ∧
    ∀ b fails : Bool, let s := runState (plyWords 1 0 3) 3 true (if b then [qop 5] else []) false { accs := [{ res := b01 fails }] }
      ∃ u port, ((s.ply 0 0).slot 0).run = some u ∧ u.done = true ∧ (s.core 0).qnt.ports[0]? = some port ∧
      (let p := plyDesc u.msg.words
       p.members = [0] ∧ p.slot = 0 ∧ p.ply = 0 ∧ ((p.members.filter fun k => port.any fun o => o.plies.contains k) ≠ [] ↔ b = true) ∧
       ((residueCheck ((s.ply 0 0).slot 0).tile (bit (s.reg (plyR .RESIDUE_INJECT 0 0)) 0)).1 ≠ [] ↔ fails = true)) :=
  ⟨⟨{ nan := true }, rfl⟩, ⟨{ pinf := true, ninf := true }, rfl, rfl⟩, ⟨{ pinf := true }, rfl, rfl, rfl⟩, ⟨{ ninf := true }, rfl, rfl, rfl⟩, fun b fails => by
    cases b <;> cases fails <;> exact ⟨_, _, rfl, rfl, rfl, by decide⟩⟩

/-- Every channel is being retrained, so memory serves no access. -/
def retrainAll (s : State) : State := { s with mem := { s.mem with retraining := List.range 256 } }

/-- Context 0 is active and maps its page 0 to window page 0, writable; its table lies at 0. Core 0 is as given. -/
def pageState (c : Core) : State :=
  { coreState c with hbm := [(0, 3)], ctxs := [(0, { state := .active, gen := 1 })], regs := [(rid .CTX_PAGES .module 0, 1)] }

/-- Port 0 holds the operation `o`, its stall already counted or not. -/
def portState (o : QOp) (stalled : Bool) : State := pageState { qnt := { ports := [[o], [], [], []], stalled := [stalled, false, false, false] } }

/-- An operation that writes one BF16 block to its context's HBM. -/
def hbmQop : QOp :=
  { qop 5 with rows := [{ row := 0, col := 0, els := List.replicate 16 { x := .zero, pad := false, idx := 0, k := 0 } }]
               dst := ⟨true, 0, 64, 0, none, 16⟩ }

/-- An outcome of a quantiser operation, without its state. -/
def heldBy (r : QRun) : Option Bool := r.map fun r => decide (r.2 = some .held)

theorem witness_QuantiserRuns :
    (∃ o rest, ((portState (qop 5) false).core 0).qnt.ports[0]? = some (o :: rest) ∧ heldBy ((portState (qop 5) false).runQOp 0 o) = some false ∧
      (qspecOf (((portState (qop 5) false).core 0).ladder o.lo o.hi) o.hi).keepFmt = 0 ∧ o.dst.hbm = false) ∧
    (∀ held : Bool, let s := if held then retrainAll (portState hbmQop false) else portState hbmQop false
      ∃ o rest, (s.core 0).qnt.ports[0]? = some (o :: rest) ∧ heldBy (s.runQOp 0 o) = some held) ∧
    ∀ b : Bool, ∃ o rest, ((portState (qop (w64 (5 + 2 ^ 32))) b).core 0).qnt.ports[0]? = some (o :: rest) ∧
      heldBy ((portState (qop (w64 (5 + 2 ^ 32))) b).runQOp 0 o) = none ∧ nth ((portState (qop (w64 (5 + 2 ^ 32))) b).core 0).qnt.stalled false 0 = b :=
  ⟨⟨_, _, rfl, by decide⟩, fun held => by cases held <;> exact ⟨_, _, rfl, by decide⟩, fun b => by cases b <;> exact ⟨_, _, rfl, by decide⟩⟩

/-- A damage record of epoch 1, under guard `g`. -/
def damage (g : Option Nat) : DamageMsg :=
  { site := 0, dir := 0, tile := 0, epoch := 1, dmg := {}, accTrunc := 0, accSat := 0, keep := none, blocks := [], lo := 0, hi := 0
    dst := ⟨false, 0, 0, 0, none, 16⟩, guard := g, last := true }

/-- Core 0's error-control unit holds that record, a guard at epoch 0 and layer 0. -/
def ecState (g : Option Nat) (h : StepState) : State :=
  { coreState { ec := { inbox := [damage g], guards := [{ words := [] }], layers := [(0, {})] } } with step := { state := h } }

theorem witness_ErrorControlTakes :
    (∃ m rest g gs, ((ecState (some 0) .running).core 0).ec.inbox = m :: rest ∧ m.guard = some g ∧
      ((ecState (some 0) .running).core 0).ec.guards[g]? = some gs ∧ gs.epoch ≠ m.epoch) ∧
    (∀ last : Bool, let s := coreState { ec := { inbox := [{ damage none with last := last }] } }
      ∃ m rest, (s.core 0).ec.inbox = m :: rest ∧ m.guard = none ∧ (s.core 0).ec.guards = [] ∧ m.last = last) ∧
    (∃ m rest, ((ecState none .running).core 0).ec.inbox = m :: rest ∧ m.guard = none) ∧
    (∃ l, sfind ((ecState none .held).core 0).ec.layers 0 = some l ∧ (ecState none .held).isHeld = true ∧ fld 0 2 1 ≤ fld 0 4 3 ∧
      fld 0 4 3 ≤ fld (nth l.words 0 0) 4 3 ∧ fld (nth l.words 0 3) 1 0 ≤ fld 0 2 1) ∧
    (∃ l, sfind ((ecState none .running).core 0).ec.layers 0 = some l ∧ (ecState none .running).isHeld = false) :=
  ⟨⟨_, _, 0, _, rfl, rfl, rfl, by decide⟩, fun last => ⟨_, _, rfl, by cases last <;> decide⟩, ⟨_, _, rfl, rfl⟩, ⟨_, rfl, by decide⟩, ⟨_, rfl, by decide⟩⟩

theorem witness_TestPorts : State.reset.isHeld = true ∧ (coreState {}).isHeld = false ∧
    ((coreState { qnt := { testRun := true } }).core 0).qnt.testRun = true := by decide

/- Vector engine. -/

/-- A strand instruction with only its CLASS and OP. -/
def vecWord (cls op : Nat) : W64 := w64 (cls * 2 ^ 60 + op * 2 ^ 54)

/-- Strand core 0 of core 0 runs the launch `m` (tag 0) at `w`, with the given registers. -/
def vecState (m : OpMsg) (w : W64) (x : Strand := {}) : State :=
  coreState { vec := { kernel := [(0, w)], queue := [⟨m, [], [], 0⟩], strands := [(0, { x with launch := some 0, pc := 0 })] }
              cc := { results := [⟨0, false, []⟩] }, qnt := {} }

/-- A launch of strand core 0 without a descriptor beyond its words. -/
def launchMsg (ws : List W64) : OpMsg := msgOf ws

theorem vecState_at (ws : List W64) (w : W64) (x : Strand) (h : vIllegal w = false) : VecAt (vecState (launchMsg ws) w x) 0 0 (launchMsg ws) w :=
  ⟨by decide, by decide, h, rfl, 0, _, rfl, rfl, rfl⟩

theorem witness_VectorLanes :
    (∀ r ∈ laneOps, ∃ s n t m w, VecAt s n t m w ∧ vCls w = r.2.1 ∧ vOp w = r.2.2.1) ∧
    ∀ r ∈ laneShifts, ∃ s n t m w, VecAt s n t m w ∧ vCls w = 5 ∧ vOp w = r.2.1 ∧ (lane ((s.strand n t).srcB m w) 0).toNat = 31 ∧
      (lane ((s.strand n t).srcB m w) 1).toNat = 32 := by
  refine ⟨fun r hr => ?_, fun r hr => ?_⟩
  · refine ⟨vecState (launchMsg []) (vecWord r.2.1 r.2.2.1), 0, 0, _, _, vecState_at _ _ _ ?_, ?_⟩ <;>
      (simp only [laneOps, List.cons_append, List.nil_append, List.mem_cons, List.not_mem_nil, or_false] at hr
       rcases hr with rfl | rfl | rfl | rfl | rfl | rfl | rfl | rfl | rfl | rfl | rfl | rfl | rfl | rfl | rfl | rfl | rfl | rfl | rfl | rfl
         | rfl | rfl | rfl | rfl | rfl | rfl | rfl | rfl | rfl | rfl | rfl | rfl | rfl | rfl | rfl | rfl | rfl | rfl | rfl | rfl <;> decide)
  · refine ⟨vecState (launchMsg []) (vecWord 5 r.2.1) { v := [(0, [31, 32])] }, 0, 0, _, _, vecState_at _ _ _ ?_, ?_⟩ <;>
      (simp only [laneShifts, List.mem_cons, List.not_mem_nil, or_false] at hr
       rcases hr with rfl | rfl | rfl <;> decide)

theorem witness_VectorPredicates : ∀ r ∈ lanePreds, ∃ s n t m w, VecAt s n t m w ∧ vCls w = r.2.1 ∧ vOp w = r.2.2.1 ∧ vVd w % 8 ≠ 0 := by
  intro r hr
  refine ⟨vecState (launchMsg []) (w64 (r.2.1 * 2 ^ 60 + r.2.2.1 * 2 ^ 54 + 2 ^ 49)), 0, 0, _, _, vecState_at _ _ _ ?_, ?_⟩ <;>
    (simp only [lanePreds, List.mem_cons, List.not_mem_nil, or_false] at hr
     rcases hr with rfl | rfl | rfl | rfl | rfl | rfl | rfl | rfl | rfl <;> decide)

theorem witness_VectorControl :
    (∀ op ∈ [0, 1, 2, 3, 4, 5, 6], ∃ s n t m w, VecAt s n t m w ∧ vCls w = 0 ∧ vOp w = op) ∧
    (∃ s n t m w r, VecAt s n t m w ∧ vCls w = 0 ∧ vOp w = 6 ∧ r ∈ (s.core n).cc.results ∧ r.tag = m.tag ∧ nbit ((s.strand n t).pred (vPg w)) 0 = true) ∧
    (∃ s n t m w, VecAt s n t m w ∧ vCls w = 0 ∧ vOp w = 6 ∧ nbit ((s.strand n t).pred (vPg w)) 0 = false) ∧
    (∃ s n t m w l, VecAt s n t m w ∧ vCls w = 0 ∧ vOp w = 1 ∧ l ∈ (s.core n).vec.queue ∧ l.msg.tag = m.tag) ∧
    (let s := vecState (launchMsg []) (vecWord 0 7)
     ∃ l, vIllegal (vecWord 0 7) = true ∧ (s.core 0).vec.insn (s.strand 0 0).pc = vecWord 0 7 ∧ (s.strand 0 0).launch = some 0 ∧
      (s.core 0).vec.queue.find? (fun l => l.msg.tag = 0) = some l) := by
  refine ⟨fun op h => ?_, ⟨_, 0, 0, _, _, ⟨0, false, []⟩, vecState_at [] (vecWord 0 6) {} (by decide), by decide⟩,
    ⟨vecState (launchMsg []) (w64 (6 * 2 ^ 54 + 2 ^ 31)) { p := [(1, 0)] }, 0, 0, _, _, vecState_at _ _ _ (by decide), by decide⟩,
    ⟨_, 0, 0, _, _, ⟨launchMsg [], [], [], 0⟩, vecState_at [] (vecWord 0 1) {} (by decide), by decide⟩, ⟨_, by decide, rfl, rfl, rfl⟩⟩
  refine ⟨vecState (launchMsg []) (vecWord 0 op), 0, 0, _, _, vecState_at _ _ _ ?_, ?_⟩ <;>
    (simp only [List.mem_cons, List.not_mem_nil, or_false] at h
     rcases h with rfl | rfl | rfl | rfl | rfl | rfl | rfl <;> decide)

/-- Launch words whose tensor slot 0 is 16 elements of the given format, EXACT or not. -/
def slotWords (fmt : Nat) (exact : Bool) : List W64 := [0, 0, 0, 0, 0, 0, w64 (16 * 2 ^ 40 + b01 exact * 2 ^ 39 + fmt * 2 ^ 30)]

/-- A strand core whose v0 holds `a` in every lane. -/
def splat (a : W32) (r : RedState := {}) : Strand := { v := [(0, List.replicate 16 a)], r := [(0, r)] }

theorem witness_VectorMemory :
    (∀ op ∈ [0, 1, 2], ∀ a ∈ [8191, 8192], ∃ s n t m w, VecAt s n t m w ∧ vCls w = 1 ∧ vOp w = op ∧ Memory.wf s.scratch = true ∧
      cacheLine (s.strand n t) w = if a = 8191 then some 8191 else none) ∧
    (∀ op ∈ [3, 4], ∀ a ∈ [0, 1], ∃ s n t m w, VecAt s n t m w ∧ vCls w = 1 ∧ vOp w = op ∧ Memory.wf s.scratch = true ∧
      slotBlock (s.strand n t) w (m.tslot (vSlot w / 2)) = (if a = 0 then some 0 else none) ∧ (s.core n).qnt.ports[1]? = some []) := by
  refine ⟨fun op h a ha => ?_, fun op h a ha => ?_⟩
  · refine ⟨vecState (launchMsg []) (vecWord 1 op) (splat (BitVec.ofNat 32 a)), 0, 0, _, _, vecState_at _ _ _ ?_, ?_⟩ <;>
      (simp only [List.mem_cons, List.not_mem_nil, or_false] at h ha
       rcases h with rfl | rfl | rfl <;> rcases ha with rfl | rfl <;> decide)
  · refine ⟨vecState (launchMsg (slotWords 6 false)) (vecWord 1 op) (splat (BitVec.ofNat 32 a)), 0, 0, _, _, vecState_at _ _ _ ?_, ?_⟩ <;>
      (simp only [List.mem_cons, List.not_mem_nil, or_false] at h ha
       rcases h with rfl | rfl <;> rcases ha with rfl | rfl <;> decide)

theorem witness_VectorReductions :
    (∀ op < 10, ∀ tree : Bool, ∃ s n t m w c, VecAt s n t m w ∧ vCls w = 7 ∧ vOp w = op ∧ bit (m.w 0) 33 = tree ∧
      (sget (s.strand n t).r {} (vSlot w % 4)).n + 16 = 2 ^ 20 ∧ (sget (s.strand n t).r {} (vSlot w % 4)).live = true ∧
      cacheLine (s.strand n t) w = some c ∧ Memory.wf s.scratch = true) ∧
    (∀ op ∈ [2, 4, 5], ∃ s n t m w, VecAt s n t m w ∧ vCls w = 7 ∧ vOp w = op ∧ (sget (s.strand n t).r {} (vSlot w % 4)).n + 16 = 2 ^ 20 + 1) ∧
    (∀ op ∈ [7, 8], ∃ s n t m w, VecAt s n t m w ∧ vCls w = 7 ∧ vOp w = op ∧ cacheLine (s.strand n t) w = none) ∧
    ∀ seen : Bool, ∃ s n t m w, VecAt s n t m w ∧ vCls w = 7 ∧ vOp w = 9 ∧ let r := sget (s.strand n t).r {} (vSlot w % 4)
      r.nan = false ∧ r.overSpan = false ∧ r.live = false ∧ r.emptySeen = seen := by
  refine ⟨fun op h tree => ?_, fun op h => ?_, fun op h => ?_, fun seen => ?_⟩
  · refine ⟨vecState (launchMsg [w64 (b01 tree * 2 ^ 33)]) (vecWord 7 op) (splat 0 { live := true, n := 2 ^ 20 - 16 }), 0, 0, _, _, 0, vecState_at _ _ _ ?_, ?_⟩ <;>
      (cases tree <;> rcases op with _ | _ | _ | _ | _ | _ | _ | _ | _ | _ | op <;> first | decide | omega)
  · refine ⟨vecState (launchMsg []) (vecWord 7 op) (splat 0 { n := 2 ^ 20 - 15 }), 0, 0, _, _, vecState_at _ _ _ ?_, ?_⟩ <;>
      (simp only [List.mem_cons, List.not_mem_nil, or_false] at h
       rcases h with rfl | rfl | rfl <;> decide)
  · refine ⟨vecState (launchMsg []) (vecWord 7 op) (splat 8192), 0, 0, _, _, vecState_at _ _ _ ?_, ?_⟩ <;>
      (simp only [List.mem_cons, List.not_mem_nil, or_false] at h
       rcases h with rfl | rfl <;> decide)
  · exact ⟨vecState (launchMsg []) (vecWord 7 9) (splat 0 { emptySeen := seen }), 0, 0, _, _, vecState_at _ _ _ (by decide), by cases seen <;> decide⟩

theorem witness_ExactSumOrderFree : [(1 : W32), 2].Perm [2, 1] := by decide

theorem witness_VectorGather : ∀ q ∈ [(0, 6), (1, 6), (1, 5), (2, 6)], ∀ a ∈ [15, 16], ∃ s n t m w, VecAt s n t m w ∧ vCls w = 8 ∧ vOp w = q.1 ∧
    Memory.wf s.scratch = true ∧
    let T := m.tslot (vSlot w / 2)
    (∀ l < 16, resolveIdx T.wrap T.dim (lane ((s.strand n t).reg (vVa w)) l) = if a = 15 then some 15 else none) ∧ T.exact = decide (q.1 = 2) ∧
      fsCode T.fmt = q.2 ∧ T.elem * 64 + 64 * T.dim ≤ 2 ^ 21 := by
  intro q h a ha
  refine ⟨vecState (launchMsg (slotWords q.2 (decide (q.1 = 2)))) (vecWord 8 q.1) (splat (BitVec.ofNat 32 a)), 0, 0, _, _, vecState_at _ _ _ ?_, ?_⟩ <;>
    (simp only [List.mem_cons, List.not_mem_nil, or_false] at h ha
     rcases h with rfl | rfl | rfl | rfl <;> rcases ha with rfl | rfl <;> decide)

theorem witness_OutOfBoundsLanes : ∀ op < 3, ∃ s n t m w, VecAt s n t m w ∧ vCls w = 8 ∧ vOp w = op ∧
    let T := m.tslot (vSlot w / 2)
    (op = 1 → T.exact = false ∧ isWide (fsCode T.fmt) = true) ∧ (op = 2 → T.exact = true) ∧
    0 < (List.range 16).countP fun l => nbit ((s.strand n t).pred (vPg w)) l && (resolveIdx T.wrap T.dim (lane ((s.strand n t).reg (vVa w)) l)).isNone := by
  intro op h
  refine ⟨vecState (launchMsg (slotWords 6 (decide (op = 2)))) (vecWord 8 op) (splat 16), 0, 0, _, _, vecState_at _ _ _ ?_, ?_⟩ <;>
    (rcases op with _ | _ | _ | op <;> first | decide | omega)

/-- A launch on strand core 0 that passes the checks; without its specifications it fails them. -/
def vlaunchMsg (ok : Bool) : OpMsg := msgOf (if ok then [19, 0, 5, 0, 5] else [19, 0, 15])

theorem witness_VectorLaunches :
    (∀ ok : Bool, ((coreState { vec := { inbox := [vlaunchMsg ok] } }).core 0).vec.inbox = vlaunchMsg ok :: [] ∧
      (launchBad ((coreState { vec := { inbox := [vlaunchMsg ok] } }).core 0) ((coreState { vec := { inbox := [vlaunchMsg ok] } }).ringSize 0) (vlaunchMsg ok)).isNone = ok) ∧
    let s := coreState { vec := { queue := [⟨vlaunchMsg true, [], [0], 0⟩] } }
    ∃ l rest, (s.core 0).vec.queue = l :: rest ∧ l.qops = 0 ∧ (∀ t ∈ l.msg.strands, t ∈ l.ended) ∧ (s.core 0).ec.inbox = [] ∧
      (s.core 0).ec.tiles = [] ∧ l.msg.reissue = false :=
  ⟨by decide, _, _, rfl, by decide⟩

theorem witness_FunctionSpecials : (f32 0x7FC00000).isNan = true := by decide

/- DMA engine, host window, memory repair. -/

/-- Words of a descriptor of one record of FP32, from element 0 to element 64 bytes: KIND, IDX_OP, DIR, COUNT of the index list. -/
def dmaWords (kind op dir cnt : Nat) : List W64 :=
  [w64 (kind + dir * 2 ^ 4 + 6 * 2 ^ 7 + 6 * 2 ^ 15 + 2 ^ 23 + op * 2 ^ 27 + 0x3FF * 2 ^ 37), 0, 0, 64, 0, w64 (cnt * 2 ^ 15), 1, 0, 0, 0, 0, 0, 0, 0, 0, 0]

/-- The DMA engine holds the descriptor `ws`. -/
def dmaCore (ws : List W64) (walked : Bool := false) (acks : Nat := 0) : Core := { dma := [⟨msgOf ws, walked, acks, 0, false⟩] }

theorem ok_of_toBool {ε α : Type} (x : Except ε α) (h : x.toBool = true) : ∃ u, x = .ok u := by
  cases x with
  | error _ => cases h
  | ok u => exact ⟨u, rfl⟩

theorem held_of {α : Type} (x : Except MemErr α) (h : waits x = true) : x = .error .held := by
  cases x with
  | error e => cases e <;> first | rfl | cases h
  | ok u => cases h

/-- The same descriptor through the quantiser, to BF16. -/
def quantWords (kind op dir cnt : Nat) : List W64 :=
  ((dmaWords kind op dir cnt).set 0 (w64 (kind + dir * 2 ^ 4 + 2 ^ 6 + 6 * 2 ^ 7 + 5 * 2 ^ 15 + 2 ^ 23 + op * 2 ^ 27 + 0x3FF * 2 ^ 37))).set 13 5

/-- Core 0 as given, in a fenced cluster. -/
def fenceState (c : Core) : State := { pageState c with rel := [(0, { fenced := [0] })] }

set_option maxRecDepth 20000 in
theorem witness_DmaRuns :
    (∀ r ∈ [(4, 0, 2, 0), (5, 0, 0, 1), (5, 1, 1, 1), (5, 2, 1, 1)], ∀ good : Bool,
      let s := pageState (dmaCore (dmaWords r.1 r.2.1 r.2.2.1 (if good then r.2.2.2 else 2 ^ 39)))
      let same (k : Nat) : Bool := s.job.used.contains k && s.ctxOf k = s.ctxOf 0 || k = 0
      ∃ m, (s.core 0).dmaNext = some m ∧ fld (m.w 0) 3 0 = r.1 ∧ fld (m.w 0) 28 27 = r.2.1 ∧
        let p := dmaDesc 0 m.words
        let marked := s.setCore 0 { s.core 0 with dma := (s.core 0).dma.map fun x => if x.msg.tag = m.tag then { x with walked := true, lost := x.lost || false } else x }
        p.versioned = false ∧ p.quant = false ∧ (p.check (s.core 0) m.words (s.ringSize 0) same).isNone = good ∧ s.coreFenced p.target = false ∧
          (good = true → (((marked.dmaTotals 0 p).dmaTscale 0 p).dmaPlain 0 m p).2 = none)) ∧
    (let s := pageState (dmaCore (quantWords 4 0 2 0))
     let same (k : Nat) : Bool := s.job.used.contains k && s.ctxOf k = s.ctxOf 0 || k = 0
     ∃ m, (s.core 0).dmaNext = some m ∧ fld (m.w 0) 3 0 = 4 ∧
        let p := dmaDesc 0 m.words
        let marked := s.setCore 0 { s.core 0 with dma := (s.core 0).dma.map fun x => if x.msg.tag = m.tag then { x with walked := true, lost := x.lost || false } else x }
        p.versioned = false ∧ p.quant = true ∧ (p.check (s.core 0) m.words (s.ringSize 0) same).isNone = true ∧ s.coreFenced p.target = false ∧
          (((marked.dmaTotals 0 p).dmaTscale 0 p).dmaQuant 0 m p).2 = none) ∧
    (let s := fenceState (dmaCore (dmaWords 4 0 2 0))
     let same (k : Nat) : Bool := s.job.used.contains k && s.ctxOf k = s.ctxOf 0 || k = 0
     ∃ m, (s.core 0).dmaNext = some m ∧ fld (m.w 0) 3 0 = 4 ∧
        let p := dmaDesc 0 m.words
        p.versioned = false ∧ (p.check (s.core 0) m.words (s.ringSize 0) same).isNone = true ∧ p.dst.hbm = false ∧ s.coreFenced p.target = true) ∧
    (let s := coreState (dmaCore (dmaWords 4 0 2 0) true 2)
     ∃ r rest, (s.core 0).dma = r :: rest ∧ r.walked = true ∧ r.acks = 2 ∧ r.qops = 0 ∧ r.lost = false ∧ r.msg.reissue = false) ∧
    (((pageState {}).waiting.any fun j => doorOf j = doorOf (.peerWrite 0 1 0 1 [])) = false) ∧
    (∀ gen, (((pageState {}).ctx 0).gen = gen ↔ gen = 1) ∧ ((pageState {}).ctx 0).state = .active ∧ ((State.reset).ctx 0).state ≠ .active) ∧
    (∃ u, (pageState {}).ctxWrite (.die 0) 0 64 [7] = .ok u) ∧ (retrainAll (pageState {})).ctxWrite (.die 0) 0 64 [7] = .error .held := by
  refine ⟨by decide, by decide, by decide, ⟨_, _, rfl, by decide⟩, by decide, fun gen => ⟨⟨fun h => h.symm, fun h => h ▸ rfl⟩, by decide, by decide⟩,
    ok_of_toBool _ (by decide), held_of _ (by decide)⟩

theorem witness_DmaCopiesRow :
    let s := coreState (dmaCore (dmaWords 4 0 2 0))
    let same (k : Nat) : Bool := s.job.used.contains k && s.ctxOf k = s.ctxOf 0 || k = 0
    ∃ m, (s.core 0).dmaNext = some m ∧ fld (m.w 0) 3 0 = 4 ∧ Memory.wf s.scratch = true ∧
      let p := dmaDesc 0 m.words
      p.versioned = false ∧ p.check (s.core 0) m.words (s.ringSize 0) same = none ∧ s.coreFenced p.target = false ∧ p.quant = false ∧ p.peer = false ∧
        p.src.spec = p.dst.spec ∧ hasScale (fsCode p.src.spec) = false ∧ p.src.hbm = false ∧ p.dst.hbm = false ∧ p.padded = false ∧
        p.counts = [1, 1, 1, 1] := by decide

/-- The module is out of reset with its firmware running and the HBM ready. -/
def upState (s : State := State.reset) : State := { s with pwr := { s.pwr with resetN := true, hbmReady := true }, sec := { s.sec with mode := 1 } }

theorem witness_HbmAccessAndRepair :
    (∃ a : HostAccess, a.addr < 2 ^ 39 ∧ State.reset.hostUp = false) ∧
    (∃ a : HostAccess, a.addr < 2 ^ 39 ∧ (retrainAll upState).hostUp = true ∧ (retrainAll upState).pwr.hbmReady = true ∧ (retrainAll upState).hostWaits a = true ∧
      ({ upState with hostOut := [a] } : State).hostWaits a = true) ∧
    (∀ w : Bool, ∃ a : HostAccess, a.write = w ∧ upState.hostUp = true ∧ upState.pwr.hbmReady = true ∧ a.addr + a.size = 480 * 2 ^ 30 ∧ 0 < a.size ∧
      a.addr % 64 + a.size ≤ 64 ∧ upState.hostWaits a = false ∧ sfind upState.mem.pages (a.addr / 2 ^ 21) = none ∧ Memory.wf upState.hbm = true ∧
      upState.poisoned a.addr a.size = false) ∧
    (∃ (s : State) (a : HostAccess), s.hostOut = [a]) ∧
    (∃ (v : W64), let s := State.reset
      s.chan (32 * 0 + fld v 4 0) = .active ∧ s.chan (32 * 0 + fld v 9 5) = .spare ∧ bit (s.reg (rid .LAY_MIG .module 0)) 63 = false ∧
        sfind s.mem.migReq 0 = none) ∧
    (∃ (v : W64), State.reset.chan (32 * 0 + fld v 9 5) ≠ .spare) ∧
    (let s : State := { State.reset with regs := [(rid .LAY_MIG .module 0, w64 (2 ^ 63 + 30 * 2 ^ 5 + (2 ^ 20 - 64) * 2 ^ 10))] }
     let w := s.reg (rid .LAY_MIG .module 0)
     bit w 63 = true ∧ fld w 30 10 < 2 ^ 20 ∧ s.regBlocked 0 6 = false ∧ s.stackDown 0 = false ∧ 32 * 0 + fld w 4 0 ∉ s.mem.retraining ∧
      32 * 0 + fld w 9 5 ∉ s.mem.retraining ∧ fld w 4 0 ≠ fld w 9 5 ∧ Memory.wf s.hbm = true) ∧
    (State.reset.regBlocked 0 6 = false ∧ State.reset.stackDown 0 = false ∧ ∀ c, c < 32 → State.reset.chan (32 * 0 + c) = .active → 32 * 0 + c ∉ State.reset.mem.retraining) ∧
    (∀ temp ∈ [84, 85, 94, 95], let need := if temp < 85 then 0 else if temp < 95 then 1 else 2
      (temp = 84 ↔ need ≤ fld (State.reset.reg (rid .REFRESH_CTRL (.stack 0))) 5 4)) := by
  refine ⟨⟨⟨false, 0, 8, 0⟩, by decide⟩, ⟨⟨false, 0, 8, 0⟩, by decide⟩, ?_, ⟨{ State.reset with hostOut := [⟨false, 0, 8, 0⟩] }, _, rfl⟩, ⟨w64 (30 * 2 ^ 5), by decide⟩,
    ⟨0, by decide⟩, by decide, by decide, by decide⟩
  intro w
  cases w <;> exact ⟨⟨_, 480 * 2 ^ 30 - 8, 8, 0⟩, rfl, by decide⟩

/- Capstans. -/

/-- A record of one block in context 0: OPT, GRAD_KNOT tied or not mapped to a tied knot, CLIP, FREEZE, gradient in FP32. -/
def capWords (opt clip freeze : Nat) : List W64 :=
  [w64 (opt + freeze * 2 ^ 3 + 2 ^ 6 + 3 * 2 ^ 7 + clip * 2 ^ 11), w64 (4 + 4 * 2 ^ 24), w64 (2 ^ 40), 0x100, 0x200, 0x300, 0x400, 0x500, 0, 0, 0, 0, 0, 0, 0, 0]

/-- A running step: context 0 maps page 0, its knot 0 is tied or clear, the commit word at 0x500 is valid, and Capstan 0 is as given. -/
def capState (tied : Bool) (c : Cap) : State :=
  { pageState {} with
    hbm := [(0, 3), (0x500, 2)]
    knots := [(0, { xlate := [(0, w64 (2 ^ 14))], tied := if tied then [0] else [] })]
    caps := [(0, c)] }

/-- A Capstan in a microprogram of record 0, at operation `pc` of parameter `p`. -/
def mpCap (w : W32) (p pc : Nat) : Cap :=
  { records := [capWords 3 15 0], mprogs := [List.replicate 32 w], mp := some { rcd := 0, c := 0x3F800000, p := p, pc := pc, regs := [], outs := [] } }

theorem ok_of_check {ε α : Type} (x : Except ε α) (p : α → Prop) [DecidablePred p]
    (h : (match x with | .ok a => decide (p a) | .error _ => false) = true) : ∃ a, x = .ok a ∧ p a := by
  cases x with
  | error _ => cases h
  | ok a => exact ⟨a, rfl, of_decide_eq_true h⟩

/-- Operation `op` at place `pc` of record 0's microprogram meets the hypotheses. -/
def mpMeets (op pc : Nat) : Prop := ∃ (s : State) (u : MpRun) (r : CapRec), (s.cap 0).mp = some u ∧ s.capRec? 0 u.rcd = some r ∧
  (∃ x, s.capRead 0 r = .ok x ∧ nth x.frozen false u.p = false ∧ nth x.frozen false (u.p + 1) = false) ∧ u.p + 1 < r.n ∧ u.pc = pc ∧
  mpOp (nth (nth (s.cap 0).mprogs [] r.mprog) 0 u.pc) = op

theorem witness_Microprograms : (∀ op ∈ [1, 2, 3, 4, 5, 6, 7, 8, 9, 10, 11, 12, 13], mpMeets op 0) ∧ mpMeets 13 30 ∧ mpMeets 0 31 := by
  refine ⟨?_, ⟨capState true (mpCap (BitVec.ofNat 32 (13 * 2 ^ 27)) 0 30), _, _, rfl, rfl, ok_of_check _ _ (by decide), by decide⟩,
    ⟨capState true (mpCap 0 14 31), _, _, rfl, rfl, ok_of_check _ _ (by decide), by decide⟩⟩
  intro op h
  simp only [List.mem_cons, List.not_mem_nil, or_false] at h
  rcases h with rfl | rfl | rfl | rfl | rfl | rfl | rfl | rfl | rfl | rfl | rfl | rfl | rfl
  · exact ⟨capState true (mpCap (BitVec.ofNat 32 (1 * 2 ^ 27)) 0 0), _, _, rfl, rfl, ok_of_check _ _ (by decide), by decide⟩
  · exact ⟨capState true (mpCap (BitVec.ofNat 32 (2 * 2 ^ 27)) 0 0), _, _, rfl, rfl, ok_of_check _ _ (by decide), by decide⟩
  · exact ⟨capState true (mpCap (BitVec.ofNat 32 (3 * 2 ^ 27)) 0 0), _, _, rfl, rfl, ok_of_check _ _ (by decide), by decide⟩
  · exact ⟨capState true (mpCap (BitVec.ofNat 32 (4 * 2 ^ 27)) 0 0), _, _, rfl, rfl, ok_of_check _ _ (by decide), by decide⟩
  · exact ⟨capState true (mpCap (BitVec.ofNat 32 (5 * 2 ^ 27)) 0 0), _, _, rfl, rfl, ok_of_check _ _ (by decide), by decide⟩
  · exact ⟨capState true (mpCap (BitVec.ofNat 32 (6 * 2 ^ 27)) 0 0), _, _, rfl, rfl, ok_of_check _ _ (by decide), by decide⟩
  · exact ⟨capState true (mpCap (BitVec.ofNat 32 (7 * 2 ^ 27)) 0 0), _, _, rfl, rfl, ok_of_check _ _ (by decide), by decide⟩
  · exact ⟨capState true (mpCap (BitVec.ofNat 32 (8 * 2 ^ 27)) 0 0), _, _, rfl, rfl, ok_of_check _ _ (by decide), by decide⟩
  · exact ⟨capState true (mpCap (BitVec.ofNat 32 (9 * 2 ^ 27)) 0 0), _, _, rfl, rfl, ok_of_check _ _ (by decide), by decide⟩
  · exact ⟨capState true (mpCap (BitVec.ofNat 32 (10 * 2 ^ 27)) 0 0), _, _, rfl, rfl, ok_of_check _ _ (by decide), by decide⟩
  · exact ⟨capState true (mpCap (BitVec.ofNat 32 (11 * 2 ^ 27)) 0 0), _, _, rfl, rfl, ok_of_check _ _ (by decide), by decide⟩
  · exact ⟨capState true (mpCap (BitVec.ofNat 32 (12 * 2 ^ 27)) 0 0), _, _, rfl, rfl, ok_of_check _ _ (by decide), by decide⟩
  · exact ⟨capState true (mpCap (BitVec.ofNat 32 (13 * 2 ^ 27)) 0 0), _, _, rfl, rfl, ok_of_check _ _ (by decide), by decide⟩

theorem witness_SchedulesAndOptimisers :
    (∃ (s : State) (v : W64), (s.cap 0).test = some v) ∧ (∃ r : CapRec, r.opt = 0) ∧ ∃ r : CapRec, r.opt = 1 :=
  ⟨⟨capState true { test := some 5 }, 5, rfl⟩, ⟨capRec (capWords 0 15 0), rfl⟩, ⟨capRec (capWords 1 15 0), rfl⟩⟩

/-- Two records of clip group 0. -/
def clipCap (freeze : Nat) : Cap := { records := [capWords 0 0 freeze, capWords 0 0 freeze] }

/-- The whipping unit holds a CELL record whose site names group 3 of stack 0, and the returned cell of that group. -/
def clipState : State :=
  { capState true {} with whips := [(0, { records := [[3, 3, 0, 0, 0, 0, 0, 0]], cells := [{ rcd := 0, res := [{}], done := true }] })] }

theorem witness_CapstanPasses :
    (let s := capState true (clipCap 0)
     ∃ r, s.capRec? 0 0 = some r ∧ s.capOn r = true ∧ r.clip ≠ 15 ∧ 0 ∉ (s.cap 0).normDone ∧
      (∀ p ∈ (s.cap 0).recs, p.1.clip = 15 ∨ 0 ≤ p.2 ∨ p.2 ∈ (s.cap 0).normDone) ∧
      s.capSkip 0 0 r = .ok (false, s) ∧ s.gradReady 0 0 r = true ∧ (∃ gs, s.capGrad 0 r = .ok gs) ∧ (∃ ms, s.capMask 0 r = .ok ms) ∧
      (∃ p ∈ (s.cap 0).recs, p.1.clip = r.clip ∧ p.2 ≠ 0 ∧ p.2 ∉ (s.cap 0).normDone) ∧
      ∀ g, g ≠ r.clip → g ∈ (s.cap 0).handed ∨ (s.cap 0).groupReady g = false ∨ (s.cap 0).ofGroup g = []) ∧
    (∃ p cell, clipState.entered = true ∧ sfind (clipState.cap 0).clip 3 = none ∧
      (((clipState.whip 0).records.map xrec).zipIdx).find? (fun p => p.1.mode = 3 && !p.1.cellIn && p.1.site % 16 = 3 && ((clipState.whip 0).cellOf p.2).done) = some p ∧
      ((clipState.whip 0).cellOf p.2).res.head? = some cell) ∧
    (∀ skip tied : Bool, let s := capState tied { records := [capWords 3 15 (if skip then 1 else 0)] }
     ∃ r, s.capRec? 0 0 = some r ∧ s.capOn r = true ∧ 0 ∉ (s.cap 0).updDone ∧ (s.cap 0).mp = none ∧ (s.cap 0).updTurn 0 r = true ∧
      s.capSkip 0 0 r = .ok (skip, s) ∧ r.clip = 15 ∧ s.gradReady 0 0 r = tied ∧
      (∃ x, s.capRead 0 r = .ok x) ∧ r.opt = 3) ∧
    (∀ clipped : Bool, let s := capState true { records := [capWords 0 (if clipped then 0 else 15) 0], normDone := [0], clip := [(0, some 0x3F800000)] }
     ∃ r, s.capRec? 0 0 = some r ∧ s.capOn r = true ∧ 0 ∉ (s.cap 0).updDone ∧ (s.cap 0).mp = none ∧ (s.cap 0).updTurn 0 r = true ∧
      s.capSkip 0 0 r = .ok (false, s) ∧ (r.clip = 15 ↔ clipped = false) ∧ (if r.clip = 15 then s.gradReady 0 0 r = true else (sfind (s.cap 0).clip r.clip).isSome = true) ∧
      r.opt ≠ 3 ∧ ∃ x, s.capRead 0 r = .ok x ∧
      let s1 := s.capLoad 0 r (r.updReads (s.cap 0) x.src)
      (s1.capFinish 0 0 r x (((x.ws.zip (x.ms.zip x.vs)).zip (x.gs.zip x.frozen)).map fun p => (p.1.1, p.1.2.1, p.1.2.2))).isSome = true) := by
  refine ⟨⟨_, rfl, by decide, by decide, by decide, by decide, by rfl, by decide, ok_of_toBool _ (by decide), ok_of_toBool _ (by decide), by decide, ?_⟩,
    ⟨_, _, by decide, by decide, rfl, rfl⟩, ?_, ?_⟩
  · intro g hg
    refine Or.inr (Or.inr (List.map_eq_nil_iff.mpr (List.filter_eq_nil_iff.mpr fun p hp h => hg ?_)))
    have hc : ∀ p ∈ (clipCap 0).recs, p.1.clip = 0 := by decide
    exact (of_decide_eq_true h).symm.trans (hc p hp)
  · intro skip tied
    cases skip <;> cases tied <;>
      exact ⟨_, rfl, by decide, by decide, by decide, by decide, by rfl, by decide, by decide, ok_of_toBool _ (by decide), by decide⟩
  · intro clipped
    cases clipped <;>
      exact ⟨_, rfl, by decide, by decide, by decide, by decide, by rfl, by decide, by decide, by decide, ok_of_check _ _ (by decide +kernel)⟩

/- Gradient exchange. -/

/-- An exchange record of 16 elements of site 0 in context 0, group and member as given, knot 0, output at 0x800, staging at 0x100, K = 4. -/
def xWords (mode group mem : Nat) : List W64 :=
  [w64 (mode + 2 ^ 10 + group * 2 ^ 32 + mem * 2 ^ 47), 0, 16, 0x800, 0x700, 0x100, w64 (0x3F800000 + 2 ^ 32), 0]

/-- Whipping unit 0 of a running step, context 0 mapping page 0. -/
def whipState (w : Whip) : State := { pageState {} with whips := [(0, w)] }

/-- A fragment of the given kind and epoch, for record 0, bucket 0, sender 0 of generation 1. -/
def frag (kind epoch : Nat) (step : Nat := 0) : FragMsg := { h0 := w64 (step + epoch * 2 ^ 48 + kind * 2 ^ 56), h1 := 0, h2 := 0, h3 := 1, payload := [] }

/-- A reported tile of site 0, in FP32 at the start of scratch, its operation accepted or not. -/
def tileOf (accepted : Bool) : WhipTile :=
  { site := 0, tile := 0, epoch := 0, wait := if accepted then [] else [(0, 0, 0)]
    loc := { core := 0, fmt := 6, tscale := 0, dst := ⟨false, 0, 0, 0, none, 16⟩, ats := (List.range 16).map fun i => (0, i) } }

/-- A message that waits at die 0's whipping unit. -/
def doorMsg : Instr := .finalMsg 0 (frag 4 0)

theorem witness_Fragments :
    (∀ busy : Bool, ((({ State.reset with waiting := if busy then [doorMsg] else [] } : State).waiting.any fun j => doorOf j = some 0) = busy)) ∧
    (∀ k ∈ [1, 2], let s := retrainAll (whipState { records := [xWords 0 1 0] })
      s.fragStale 0 (frag k 0) = false ∧ ((s.whip 0).rxOf 0 0 0).h ≤ 0 ∧ ((s.whip 0).rxOf 0 0 0).fin = false ∧ ∃ x, (s.xrec? 0 0).map (s.xrecv 0) = some x ∧
        (s.bump (whipR .FRAG_RECV_TOTAL 0) 1).ctxWrite (.die 0) x.ctx (x.slotAddr 0 0) ((fragBytes (frag k 0)).take x.slotBytes) = .error .held) ∧
    (let s := whipState { records := [xWords 2 1 0] }
     ∃ x, s.xrec? 0 0 = some x ∧ s.whipOn x = true ∧ x.mode = 2) ∧
    (∀ held : Bool, let s0 := whipState { records := [xWords 0 1 0], tiles := [tileOf true], tx := [⟨0, 0, 0, false, false⟩] }
     let s := if held then retrainAll s0 else s0
     ∃ x, s.xrec? 0 0 = some x ∧ s.whipOn x = true ∧ x.mode ≤ 1 ∧ 0 < x.buckets ∧ ((s.whip 0).txOf 0 0).sent = false ∧
      s.tilesAll 0 x 0 (fun n => x.spec || n.accepted) = true ∧ (s.bucketSend 0 0 0 x).isNone = held ∧
      ((s.bucketSend 0 0 0 x).bind fun u => u.bucketFinal 0 0 0 x).isNone = held) ∧
    (let s := whipState { records := [xWords 0 1 0], tiles := [tileOf true], tx := [⟨0, 0, 0, true, false⟩] }
     ∃ x, s.xrec? 0 0 = some x ∧ s.tilesAll 0 x 0 (·.accepted) = true ∧ let tx := (s.whip 0).txOf 0 0
      tx.sent = true ∧ tx.fin = false ∧ ((s.setWhip 0 ((s.whip 0).putTx { tx with fin := true })).fragSend 0 x 0 none
        ((s.setWhip 0 ((s.whip 0).putTx { tx with fin := true })).fragHead x 0 4 tx.epoch 0 0 0 [])).isSome = true) ∧
    (∀ k ∈ [1, 2, 3, 4], ∀ e ∈ [0, 255], let s := whipState { records := [xWords 0 1 0], rx := [⟨0, 0, 0, 0, some 0, false⟩] }
      s.fragStale 0 (frag k e 1) = true ∧ s.fragStale 0 (frag k e) = false ∧ fld (frag k e).h0 59 56 = k ∧ fld (frag k e).h0 55 48 = e ∧
      (∃ x, (s.xrec? 0 0).map (s.xrecv 0) = some x ∧
        (∃ u, (s.bump (whipR .FRAG_RECV_TOTAL 0) 1).ctxWrite (.die 0) x.ctx (x.slotAddr 0 0) ((fragBytes (frag k e)).take x.slotBytes) = .ok u)) ∧
      let slot := (s.whip 0).rxOf 0 0 0
      slot.h ≤ e ∧ slot.fin = false ∧ (slot.held = some e ↔ e = 0)) ∧
    (∀ all sent : Bool, let s := whipState { records := [xWords 0 1 0], tiles := [tileOf all], tx := [⟨0, 0, 0, sent, false⟩] }
     ∃ x, s.xrec? 0 0 = some x ∧ s.whipOn x = true ∧ x.mode ≤ 1 ∧ 0 < x.buckets ∧ ((s.whip 0).txOf 0 0).sent = sent ∧ ((s.whip 0).txOf 0 0).fin = false ∧
      s.tilesAll 0 x 0 (·.accepted) = all ∧ s.tilesAll 0 x 0 (fun n => x.spec || n.accepted) = all) := by
  refine ⟨by decide, ?_, ⟨_, rfl, by decide⟩, ?_, ⟨_, rfl, by decide⟩, ?_, ?_⟩
  · intro k hk
    simp only [List.mem_cons, List.not_mem_nil, or_false] at hk
    rcases hk with rfl | rfl <;> exact ⟨by decide, by decide, by decide, _, rfl, held_of _ (by decide)⟩
  · intro held
    cases held <;> exact ⟨_, rfl, by decide, by decide, by decide, by decide, by decide, by decide +kernel, by decide +kernel⟩
  · intro k hk e he
    simp only [List.mem_cons, List.not_mem_nil, or_false] at hk he
    rcases hk with rfl | rfl | rfl | rfl <;> rcases he with rfl | rfl <;>
      exact ⟨by decide, by decide, by decide, by decide, ⟨_, rfl, ok_of_toBool _ (by decide)⟩, by decide, by decide, by decide⟩
  · intro all sent
    cases all <;> cases sent <;> exact ⟨_, rfl, by decide⟩

/-- A member of a ring of two whose record pairs with a compressed one: a bridge. -/
def bridgeState : State := whipState { records := [xWords 2 2 0, xWords 0 2 0] }

/-- A piece of a CELL record of two cells, from member 1. -/
def cellPiece (step : Nat) : CellMsg := { h0 := w64 step, h1 := w64 (2 ^ 32), h2 := 0, h3 := 1, leg := 2, cells := [List.replicate 64 0] }

theorem witness_RingAndMerge :
    (let m : DenseMsg := { h0 := 0, h1 := 0, h3 := 1, chunk := 0, second := false, vals := [] }
     bridgeState.fragStale 0 { h0 := m.h0, h1 := m.h1, h2 := 0, h3 := m.h3, payload := [] } = false ∧
      ∃ x p, bridgeState.xrec? 0 (fld m.h1 7 0) = some x ∧ x.mode = 2 ∧ (bridgeState.bump (whipR .FRAG_RECV_TOTAL 0) 1).pairFor 0 x = some p ∧ 2 ≤ x.group ∧
        fld m.h1 31 8 ∉ ((bridgeState.whip 0).ringOf (fld m.h1 7 0)).went) ∧
    (let s := whipState { records := [xWords (3 + 2 ^ 5) 2 0] }
     (∀ old : Bool, s.fragStale 0 { h0 := (cellPiece (b01 old)).h0, h1 := (cellPiece (b01 old)).h1, h2 := 0, h3 := 1, payload := [] } = old) ∧
      ∃ x, s.xrec? 0 0 = some x ∧ x.mode = 3 ∧
        (((fld (cellPiece 0).h1 46 32, fld (cellPiece 0).h1 31 8, (cellPiece 0).cells.length) :: ((s.whip 0).cellOf 0).resGot).map fun g => g.2.2).sum < x.cellCount) ∧
    (whipState {}).fragStale 0 { h0 := 0, h1 := 0, h2 := 0, h3 := 1, payload := [] } = true ∧
    (∀ held : Bool, let s := whipState { records := [xWords 0 1 0], rx := [⟨0, 0, 0, 0, some 0, true⟩], store := [(0, 0)] }
     let s := if held then { s with mem := { s.mem with retraining := s.burstChans true 0x800 } } else s
     ∃ x, (s.xrec? 0 0).map (s.xrecv 0) = some x ∧ s.whipOn x = true ∧ s.mergeReady 0 0 0 x = true ∧ (0, 0) ∈ (s.whip 0).store ∧
      let s1 := s.bump (whipR .MERGE_STALL_TOTAL 0) 0
      ∃ cs, s1.mergeCells 0 x 0 = .ok cs ∧ let s2 := s1.mergeLoad 0 x 0
        s2.pairOf 0 x = none ∧
        let wr := s2.ctxWrite (.die 0) x.ctx (x.outBase + (if x.owner then x.rank 0 x.mem else 0) * 4096 * x.outBytes)
          ((cs.map fun c => leBytes x.outBytes (x.outCode (c.value.mul (f32n x.scale)))).flatten)
        wr.toBool = !held ∧ waits wr = held) ∧
    (let s := whipState { records := [xWords 2 2 0, xWords 0 2 0], rx := [⟨1, 0, 0, 0, some 0, true⟩, ⟨1, 0, 1, 0, some 0, true⟩], store := [(1, 0)] }
     ∃ x, (s.xrec? 0 1).map (s.xrecv 0) = some x ∧ s.whipOn x = true ∧ s.mergeReady 0 1 0 x = true ∧ (1, 0) ∈ (s.whip 0).store ∧
      let s1 := s.bump (whipR .MERGE_STALL_TOTAL 0) 0
      ∃ cs, s1.mergeCells 0 x 0 = .ok cs ∧ ((s1.mergeLoad 0 x 0).pairOf 0 x).isSome = true) := by
  refine ⟨⟨by decide, _, _, rfl, by decide, rfl, by decide, by decide⟩, ⟨by decide, _, rfl, by decide⟩, by decide,
    fun held => ?_, ⟨_, rfl, by decide, by decide, by decide, ok_of_check _ _ (by decide)⟩⟩
  cases held <;> exact ⟨_, rfl, by decide, by decide, by decide, ok_of_check _ _ (by decide)⟩

/- The step cycle and the hank. -/

/-- A module in state `st` with the given attempt, of role `role` in a job of `modules` modules. -/
def stepState (st : StepState) (role : Nat := 0) (modules : Nat := 2) (f : StepCtl → StepCtl := id) : State :=
  { State.reset with step := f { state := st }, job := { role := role, modules := modules, member := 0 }
                     route := { hankFirst := 0, hankSize := 2, manager := 1 } }

/-- The module in HELD with a valid image and no limit, one core used in an active context. -/
def readyToRun : State :=
  { State.reset with step := { imageValid := true }, job := { used := [0] }, ctxs := [(0, { state := .active })], regs := [(modR .STEP_LIMIT, 1)] }

theorem witness_StepControls :
    (∃ s : State, s.step.state = .armed ∧ s.step.aborting = false) ∧ (∃ s : State, s.step.state ≠ .armed) ∧ (∃ s : State, s.step.state ≠ .held) ∧
    (let u := readyToRun.setRegFld (modR .STEP_CTRL) 0 0 1
     readyToRun.step.state = .held ∧ readyToRun.step.faultHeld = false ∧ readyToRun.load = none ∧ u.canRun = true ∧ u.keyRebuild.2 = true ∧
      readyToRun.step.holdTick = none) ∧
    (∃ s : State, s.step.faultHeld = false) ∧ (∃ s : State, 65535 ≤ s.step.attempt) ∧
    ∃ s : State, s.step.faultHeld = true ∧ s.step.attempt = 65534 ∧ resting s :=
  ⟨⟨stepState .armed, rfl, rfl⟩, ⟨stepState .held, by decide⟩, ⟨stepState .armed, by decide⟩, by decide, ⟨State.reset, rfl⟩,
    ⟨stepState .held 0 2 fun c => { c with attempt := 65535 }, by decide⟩,
    ⟨stepState .held 0 2 fun c => { c with attempt := 65534, faultHeld := true }, rfl, rfl, rfl, by decide⟩⟩

/-- A load in progress that will end with `code`. -/
def loading (code : Nat) : State := { State.reset with load := some { code := code, section_ := 3, secs := [], meas := 0 } }

theorem witness_Loads :
    (loading 0).load.isSome = true ∧ ((stepState .armed).load = none ∧ (stepState .armed).step.state ≠ .held) ∧
    (State.reset.load = none ∧ State.reset.step.state = .held) ∧
    (∃ j, (loading 9).load = some j ∧ j.code ≠ 0 ∧ j.code < 2 ^ 32) ∧ resting (loading 9) ∧
    (∃ j, (loading 0).load = some j ∧ j.code = 0) ∧ resting (loading 0) ∧ (∃ v : W64, bit v 0 = false) ∧ ∃ v : W64, bit v 0 = true :=
  ⟨rfl, by decide, by decide, ⟨_, rfl, by decide⟩, ⟨rfl, by decide⟩, ⟨_, rfl, rfl⟩, ⟨rfl, by decide⟩, ⟨0, by decide⟩, ⟨1, by decide⟩⟩

theorem witness_TickStartsStep :
    ((stepState .armed).isManager = false ∧ (stepState .armed 1).now 1 0 = false ∧ 2 ∉ (stepState .armed 1).reporters) ∧
    (let s := stepState .armed 1
     s.isManager = true ∧ s.now 0 0 = true ∧ 0 ∈ s.reporters ∧ 0 ∉ s.hank.ready ∧ ∃ x ∈ s.reporters, x ≠ 0 ∧ x ∉ s.hank.ready) ∧
    (∀ late : Bool, let s : State := { readyToRun with step := { state := .armed, readySent := true }, job := { used := [0], role := 0 } }
      let e := if late then 20000 else 19999
      s.job.role = 0 ∧ s.route.standby = false ∧ s.now 0 0 = true ∧ s.step.state = .armed ∧ s.step.aborting = false ∧ s.step.readySent = true ∧
        (e + (s.reg (linkR .LINK_LATENCY 0)).toNat / 1000 < s.route.tickDelay ↔ late = false) ∧ s.usedCores ≠ []) ∧
    ((stepState .held).step.state ≠ .armed ∧ (stepState .armed).step.tick = none ∧ (stepState .armed 0 2 fun c => { c with aborting := true }).step.aborting = true) ∧
    (let s : State := { readyToRun with step := { state := .armed, tick := some 0 } }
     s.step.state = .armed ∧ s.step.tick.isSome = true ∧ s.step.aborting = false ∧ s.usedCores = [0] ∧ 0 < 384) := by decide

/-- A step that drains, its summary sent or not. -/
def drainState (sent : Bool) (role : Nat := 0) (out : Nat := 0) : State :=
  stepState .draining role 2 fun c => { c with summarySent := sent, mirrorSent := true, mirrorOut := out }

/-- The root's step that drains, its summary sent and its decision made. -/
def rootState : State := { drainState true 2 with hank := { decided := true } }

/-- A COMMIT waits at the commit words. -/
def commitWaits : Bool := ({ State.reset with waiting := [.commit 0 0 ⟨[], [], [], [], [], 0, false⟩ 0 ⟨0, [], [], []⟩] } : State).waiting.any fun j => doorOf j = some 8

theorem witness_DrainsCommitsAndSlots :
    ((stepState .running).drained = false ∧ (drainState true).step.summarySent = true) ∧
    ((drainState false).drained = true ∧ (drainState false).step.summarySent = false ∧ (drainState false).step.mirrorSent = true ∧ (drainState false).isManager = false) ∧
    ((stepState .running).step.state ≠ .draining ∧ (drainState false).step.state = .draining ∧ (drainState false).step.aborting = false) ∧
    ((drainState false).isManager = false ∧ (drainState false 1).now 1 0 = false ∧ (stepState .held 1).inStep = false ∧
      0 ∈ ({ drainState false 1 with hank := { sums := [0] } } : State).hank.sums) ∧
    (let s := drainState false 1
     s.isManager = true ∧ s.now 0 0 = true ∧ s.inStep = true ∧ 0 ∉ s.hank.sums ∧ 0 ∈ s.reporters ∧ ∃ x ∈ s.reporters, x ≠ 0 ∧ x ∉ s.hank.sums) ∧
    ((drainState false).job.role = 0 ∧ (drainState false).step.summarySent = false ∧ (drainState true).now 0 0 = true ∧ (drainState true).now 0 1 = false ∧
      (drainState true).step.state = .draining ∧ (drainState true).step.aborting = false) ∧
    (∀ k ≤ 1, let s := drainState false 0 1
      s.drained = true ∧ s.step.summarySent = false ∧ s.step.mirrorSent = true ∧ s.isManager = false ∧ (s.step.mirrorOut ≤ k ↔ k = 1)) ∧
    (commitWaits = true ∧ ((drainState true).waiting.any fun j => doorOf j = some 8) = false ∧ ∀ b, b < 8 → (drainState true).capCommitHeld b (fun _ => false) = false) ∧
    (rootState.job.role = 2 ∧ (rootState.waiting.any fun j => doorOf j = some 8) = false ∧ rootState.now 0 0 = true ∧ rootState.step.state = .draining ∧
      rootState.step.aborting = false ∧ rootState.step.summarySent = true ∧ rootState.hank.decided = true ∧
      ∀ b, b < 8 → rootState.capCommitHeld b (fun _ => false) = false) ∧
    ((drainState true).step.state ≠ .held ∧ (loading 0).load.isSome = true ∧ State.reset.step.state = .held ∧ State.reset.load = none) ∧
    (State.reset.step.state ≠ .maintenance ∧ (stepState .maintenance).step.state = .maintenance) :=
  ⟨by decide, by decide, by decide, by decide, by decide, by decide, by decide, by decide, by decide, by decide, by decide⟩

theorem witness_StepAborts :
    ((stepState .armed).job.role = 0 ∧ (stepState .armed).now 0 1 = false ∧ (stepState .held).inStep = false) ∧
    (let s : State := { readyToRun with step := { state := .running }, job := { used := [0], role := 0 } }
     s.job.role = 0 ∧ s.now 0 0 = true ∧ s.inStep = true ∧ 0 ∈ s.job.used) ∧
    (State.reset.step.aborting = false ∧ (stepState .running 0 2 fun c => { c with aborting := true }).step.aborting = true) ∧
    (State.reset.step.faultHeld = false ∧ (stepState .held).job.role = 0) ∧
    ∃ s : State, s.job.role = 0 ∧ 0 = s.logline ∧ 1 = s.step.attempt + 1 ∧ s.step.faultHeld = true ∧ resting s :=
  ⟨by decide, by decide, by decide, by decide, ⟨stepState .held 0 2 fun c => { c with faultHeld := true }, rfl, by decide, rfl, rfl, rfl, by decide⟩⟩

theorem witness_HeartbeatsAndLosses :
    ((stepState .held 0).job.role = 0 ∧ (stepState .held 1).job.role = 1) ∧
    ((stepState .held 2).job.role = 2 ∧ reportLost [0, 1, 0, 0] = none ∧ fld (nth [0, 1, 0, 0] 0 1) 47 0 ≠ (stepState .held 2).logline % 2 ^ 48 ∧
      fld (nth [0, w64 (2 ^ 48), 0, 0] 0 1) 63 48 ≠ (stepState .held 2).step.attempt) ∧
    (let s := stepState .running 2
     s.job.role = 2 ∧ 1 ≠ s.job.member ∧ reportLost [0, 0, w64 (7 + 7 * 2 ^ 4), w64 (2 ^ 63 + 2)] = some 2 ∧ s.inStep = true ∧ s.hank.decided = false) ∧
    (State.reset.inJob = false ∧ (stepState .held).inJob = true ∧ (stepState .held 1).watched = [1] ∧ 0 ∉ (stepState .held 1).watched ∧
      1 ∈ (stepState .held).watched ∧ (stepState .held).isManager = false) ∧
    ((stepState .held).isManager = false ∧ (stepState .held 1).silent 1 = false) ∧
    (let s : State := { stepState .held 1 with hank := { misses := [(1, 10)] } }
     s.isManager = true ∧ s.silent 1 = true ∧ 1 ∉ s.hank.lost ∧ 1 ∈ ({ s with hank := { lost := [1] } } : State).hank.lost) ∧
    (let s : State := { stepState .held with hank := { misses := [(1, 10)] } }
     s.isManager = false ∧ s.silent s.route.manager = true ∧ (stepState .held).silent (stepState .held).route.manager = false) := by decide


/- Mirrors, the state block, reliability and the journal. -/

/-- Mirror data of 64 bytes for record 0 of stack 0 in context 0 at generation 1, from member 1, of the given step. -/
def mirMsg (step : Nat) (exch : Bool := false) : MirrorMsg :=
  { member := 1, step := step, attempt := 0, exch := exch, unit := 0, rcd := 0, off := 0, bytes := List.replicate 64 0, wt := 0, final := false, ctx := 0, gen := 1 }

/-- A running step; with `listed`, a mirror region at 0 whose one entry is member 1's record 0 of stack 0, halves of 64 bytes. -/
def mirState (listed : Bool) : State :=
  { State.reset with step := { state := .running }
                     ctxs := [(0, { state := .active, gen := 1 })]
                     mem := { mirSize := 32 }
                     hbm := if listed then [(0, 1), (2, 4), (8, 1), (12, 1), (17, 8), (25, 16)] else [] }

/-- The module in HELD one step past `mirMsg 0`, with a Capstan record, an exchange record and context 0's page. -/
def restoreState : State :=
  { pageState {} with step := {}, regs := [(rid .CTX_PAGES .module 0, 1), (modR .LOGLINE, 1)], caps := [(0, { records := [capWords 0 15 0] })], whips := [(0, { records := [xWords 0 1 0] })] }

/-- HELD, with a state block of step 0 of job 0 at 0, or with an empty one. -/
def blockState (good : Bool) : State := { State.reset with hbm := if good then [(0, 0x53), (1, 0x54), (2, 0x54), (3, 0x45), (4, 1)] else [] }

theorem witness_MirrorsAndState :
    ((mirState true).entered = true ∧ State.reset.entered = false ∧ (mirMsg 1).step ≠ (mirState true).logline ∧ (mirState true).step.state ≠ .held ∧
      State.reset.logline ≤ (mirMsg 0).step) ∧
    ((mirMsg 0).step = (mirState false).logline ∧ (mirMsg 0).attempt = (mirState false).step.attempt ∧ (mirState false).mirFor (mirMsg 0) = none) ∧
    (((mirState true).waiting.any fun j => doorOf j = some 4) = false ∧ ((mirState true).ctx 0).state = .active ∧ ((mirState true).ctx 0).gen = (mirMsg 0).gen ∧
      (State.reset.ctx 0).state ≠ .active) ∧
    (∀ held : Bool, let s := if held then retrainAll (mirState true) else mirState true
      ∃ e i, s.mirFor (mirMsg 0) = some (e, i) ∧ s.mirFor { mirMsg 0 with final := true } = some (e, i) ∧ (mirMsg 0).final = false ∧ (mirMsg 0).off + (mirMsg 0).bytes.length = e.size ∧
        s.accessHeld 4 true (s.mirHalf e (!bit (s.mirCommit e) 0) + (mirMsg 0).off) (mirMsg 0).bytes.length = held) ∧
    (restoreState.step.state = .held ∧ (∀ door ∈ [5, 6, 7], (restoreState.waiting.any fun j => doorOf j = some door) = false) ∧
      ((restoreState.mirrorRestore 0 0).held = false ∧ (restoreState.mirrorRebuild 0 0).held = false) ∧ (restoreState.ctx 0).state = .active ∧
      (restoreState.ctx 0).gen = (mirMsg 0).gen ∧ restoreState.live 0 = true ∧ (restoreState.ctx 1).state ≠ .active) ∧
    (restoreState.step.state = .held ∧ (mirMsg 0).step + 1 = restoreState.logline ∧ (mirMsg 1).step + 1 ≠ restoreState.logline) ∧
    (∃ x, restoreState.xrec? 0 0 = some x ∧ ∃ u, restoreState.ctxWrite (.cap 0) x.ctx (x.plane 0 + 0) ((mirMsg 0 true).bytes.take (4 * x.elems - 0)) = .ok u) ∧
    (∃ r, restoreState.capRec? 0 0 = some r ∧ ∃ u, restoreState.ctxWrite (.cap 0) r.ctx (r.slot0 + 0) ((mirMsg 0).bytes.take (r.halfBytes (restoreState.cap 0) - 0)) = .ok u) ∧
    ∀ good : Bool, let s := blockState good
      (good = true ↔ s.step.ran = false ∧ s.hbmNat 0 4 = 0x45545453 ∧ s.hbmNat 4 4 = 1 ∧ s.hbmNat 8 8 = s.logline ∧ s.hbmNat 16 8 = s.job.jobId) ∧
      fld (s.reg (modR .STATE_BASE)) 47 0 = 0 ∧ s.step.state = .held ∧ s.job.used.Nodup ∧
      (∀ w : Bool, s.accessHeld 4 w 0 279616 = false) ∧ (retrainAll s).accessHeld 4 true 0 279616 = true :=
  ⟨by decide, by decide, by decide, fun held => by cases held <;> exact ⟨_, 0, rfl, rfl, by decide⟩, by decide, by decide, ⟨_, rfl, ok_of_toBool _ (by decide)⟩,
    ⟨_, rfl, ok_of_toBool _ (by decide)⟩, by decide +kernel⟩

/-- Core 0 in a reset at the given stage; with `none`, not. -/
def resetState (st : Option Nat) (c : Core := {}) : State := { State.reset with cores := [(0, { c with reset := st.map fun k => ⟨1, k⟩ })] }

theorem witness_ResetsAndSpares :
    (∀ p < 5, (State.reset.tetherWork 0 p = false ∧ ((resetState (some 0)).core 0).reset.isSome = true) ∧
      ∃ c : Core, (resetState none c).tetherWork 0 p = true ∧ ((resetState none c).core 0).reset = none) ∧
    ((resetState none).core 0).reset = none ∧
    (∀ k ≤ 2, ∃ r, ((resetState (some k)).core 0).reset = some r ∧ r.stage = k) ∧
    (∃ s : State, sfind s.stackReset 7 = some 0) ∧
    (∃ v : W64, bit v 13 = false) ∧
    ∀ cluster : Bool, let v := w64 (2 ^ 13 + b01 cluster * 2 ^ 12 + 7 * 2 ^ 8 + 23)
      bit v 13 = true ∧ fld v 11 8 < 8 ∧ fld v 4 0 < 24 ∧ bit v 12 = cluster ∧ State.reset.clusterUsed 1 = false ∧
        State.reset.coreUsed 1 (fld (State.reset.clusterEntry 1 (fld v 4 0)) 4 0) = false ∧ (State.reset.dieRel 1).marks = [] := by
  refine ⟨fun p hp => ⟨⟨?_, by decide⟩, ?_⟩, by decide, ?_, ⟨{ State.reset with stackReset := [(7, 0)] }, rfl⟩, ⟨0, by decide⟩, by decide⟩
  · rcases p with _ | _ | _ | _ | _ | p <;> first | decide | omega
  · rcases p with _ | _ | _ | _ | _ | p
    · exact ⟨{ cc := { mode := .running } }, by decide⟩
    · exact ⟨{ plyInbox := [msgOf []] }, by decide⟩
    · exact ⟨{ vec := { inbox := [msgOf []] } }, by decide⟩
    · exact ⟨dmaCore [], by decide⟩
    · exact ⟨{ qnt := { ports := [[qop 5], [], [], []] } }, by decide⟩
    · omega
  · intro k hk
    rcases k with _ | _ | _ | k
    · exact ⟨_, rfl, rfl⟩
    · exact ⟨_, rfl, rfl⟩
    · exact ⟨_, rfl, rfl⟩
    · omega

theorem witness_LogsDumpsJournal :
    (∀ held : Bool, ∃ s : State, bit (s.reg (dieR .DUMP_STATUS 1)) 63 = held) ∧
    (∃ (s : State) (v : W64), let n := (fld v 8 0 + 512 - fld (s.reg (dieR .CHAFE_TAIL 0)) 8 0) % 512
      n ≠ 0 ∧ n ≤ s.chafeUsed 0) ∧
    (∃ v : W64, let n := (fld v 8 0 + 512 - fld (State.reset.reg (dieR .CHAFE_TAIL 0)) 8 0) % 512
      State.reset.chafeUsed 0 < n) ∧
    (∃ v : W64, let n := (fld v 8 0 + 512 - fld (State.reset.reg (dieR .CHAFE_TAIL 0)) 8 0) % 512
      n = 0 ∧ State.reset.chafeUsed 0 ≠ 512) ∧
    (sfind State.reset.journal.out (31 % 32) = none ∧ ∀ q : Bool, ∃ (s : State) (e : List Byte), sfind s.journal.out (31 % 32) = some e ∧
      (s.journal.queue = [] ↔ q = true) ∧ (q = false → ∃ x l, s.journal.queue = x :: l)) ∧
    ((stepState .armed).step.state ≠ .held ∧ State.reset.step.state = .held ∧ ∃ v w : W64, bit v 0 = false ∧ bit w 0 = true) ∧
    ((State.reset.waiting.any fun j => doorOf j = some 9) = false ∧ fld (1 : W64) 47 1 = 0 ∧ fld (0 : W64) 47 1 = 0 ∧
      State.reset.accessHeld 4 false (0 * 2) 512 = false ∧ State.reset.accessHeld 4 false (0 * 2) 128 = false) ∧
    (∃ s : State, s.journal.started = true ∧ sfind s.journal.out 0 = none) := by
  refine ⟨fun held => ?_, ⟨{ State.reset with regs := [(dieR .CHAFE_HEAD 0, 3), (dieR .CHAFE_TAIL 0, 1)] }, 3, by decide⟩, ⟨5, by decide⟩,
    ⟨State.reset.reg (dieR .CHAFE_TAIL 0), by decide⟩, ⟨by decide, fun q => ?_⟩, ⟨by decide, by decide, 0, 1, by decide⟩, by decide,
    ⟨{ State.reset with journal := { started := true } }, by decide⟩⟩
  · cases held
    · exact ⟨State.reset, by decide⟩
    · exact ⟨{ State.reset with regs := [(dieR .DUMP_STATUS 1, w64 (2 ^ 63))] }, by decide⟩
  · cases q
    · exact ⟨{ State.reset with journal := { out := [(31, [])], queue := [[1]] } }, _, rfl, by decide, fun _ => ⟨_, _, rfl⟩⟩
    · exact ⟨{ State.reset with journal := { out := [(31, [])] } }, _, rfl, by decide, fun h => nomatch h⟩


/- Contexts and registers. -/

/-- HELD, context 0 in the given state, its table in the host region with one page. -/
def ctxState (st : CtxState) : State :=
  { State.reset with regs := [(modR .CTX_PAGES 0, 1), (modR .CTX_PT 0, 0x7000000000)], ctxs := [(0, { state := st })], job := { used := [0] } }

theorem witness_ContextLifecycle :
    ((ctxState .free).createOk 0 255 = true ∧ (stepState .armed).step.state ≠ .held ∧ ((ctxState .active).ctx 0).state ≠ .free ∧
      (0 : Nat) % 256 = ((ctxState .free).ctx 0).lastGen ∧ State.reset.createOk 3 (1 % 256) = false) ∧
    (((ctxState .free).ctx 0).state ≠ .active ∧ (ctxState .active).step.state = .held ∧ ((ctxState .active).ctx 0).state = .active) ∧
    (((ctxState .active).ctx 0).state ≠ .draining ∧ ((ctxState .draining).ctx 0).state = .draining ∧ 0 ∈ (ctxState .draining).ctxCores 0) ∧
    (((ctxState .draining).ctx 0).state ≠ .scrubbing ∧ ((ctxState .scrubbing).ctx 0).state = .scrubbing ∧ 0 ∈ (ctxState .scrubbing).ctxCores 0) ∧
    (let s : State := { ctxState .scrubbing with regs := [(modR .CTX_PAGES 0, 1)], hbm := [(0, 3)] }
     s.ctxPages 0 = [0] ∧ (0 + 1) * 2 ^ 21 ≤ hbmSize) := by decide

theorem witness_HostAccesses :
    (∀ s ∈ [State.reset, upState { State.reset with rel := [(0, { fenced := [0] })] }, upState { State.reset with rel := [(0, { failed := true })] }],
      ∃ a : HostAccess, 2 ^ 39 ≤ a.addr ∧ a.addr < 2 ^ 48 ∧ s.silentAt a.addr = true) ∧
    (∀ a ∈ [2 ^ 39, 2 ^ 40 - 8, 0x020000000018, 2 ^ 48 - 8], upState.silentAt a = false ∧ ¬ (2 ^ 40 ≤ a ∧ a < 0x020000000000) ∧ regAt a = none) ∧
    (∀ v : Bool, ∃ s : State, bit (s.reg (modR .MOD_DECODE_DETAIL)) 63 = v) ∧
    (∃ id, regAt 0x020000008008 = some id ∧ id.name ≠ .SEC_STATUS ∧ (∃ l : Leaf, id.name = l.enable) ∧ 0x020000008008 % 8 = 0 ∧ upState.silentAt 0x020000008008 = false) ∧
    (∀ a ∈ [2 ^ 40, 2 ^ 40 + 383 * 2 ^ 22 + 2 ^ 21 - 8], upState.silentAt a = false ∧ (upState (stepState .running)).silentAt a = false ∧ (2 ^ 40 ≤ a ∧ a < 0x020000000000) ∧ (a - 2 ^ 40) / 2 ^ 22 < 384 ∧ a % 2 ^ 22 + 8 ≤ 2 ^ 21) ∧
    (upState.step.state ≠ .running ∧ (upState (stepState .running)).step.state = .running) ∧
    (∀ a ∈ [2 ^ 40 + 384 * 2 ^ 22, 0x020000000000 - 8], upState.silentAt a = false ∧ (2 ^ 40 ≤ a ∧ a < 0x020000000000) ∧ 384 ≤ (a - 2 ^ 40) / 2 ^ 22) ∧
    (upState.silentAt (2 ^ 40 + 2 ^ 21 - 4) = false ∧ 2 ^ 21 < (2 ^ 40 + 2 ^ 21 - 4) % 2 ^ 22 + 8) := by
  refine ⟨fun s h => ?_, by decide, fun v => ?_, ⟨_, rfl, by decide, ⟨.mod, rfl⟩, by decide⟩, by decide, by decide, by decide, by decide⟩
  · simp only [List.mem_cons, List.not_mem_nil, or_false] at h
    rcases h with rfl | rfl | rfl <;> exact ⟨⟨false, 2 ^ 40, 8, 0⟩, by decide⟩
  · cases v
    · exact ⟨State.reset, by decide⟩
    · exact ⟨{ State.reset with regs := [(modR .MOD_DECODE_DETAIL, w64 (2 ^ 63))] }, by decide⟩

theorem witness_CausesAndDetails :
    ((63 : Nat) < 64 ∧ leafOf .module ≠ .dieCtl ∧ leafOf (.dieCtl 0) = .dieCtl) ∧
    (∃ id, regAt 0x020000008000 = some id ∧ isStatus id.name = true ∧ 0 ∈ causesMet id.part 1 ∧ leafOf id.part ≠ .dieCtl) ∧
    (∃ id, regAt 0x020000000010 = some id ∧ isDetail id.name = true) ∧ bit (w64 (2 ^ 63)) 63 = true ∧
    (∀ a ∈ [0x020000008000, 0x020000000010], upState.silentAt a = false ∧ State.reset.silentAt a = true) ∧
    ∀ v : Bool, ∃ s : State, bit (s.reg (modR .MOD_DECODE_DETAIL)) 63 = v := by
  refine ⟨by decide, ⟨_, rfl, by decide⟩, ⟨_, rfl, by decide⟩, by decide, by decide, fun v => ?_⟩
  cases v
  · exact ⟨State.reset, by decide⟩
  · exact ⟨{ State.reset with regs := [(modR .MOD_DECODE_DETAIL, w64 (2 ^ 63))] }, by decide⟩

theorem witness_NarrowAccesses :
    upState.silentAt 0x020000000000 = false ∧ upState.silentAt (2 ^ 48 - 1) = false ∧ (7 : Nat) < 8 ∧ (2 ^ 48 - 1) % 8 ≠ 0 := by decide


/- Hawser links. -/

/-- Link 0 in LINK_STATUS.STATE `st`, its section naming slot 5 and far link 3, with the given buffers. -/
def linkStateOf (st : Nat) (l : LinkSt := {}) (step : StepState := .held) : State :=
  { State.reset with step := { state := step }, regs := [(linkR .LINK_STATUS 0, w64 st)], links := [(0, { l with words := [w64 (1 + 5 * 2 ^ 9 + 3 * 2 ^ 24)] })] }

/-- A training exchange of the identity of `linkStateOf` but for its slot. -/
def training (slot floor ceil lanes : Nat) : TrainMsg :=
  { jobId := 0, slot := slot, peerLink := 3, floor := floor, ceil := ceil, proposal := 2, support := 2, latency := 0, session := 0, lanes := lanes }

/-- A field of LANE_CTRL of link 0 after a write of `v` from reset. -/
def keptAt (v hi lo : Nat) : Nat := if fld (w64 v) hi lo = 3 then fld (State.reset.laneReg 0) hi lo else fld (w64 v) hi lo

theorem witness_LinkTraining :
    ((stepState .armed).step.state ≠ .held ∧ State.reset.step.state = .held ∧ keptAt 1 3 2 < keptAt 1 1 0 ∧ keptAt 0xF 1 0 ≤ keptAt 0xF 3 2 ∧
      keptAt 8 1 0 ≤ keptAt 8 3 2 ∧ fld (w64 0xF) 3 2 = 3) ∧
    (∀ l < 5, bit (State.reset.laneReg 39) (19 + l) = false ∧ bit (State.reset.laneReg 39) (14 + l) = false ∧
      ∃ s : State, bit (s.laneReg 39) (19 + l) = true) ∧
    (State.reset.entered = false ∧ (linkStateOf 2 {} .running).entered = true ∧ (linkStateOf 2).linkState 0 = 2 ∧ (linkStateOf 2).laneActive 0 0 = true) ∧
    (State.reset.linkState 0 ≠ 1 ∧ (linkStateOf 1).linkState 0 = 1 ∧ (training 4 0 2 31).slot ≠ fld ((linkStateOf 1).linkSec 0) 23 9) ∧
    (∀ up : Bool, let s := linkStateOf 1
     let m := training 5 (if up then 0 else 2) (if up then 2 else 0) 31
     m.jobId = s.job.jobId ∧ m.slot = fld (s.linkSec 0) 23 9 ∧ m.peerLink = fld (s.linkSec 0) 29 24 ∧ m.lanes = 31 ∧ 4 ≤ s.lanesUsable 0 ∧
      (s.link 0).lower = false ∧ (settleRate (fld (s.laneReg 0) 1 0) (fld (s.laneReg 0) 3 2) m.support m).isSome = up ∧
      ∀ r ∈ settleRate (fld (s.laneReg 0) 1 0) (fld (s.laneReg 0) 3 2) m.support m, r.1 < 4) := by
  refine ⟨by decide, fun l hl => ⟨?_, ?_, ⟨{ State.reset with regs := [(linkR .LANE_CTRL 39, w64 (2 ^ (19 + l)))] }, ?_⟩⟩, by decide, by decide, ?_⟩
  · rcases l with _ | _ | _ | _ | _ | l <;> first | decide | omega
  · rcases l with _ | _ | _ | _ | _ | l <;> first | decide | omega
  · rcases l with _ | _ | _ | _ | _ | l <;> first | decide | omega
  · intro up
    cases up <;> exact ⟨rfl, by decide, by decide, rfl, by decide, rfl, by decide, by decide⟩

/-- A flit of the given header and CRC. -/
def flitOf (head : Nat) : List Byte :=
  let p := leBytes 8 head ++ List.replicate 244 0
  p ++ leBytes 4 (crc32 p)

theorem flitOf_spec (head : Nat) : (flitOf head).length = 256 ∧ crc32 ((flitOf head).take 252) = leNat ((flitOf head).drop 252) := by
  have h : (leBytes 8 head ++ List.replicate 244 (0 : Byte)).length = 252 := by
    rw [List.length_append, leBytes_length, List.length_replicate]
  simp only [flitOf]
  generalize leBytes 8 head ++ List.replicate 244 (0 : Byte) = p at h ⊢
  have h1 : (p ++ leBytes 4 (crc32 p)).take 252 = p := by rw [← h]; exact List.take_left' rfl
  have h2 : (p ++ leBytes 4 (crc32 p)).drop 252 = leBytes 4 (crc32 p) := by rw [← h]; exact List.drop_left' rfl
  exact ⟨by simp [h], by rw [h1, h2, leNat_leBytes_of_lt (crc32_lt p)]⟩

theorem witness_LinkFlits :
    (State.reset.linkState 0 ≠ 2 ∧ (linkStateOf 2).linkState 0 = 2) ∧ ([] : List Byte).length ≠ 256 ∧
    (∀ seq ∈ [0, 1], let b := flitOf (seq + 2 ^ 28)
      (b.length = 256 ∧ crc32 (b.take 252) = leNat (b.drop 252)) ∧ (linkStateOf 2).linkEnc 0 = false ∧
        bits (leNat (b.take 8)) 29 28 = 1 ∧ nbit (leNat (b.take 8)) 25 = false) ∧
    (∀ r ∈ [14, 15], let s := linkStateOf 2 { replay := [[]], retries := r } .running
      s.linkState 0 = 2 ∧ ackReplay (s.link 0).replay (7 % 4096) = (s.link 0).replay ∧ (s.link 0).replay ≠ [] ∧ (s.link 0).retries = r ∧ s.step.state ≠ .held) ∧
    ((State.reset.link 0).replay = [] ∧ (State.reset.link 39).inbox[0]? = none) ∧
    (∀ q ∈ [(0, 1, false, true), (11, 10, true, false), (11, 11, false, false), (0, 2, true, true), (2 ^ 27, 0, true, true), (2 ^ 27, 1, true, false)],
      let s : State := { linkStateOf 2 { inbox := [⟨2, 0, w64 (q.2.1 * 2 ^ 32), [], 1, q.1⟩] } .running with clock := q.1 }
      ∃ m, (s.link 0).inbox[0]? = some m ∧ s.entered = true ∧
        let T := m.arrived - s.step.runAt
        let k := max s.clkK 1
        let due := s.deadline 0 m 0 T
        (due < (T * 5000 * k : Nat) ∨ (T : Int) + 1 < sendTime (fld m.h1 59 32) T ↔ q.2.2.1 = true) ∧ (((s.clock - s.step.runAt) * 5000 * k : Nat) < due ↔ q.2.2.2 = true)) :=
  by
  have hd : ∀ v, (flitOf v).take 8 = leBytes 8 v := fun v => by simp only [flitOf, List.append_assoc]; exact List.take_left' (by simp)
  refine ⟨by decide, by decide, fun seq hs => ⟨flitOf_spec _, by decide, ?_⟩, fun r hr => ?_, by decide, ?_⟩
  · simp only [hd]
    simp only [List.mem_cons, List.not_mem_nil, or_false] at hs
    rcases hs with rfl | rfl <;> decide
  · simp only [List.mem_cons, List.not_mem_nil, or_false] at hr
    rcases hr with rfl | rfl <;> decide
  · intro q hq
    simp only [List.mem_cons, List.not_mem_nil, or_false] at hq
    rcases hq with rfl | rfl | rfl | rfl | rfl | rfl <;> exact ⟨_, rfl, by decide⟩

/- Power, clocks and the sideband. -/

/-- A powered state with a voltage bound of 700 to 800 mV on die 0 and VCORE as given. -/
def voltState (v : Nat) : State := { State.reset with regs := [(modR .VOLT_BOUND 0, w64 (700 + 800 * 2 ^ 16))], pwr := { vcore := [v, 1500] } }

theorem witness_BoundsAndLoops :
    (State.reset.step.state = .held ∧ 8 ≤ fld (w64 (8 + 15 * 2 ^ 8)) 7 0 ∧ fld (w64 (8 + 15 * 2 ^ 8)) 15 8 ≤ 15 ∧ fld (w64 (8 + 15 * 2 ^ 8)) 7 0 ≤ fld (w64 (8 + 15 * 2 ^ 8)) 15 8) ∧
    ¬ 8 ≤ fld (w64 7) 7 0 ∧ (900 ≤ fld (w64 2600) 11 0 ∧ fld (w64 2600) 11 0 ≤ 2600) ∧ ¬ fld (w64 2601) 11 0 ≤ 2600 ∧
    (let v := w64 (600 + 850 * 2 ^ 16)
     600 ≤ fld v 15 0 ∧ fld v 31 16 ≤ 850 ∧ fld v 15 0 ≤ fld v 31 16) ∧ ¬ 600 ≤ fld (w64 599) 15 0 ∧
    State.reset.pwr.vcore.length = 2 ∧ (∃ s : State, s.pwr.pwrGood = false) ∧
    (∀ v ∈ [1400, 1500, 1600], let s := voltState v
     s.pwr.pwrGood = true ∧ s.pwr.vcore.length = 2 ∧ s.pwr.thr.length = 2 ∧
      2 * fld (s.reg (modR .VOLT_BOUND 0)) 15 0 ≤ 2 * fld (s.reg (modR .VOLT_BOUND 0)) 31 16 ∧ nth s.pwr.thr 0 0 ≤ 7) :=
  ⟨by decide, by decide, by decide, by decide, by decide, by decide, by decide, ⟨{ State.reset with pwr := { pwrGood := false } }, rfl⟩, by decide⟩

/-- A booted-to-nothing state with the firmware's progress, lifecycle and power as given. -/
def secState (x : Sec) (p : Power := {}) : State := { State.reset with sec := x, pwr := p }

theorem witness_SupplyAndReset :
    (State.reset.pwr.pwrEn = true ∧ State.reset.pwr.resetN = false ∧ State.reset.pwr.pwrGood = true ∧ State.reset.pwr.refLost = [] ∧
      State.reset.sec.booting = false ∧ State.reset.sec.mode ≠ 1 ∧ State.reset.sec.mode ≠ 2 ∧ State.reset.pwr.thr.length = 2) ∧
    (∃ s : State, s.pwr.pwrEn = false) ∧ (∃ s : State, s.pwr.resetN = true) ∧
    ((secState { booting := true }).sec.booting = true ∧ (secState { booting := true }).sec.lifecycle = 0) ∧
    ((secState { booting := true, lifecycle := 1 }).sec.lifecycle ≠ 0 ∧ (secState { booting := true, lifecycle := 1 }).sec.fwCheck ≠ 0) ∧
    ((secState { mode := 2 }).sec.mode = 2 ∧ (secState { mode := 1 }).sec.mode = 1 ∧ (secState { mode := 1 }).pwr.hbmReady = false ∧ (secState { mode := 1 }).hostOut = []) ∧
    (33499 < 33500 ∧ 39500 < 39501 ∧ 31999 < 32000 ∧ 41000 < 41001 ∧ 80000 < 80001) ∧
    (bit (State.reset.reg (modR .PHASE_STATUS)) 27 = false ∧ 20 < State.reset.phasesUsable ∧ ∃ s : State, bit (s.reg (modR .PHASE_STATUS)) 27 = true) ∧
    nth State.reset.pwr.thr 0 1 = 0 ∧
    (0 ∈ (secState {} { refLost := [0] }).pwr.refLost ∧ 1 ∉ (secState {} { refLost := [0] }).pwr.refLost ∧ (secState {} { refLost := [0] }).pwr.inReset = false ∧
      (secState {} { inReset := true }).pwr.inReset = true) :=
  ⟨by decide, ⟨secState {} { pwrEn := false }, rfl⟩, ⟨secState {} { resetN := true }, rfl⟩, by decide, by decide, by decide, by decide,
    ⟨by decide, by decide, ⟨{ State.reset with regs := [(modR .PHASE_STATUS, w64 (2 ^ 27))] }, by decide⟩⟩, by decide, by decide⟩

theorem witness_PmbusAndAlerts : (1000 * 1023 * 2 ^ 15 - 1 < 1000 * 1023 * 2 ^ 15) ∧ (16 ≤ linear11 1 / 2 ^ 11) ∧ linear11 (1000 * 1023 * 2 ^ 15 - 1) / 2 ^ 11 < 16 := by
  decide

theorem witness_SpdmAnswers :
    State.reset.sec.mode = 0 ∧ ((secState { mode := 1 }).sec.mode ≠ 0 ∧ (secState { mode := 1 }).pwr.pwrGood = true) ∧ (1 : Nat) ≠ 0 ∧ (8 : Nat) < 9 ∧ 9 ≠ 0xFF := by
  decide

theorem witness_SecurityMailbox :
    (∃ j, (secState { busy := some ⟨1, 255, []⟩ }).sec.busy = some j ∧ j.code < 256 ∧ j.code ≠ 0) ∧ State.reset.sec.busy = none ∧
    ((stepState .armed).step.state ≠ .held ∧ State.reset.step.state = .held ∧ (State.reset.ctx 3).state = .free ∧ ((ctxState .active).ctx 0).state ≠ .free) ∧
    ((secState { trngFail := true }).sec.trngFail = true ∧ State.reset.sec.trngFail = false) ∧
    (State.reset.sec.nonce = none ∧ (secState { nonce := some [] }).sec.nonce ≠ none) ∧
    ((secState { zeroDue := true }).sec.zeroDue = true ∧ (secState { zeroDue := true }).sec.busy = none ∧ State.reset.sec.zeroDue = false) :=
  ⟨⟨_, rfl, by decide⟩, by decide, by decide, by decide, by decide, by decide⟩


/- Ill-formed commands. -/

/-- A remote tie whose fields fit. -/
def okRemote : RemoteOp := ⟨true, 0, 0, 0, 0, 0, 0, 0⟩
/-- An empty summary. -/
def okSum : Summary := ⟨[], [], [], [], [], 0, false⟩
/-- A mirror message whose fields fit. -/
def okMirror : MirrorMsg := ⟨0, 0, 0, false, 0, 0, 0, [], 0, false, 0, 0⟩

theorem test_refuses_cores : ∀ f ∈ ([
    .ccNop, .stepend, .addi, .ccAdd, .ccSub, .ccMul, .ccAnd, .ccOr, .ccXor, .shl, .shr, .sra, .li, .lih, .ldc, .gets, .beq, .bne, .blt, .bltu,
    .ccLoop, .issue, .fence, .vres, fun n => .untie n false, fun n => .wait n false 0, fun n => .waitclr n false 0, fun n => .take n false, .rtie, .runtie, .remoteSend, .knotTimeout, .damageRecord, .ravelTestDone,
    .vlaunch, .launchComplete] : List (Nat → Instr)), WellFormed (f 384) = false := by decide

theorem test_refuses_stacks : ∀ f ∈ ([
    .mpEnd, .mpAdd, .mpSub, .mpMul, .mpFma, .mpDiv, .mpSqrt, .mpMin, .mpMax, .mpAbs, .mpNeg, .mpSign, .mpSelneg, .mpMov, .schedTestDone,
    .migrationChunk] : List (Nat → Instr)), WellFormed (f 8) = false := by decide

theorem test_refuses_members : ∀ f ∈ ([
    .hankMemberLost] : List (Nat → Instr)), WellFormed (f 16384) = false := by decide

theorem test_refuses_halves : ∀ f ∈ ([
    .takeDump, .releaseDump, .refLost, .refReturn] : List (Nat → Instr)), WellFormed (f 2) = false := by decide

theorem test_refuses_slots : ∀ f ∈ ([
    .journalAck] : List (Nat → Instr)), WellFormed (f 32) = false := by decide

theorem test_refuses_contexts : ∀ f ∈ ([
    .teardown, .ctxDrainForced, .ctxTeardownDone, .ctxKeyGen] : List (Nat → Instr)), WellFormed (f 4) = false := by decide

theorem test_refuses_links : ∀ f ∈ ([
    .ackTimeout] : List (Nat → Instr)), WellFormed (f 40) = false := by decide

theorem test_refuses_phases : ∀ f ∈ ([
    .phaseShed] : List (Nat → Instr)), WellFormed (f 28) = false := by decide

theorem test_refuses_sixteens : ∀ f ∈ ([
    .debugUnlock] : List (Nat → Instr)), WellFormed (f 16) = false := by decide

theorem test_refuses_strands_0 : ∀ f ∈ ([
    .vecNop, .strandEnd, .br, .brany, .lset, .vecLoop, .vout, .vadd, .vsub, .vmul, .vfma, .vfms, .vmin, .vmax, .vabs, .vneg, .vmov, .vrcp, .vdiv,
    .vsqrt, .vrsq, .vexp2, .vexp, .vlog2, .vlog, .vtanh, .vsigm, .verf, .vsin, .vcos, .vceq, .vclt, .vcle, .vcun, .vsel, .pand, .por, .pxor, .pnot,
    .vcvti, .vcvtf, .vrbf, .viadd, .visub, .vimul, .vand, .vor, .vxor, .vshl, .vshra, .vshrl, .vimin, .vimax, .viclt, .vperm, .vblane, .viota, .vrot,
    .rclr, .radd, .rmax, .rmin, .rarg, .rsoft, .rread, .vsmx] : List (Nat → Nat → Instr)), WellFormed (f 384 0) = false ∧ WellFormed (f 0 16) = false := by decide

theorem test_refuses_strands_1 : ∀ f ∈ ([
    fun n t k => .vld n t k [], .vst, .vstr, fun n t k => .vldq n t k 0 [], .vstq, .rxport, fun n t k => .rimport n t k [], fun n t k => .vgath n t k 0 [],
    fun n t k => .vscat n t k 0, fun n t k => .vscadd n t k 0 []] : List (Nat → Nat → Nat → Instr)), WellFormed (f 384 0 0) = false ∧ WellFormed (f 0 16 0) = false := by decide

theorem test_refuses_fields_0 :
    WellFormed (.tie 384 false) = false ∧ WellFormed (.remoteKnotOp 2 okRemote false) = false ∧ WellFormed (.remoteKnotOp 0 ⟨true, 4, 0, 0, 0, 0, 0, 0⟩ false) = false ∧
    WellFormed (.hostNop 2 0 0) = false ∧ WellFormed (.hostNop 0 4 0) = false ∧ WellFormed (.hostNop 0 0 4096) = false ∧
    WellFormed (.hostTie 2 0 0 false) = false ∧ WellFormed (.hostTie 0 4 0 false) = false ∧ WellFormed (.hostTie 0 0 4096 false) = false ∧
    WellFormed (.hostUntie 2 0 0 false) = false ∧ WellFormed (.hostUntie 0 4 0 false) = false ∧ WellFormed (.hostUntie 0 0 4096 false) = false ∧
    WellFormed (.matmul 384 0) = false ∧ WellFormed (.matmul 0 4) = false ∧ WellFormed (.packed 384 0) = false ∧
    WellFormed (.packed 0 4) = false ∧ WellFormed (.blockStep 384 0 0 0 0 []) = false ∧ WellFormed (.blockStep 0 4 0 0 0 []) = false ∧
    WellFormed (.blockStep 0 0 4 0 0 []) = false ∧ WellFormed (.readOut 384 0 0) = false ∧ WellFormed (.readOut 0 4 0) = false ∧
    WellFormed (.readOut 0 0 4) = false ∧ WellFormed (.quantiserOperation 384 0) = false ∧ WellFormed (.quantiserOperation 0 4) = false := by
  decide

theorem test_refuses_fields_1 :
    WellFormed (.ecLayerBound 384 0 0) = false ∧ WellFormed (.ecLayerBound 0 256 0) = false ∧ WellFormed (.residueInject 384 0) = false ∧
    WellFormed (.residueInject 0 4) = false ∧ WellFormed (.ravelTestIndex 384 0) = false ∧ WellFormed (.ravelTestInput 384 0 0) = false ∧
    WellFormed (.ravelTestInput 0 4 0) = false ∧ WellFormed (.vld 0 0 0 [(2 ^ 21, 1)]) = false ∧
    WellFormed (.vld 0 0 0 [(0, 3)]) = false ∧ WellFormed (.vld 0 0 0 [(0, 0)]) = false ∧ WellFormed (.copy 384 [] [] 0) = false ∧ WellFormed (.copy 0 [⟨256, 0, false⟩] [] 0) = false ∧
    WellFormed (.dmaGather 384 [] [] 0) = false ∧ WellFormed (.dmaGather 0 [⟨256, 0, false⟩] [] 0) = false ∧ WellFormed (.dmaScatterStore 384 [] [] 0) = false ∧
    WellFormed (.dmaScatterStore 0 [⟨256, 0, false⟩] [] 0) = false ∧ WellFormed (.dmaScatterAdd 384 [] [] 0) = false ∧ WellFormed (.dmaScatterAdd 0 [⟨256, 0, false⟩] [] 0) = false ∧
    WellFormed (.dmaComplete 384 0 0) = false ∧ WellFormed (.peerWrite 2 0 0 0 []) = false ∧ WellFormed (.peerWrite 0 16384 0 0 []) = false ∧
    WellFormed (.peerWrite 0 0 4 0 []) = false ∧ WellFormed (.peerWrite 0 0 0 256 []) = false ∧ WellFormed (.hostHbmAccess ⟨false, 2 ^ 48, 8, 0⟩ []) = false := by
  decide

theorem test_refuses_fields_2 :
    WellFormed (.hostHbmAccess ⟨false, 0, 8, 0⟩ [⟨256, 0, false⟩]) = false ∧ WellFormed (.normPass 8 0) = false ∧ WellFormed (.normPass 0 4096) = false ∧
    WellFormed (.clipNorm 8 0) = false ∧ WellFormed (.clipNorm 0 15) = false ∧ WellFormed (.updatePass 8 0) = false ∧
    WellFormed (.updatePass 0 4096) = false ∧ WellFormed (.schedTestCompute 8 0 0) = false ∧ WellFormed (.schedTestCompute 0 1024 0) = false ∧
    WellFormed (.schedTestCompute 0 0 8) = false ∧ WellFormed (.schedTestCt 8 0 0) = false ∧ WellFormed (.schedTestCt 0 1024 0) = false ∧
    WellFormed (.schedTestCt 0 0 8) = false ∧ WellFormed (.bucketCompress 2 0 0) = false ∧ WellFormed (.bucketCompress 0 256 0) = false ∧
    WellFormed (.bucketCompress 0 0 (2 ^ 24)) = false ∧ WellFormed (.topkMsg 2 ⟨0, 0, 0, 0, []⟩) = false ∧ WellFormed (.signMsg 2 ⟨0, 0, 0, 0, []⟩) = false ∧
    WellFormed (.cancelMsg 2 ⟨0, 0, 0, 0, []⟩) = false ∧ WellFormed (.finalMsg 2 ⟨0, 0, 0, 0, []⟩) = false ∧ WellFormed (.cellMsg 2 ⟨0, 0, 0, 0, 0, []⟩) = false ∧
    WellFormed (.cellMsg 0 ⟨0, 0, 0, 0, 3, []⟩) = false ∧ WellFormed (.denseMsg 2 ⟨0, 0, 0, 0, false, 0, []⟩) = false ∧ WellFormed (.denseMsg 0 ⟨0, 0, 0, 0, false, 0, [2 ^ 32]⟩) = false := by
  decide

theorem test_refuses_fields_3 :
    WellFormed (.bucketMerge 2 0 0 0) = false ∧ WellFormed (.bucketMerge 0 256 0 0) = false ∧ WellFormed (.bucketMerge 0 0 (2 ^ 24) 0) = false ∧
    WellFormed (.ready 16384 0 0) = false ∧ WellFormed (.ready 0 (2 ^ 64) 0) = false ∧ WellFormed (.ready 0 0 65536) = false ∧
    WellFormed (.tick (2 ^ 64) 0 false 0 0 0) = false ∧ WellFormed (.tick 0 65536 false 0 0 0) = false ∧ WellFormed (.tick 0 0 false 0 40 0) = false ∧
    WellFormed (.stepSummary 16384 0 0 okSum) = false ∧ WellFormed (.stepSummary 0 (2 ^ 64) 0 okSum) = false ∧ WellFormed (.stepSummary 0 0 65536 okSum) = false ∧
    WellFormed (.stepSummary 0 0 0 { okSum with storm := [256] }) = false ∧ WellFormed (.commit (2 ^ 64) 0 okSum 0 ⟨0, [], [], []⟩) = false ∧ WellFormed (.commit 0 65536 okSum 0 ⟨0, [], [], []⟩) = false ∧
    WellFormed (.commit 0 0 okSum 16 ⟨0, [], [], []⟩) = false ∧ WellFormed (.commit 0 0 { okSum with storm := [256] } 0 ⟨0, [], [], []⟩) = false ∧ WellFormed (.commit 0 0 okSum 0 ⟨6, [], [], []⟩) = false ∧
    WellFormed (.abortStep (2 ^ 64) 0) = false ∧ WellFormed (.abortStep 0 65536) = false ∧ WellFormed (.quiesceCheck [(0, 384)]) = false ∧
    WellFormed (.reissueMessage (2 ^ 64) 0) = false ∧ WellFormed (.reissueMessage 0 65536) = false ∧ WellFormed (.faultReport 16384 []) = false := by
  decide

theorem test_refuses_fields_4 :
    WellFormed (.heartbeat 16384 0 false) = false ∧ WellFormed (.heartbeat 0 16 false) = false ∧ WellFormed (.mirrorData { okMirror with unit := 8 }) = false ∧
    WellFormed (.restoreData { okMirror with unit := 8 }) = false ∧ WellFormed (.tether 384 0) = false ∧ WellFormed (.tether 0 5) = false ∧
    WellFormed (.resetEscalated 0 384) = false ∧ WellFormed (.resetEscalated 1 8) = false ∧ WellFormed (.resetEscalated 2 2) = false ∧ WellFormed (.resetEscalated 3 0) = false ∧
    WellFormed (.resetDone 0 384) = false ∧ WellFormed (.resetDone 1 8) = false ∧ WellFormed (.resetDone 2 0) = false ∧
    WellFormed (.slotNow ⟨6, [], [], []⟩) = false ∧ WellFormed (.spareReq 2 0) = false ∧ WellFormed (.chafeTail 2 0) = false ∧
    WellFormed (.migrationRequest 8 0) = false ∧ WellFormed (.retrain 8 0) = false ∧ WellFormed (.retrain 0 32) = false ∧
    WellFormed (.patrolScrub 8 []) = false ∧ WellFormed (.patrolScrub 0 [⟨256, 0, false⟩]) = false ∧ WellFormed (.refreshOverride 8 0) = false ∧
    WellFormed (.refreshOverride 0 256) = false ∧ WellFormed (.create 4 0) = false ∧ WellFormed (.create 0 256) = false := by
  decide

theorem test_refuses_fields_5 :
    WellFormed (.statusClear (2 ^ 48) 0 0) = false ∧ WellFormed (.detailValidClear (2 ^ 48) 0 0) = false ∧ WellFormed (.registerWrite ⟨false, 2 ^ 48, 8, 0⟩ []) = false ∧
    WellFormed (.laneCtrl 40 0) = false ∧ WellFormed (.voltBound 2 0) = false ∧ WellFormed (.flit 40 [] ⟨false, [], 0⟩) = false ∧
    WellFormed (.flit 0 [] ⟨false, [0, 0, 0, 0, 0, 0], 0⟩) = false ∧ WellFormed (.nak 40 0) = false ∧ WellFormed (.nak 0 4096) = false ∧
    WellFormed (.laneLockLoss 40 0) = false ∧ WellFormed (.laneLockLoss 0 5) = false ∧ WellFormed (.messageRelease 40 0 0) = false ∧ WellFormed (.messageRelease 0 0 (2 ^ 24)) = false ∧
    WellFormed (.thermalThrottle 2 0) = false ∧ WellFormed (.throttleRelease 2 0) = false ∧ WellFormed (.voltageLoop 2 0) = false ∧
    WellFormed (.getCertificate 256 0 0) = false ∧ WellFormed (.getCertificate 0 65536 0) = false ∧ WellFormed (.getCertificate 0 0 65536) = false ∧
    WellFormed (.challenge 256 []) = false ∧ WellFormed (.getMeasurements 256 false []) = false ∧ WellFormed (.trainingExchange 40 ⟨0, 0, 0, 0, 0, 0, 0, 0, 0, 0⟩) = false ∧
    WellFormed (.trainingExchange 0 ⟨0, 0, 40, 0, 0, 0, 0, 0, 0, 0⟩) = false ∧ WellFormed (.linkLaneMarked 40 0) = false ∧ WellFormed (.linkLaneMarked 0 5) = false := by
  decide

theorem test_refuses_fields_6 :
    WellFormed (.drainComplete 65536) = false ∧ WellFormed (.keyPhaseReport 40 0) = false ∧ WellFormed (.keyPhaseReport 0 2) = false := by
  decide

theorem test_refuses_scratch_errors :
    WellFormed (.blockStep 0 0 0 0 0 [(0, 3)]) = false ∧ WellFormed (.vldq 0 0 0 0 [(0, 3)]) = false ∧ WellFormed (.rimport 0 0 0 [(0, 3)]) = false ∧
    WellFormed (.vgath 0 0 0 0 [(0, 3)]) = false ∧ WellFormed (.vscadd 0 0 0 0 [(0, 3)]) = false ∧ WellFormed (.copy 0 [] [(0, 3)] 0) = false ∧
    WellFormed (.dmaGather 0 [] [(0, 3)] 0) = false ∧ WellFormed (.dmaScatterStore 0 [] [(0, 3)] 0) = false ∧
    WellFormed (.dmaScatterAdd 0 [] [(0, 3)] 0) = false ∧ WellFormed (.registerWrite ⟨false, 0, 8, 0⟩ [(0, 3)]) = false := by
  decide

theorem test_refuses_contents :
    RemoteOp.wf ⟨true, 0, 4096, 0, 0, 0, 0, 0⟩ = false ∧ RemoteOp.wf ⟨true, 0, 0, 256, 0, 0, 0, 0⟩ = false ∧ RemoteOp.wf ⟨true, 0, 0, 0, 2 ^ 64, 0, 0, 0⟩ = false ∧
    RemoteOp.wf ⟨true, 0, 0, 0, 0, 65536, 0, 0⟩ = false ∧ RemoteOp.wf ⟨true, 0, 0, 0, 0, 0, 16384, 0⟩ = false ∧ RemoteOp.wf ⟨true, 0, 0, 0, 0, 0, 0, 384⟩ = false ∧
    HostAccess.wf ⟨false, 0, 0, 0⟩ = false ∧ HostAccess.wf ⟨false, 0, 65, 0⟩ = false ∧ HostAccess.wf ⟨false, 0, 1, 256⟩ = false ∧
    eccWf [⟨0, 2 ^ 25, false⟩] = false ∧ CellMsg.wf ⟨0, 0, 0, 0, 0, [[]]⟩ = false ∧ Summary.wf { okSum with calm := [256] } = false ∧
    Summary.wf { okSum with sites := [(4096, 0)] } = false ∧ Summary.wf { okSum with weights := [(65536, 0)] } = false ∧ Summary.wf { okSum with vetoes := [65536] } = false ∧
    Summary.wf { okSum with tnr := 16 } = false ∧ SlotFacts.wf ⟨0, [(2, 0, 0, false)], [], []⟩ = false ∧ SlotFacts.wf ⟨0, [(0, 2, 0, false)], [], []⟩ = false ∧
    SlotFacts.wf ⟨0, [(0, 0, 192, false)], [], []⟩ = false ∧ SlotFacts.wf ⟨0, [], [(256, false)], []⟩ = false ∧ SlotFacts.wf ⟨0, [], [], [(0, ucieModules 0, false)]⟩ = false ∧ TrainMsg.wf ⟨2 ^ 64, 0, 0, 0, 0, 0, 0, 0, 0, 0⟩ = false ∧
    TrainMsg.wf ⟨0, 2 ^ 15, 0, 0, 0, 0, 0, 0, 0, 0⟩ = false ∧ TrainMsg.wf ⟨0, 0, 0, 3, 0, 0, 0, 0, 0, 0⟩ = false ∧ TrainMsg.wf ⟨0, 0, 0, 0, 3, 0, 0, 0, 0, 0⟩ = false ∧
    TrainMsg.wf ⟨0, 0, 0, 0, 0, 3, 0, 0, 0, 0⟩ = false ∧ TrainMsg.wf ⟨0, 0, 0, 0, 0, 0, 3, 0, 0, 0⟩ = false ∧ TrainMsg.wf ⟨0, 0, 0, 0, 0, 0, 0, 2 ^ 32, 0, 0⟩ = false ∧
    TrainMsg.wf ⟨0, 0, 0, 0, 0, 0, 0, 0, 2 ^ 32, 0⟩ = false ∧ TrainMsg.wf ⟨0, 0, 0, 0, 0, 0, 0, 0, 0, 32⟩ = false ∧ MirrorMsg.wf { okMirror with member := 16384 } = false ∧
    MirrorMsg.wf { okMirror with step := 2 ^ 64 } = false ∧ MirrorMsg.wf { okMirror with attempt := 65536 } = false ∧ MirrorMsg.wf { okMirror with rcd := 4096 } = false ∧
    MirrorMsg.wf { okMirror with wt := 2 ^ 32 } = false ∧ MirrorMsg.wf { okMirror with ctx := 4 } = false ∧ MirrorMsg.wf { okMirror with gen := 256 } = false ∧ stuckWf [(1, 8)] = false ∧ stuckWf [(2, 0)] = false := by
  decide

theorem test_refuses_dense : DenseMsg.wf ⟨0, 0, 0, 0, false, 0, List.replicate 8192 0⟩ = false := by
  simp only [DenseMsg.wf, List.length_replicate]
  decide

theorem test_refuses_long (l : List Byte) (h : 62448 < l.length) :
    WellFormed (.topkMsg 0 ⟨0, 0, 0, 0, l⟩) = false ∧ MirrorMsg.wf { okMirror with bytes := l } = false := by
  have e : ¬l.length ≤ 62448 := by omega
  simp [WellFormed, FragMsg.wf, MirrorMsg.wf, e]

/- Worked examples of the spec. -/

/-- The public key of RFC 6979, A.2.7 (P-521). -/
def sampleKey : List Byte :=
  0x04 :: beBytes 66 0x01894550D0785932E00EAA23B694F213F8C3121F86DC97A04E5A7167DB4E5BCD371123D46E45DB6B5D5370A7F20FB633155D38FFA16D2BD761DCAC474B9A2F5023A4 ++
    beBytes 66 0x00493101C962CD4D2FDDF782285E64584139C2F91B47F87FF82354D6630F746A28A0DB25741B5B34A828008B22ACC23F924FAAFBD4D33F81EA66956DFEAA2BFDFCF5

/-- FIPS 180-4: the SHA-512 example of one block, the message "abc". -/
theorem test_sha512 : sha512 [0x61, 0x62, 0x63] = BitVec.ofNat 512 (leNat (beBytes 64
    0xddaf35a193617abacc417349ae20413112e6fa4e89a97ea20a9eeee64b55d39a2192992a274fc1a836ba3c23a3feebbd454d4423643ce80e2a9ac94fa54ca49f)) := by
  decide +kernel

/-- RFC 6979, A.2.7: the ECDSA P-521 signature of the message "sample" with SHA-512 verifies. -/
theorem test_ecdsa_sample : ecdsaVerify sampleKey (sha512 [0x73, 0x61, 0x6d, 0x70, 0x6c, 0x65])
    (beBytes 66 0x00C328FAFCBD79DD77850370C46325D987CB525569FB63C5D3BC53950E6D4C5F174E25A1EE9017B5D450606ADD152B534931D7D4E8455CC91F9B15BF05EC36E377FA)
    (beBytes 66 0x00617CCE7CF5064806C467F678D3B4080D6F1CC50AF26CA209417308281B68AF282623EAA63E5B5C0723D8B8C37FF0777B1A20F8CCB1DCCC43997F1EE0E44DA4A67A) = true := by
  decide +kernel

/-- The test case of AES-256-GCM with a zero key, a zero nonce and one zero block: the encrypted block and the tag. -/
theorem test_gcm : gcmSeal (List.replicate 32 0) 0 0 [] (List.replicate 16 0) =
    beBytes 32 0xcea7403d4d606b6e074ec5d3baf39d18d0d1c8a799996bf0265b98b5d48ab919 := by
  decide +kernel

/-- 03 R72, the pseudocode's "smallest non-zero code": a block of zeros' need takes code 0x01. -/
theorem test_e8m0_least : e8m0For Fl.zero = 1 := by decide

/-- 01 R22: logical core 49 of a die whose entry 6 names the spare cluster. -/
theorem test_cluster_map : ({ State.reset with clusterMap := [(6, 0x0000007654328018)] } : State).physCore 49 = (24, 8) := by decide

/-- 12 R308: resolving a = 0x0040_0000_1A40. -/
theorem test_window_address : State.reset.locate 0x004000001A40 = (3 * 32 + 16, 0x44444240) := by decide +kernel

/-- An FP32 block quantised by specification word `lo` and tensor scale `t`. -/
def quantised (lo : W64) (t : Nat) (xs : List W32) : QOut × Damage :=
  let b : QBlk := { row := 0, col := 0, els := (xs.zipIdx).map fun x => { x := f32 x.1, pad := false, idx := x.2, k := x.2 } }
  quantBlock (qspecOf lo 0) t (fun _ => 0) b (((bightTile (qspecOf lo 0) [b]).1.head?).getD [])

/-- 02 *Worked encodings*: one L4 line block. -/
theorem test_line_block : let r := (quantised 0 0x3F800000
    [0x3E99999A, 0xBDF5C28F, 0x3F8CCCCD, 0x00000000, 0xBF0CCCCD, 0x3F4CCCCD, 0x4019999A, 0xBFD9999A,
     0x3D4CCCCD, 0x3F266666, 0xBF666666, 0x3FB9999A, 0xBE4CCCCD, 0x3EB33333, 0x4039999A, 0xC0066666])
    leBytes 8 (r.1.codes.foldr (fun c a => c + 16 * a) 0) = [0x01, 0x04, 0x3A, 0xD6, 0x30, 0x5C, 0x19, 0xE7] ∧ r.1.scale = 0x70 := by decide +kernel

/-- 02 *Worked encodings*: one L4 square block, its elements in row order. -/
theorem test_square_block : let r := (quantised 0x20 0x3D800000
    [0x3CA3D70A, 0xBDE147AE, 0x3D3851EC, 0x3E99999A, 0xBD75C28F, 0x3E333333, 0xBE800000, 0x3C23D70A,
     0x3DB851EC, 0x00000000, 0xBEA8F5C3, 0x3E0F5C29, 0x3E570A3D, 0xBD0F5C29, 0x3D8F5C29, 0xBE19999A])
    leBytes 8 (r.1.codes.foldr (fun c a => c + 16 * a) 0) = [0xC1, 0x72, 0x5A, 0x0E, 0x03, 0x4F, 0x96, 0xD2] ∧ r.1.scale = 0x77 ∧
      (decodeF32 0 false 0x7 0x77 0x3D800000).1 = 0x3EB40000 := by decide +kernel

/-- 03 *Worked example: one dominant element*: the block of the example. -/
def dominant : List W32 :=
  [0x42200000, 0x3F000000, 0xBE99999A, 0x3E4CCCCD, 0x3EE66666, 0xBF19999A, 0x3DCCCCCD, 0x3EB33333,
   0xBE19999A, 0x3E800000, 0x3F0CCCCD, 0xBECCCCCD, 0x3D4CCCCD, 0x3E99999A, 0xBE4CCCCD, 0x3F19999A]

theorem test_bight_off : let r := quantised 0 0x3F800000 dominant
    r.1.codes = 7 :: List.replicate 15 0 ∧ r.1.scale = 0x8E ∧ r.2.flushed = 15 := by decide +kernel

theorem test_bight_on : let r := quantised (w64 (2 ^ 14 + 4 * 2 ^ 16 + 32 * 2 ^ 20)) 0x3F800000 dominant
    r.1.codes.foldr (fun c a => c + 16 * a) 0 = 0x7C51E74B52F64D60 ∧ r.1.scale = 0x5D ∧ r.1.bights = [(0, false, 0x4220)] ∧ r.2.flushed = 0 := by
  decide +kernel

/-- 03 R70: A = 37.5, L4, HEADROOM 12. -/
theorem test_tracked_scale : trackedScale (f32 0x42160000) 0 12 = 0x3B000000 := by decide +kernel

/-- 05 *Worked example: cancellation*: the entries of the three block-steps, from their codes and scales. -/
theorem test_cancellation :
    let el (c s : Nat) : Fl := elemScaled 4 false c s
    let p0 := (el 0x6A 0xB8).mul (el 0x6A 0xB8)
    let p1 := (el 0x04 0x08).mul (el 0x05 0x08)
    let p2 := (el 0xEA 0xB8).mul (el 0x6A 0xB8)
    (({} : Acc).enterAll [p0]).1.sum.toNat = 0x90 * 2 ^ 128 ∧ (({} : Acc).enterAll [p0]).1.res = 0x90 ∧
    (({} : Acc).enterAll [p0, p1]).1.sum.toNat = 0x90 * 2 ^ 128 + 0x14000000000 ∧ (({} : Acc).enterAll [p0, p1]).1.res = 0x1D0 ∧
    (({} : Acc).enterAll [p0, p1, p2]).1.sum.toNat = 0x14000000000 ∧ (({} : Acc).enterAll [p0, p1, p2]).1.res = 0x140 ∧
    (FF.bf16.encode true (({} : Acc).enterAll [p0, p1, p2]).1.resolve.1).1 = 0x23A0 := by decide +kernel

/-- 07 *Instruction word*: VFMA v1, v2, b1, v3. -/
theorem test_vector_word : let w : W64 := 0x20C2208C20000000
    vCls w = 2 ∧ vOp w = 3 ∧ vVd w = 1 ∧ vVa w = 2 ∧ vVb w = 1 ∧ vBs w = true ∧ vVc w = 3 ∧ vPg w = 0 ∧ vPz w = false := by decide

/-- 10 *Instruction word*: an ISSUE. -/
theorem test_core_word : let w : W64 := 0x80A21BB200000400
    ccOp w = 0x20 ∧ ccSd w = 5 ∧ ccSa w = 2 ∧ ccSb w = 3 ∧ ccExt w = 0x3B2 ∧ ccImm w = 0x400 := by decide

/-- 07 *Fall-back tree on v4*: the tree loses a 1, the exact sum does not. -/
theorem test_tree_and_exact :
    let v : List W32 := 0x4B800000 :: List.replicate 14 0x3F800000 ++ [0xCB800000]
    let c := v.foldl XCell.addLane {}
    treeSum v = 0x41500000 ∧ c.toF32 = 0x41600000 ∧ nth c.toBytes 0 18 = 0xC0 ∧ nth c.toBytes 0 19 = 0x01 ∧ c.terms = 16 := by decide +kernel

/-- 08 R220: r1 := fma(B1, r1, r4). -/
theorem test_microprogram_word : let w : W32 := 0x20B00880
    mpOp w = 4 ∧ mpD w = 1 ∧ bits w.toNat 22 17 = 24 ∧ bits w.toNat 16 11 = 1 ∧ bits w.toNat 10 5 = 4 := by decide

/-- 08 *Schedule entry, worked*. -/
theorem test_schedule_entry :
    let e : List W64 := [w64 (0x39800000 + 1000 * 2 ^ 32), w64 (0x06666666 * 2 ^ 31 + 2 ^ 62), 99000, 0]
    schedFrac e 249 = 268435456 ∧ schedEta e 268435456 = 0x38800000 ∧ schedFrac e 50500 = 590558003 ∧ schedEta e 590558003 = 0x390CCCCD ∧
    schedFrac e 100000 = 107374182 ∧ schedEta e 107374182 = 0x37CCCCCD := by decide +kernel

/-- 09 *Worked compression of one bucket*: the entries in index order, and the residuals of elements 2, 8 and 26. -/
theorem test_topk_bucket :
    let xs : List W32 :=
      [0x3E800000, 0xBFC00000, 0x3D800000, 0x40000000, 0xBE000000, 0x3F400000, 0xC0000000, 0x3D000000,
       0x3F808000, 0xBF000000, 0x3E400000, 0xBE800000, 0x40400000, 0x00000000, 0xBEC00000, 0x3F000000,
       0x3FA00000, 0xBD800000, 0x3E000000, 0xC0400000, 0x3F600000, 0xBD000000, 0x3F200000, 0xBF800000,
       0x3C800000, 0xBF400000, 0xBF000000, 0xBE400000, 0x3DC00000, 0x3FE00000, 0xBF600000, 0x00000000]
    let r := State.reset.compress (xrec [w64 (16 * 2 ^ 8), 0, 32, 0, 0, 0, 0, 0]) 0 0 0 xs
    wordsOf 4 r.1.payload = [0x0001BFC0, 0x00034000, 0x00053F40, 0x0006C000, 0x00083F80, 0x0009BF00, 0x000C4040, 0x000F3F00,
      0x00103FA0, 0x0013C040, 0x00143F60, 0x00163F20, 0x0017BF80, 0x0019BF40, 0x001D3FE0, 0x001EBF60] ∧
    nth r.2 0 2 = 0x3D800000 ∧ nth r.2 0 8 = 0x3B800000 ∧ nth r.2 0 26 = 0xBF000000 ∧ fld r.1.h2 12 0 = 16 := by decide +kernel

/- The whole machine. -/

theorem witness_StepRunsFront : (∃ (s : State) (c : Instr) (rest : List Instr), s.pending = c :: rest) ∧ State.reset.pending = [] ∧
    State.reset.waiting = [] ∧ State.reset.hostOut = [] ∧ ∀ c, c < 4 → (State.reset.ctx c).state ≠ .draining :=
  ⟨⟨{ State.reset with pending := [.load] }, _, _, rfl⟩, by decide⟩

theorem witness_MemoriesStayCanonical : ∃ s t : State, MemWf s ∧ step s = .next t ∧ s.hbm ≠ [] :=
  ⟨{ State.reset with hbm := [(0, 3)], pending := [.drainTimeout] }, _, ⟨by decide, by decide⟩, rfl, by decide⟩

theorem witness_FusesNeverClear : ∃ s t : State, step s = .next t ∧ sget s.sec.otp 0 7 ≠ 0 :=
  ⟨{ State.reset with sec := { otp := [(7, 1)] }, pending := [.drainTimeout] }, _, rfl, by decide⟩

/-- The table gives no row any bits, so no word spells a command. -/
theorem test_no_word (n w : Nat) : decodeTableWord n w = none := rfl

/-- A part that 00 R2 does not number stops the machine. -/
theorem test_no_such_part : exec (.fence 384) State.reset = .fault .noSuchPart := rfl

/-- Generations 0 and 1 committed; of generation 2, words 0–16 read back and word 17 fails its check (the worked example of R442). -/
def polState : State :=
  { State.reset with sec := { otp := [(0x43F, w64 0x47454E5F4F4B0000), (0x47F, w64 0x47454E5F4F4B0001), (0x480, 1), (0x491, 1)], otpBad := [0x491] } }

/-- Generation 1 is in force; POLICY_WRITE skips 2, writes 3, and leaves four blank. A word that fails its check is no longer blank, even where it was to be 0. -/
theorem test_policy_example : let r := polState.policyWrite
    polState.sec.polGen = some 1 ∧ r.2.1 = 0 ∧ r.1.sec.polGen = some 3 ∧ (List.range 8).countP r.1.sec.polBlank = 4 ∧
      ({ polState.sec with otpBad := [0x4C0] }.burn 0 0x4C0 0).polBlank 3 = false := by decide +kernel

end Sys2Proof.Tests
end

section
/-! Narrow and misaligned register accesses (00 R10): what the decode-error cause writes, and what every access that names no register comes to. -/

namespace Sys2Proof.Machine

/- The state operations of a decode error. -/

/-- A first-event record writes only the register that it names (15 R483). -/
theorem State.reg_detail_ne (s : State) (i j : RegId) (v : W64) (h : j ≠ i) : (s.detail i v).reg j = s.reg j := by
  unfold State.detail
  split
  · rfl
  · exact s.reg_setReg_ne i j _ h

/-- A first-event record leaves the state outside the register file. -/
theorem State.detail_eq_regs (s : State) (i : RegId) (v : W64) : s.detail i v = { s with regs := (s.detail i v).regs } := by
  unfold State.detail
  split <;> rfl

/-- A cause set and counted leaves the state outside the register file. -/
theorem State.setCause_eq_regs (s : State) (p : Part) (b : Nat) : s.setCause p b = { s with regs := (s.setCause p b).regs } := rfl

/-- DECODE_ERROR is of group MEMORY and no fault, so it logs nothing: the detail is recorded, the cause set and counted (15 R387, R389; 16 R405). -/
theorem State.decodeError_eq_setCause (s : State) (write : Bool) (addr : Nat) :
    s.decodeError write addr =
      (s.detail (modR .MOD_DECODE_DETAIL) (w64 (addr % 2 ^ 48 + b01 write * 2 ^ 62))).setCause .module 0 := rfl

theorem State.bit_status_decodeError (s : State) (write : Bool) (addr : Nat) :
    bit ((s.decodeError write addr).reg (modR .MODC_STATUS)) 0 = true := by
  have hor := reg_raiseWith_status (s.detail (modR .MOD_DECODE_DETAIL) (w64 (addr % 2 ^ 48 + b01 write * 2 ^ 62)))
    .module 0 0 0 (causeFault .mod 0) (by decide)
  exact (congrArg (bit · 0) hor).trans (bit_or_pow _ 0 (by decide))

/-- A decode error writes the cause's STATUS, its COUNT and the detail register, and no other register. -/
theorem State.reg_decodeError_ne (s : State) (write : Bool) (addr : Nat) (id : RegId) (hstatus : id ≠ modR .MODC_STATUS)
    (hcount : id ≠ modR .MODC_COUNT 0) (hdetail : id ≠ modR .MOD_DECODE_DETAIL) :
    (s.decodeError write addr).reg id = s.reg id := by
  rw [State.decodeError_eq_setCause, State.reg_setCause_ne _ _ _ _ hstatus hcount, State.reg_detail_ne _ _ _ _ hdetail]

/-- A decode error leaves the state outside the register file. -/
theorem State.decodeError_eq_regs (s : State) (write : Bool) (addr : Nat) :
    s.decodeError write addr = { s with regs := (s.decodeError write addr).regs } := by
  rw [State.decodeError_eq_setCause, State.setCause_eq_regs, State.detail_eq_regs]

/- Register accesses. -/

/-- An access to the register ranges that something answers reaches the register decoder (15 R381). -/
theorem exec_registerWrite_eq_regAccess (s : State) (a : HostAccess) (ecc : List (Nat × Nat)) (hlo : 0x020000000000 ≤ a.addr)
    (hhi : a.addr < 2 ^ 48) (hup : s.silentAt a.addr = false) :
    exec (.registerWrite a ecc) s = .next (s.regAccess a) := by
  have hpart : (decide (2 ^ 39 ≤ a.addr) && decide (a.addr < 2 ^ 48)) = true := by simp; omega
  have hscr : ¬ (a.addr < 0x020000000000 ∧ 2 ^ 40 ≤ a.addr) := by omega
  change execRegisterWrite a ecc s = _
  simp only [execRegisterWrite, guardPart, hpart, hup, hscr, if_true, if_false, Bool.false_eq_true]

/-- A narrow or misaligned access names no register: it is a decode error, and a read of it returns 0. -/
theorem State.regAccess_of_narrow (s : State) (a : HostAccess) (h : a.size < 8 ∨ a.addr % 8 ≠ 0) :
    s.regAccess a = if a.write then s.decodeError a.write a.addr else (s.decodeError a.write a.addr).reply 0 := by
  have hnarrow : ¬ (a.size = 8 ∧ a.addr % 8 = 0) := by omega
  simp only [State.regAccess, if_neg hnarrow]

/-- Settles O49: the access is a decode error, whose rules give the cause bit and the frame; the reply is the only other change. -/
theorem narrowAccesses : Obligations.NarrowAccesses := by
  unfold Obligations.NarrowAccesses
  intro s a hlo hhi hup hnarrow
  refine ⟨s.regAccess a, exec_registerWrite_eq_regAccess s a [] hlo hhi hup, ?_⟩
  rw [State.regAccess_of_narrow s a hnarrow]
  split
  · exact ⟨s.bit_status_decodeError .., s.reg_decodeError_ne _ _, s.decodeError_eq_regs ..⟩
  · exact ⟨s.bit_status_decodeError .., s.reg_decodeError_ne _ _, congrArg (State.reply · 0) (s.decodeError_eq_regs ..)⟩

end Sys2Proof.Machine
end

section
/-! Out-of-bounds lanes of VGATH, VSCAT and VSCADD (07 R207): how a vector instruction at a strand core's pc runs, what the steps of a slot access leave of the counters, and what VEC_OOB writes. -/

namespace Sys2Proof.Machine

open Sys2Proof.Safety

/- Running the instruction at a strand core's pc. -/

/-- A strand core that runs a launch begins no other (R177). -/
theorem State.beginLaunch_of_launch {s : State} {core t g : Nat} (h : (s.strand core t).launch = some g) :
    s.beginLaunch core t = s := by
  simp [State.beginLaunch, h]

/-- Where the legal instruction at the pc is the one that the command names, it is counted and its meaning runs on its launch and word. -/
theorem vecRun_of_vecAt {s : State} {n t cls op : Nat} {m : OpMsg} {w : W64} (h : VecAt s n t m w) (hcls : vCls w = cls)
    (hop : vOp w = op) (f : OpMsg → W64 → State → State) :
    vecRun n t cls op s f = .next (f m w (s.bump (coreR .INSN_TOTAL n) 1)) := by
  obtain ⟨hn, ht, hlegal, hinsn, g, l, hlaunch, hfind, rfl⟩ := h
  simp [vecRun, guardPart, State.beginLaunch_of_launch hlaunch, hn, ht, hlaunch, hfind, hinsn, hlegal, hcls, hop]

@[simp] theorem State.bump_strand (s : State) (id : RegId) (k core t : Nat) : (s.bump id k).strand core t = s.strand core t := by
  simp [State.strand]

/-- Counting over the active lanes is counting the active ones of all sixteen. -/
theorem Strand.countP_lanes (x : Strand) (w : W64) (p : Nat → Bool) :
    (x.lanes w).countP p = (List.range 16).countP fun l => nbit (x.pred (vPg w)) l && p l := by
  simp only [Strand.lanes, List.countP_filter, Strand.active, Bool.and_comm]

/- What a slot access leaves of the register file. -/

/-- A register reads the same in states with one register file. -/
theorem State.reg_of_regs_eq {s t : State} (h : t.regs = s.regs) (i : RegId) : t.reg i = s.reg i := by
  simp only [State.reg, h]

@[simp] theorem State.onStrand_reg (s : State) (core t : Nat) (f : Strand → Strand) (i : RegId) :
    (s.onStrand core t f).reg i = s.reg i := rfl

/-- Stall cycles reach only the two stall totals (R188). -/
theorem State.reg_slotStall_ne (s : State) (core : Nat) (lines : List Nat) (scr oc : Nat) (i : RegId)
    (hscr : i ≠ coreR .SCR_STALL_TOTAL core) (hoc : i ≠ coreR .OC_CONFLICT_TOTAL core) :
    (s.slotStall core lines scr oc).reg i = s.reg i := by
  rw [State.slotStall, State.reg_bump_ne _ _ _ _ hoc, State.reg_bump_ne _ _ _ _ hscr]

/-- Decoding elements of a slot raises TSCALE_INVALID (bit 1) or nothing (02 R46). -/
theorem raised_slotTscale (s : State) (core : Nat) (t : TSlot) (es : List Nat) : Raised (.core core) 1 s (s.slotTscale core t es) := by
  unfold State.slotTscale
  split
  · exact .refl ..
  · exact raised_raise ..

@[simp] theorem State.scrEventsAt_nil (s : State) (core : Nat) (lines : List Nat) : s.scrEventsAt core lines [] = s := rfl

/-- A fold of steps that each leave the register file leaves every register. -/
theorem State.reg_foldl {α : Type} (f : State → α → State) (h : ∀ s a, (f s a).regs = s.regs) (l : List α) (s : State) (i : RegId) :
    (l.foldl f s).reg i = s.reg i :=
  foldl_rel (R := fun s t => t.reg i = s.reg i) (fun _ => rfl) (fun hst htu => htu.trans hst) f
    (fun s a => State.reg_of_regs_eq (h s a) i) l s

/- VEC_OOB. -/

/-- A core's COMPUTE cause logs nothing and is no fault: its bit is set and it is counted (15 R387; 16 R405). -/
theorem State.raise_core_eq_setCause (s : State) (n b ctx : Nat) (det : W64) (hb : b < 16) :
    s.raise (.core n) b ctx det = s.setCause (.core n) b := by
  have hfault : ¬ 20 ≤ b := by omega
  simp [State.raise, State.raiseWith, leafOf, causeFault, causeGroup, hb, hfault]

/-- A core's cause counts once in its COUNT register. -/
theorem State.reg_setCause_core_count (s : State) (n b : Nat) :
    (s.setCause (.core n) b).reg (coreR .CORE_COUNT n b) = satAdd (s.reg (coreR .CORE_COUNT n b)) 1 := by
  have hne : coreR .CORE_COUNT n b ≠ coreR .CORE_STATUS n := by simp [coreR, rid]
  change ((s.setReg (coreR .CORE_STATUS n) _).bump (coreR .CORE_COUNT n b) 1).reg (coreR .CORE_COUNT n b) = _
  rw [State.reg_bump, if_neg Nat.one_ne_zero, State.reg_setReg_ne _ _ _ _ hne]

theorem satAdd_zero (v : W64) : satAdd v 0 = v := by
  have hv : min v.toNat (2 ^ 64 - 1) = v.toNat := by have := v.isLt; omega
  simp only [satAdd, Nat.add_zero, hv, w64, BitVec.ofNat_toNat, BitVec.setWidth_eq]

/-- The total that an out-of-bounds lane of a read or of a write counts in. -/
def oobTotal (write : Bool) : RegName := if write then .VEC_OOB_WRITE_TOTAL else .VEC_OOB_READ_TOTAL

/-- The registers of core n that count out-of-bounds lanes and VEC_OOB. -/
def isOobCounter (n : Nat) (i : RegId) : Prop := (∃ write, i = coreR (oobTotal write) n) ∨ i = coreR .CORE_COUNT n 9

/-- From s to u, k out-of-bounds lanes count in their total, and VEC_OOB is raised once where there is one (R207). -/
def OobCounted (n : Nat) (write : Bool) (k : Nat) (s u : State) : Prop :=
  u.reg (coreR (oobTotal write) n) = satAdd (s.reg (coreR (oobTotal write) n)) k ∧
  u.reg (coreR .CORE_COUNT n 9) = satAdd (s.reg (coreR .CORE_COUNT n 9)) (if 0 < k then 1 else 0) ∧
  (0 < k → bit (u.reg (coreR .CORE_STATUS n)) 9 = true)

/-- A lane or more out of bounds: the total is raised, then VEC_OOB. -/
theorem State.vecOob_of_pos (s : State) (n : Nat) (write : Bool) {k : Nat} (hk : 0 < k) :
    s.vecOob n write k = (s.bump (coreR (oobTotal write) n) k).raise (.core n) 9 (s.ctxOf n) := by
  have hk0 : k ≠ 0 := by omega
  simp [State.vecOob, hk0, oobTotal]

/-- VEC_OOB with its counts does what R207 says. -/
theorem oobCounted_vecOob (s : State) (n : Nat) (write : Bool) (k : Nat) : OobCounted n write k s (s.vecOob n write k) := by
  obtain rfl | hk := Nat.eq_zero_or_pos k
  · exact ⟨(satAdd_zero _).symm, (satAdd_zero _).symm, fun h => absurd h (Nat.lt_irrefl 0)⟩
  · have hstatus : coreR (oobTotal write) n ≠ coreR .CORE_STATUS n := by cases write <;> simp [coreR, rid, oobTotal]
    have hcount : coreR (oobTotal write) n ≠ coreR .CORE_COUNT n 9 := by cases write <;> simp [coreR, rid, oobTotal]
    rw [State.vecOob_of_pos s n write hk]
    refine ⟨?total, ?count, fun _ => ?status⟩
    case total =>
      rw [State.raise_core_eq_setCause _ _ _ _ _ (by omega), State.reg_setCause_ne _ _ _ _ hstatus hcount, State.reg_bump,
        if_neg (by omega)]
    case count =>
      rw [State.raise_core_eq_setCause _ _ _ _ _ (by omega), State.reg_setCause_core_count, State.reg_bump_ne _ _ _ _ hcount.symm,
        if_pos hk]
    case status =>
      have hor := reg_raiseWith_status (s.bump (coreR (oobTotal write) n) k) (.core n) 9 (s.ctxOf n) 0 (causeFault .core 9) (by simp [leafOf])
      exact (congrArg (bit · 9) hor).trans (bit_or_pow _ 9 (by omega))

/-- A run that leaves the counters to VEC_OOB, and then changes a strand core, counts as VEC_OOB does. -/
theorem oobCounted_of_frame {s t : State} {n : Nat} (hframe : ∀ i, isOobCounter n i → t.reg i = s.reg i) (write : Bool) (k strand : Nat)
    (f : Strand → Strand) : OobCounted n write k s ((t.vecOob n write k).onStrand n strand f) := by
  obtain ⟨htotal, hcount, hstatus⟩ := oobCounted_vecOob t n write k
  rw [hframe _ (.inl ⟨write, rfl⟩)] at htotal
  rw [hframe _ (.inr rfl)] at hcount
  simp only [OobCounted, State.onStrand_reg]
  exact ⟨htotal, hcount, hstatus⟩

/- The three instructions. -/

/-- A register of another name is none of the counters. -/
theorem isOobCounter.ne {n : Nat} {i : RegId} (hi : isOobCounter n i) {name : RegName}
    (hname : name ∉ [.VEC_OOB_READ_TOTAL, .VEC_OOB_WRITE_TOTAL, .CORE_COUNT]) : i ≠ coreR name n := by
  rintro rfl
  obtain ⟨write, h⟩ | h := hi
  · cases write <;> simp_all [coreR, rid, oobTotal]
  · simp_all [coreR, rid]

/-- TSCALE_INVALID is another cause than VEC_OOB: its registers are none of the counters. -/
theorem isOobCounter.not_causeReg_tscale {n : Nat} {i : RegId} (hi : isOobCounter n i) : ¬ causeReg (.core n) 1 i := by
  obtain ⟨write, rfl⟩ | rfl := hi
  · cases write <;> simp [causeReg, leafOf, Leaf.status, Leaf.count, coreR, rid, oobTotal]
  · simp [causeReg, leafOf, Leaf.status, Leaf.count, coreR, rid]

/-- The count of the instruction and the stalls of its access leave the counters. -/
theorem reg_slotStall_insn {s : State} {n : Nat} (lines : List Nat) (scr oc : Nat) {i : RegId} (hi : isOobCounter n i) :
    ((s.bump (coreR .INSN_TOTAL n) 1).slotStall n lines scr oc).reg i = s.reg i := by
  rw [State.reg_slotStall_ne _ _ _ _ _ _ (hi.ne (by decide)) (hi.ne (by decide)), State.reg_bump_ne _ _ _ _ (hi.ne (by decide))]

/-- Active lanes of the instruction whose index lies outside its slot (R203). -/
def oobLanes (x : Strand) (m : OpMsg) (w : W64) : Nat :=
  let T := m.tslot (vSlot w / 2)
  (List.range 16).countP fun l => nbit (x.pred (vPg w)) l && (resolveIdx T.wrap T.dim (lane (x.reg (vVa w)) l)).isNone

section

variable {s : State} {n t : Nat} {m : OpMsg} {w : W64} (hat : VecAt s n t m w) (hcls : vCls w = 8) (scr oc : Nat)
include hat hcls

theorem exec_vgath_oobCounted (hop : vOp w = 0) :
    ∃ u, exec (.vgath n t scr oc []) s = .next u ∧ OobCounted n false (oobLanes (s.strand n t) m w) s u := by
  change ∃ u, execVgath n t scr oc [] s = .next u ∧ _
  rw [execVgath, vecRun_of_vecAt hat hcls hop]
  refine ⟨_, rfl, ?_⟩
  simp only [State.bump_strand, Strand.countP_lanes, State.scrEventsAt_nil]
  exact oobCounted_of_frame (fun i hi => ((raised_slotTscale ..).reg i hi.not_causeReg_tscale).trans (reg_slotStall_insn _ _ _ hi)) ..

theorem exec_vscat_oobCounted (hop : vOp w = 1) (hexact : (m.tslot (vSlot w / 2)).exact = false)
    (hwide : isWide (fsCode (m.tslot (vSlot w / 2)).fmt) = true) :
    ∃ u, exec (.vscat n t scr oc) s = .next u ∧ OobCounted n true (oobLanes (s.strand n t) m w) s u := by
  change ∃ u, execVscat n t scr oc s = .next u ∧ _
  rw [execVscat, vecRun_of_vecAt hat hcls hop]
  refine ⟨_, rfl, ?_⟩
  simp only [State.bump_strand, Strand.countP_lanes, hexact, hwide, Bool.not_true, Bool.or_self, Bool.false_eq_true, if_false]
  refine oobCounted_of_frame (fun i hi => ?_) ..
  rw [State.reg_foldl, reg_slotStall_insn _ _ _ hi]
  case h => exact fun _ _ => by split <;> rfl

theorem exec_vscadd_oobCounted (hop : vOp w = 2) (hexact : (m.tslot (vSlot w / 2)).exact = true) :
    ∃ u, exec (.vscadd n t scr oc []) s = .next u ∧ OobCounted n true (oobLanes (s.strand n t) m w) s u := by
  change ∃ u, execVscadd n t scr oc [] s = .next u ∧ _
  rw [execVscadd, vecRun_of_vecAt hat hcls hop]
  refine ⟨_, rfl, ?_⟩
  simp only [State.bump_strand, Strand.countP_lanes, State.scrEventsAt_nil, hexact, Bool.not_true, Bool.false_eq_true, if_false]
  refine oobCounted_of_frame (fun i hi => ?_) ..
  rw [State.reg_foldl, reg_slotStall_insn _ _ _ hi]
  case h => exact fun _ _ => by split <;> rfl

end

/-- Settles O28: each of the three instructions leaves the counters to VEC_OOB, which it meets with the number of its out-of-bounds lanes. -/
theorem outOfBoundsLanes : Obligations.OutOfBoundsLanes := by
  unfold Obligations.OutOfBoundsLanes
  intro r hr s n t m w scr oc hat hcls hop x T k hscat hscadd
  simp only [List.mem_cons, List.not_mem_nil, or_false] at hr
  obtain rfl | rfl | rfl := hr
  · exact exec_vgath_oobCounted hat hcls scr oc hop
  · exact exec_vscat_oobCounted hat hcls scr oc hop (hscat rfl).1 (hscat rfl).2
  · exact exec_vscadd_oobCounted hat hcls scr oc hop (hscadd rfl)

end Sys2Proof.Machine
end

section
/-! Host knot operations (11 R303): what a write to KNOT_HOST_OP comes to at the store, what a store with nothing pending does, and what a report of readiness leaves of knots and registers. -/

namespace Sys2Proof.Machine

open Sys2Proof.Claims

/- The readiness that may follow from a feed's knot (10 R270; 13 R355). -/

/-- The knots are as they were, and of the registers only flit counts may differ. -/
structure KnotsRegsKept (s t : State) : Prop where
  knots : t.knots = s.knots
  reg : ∀ i : RegId, i.name ≠ .FLIT_TX_TOTAL → t.reg i = s.reg i

theorem KnotsRegsKept.refl (s : State) : KnotsRegsKept s s := ⟨rfl, fun _ _ => rfl⟩

theorem KnotsRegsKept.trans {s t u : State} (a : KnotsRegsKept s t) (b : KnotsRegsKept t u) : KnotsRegsKept s u :=
  ⟨b.knots.trans a.knots, fun i h => (b.reg i h).trans (a.reg i h)⟩

theorem KnotsRegsKept.send {s t : State} (h : KnotsRegsKept s t) (m : OutMsg) : KnotsRegsKept s (t.send m) :=
  h.trans ⟨(sent_send t m).body.knots, (sent_send t m).reg⟩

theorem KnotsRegsKept.onStep {s t : State} (h : KnotsRegsKept s t) (f : StepCtl → StepCtl) : KnotsRegsKept s (t.onStep f) :=
  ⟨h.knots, h.reg⟩

theorem KnotsRegsKept.onHank {s t : State} (h : KnotsRegsKept s t) (f : Hank → Hank) : KnotsRegsKept s (t.onHank f) :=
  ⟨h.knots, h.reg⟩

theorem KnotsRegsKept.castDown {s t : State} (h : KnotsRegsKept s t) (m : Nat → OutMsg) : KnotsRegsKept s (t.castDown m) := by
  unfold State.castDown
  split
  · exact h
  · split
    · exact (h.send _).send _
    · exact h.send _

theorem KnotsRegsKept.readyPoll {s t : State} (h : KnotsRegsKept s t) : KnotsRegsKept s t.readyPoll := by
  unfold State.readyPoll
  split
  · exact h
  · extract_lets u
    have hu : KnotsRegsKept s u := h.onHank _
    split
    · exact (hu.castDown _).onStep _
    · exact hu.send _

/-- The module's own report of READY touches the step controller, the hank's records and the links. -/
theorem State.feedPoll_knotsRegsKept (s : State) : KnotsRegsKept s s.feedPoll := by
  unfold State.feedPoll
  split
  · exact .refl s
  · extract_lets t
    have ht : KnotsRegsKept s t := (KnotsRegsKept.refl s).onStep _
    split
    · exact (ht.onHank _).readyPoll
    · exact ht.send _

/- A store at which nothing is pending. -/

theorem State.settleAll_of_noPend {s : State} {d : Nat} (h : (s.knot d).pend = []) (phys : Nat) : s.settleAll d phys = s := by
  simp [State.settleAll, State.settle, State.releaseWaits, h, firstPend]

theorem State.flush_of_noBehind {s : State} {d : Nat} (h : (s.knot d).behind = []) : s.flush d = s := by
  simp [State.flush, State.flushBehind, h]

/-- The store's write of a knot is the one that the statements name. -/
theorem State.putKnot_eq_knotTied (s : State) (d phys : Nat) (tied : Bool) (station : Option Nat) :
    s.putKnot d phys tied station = knotTied s d phys tied station := rfl

@[simp] theorem knot_pend_knotTied (s : State) (d phys : Nat) (tied : Bool) (station : Option Nat) :
    ((knotTied s d phys tied station).knot d).pend = (s.knot d).pend := by
  simp [knotTied]

@[simp] theorem knot_behind_knotTied (s : State) (d phys : Nat) (tied : Bool) (station : Option Nat) :
    ((knotTied s d phys tied station).knot d).behind = (s.knot d).behind := by
  simp [knotTied]

section

variable {s : State} {d c k : Nat} (hvalid : kValid (s.knotEntry d c k) = true)
include hvalid

/-- A host tie of a clear knot (R288): no persistence stops it, and the host has no station that sees it at once. -/
theorem State.knotDo_host_tie_of_clear (hclear : s.isTied d (kPhys (s.knotEntry d c k)) = false) :
    (s.knotDo d c k .host .tie).1 =
      (((knotTied s d (kPhys (s.knotEntry d c k)) true none).bump (knotR .TIE_TOTAL d) 1).settleAll d (kPhys (s.knotEntry d c k))) := by
  simp [State.knotDo, hvalid, hclear, State.putKnot_eq_knotTied, KSrc.station]

theorem State.knotDo_host_untie_of_tied (htied : s.isTied d (kPhys (s.knotEntry d c k)) = true) :
    (s.knotDo d c k .host .untie).1 =
      ((knotTied s d (kPhys (s.knotEntry d c k)) false none).settleAll d (kPhys (s.knotEntry d c k))) := by
  simp [State.knotDo, hvalid, htied, State.putKnot_eq_knotTied, KSrc.station]

end

/- Acceptance and discard. -/

section

variable {s : State} {d c k : Nat}

theorem State.hostKnot_nop_of_accepted (hvalid : kValid (s.knotEntry d c k) = true) (hpersist : kPersist (s.knotEntry d c k) = true) :
    s.hostKnot d c k none = s := by
  simp [State.hostKnot, State.hostKnotOp, hvalid, hpersist]

theorem State.hostKnot_some_of_accepted (hvalid : kValid (s.knotEntry d c k) = true) (hpersist : kPersist (s.knotEntry d c k) = true)
    (op : KOp) : s.hostKnot d c k (some op) = ((s.knotDo d c k .host op).1.flush d).feedPoll := by
  simp [State.hostKnot, State.hostKnotOp, hvalid, hpersist]

/-- A discarded write of KNOT_HOST_OP (R303): the knots are as they were, and DECODE_ERROR is set. -/
def HostDiscarded (s t : State) : Prop := t.knots = s.knots ∧ bit (t.reg (modR .MODC_STATUS)) 0 = true

theorem State.hostDiscarded_decodeError (s : State) (write : Bool) (addr : Nat) : HostDiscarded s (s.decodeError write addr) :=
  ⟨(raised_raise ..).body.knots.trans (s.detail_knots ..), s.bit_status_decodeError ..⟩

theorem HostDiscarded.feedPoll {s t : State} (h : HostDiscarded s t) : HostDiscarded s t.feedPoll := by
  obtain ⟨hknots, hbit⟩ := h
  refine ⟨t.feedPoll_knotsRegsKept.knots.trans hknots, ?_⟩
  rwa [t.feedPoll_knotsRegsKept.reg _ (by decide)]

theorem State.hostDiscarded_hostKnot (h : kValid (s.knotEntry d c k) = false ∨ kPersist (s.knotEntry d c k) = false) (op : Option KOp) :
    HostDiscarded s (s.hostKnot d c k op) := by
  have hbad : ¬ (kValid (s.knotEntry d c k) && kPersist (s.knotEntry d c k)) = true := by
    rcases h with h | h <;> simp [h]
  have hop : HostDiscarded s (s.hostKnotOp d c k op) := by
    unfold State.hostKnotOp
    rw [if_neg hbad]
    exact s.hostDiscarded_decodeError ..
  unfold State.hostKnot
  split
  · exact hop.feedPoll
  · exact hop

end

/- The commands and the register. -/

section

variable (s : State) {d c k : Nat} (hd : d < 2) (hc : c < 4) (hk : k < 4096)
include hd hc hk

theorem exec_hostNop_eq : exec (.hostNop d c k) s = .next (s.hostKnot d c k none) := by
  change execHostNop d c k s = _
  simp [execHostNop, guardPart, hd, hc, hk]

theorem exec_hostTie_eq : exec (.hostTie d c k false) s = .next (s.hostKnot d c k (some .tie)) := by
  change execHostTie d c k false s = _
  simp [execHostTie, guardPart, State.cellCheck, hd, hc, hk]

theorem exec_hostUntie_eq : exec (.hostUntie d c k false) s = .next (s.hostKnot d c k (some .untie)) := by
  change execHostUntie d c k false s = _
  simp [execHostUntie, guardPart, State.cellCheck, hd, hc, hk]

end

theorem fld_lt (w : W64) (hi lo : Nat) : fld w hi lo < 2 ^ (hi + 1 - lo) := Nat.mod_lt _ (Nat.two_pow_pos _)

/-- A 64-bit write at an aligned address that names KNOT_HOST_OP is taken there. -/
theorem exec_registerWrite_of_knotHostOp (s : State) {d addr : Nat} (v : W64) (ecc : List (Nat × Nat)) (hlo : 0x020000000000 ≤ addr)
    (hhi : addr < 2 ^ 48) (haligned : addr % 8 = 0) (hreg : regAt addr = some (rid .KNOT_HOST_OP (.knotStore d)))
    (hup : s.silentAt addr = false) :
    exec (.registerWrite { write := true, addr := addr, size := 8, data := v.toNat } ecc) s = .next (s.knotHostOp d v addr) := by
  rw [exec_registerWrite_eq_regAccess _ _ _ hlo hhi hup]
  simp [State.regAccess, haligned, hreg, State.regWrite, rid, w64]

/-- KNOT_HOST_OP of the two dies in the address map (01). -/
theorem exec_registerWrite_knotHostOp (s : State) {d : Nat} (v : W64) (ecc : List (Nat × Nat)) (hd : d < 2)
    (hup : s.silentAt (0x021023000010 + d * 0x1000000000) = false) :
    exec (.registerWrite { write := true, addr := 0x021023000010 + d * 0x1000000000, size := 8, data := v.toNat } ecc) s =
      .next (s.knotHostOp d v (0x021023000010 + d * 0x1000000000)) := by
  have hreg : regAt (0x021023000010 + d * 0x1000000000) = some (rid .KNOT_HOST_OP (.knotStore d)) := by
    obtain rfl | rfl : d = 0 ∨ d = 1 := by omega
    · decide
    · decide
  exact exec_registerWrite_of_knotHostOp s v ecc (by omega) (by omega) (by omega) hreg hup

/-- OP 0 to 2 are the commands' operations; OP 3 is reserved (R303). -/
theorem State.knotHostOp_eq (s : State) (d : Nat) (v : W64) (addr : Nat) :
    s.knotHostOp d v addr =
      if fld v 15 14 = 0 then s.hostKnot d (fld v 13 12) (fld v 11 0) none
      else if fld v 15 14 = 1 then s.hostKnot d (fld v 13 12) (fld v 11 0) (some .tie)
      else if fld v 15 14 = 2 then s.hostKnot d (fld v 13 12) (fld v 11 0) (some .untie)
      else s.decodeError true addr := by
  unfold State.knotHostOp
  split <;> simp_all

theorem State.hostDiscarded_knotHostOp (s : State) (d : Nat) (v : W64) (addr : Nat)
    (h : fld v 15 14 = 3 ∨ kValid (s.knotEntry d (fld v 13 12) (fld v 11 0)) = false ∨
      kPersist (s.knotEntry d (fld v 13 12) (fld v 11 0)) = false) :
    HostDiscarded s (s.knotHostOp d v addr) := by
  rcases h with hop | hbad
  · simpa [State.knotHostOp_eq, hop] using s.hostDiscarded_decodeError true addr
  · rw [State.knotHostOp_eq]
    have hdiscard := State.hostDiscarded_hostKnot hbad
    split
    · exact hdiscard _
    · split
      · exact hdiscard _
      · split
        · exact hdiscard _
        · exact s.hostDiscarded_decodeError ..

/-- Settles O10: the commands and the register come to the same host operation, which acceptance sends to the store and discard turns into a decode error. -/
theorem hostKnots : Obligations.HostKnots := by
  unfold Obligations.HostKnots
  refine ⟨fun s d c k hd hc hk => ⟨fun hvalid hpersist => ?_, fun hbad i hi => ?_⟩, ?_⟩
  · rw [exec_hostNop_eq s hd hc hk, exec_hostTie_eq s hd hc hk, exec_hostUntie_eq s hd hc hk, State.hostKnot_nop_of_accepted hvalid hpersist,
      State.hostKnot_some_of_accepted hvalid hpersist, State.hostKnot_some_of_accepted hvalid hpersist]
    refine ⟨rfl, rfl, rfl, fun hpend hbehind => ⟨fun hclear => ?_, fun htied => ?_⟩⟩
    · rw [State.knotDo_host_tie_of_clear hvalid hclear, State.settleAll_of_noPend (by simpa using hpend), State.flush_of_noBehind (by simpa using hbehind)]
    · rw [State.knotDo_host_untie_of_tied hvalid htied, State.settleAll_of_noPend (by simpa using hpend), State.flush_of_noBehind (by simpa using hbehind)]
  · simp only [List.mem_cons, List.not_mem_nil, or_false] at hi
    obtain rfl | rfl | rfl := hi
    · exact ⟨_, exec_hostNop_eq s hd hc hk, State.hostDiscarded_hostKnot hbad _⟩
    · exact ⟨_, exec_hostTie_eq s hd hc hk, State.hostDiscarded_hostKnot hbad _⟩
    · exact ⟨_, exec_hostUntie_eq s hd hc hk, State.hostDiscarded_hostKnot hbad _⟩
  · intro s d v ecc hd a e hup
    refine ⟨fun hbad => ⟨_, exec_registerWrite_knotHostOp s v ecc hd hup, s.hostDiscarded_knotHostOp d v _ hbad⟩, fun hvalid hpersist => ?_⟩
    rw [exec_registerWrite_knotHostOp s v ecc hd hup, exec_hostTie_eq s hd (fld_lt v 13 12) (fld_lt v 11 0),
      exec_hostUntie_eq s hd (fld_lt v 13 12) (fld_lt v 11 0), State.knotHostOp_eq]
    refine ⟨fun hop => ?_, fun hop => ?_, fun hop => ?_⟩
    · rw [if_pos hop, State.hostKnot_nop_of_accepted hvalid hpersist]
    · simp [hop]
    · simp [hop]

end Sys2Proof.Machine
end

section
/-! The long accumulator (05 R131–R148): what one entry does, the order of entries, and the residue kept beside the sum. -/

set_option Elab.async false -- elaborate in order: side threads each hold a stack of their own

namespace Sys2Proof.Machine

/- One entry. -/

/-- What entering one value does to an accumulator and to the two counts that go with it. -/
def enterStep (acc : Acc × Nat × Nat) (x : Fl) : Acc × Nat × Nat :=
  ((acc.1.enter x).1, acc.2.1 + (acc.1.enter x).2.1, acc.2.2 + (acc.1.enter x).2.2)

theorem Acc.enterAll_eq_foldl (a : Acc) (l : List Fl) : a.enterAll l = l.foldl enterStep (a, 0, 0) := rfl

/-- Two entries in either order: each flag is set by its own values, and sums, residues and counts only add. -/
theorem enterStep_comm (acc : Acc × Nat × Nat) (x y : Fl) : enterStep (enterStep acc x) y = enterStep (enterStep acc y) x := by
  obtain ⟨a, t, c⟩ := acc
  rcases x with _ | (_ | _) | ⟨n, m, e⟩ <;> rcases y with _ | (_ | _) | ⟨n', m', e'⟩ <;>
    simp [enterStep, Acc.enter]
  generalize accEntry n m e = p
  generalize accEntry n' m' e' = q
  exact ⟨⟨by ac_rfl, by rw [Nat.add_right_comm], by ac_rfl⟩, by omega, by omega⟩

/-- Settles O13: entries commute, so the fold over them does not see their order. -/
theorem accumulationOrderFree : Obligations.AccumulationOrderFree := by
  unfold Obligations.AccumulationOrderFree
  intro a l l' hperm
  rw [Acc.enterAll_eq_foldl, Acc.enterAll_eq_foldl]
  exact hperm.foldl_eq' (fun x _ y _ acc => enterStep_comm acc x y) _

/- The residue. -/

/-- A value below 2^127 in units of 2^−96 is below 2^223, whether its exponent shifts it up or down. -/
theorem shift_lt_of_magLt {m : Nat} {e : Int} (h : magLt m e 1 127 = true) :
    (0 ≤ e + 96 → m <<< (e + 96).toNat < 2 ^ 223) ∧ (e + 96 < 0 → m >>> (-(e + 96)).toNat < 2 ^ 223) := by
  simp only [magLt, decide_eq_true_eq, Nat.shiftLeft_eq, Nat.one_mul] at h
  refine ⟨fun hk => ?_, fun hk => ?_⟩
  · rw [Nat.shiftLeft_eq]
    obtain hle | hlt := Int.le_total e 127
    · rw [Int.min_eq_left hle, Int.sub_self, Int.toNat_zero, Nat.pow_zero, Nat.mul_one] at h
      calc m * 2 ^ (e + 96).toNat < 2 ^ (127 - e).toNat * 2 ^ (e + 96).toNat := Nat.mul_lt_mul_of_pos_right h (Nat.two_pow_pos _)
        _ = 2 ^ 223 := by rw [← Nat.pow_add]; congr 1; omega
    · rw [Int.min_eq_right hlt, Int.sub_self, Int.toNat_zero, Nat.pow_zero] at h
      have hm : m = 0 := by
        have := Nat.le_mul_of_pos_right m (Nat.two_pow_pos (e - 127).toNat)
        omega
      simp [hm]
  · rw [Nat.shiftRight_eq_div_pow, Nat.div_lt_iff_lt_mul (Nat.two_pow_pos _)]
    rw [Int.min_eq_left (by omega), Int.sub_self, Int.toNat_zero, Nat.pow_zero, Nat.mul_one] at h
    calc m < 2 ^ (127 - e).toNat := h
      _ = 2 ^ 223 * 2 ^ (-(e + 96)).toNat := by rw [← Nat.pow_add]; congr 1; omega

/-- R131: an entry is at most 2^127 in units of 2^−96. -/
theorem natAbs_accEntry_le (n : Bool) (m : Nat) (e : Int) : (accEntry n m e).1.natAbs ≤ 2 ^ 223 := by
  have hsign (v : Nat) : (if n then -(v : Int) else v).natAbs = v := by split <;> simp
  simp only [accEntry]
  split
  · simp
  · split
    · exact Nat.le_of_eq (hsign _)
    · rename_i _ hlt
      obtain ⟨hup, hdown⟩ := shift_lt_of_magLt (by simpa using hlt)
      split
      · rw [hsign]; exact Nat.le_of_lt (hup ‹_›)
      · rw [hsign]; exact Nat.le_of_lt (hdown (by omega))

/-- After at most k entries the sum is exact, at most k·2^223, and the residue is that of the sum (R134, R145). -/
structure Acc.Follows (a : Acc) (k : Nat) : Prop where
  bound : a.sum.toInt.natAbs ≤ k * 2 ^ 223
  res : a.res = resOf a.sum.toInt

theorem resOf_add (i j : Int) : resOf (i + j) = (resOf i + resOf j) % 65535 := by
  simp only [resOf]
  omega

/-- A 256-bit sum that stays within its range is the integer sum. -/
theorem toInt_add_ofInt {x : BitVec 256} {i : Int} (h : (x.toInt + i).natAbs ≤ 2 ^ 254) : (x + BitVec.ofInt 256 i).toInt = x.toInt + i := by
  rw [BitVec.toInt_add, BitVec.toInt_ofInt, Int.add_bmod_bmod]
  exact Int.bmod_eq_of_le_mul_two (by omega) (by omega)

/-- Every entry within the limit keeps the residue the residue of the sum. -/
theorem Acc.Follows.enter {a : Acc} {k : Nat} (h : a.Follows k) (hk : k < 2 ^ 31) (x : Fl) : (a.enter x).1.Follows (k + 1) := by
  obtain ⟨hbound, hres⟩ := h
  have hgrow := Nat.le_trans hbound (Nat.mul_le_mul_right _ k.le_succ)
  rcases x with _ | n | ⟨n, m, e⟩
  case nan => exact ⟨hgrow, hres⟩
  case inf => cases n <;> exact ⟨hgrow, hres⟩
  case fin =>
    have hentry := natAbs_accEntry_le n m e
    have hsum : ((a.sum.toInt + (accEntry n m e).1)).natAbs ≤ (k + 1) * 2 ^ 223 := by omega
    have hexact := toInt_add_ofInt (x := a.sum) (i := (accEntry n m e).1) (by omega)
    exact ⟨by simpa only [Acc.enter, hexact] using hsum, by simp only [Acc.enter, hexact, resOf_add, hres]⟩

theorem Acc.Follows.foldl {l : List Fl} {acc : Acc × Nat × Nat} {k : Nat} (h : acc.1.Follows k) (hk : k + l.length ≤ 2 ^ 31) :
    (l.foldl enterStep acc).1.Follows (k + l.length) := by
  induction l generalizing acc k with
  | nil => exact h
  | cons x l ih =>
    rw [List.length_cons] at hk
    have hnext := ih (acc := enterStep acc x) (h.enter (by omega) x) (by omega)
    rwa [List.foldl_cons, List.length_cons, Nat.add_comm l.length, ← Nat.add_assoc]

/-- Settles O14: the cleared accumulator's residue is that of its sum, and every entry within the limit keeps it so. -/
theorem residueFollowsSum : Obligations.ResidueFollowsSum := by
  unfold Obligations.ResidueFollowsSum
  intro l hl
  have hclear : ({} : Acc).Follows 0 := ⟨by decide, by decide⟩
  exact (Acc.Follows.foldl (acc := (({} : Acc), 0, 0)) hclear (by omega)).res

end Sys2Proof.Machine
end

section
/-! Control cores (10 R264–R270): how the instruction at a core's pc runs, what it writes, where it goes, what it issues, and how the core stops. -/

set_option Elab.async false -- elaborate in order: side threads each hold a stack of their own

namespace Sys2Proof.Machine

open Sys2Proof.Safety Sys2Proof.Claims

/- Causes: the bit that is set, and the flag of a fault. -/

/-- A cause outside the die controllers reads 1 in its STATUS once it is raised (15 R384). -/
theorem State.bit_status_raiseWith (s : State) {p : Part} {b : Nat} (hleaf : leafOf p ≠ .dieCtl) (hb : b < 64) (ctx : Nat) (det : W64)
    (f : Bool) : bit ((s.raiseWith p b ctx det f).reg (rid (leafOf p).status p)) b = true := by
  rw [reg_raiseWith_status s p b ctx det f hleaf]
  exact bit_or_pow _ b hb

/-- A fault sets the step's fault flag (16 R405). -/
theorem State.raiseWith_fault_flag (s : State) (p : Part) (b ctx : Nat) (det : W64) : (s.raiseWith p b ctx det true).step.fault = true := by
  simp only [State.raiseWith, State.fault, if_true]
  rw [(sent_send _ _).step]

/- Running the instruction at the pc. -/

theorem ccRun_of_ccAt {s : State} {n op : Nat} {w : W64} (hat : CcAt s n w) (hop : ccOp w = op) (hdef : ccDefined.contains op = true)
    (f : W64 → State → State) : ccRun n op s f = .next (f w s) := by
  obtain ⟨hn, hmode, hpend, hinsn⟩ := hat
  have hn' : ¬ 384 ≤ n := by omega
  simp only [List.contains_eq_mem, decide_eq_true_eq] at hdef
  simp [ccRun, hn', hmode, hpend, hinsn, hop, hdef]

/-- Past the stream no instruction runs: the core stops with code 2 (R269). -/
theorem ccRun_past_stream {s : State} {n op : Nat} (hn : n < 384) (hmode : (s.core n).cc.mode = .running) (hpend : s.knotPending n = false)
    (hinsn : (s.core n).cc.stream[(s.core n).cc.pc]? = none) (f : W64 → State → State) : ccRun n op s f = .next (s.ccIllegal n 2) := by
  have hn' : ¬ 384 ≤ n := by omega
  simp [ccRun, hn', hmode, hpend, hinsn]

/-- A reserved OP stops the core with code 1 (R269). -/
theorem ccRun_reserved {s : State} {n op : Nat} {w : W64} (hat : CcAt s n w) (hop : ccDefined.contains (ccOp w) = false)
    (f : W64 → State → State) : ccRun n op s f = .next (s.ccIllegal n 1) := by
  obtain ⟨hn, hmode, hpend, hinsn⟩ := hat
  have hn' : ¬ 384 ≤ n := by omega
  simp only [List.contains_eq_mem, decide_eq_false_iff_not] at hop
  simp [ccRun, hn', hmode, hpend, hinsn, hop]

/- The register file of a control core (R264). -/

theorem ControlCore.get_put (c : ControlCore) (d m : Nat) (v : W64) : (c.put d v).get m = if m = d ∧ m ≠ 0 then v else c.get m := by
  by_cases hd : d = 0
  · have hm : ¬ (m = d ∧ m ≠ 0) := by omega
    simp [ControlCore.put, hd]
  · by_cases hm : m = 0
    · simp [ControlCore.get, hm]
    · simp [ControlCore.put, ControlCore.get, hd, hm, sget_sset]

/-- Settles O2. -/
theorem coreRegisterZero : Obligations.CoreRegisterZero := by
  unfold Obligations.CoreRegisterZero
  intro c d m v
  refine ⟨by simp [ControlCore.get], by simp [ControlCore.put], fun hd => ?_, fun hm => ?_⟩
  · rw [ControlCore.get_put, if_pos ⟨rfl, hd⟩]
  · rw [ControlCore.get_put, if_neg (fun h => hm h.1)]

/-- Writing sD and passing on is what the statements call `ccWrote`. -/
theorem ControlCore.put_adv (c : ControlCore) (d : Nat) (v : W64) : (c.put d v).adv = ccWrote d v c := by
  unfold ControlCore.put ControlCore.adv ccWrote
  split <;> rfl

theorem State.onCC_eq_ccUpd (s : State) (n : Nat) (f : ControlCore → ControlCore) : s.onCC n f = ccUpd s n f := rfl

/-- Only the control core as it stands matters to an update of it. -/
theorem ccUpd_congr {s : State} {n : Nat} {f g : ControlCore → ControlCore} (h : f (s.core n).cc = g (s.core n).cc) : ccUpd s n f = ccUpd s n g := by
  simp only [ccUpd, h]

/-- The later of two writes of one map entry stands. -/
theorem sset_sset {α : Type} (m : SMap α) (k : Nat) (u v : α) : sset (sset m k u) k v = sset m k v := by
  induction m with
  | nil => simp [sset]
  | cons p t ih =>
    simp only [sset]
    split
    · simp [sset]
    · split
      · simp [sset]
      · simp [sset, *]

theorem State.setCore_setCore (s : State) (n : Nat) (c c' : Core) : (s.setCore n c).setCore n c' = s.setCore n c' := by
  simp only [State.setCore, sset_sset]

theorem core_ccUpd_same (s : State) (n : Nat) (f : ControlCore → ControlCore) : ((ccUpd s n f).core n).cc = f (s.core n).cc := by
  simp [ccUpd]

theorem ccUpd_ccUpd (s : State) (n : Nat) (f g : ControlCore → ControlCore) : ccUpd (ccUpd s n f) n g = ccUpd s n fun c => g (f c) := by
  simp [ccUpd, State.setCore_setCore]

theorem State.onCC_put_adv (s : State) (n d : Nat) (v : ControlCore → W64) :
    (s.onCC n fun c => (c.put d (v c)).adv) = ccUpd s n (ccWrote d (v (s.core n).cc)) := by
  rw [State.onCC_eq_ccUpd]
  exact ccUpd_congr (ControlCore.put_adv ..)

/- Operations that write one register. -/

/-- LIH keeps the lower half and takes IMM as the upper (R265). -/
theorem setFld_upper_half (x : W64) (v : Nat) : setFld x 63 32 v = BitVec.ofNat 64 (v % 2 ^ 32 * 2 ^ 32 + x.toNat % 2 ^ 32) := by
  have hlow : x.toNat - x.toNat / 2 ^ 32 % 2 ^ 32 * 2 ^ 32 + v % 2 ^ 32 * 2 ^ 32 = v % 2 ^ 32 * 2 ^ 32 + x.toNat % 2 ^ 32 := by
    have := x.isLt
    omega
  simp only [setFld, bits, Nat.shiftRight_eq_div_pow]
  exact congrArg _ hlow

/-- A word of the constant store by its byte address: inside 64 KiB where the address is. -/
theorem State.poolWord_byte (s : State) (n a : Nat) :
    s.poolWord n (a / 8) = if a < 2 ^ 16 then nth (s.core n).cc.pool 0 (a / 8) else Config.poolPast n (a / 8) := by
  unfold State.poolWord
  split <;> split <;> first | rfl | omega

section

variable {s : State} {n : Nat} {w : W64} (hat : CcAt s n w)
include hat

/-- An operation that writes sD and passes on. -/
theorem ccRun_ccSet {op : Nat} (hop : ccOp w = op) (hdef : ccDefined.contains op = true) (v : ControlCore → W64 → W64) :
    ccRun n op s (ccSet n v) = .next (ccUpd s n (ccWrote (ccSd w) (v (s.core n).cc w))) := by
  rw [ccRun_of_ccAt hat hop hdef]
  exact congrArg _ (s.onCC_put_adv n (ccSd w) (v · w))

theorem exec_ldc_of_aligned (hop : ccOp w = 0x10) (ha : ((s.core n).cc.get (ccSa w) + ccImm w).toNat % 8 = 0) :
    exec (.ldc n) s = .next (ccUpd s n (ccWrote (ccSd w) (s.poolWord n (((s.core n).cc.get (ccSa w) + ccImm w).toNat / 8)))) := by
  change execLdc n s = _
  rw [execLdc, ccRun_of_ccAt hat hop (by decide)]
  simp only [ha, ne_eq, not_true_eq_false, if_false]
  exact congrArg _ (s.onCC_put_adv n (ccSd w) fun _ => _)

theorem exec_gets_of_listed (hop : ccOp w = 0x11) (hsel : ccExt w ≤ 4) :
    exec (.gets n) s = .next (ccUpd s n (ccWrote (ccSd w) (
      if ccExt w = 0 then s.reg (rid .LOGLINE .module) else if ccExt w = 1 then w64 s.step.attempt
      else if ccExt w = 2 then w64 n else if ccExt w = 3 then w64 s.job.member else w64 (s.ctxOf n)))) := by
  have hlogline : w64 s.logline = s.reg (rid .LOGLINE .module) := by simp [w64, State.logline]
  change execGets n s = _
  rw [execGets, ccRun_of_ccAt hat hop (by decide)]
  generalize ccExt w = sel at hsel
  have hcases : sel = 0 ∨ sel = 1 ∨ sel = 2 ∨ sel = 3 ∨ sel = 4 := by omega
  obtain rfl | rfl | rfl | rfl | rfl := hcases
  · simp only [if_true]; rw [← hlogline]; exact congrArg _ (s.onCC_put_adv n (ccSd w) fun _ => _)
  all_goals exact congrArg _ (s.onCC_put_adv n (ccSd w) fun _ => _)

end

/-- Settles O1: eleven operations of registers and immediates are one shape, LIH reads its own half, and LDC and GETS add a condition. -/
theorem coreWritesRegister : Obligations.CoreWritesRegister := by
  unfold Obligations.CoreWritesRegister
  intro r hr s n w hat hop hcond
  simp only [coreWrites, List.mem_cons, List.not_mem_nil, or_false] at hr
  obtain rfl | rfl | rfl | rfl | rfl | rfl | rfl | rfl | rfl | rfl | rfl | rfl | rfl | rfl := hr
  case inr.inr.inr.inr.inr.inr.inr.inr.inr.inr.inr.inl =>
    change execLih n s = _
    refine (ccRun_ccSet hat hop (by decide) fun c w => setFld (c.get (ccSd w)) 63 32 (fld w 31 0)).trans ?_
    have himm : fld w 31 0 % 2 ^ 32 = w.toNat % 2 ^ 32 := Nat.mod_mod ..
    rw [setFld_upper_half, himm]
  case inr.inr.inr.inr.inr.inr.inr.inr.inr.inr.inr.inr.inl =>
    refine (exec_ldc_of_aligned hat hop hcond).trans ?_
    rw [State.poolWord_byte]
  case inr.inr.inr.inr.inr.inr.inr.inr.inr.inr.inr.inr.inr => exact exec_gets_of_listed hat hop hcond
  all_goals exact ccRun_ccSet hat hop (by decide) _

/- Operations that pass on, wait or branch. -/

section

variable {s : State} {n : Nat} {w : W64} (hat : CcAt s n w)
include hat

theorem exec_ccNop_eq (hop : ccOp w = 0x00) : exec (.ccNop n) s = .next (ccUpd s n (ccJump ((s.core n).cc.pc + 1))) := by
  change execCcNop n s = _
  rw [execCcNop, ccRun_of_ccAt hat hop (by decide)]
  rfl

theorem exec_fence_eq (hop : ccOp w = 0x21) :
    exec (.fence n) s = .next (if (s.core n).cc.inFlight.any (fun o => nbit (ccExt w) o.unit) then waitsAt s n 2
      else ccUpd s n (ccJump ((s.core n).cc.pc + 1))) := by
  change execFence n s = _
  rw [execFence, ccRun_of_ccAt hat hop (by decide)]
  rfl

theorem exec_remoteTie_eq (tie : Bool) (hop : ccOp w = if tie then 0x2D else 0x2E) :
    exec (if tie then .rtie n else .runtie n) s = .next (ccRemote n tie w s) := by
  cases tie
  · exact ccRun_of_ccAt hat hop (by decide) _
  · exact ccRun_of_ccAt hat hop (by decide) _

end

/-- RTIE and RUNTIE on a valid endpoint wait behind sixteen held operations, and else are held themselves (R292, R293). -/
theorem ccRemote_of_valid {s : State} {n : Nat} {w e : W64} (tie : Bool) (he : (s.knot (coreDie n)).endpoints[ccExt w]? = some e)
    (hvalid : bit e 33 = true) :
    ccRemote n tie w s = if 16 ≤ (s.core n).held.length then waitsAt s n 3 else
      ccUpd (s.setCore n { s.core n with held := (s.core n).held ++
        [{ endpoint := e, tie := tie, knot := ((s.core n).cc.get (ccSa w) + ccImm w).toNat % 4096
           fence := (s.core n).cc.inFlight.map (·.tag) }] }) n (ccJump ((s.core n).cc.pc + 1)) := by
  simp only [ccRemote, he, hvalid, Bool.not_true, Bool.false_eq_true, if_false]
  split
  · rfl
  · rw [State.onCC_eq_ccUpd]
    exact ccUpd_congr (by rw [State.core_onCore_same]; rfl)

/-- Settles O3. -/
theorem corePasses : Obligations.CorePasses := by
  unfold Obligations.CorePasses
  intro s n w hat
  refine ⟨exec_ccNop_eq hat, fun hop hclear => ?pass, fun hop hbusy => ?wait, fun tie e hop he hvalid => ⟨fun hfull => ?_, fun hroom => ?_⟩⟩
  case pass =>
    have hany : (s.core n).cc.inFlight.any (fun o => nbit (ccExt w) o.unit) = false := by simpa using hclear
    rw [exec_fence_eq hat hop, hany, if_neg (by decide)]
  case wait =>
    have hany : (s.core n).cc.inFlight.any (fun o => nbit (ccExt w) o.unit) = true := by simpa using hbusy
    rw [exec_fence_eq hat hop, if_pos hany]
  · rw [exec_remoteTie_eq hat tie hop, ccRemote_of_valid tie he hvalid, if_pos hfull]
  · rw [exec_remoteTie_eq hat tie hop, ccRemote_of_valid tie he hvalid, if_neg (by omega)]

/-- A branch goes to the next instruction, to its target, or stops the core where the target is beyond the stream. -/
theorem ccBranch_eq (s : State) (n : Nat) (taken : Bool) (w : W64) :
    ccBranch n taken w s = if taken = false then ccUpd s n (ccJump ((s.core n).cc.pc + 1))
      else if (s.core n).cc.stream.length ≤ w.toNat % 2 ^ 32 then s.ccIllegal n 2 else ccUpd s n (ccJump (w.toNat % 2 ^ 32)) := by
  cases taken <;> rfl

/-- The four branches run `ccBranch` on their comparison. -/
theorem exec_branch_eq {r : (Nat → Instr) × Nat × (W64 → W64 → Bool)} (hr : r ∈ coreBranches) {s : State} {n : Nat} {w : W64}
    (hat : CcAt s n w) (hop : ccOp w = r.2.1) :
    exec (r.1 n) s = .next (ccBranch n (r.2.2 ((s.core n).cc.get (ccSa w)) ((s.core n).cc.get (ccSb w))) w s) := by
  simp only [coreBranches, List.mem_cons, List.not_mem_nil, or_false] at hr
  obtain rfl | rfl | rfl | rfl := hr
  case inl => change execBeq n s = _; rw [execBeq, ccRun_of_ccAt hat hop (by decide)]
  case inr.inl => change execBne n s = _; rw [execBne, ccRun_of_ccAt hat hop (by decide)]
  case inr.inr.inl =>
    change execBlt n s = _
    rw [execBlt, ccRun_of_ccAt hat hop (by decide)]
    rfl
  case inr.inr.inr =>
    change execBltu n s = _
    rw [execBltu, ccRun_of_ccAt hat hop (by decide)]
    rfl

/-- LOOP on another register than s0: past its last pass it goes on, else it branches with sD one less, or stops with sD as it was (R265, R269). -/
theorem exec_ccLoop_eq {s : State} {n : Nat} {w : W64} (hat : CcAt s n w) (hop : ccOp w = 0x1C) (hsd : ccSd w ≠ 0) :
    exec (.ccLoop n) s = .next (
      if (s.core n).cc.get (ccSd w) = 1 then ccUpd s n (ccWrote (ccSd w) 0)
      else if (s.core n).cc.stream.length ≤ w.toNat % 2 ^ 32 then s.ccIllegal n 2
      else ccUpd s n fun c => ccJump (w.toNat % 2 ^ 32) (ccWrote (ccSd w) ((s.core n).cc.get (ccSd w) - 1) c)) := by
  change execCcLoop n s = _
  rw [execCcLoop, ccRun_of_ccAt hat hop (by decide)]
  have hput (v : W64) : (s.core n).cc.put (ccSd w) v = { (s.core n).cc with sregs := sset (s.core n).cc.sregs (ccSd w) v } := by
    simp [ControlCore.put, hsd]
  have hget : ((s.core n).cc.put (ccSd w) ((s.core n).cc.get (ccSd w) - 1)).get (ccSd w) = (s.core n).cc.get (ccSd w) - 1 := by
    rw [ControlCore.get_put, if_pos ⟨rfl, hsd⟩]
  have hzero : (s.core n).cc.get (ccSd w) - 1 = 0 ↔ (s.core n).cc.get (ccSd w) = 1 := by bv_omega
  have hlen : ccTarget w = w.toNat % 2 ^ 32 := rfl
  simp only [hget, ne_eq, hzero, hlen, ccBranch_eq, State.onCC_eq_ccUpd, ccUpd_ccUpd, core_ccUpd_same]
  by_cases hone : (s.core n).cc.get (ccSd w) = 1
  · rw [if_neg (fun h => h.1 hone), if_pos (by simp [hone]), if_pos hone, hone]
    exact congrArg _ (ccUpd_congr (by simp [hput, ccJump, ccWrote, hsd]))
  · rw [if_neg hone]
    by_cases hpast : (s.core n).cc.stream.length ≤ w.toNat % 2 ^ 32
    · rw [if_pos ⟨hone, hpast⟩, if_pos hpast]
    · rw [if_neg (fun h => hpast h.2), if_neg (by simpa using hone), if_neg (by simpa [hput] using hpast), if_neg hpast]
      exact congrArg _ (ccUpd_congr (by simp [hput, ccJump, ccWrote, hsd]))

/-- Settles O4. -/
theorem coreBranches_holds : Obligations.CoreBranches := by
  unfold Obligations.CoreBranches
  refine ⟨fun r hr s n w hat hop => ⟨fun hnot => ?_, fun htaken htarget => ?_⟩, fun s n w hat hop hsd => ⟨fun hone => ?_, fun hmore htarget => ?_⟩⟩
  · rw [exec_branch_eq hr hat hop, ccBranch_eq, if_pos hnot]
  · rw [exec_branch_eq hr hat hop, ccBranch_eq, if_neg (by simp [htaken]), if_neg (by omega)]
  · rw [exec_ccLoop_eq hat hop hsd, if_pos hone]
  · rw [exec_ccLoop_eq hat hop hsd, if_neg hmore, if_neg (by omega)]

/- ISSUE (R266, R267). -/

/-- The descriptor message of an ISSUE at core n's pc. -/
def issueMsg (s : State) (n u : Nat) (ws : List W64) : OpMsg :=
  let c := (s.core n).cc
  { words := ws, idx := c.pc, occ := sget c.occ 0 c.pc, tag := c.issues % 2 ^ 16, reissue := false
    bcast := if u = 1 then sampleBcast c ws else [] }

/-- The control core after an ISSUE to unit u. -/
def issuedCc (c : ControlCore) (d u : Nat) : ControlCore :=
  let tag := c.issues % 2 ^ 16
  ccWrote d (w64 tag) { c with
    issues := c.issues + 1, occ := sset c.occ c.pc (sget c.occ 0 c.pc + 1), inFlight := c.inFlight ++ [{ tag := tag, unit := u }]
    results := if u = 1 then (({ tag := tag, done := false, words := [] } : LaunchRes) :: c.results).take 16 else c.results }

/-- Core n's units with a message handed to unit u. -/
def delivered (u : Nat) (m : OpMsg) (k : Core) : Core :=
  if u = 0 then { k with plyInbox := k.plyInbox ++ [m] }
  else if u = 1 then { k with vec := { k.vec with inbox := k.vec.inbox ++ [m] } }
  else { k with dma := k.dma ++ [{ msg := m, walked := false, acks := 0, qops := 0 }] }

theorem exec_issue_eq {s : State} {n u : Nat} {w : W64} (hat : CcAt s n w) (hop : ccOp w = 0x20)
    (ha : ((s.core n).cc.get (ccSa w) + ccImm w).toNat % 64 = 0) {ws : List W64}
    (hws : s.issueWords n w ((s.core n).cc.get (ccSa w) + ccImm w).toNat = ws) (hu : unitOfKind (fld (nth ws 0 0) 3 0) = some u) :
    exec (.issue n) s = .next (if 128 ≤ (s.core n).cc.inFlight.length ∨ s.unitFull n ws = true then waitsAt s n 1
      else ((ccUpd s n fun c => issuedCc c (ccSd w) u).bump (coreR .CC_ISSUE_TOTAL n) 1).onCore n (delivered u (issueMsg s n u ws))) := by
  change execIssue n s = _
  rw [execIssue, ccRun_of_ccAt hat hop (by decide)]
  simp only [ha, hws, hu, ne_eq, not_true_eq_false, if_false, Bool.or_eq_true, decide_eq_true_eq, ControlCore.put_adv]
  rfl

@[simp] theorem delivered_cc (u : Nat) (m : OpMsg) (k : Core) : (delivered u m k).cc = k.cc := by
  unfold delivered
  split
  · rfl
  · split <;> rfl

theorem get_ccWrote (c : ControlCore) (d k : Nat) (v : W64) : (ccWrote d v c).get k = if k = d ∧ k ≠ 0 then v else c.get k :=
  (congrArg (ControlCore.get · k) (ControlCore.put_adv c d v)).symm.trans (c.get_put d k v)

/-- Settles O5: the message goes to the unit of its kind, and the control core counts it. -/
theorem coreIssues : Obligations.CoreIssues := by
  unfold Obligations.CoreIssues
  intro s n w hat hop c a ha ws0 ws1 ws u hu
  have hexec := exec_issue_eq hat hop ha (ws := ws) rfl hu
  refine ⟨fun hwait => by rw [hexec, if_pos hwait], fun hroom hfree => ?_⟩
  have hgo : ¬ (128 ≤ (s.core n).cc.inFlight.length ∨ s.unitFull n ws = true) := by
    rw [not_or, Nat.not_le, hfree]
    exact ⟨hroom, Bool.false_ne_true⟩
  rw [hexec, if_neg hgo]
  refine ⟨_, issueMsg s n u ws, rfl, rfl, rfl, rfl, ?_, ?_, fun k => ?_, ?_, ?_, ?_, fun k hk => ?_, ?_, ?_⟩
  · simp [core_ccUpd_same, issuedCc, ccWrote, c]
  · simp [core_ccUpd_same, issuedCc, ccWrote, c]
  · simp only [State.core_onCore_same, delivered_cc, State.bump_core, core_ccUpd_same, issuedCc, get_ccWrote]
    rfl
  · rintro rfl; simp [delivered, ccUpd]
  · rintro rfl; simp [delivered, ccUpd]
  · rintro rfl; simp [delivered, ccUpd]
  · simp [State.core_onCore, State.core_setCore, ccUpd, hk]
  · simp [ccUpd]
  · simp [ccUpd]

/- Stops (R269). -/

/-- R269: the core stands stopped at its instruction, CC_ILLEGAL is set and the step has a fault; both memories stay. -/
theorem ccIllegal_stops {i : Instr} {s : State} {n code : Nat} (h : exec i s = .next (s.ccIllegal n code)) : stopsIllegal i s n := by
  let u := (s.ccStop n).detail (coreR .CC_ERR_DETAIL n) (w64 ((s.core n).cc.pc % 2 ^ 14 + code * 2 ^ 32))
  have hraise (det : W64) := (raised_raise u (.core n) 21 (s.ctxOf n) det).body
  refine ⟨_, h, ?cc, State.bit_status_raiseWith u (p := .core n) (by simp [leafOf]) (by decide) .., State.raiseWith_fault_flag u (.core n) 21 .., ?hbm, ?scratch⟩
  case cc => exact (congrArg Core.cc ((hraise _).core n)).trans (by simp [u, State.ccStop])
  case hbm => exact (hraise _).hbm.trans (by simp [u, State.ccStop])
  case scratch => exact (hraise _).scratch.trans (by simp [u, State.ccStop])

/-- Every control-core command runs the instruction at the pc if its OP is the command's. -/
theorem exec_coreOps {r : (Nat → Instr) × Nat} (hr : r ∈ coreOps) (n : Nat) (s : State) : ∃ f, exec (r.1 n) s = ccRun n r.2 s f := by
  simp only [coreOps, List.mem_cons, List.not_mem_nil, or_false] at hr
  repeat' obtain rfl | hr := hr
  all_goals exact ⟨_, by unfold exec; rfl⟩

theorem stops_of_past_stream {s : State} {n : Nat} (hn : n < 384) (hmode : (s.core n).cc.mode = .running) (hpend : s.knotPending n = false)
    (hinsn : (s.core n).cc.stream[(s.core n).cc.pc]? = none) : ∀ r ∈ coreOps, stopsIllegal (r.1 n) s n := by
  intro r hr
  obtain ⟨f, hf⟩ := exec_coreOps hr n s
  exact ccIllegal_stops (hf.trans (ccRun_past_stream hn hmode hpend hinsn f))

section

variable {s : State} {n : Nat} {w : W64} (hat : CcAt s n w)
include hat

theorem stops_of_reserved (hop : ccDefined.contains (ccOp w) = false) : ∀ r ∈ coreOps, stopsIllegal (r.1 n) s n := by
  intro r hr
  obtain ⟨f, hf⟩ := exec_coreOps hr n s
  exact ccIllegal_stops (hf.trans (ccRun_reserved hat hop f))

theorem gets_stops (hop : ccOp w = 0x11) (hsel : 4 < ccExt w) : stopsIllegal (.gets n) s n := by
  refine ccIllegal_stops (code := 1) ?_
  change execGets n s = _
  rw [execGets, ccRun_of_ccAt hat hop (by decide)]
  split
  all_goals first | omega | rfl

theorem ldc_stops (hop : ccOp w = 0x10) (ha : ((s.core n).cc.get (ccSa w) + ccImm w).toNat % 8 ≠ 0) : stopsIllegal (.ldc n) s n := by
  refine ccIllegal_stops (code := 3) ?_
  change execLdc n s = _
  rw [execLdc, ccRun_of_ccAt hat hop (by decide)]
  exact congrArg _ (if_pos ha)

theorem issue_stops_misaligned (hop : ccOp w = 0x20) (ha : ((s.core n).cc.get (ccSa w) + ccImm w).toNat % 64 ≠ 0) :
    stopsIllegal (.issue n) s n := by
  refine ccIllegal_stops (code := 3) ?_
  change execIssue n s = _
  rw [execIssue, ccRun_of_ccAt hat hop (by decide)]
  exact congrArg _ (if_pos ha)

theorem issue_stops_kind (hop : ccOp w = 0x20)
    (hkind : unitOfKind (fld (nth (s.issueWords n w ((s.core n).cc.get (ccSa w) + ccImm w).toNat) 0 0) 3 0) = none) :
    stopsIllegal (.issue n) s n := by
  by_cases ha : ((s.core n).cc.get (ccSa w) + ccImm w).toNat % 64 = 0
  · refine ccIllegal_stops (code := 1) ?_
    change execIssue n s = _
    rw [execIssue, ccRun_of_ccAt hat hop (by decide)]
    simp only [ha, hkind, ne_eq, not_true_eq_false, if_false]
  · exact issue_stops_misaligned hat hop ha

theorem branch_stops {r : (Nat → Instr) × Nat × (W64 → W64 → Bool)} (hr : r ∈ coreBranches) (hop : ccOp w = r.2.1)
    (htaken : r.2.2 ((s.core n).cc.get (ccSa w)) ((s.core n).cc.get (ccSb w)) = true)
    (hpast : (s.core n).cc.stream.length ≤ w.toNat % 2 ^ 32) : stopsIllegal (r.1 n) s n := by
  refine ccIllegal_stops (code := 2) ?_
  rw [exec_branch_eq hr hat hop, ccBranch_eq, if_neg (by simp [htaken]), if_pos hpast]

theorem ccLoop_stops (hop : ccOp w = 0x1C) (hsd : ccSd w ≠ 0) (hmore : (s.core n).cc.get (ccSd w) ≠ 1)
    (hpast : (s.core n).cc.stream.length ≤ w.toNat % 2 ^ 32) : stopsIllegal (.ccLoop n) s n := by
  refine ccIllegal_stops (code := 2) ?_
  rw [exec_ccLoop_eq hat hop hsd, if_neg hmore, if_pos hpast]

end

/- STEPEND (R270). -/

/-- What entry into DRAINING keeps while it discards a core's held sums and keep entries: the control cores, the step's state and drain time, and both memories. -/
structure DrainKept (s t : State) : Prop where
  cc : ∀ n, (t.core n).cc = (s.core n).cc
  state : t.step.state = s.step.state
  drainAt : t.step.drainAt = s.step.drainAt
  hbm : t.hbm = s.hbm
  scratch : t.scratch = s.scratch

theorem DrainKept.refl (s : State) : DrainKept s s := ⟨fun _ => rfl, rfl, rfl, rfl, rfl⟩

theorem DrainKept.trans {s t u : State} (a : DrainKept s t) (b : DrainKept t u) : DrainKept s u :=
  ⟨fun n => (b.cc n).trans (a.cc n), b.state.trans a.state, b.drainAt.trans a.drainAt, b.hbm.trans a.hbm, b.scratch.trans a.scratch⟩

theorem drainKept_bump (s : State) (id : RegId) (k : Nat) : DrainKept s (s.bump id k) :=
  ⟨by simp, by simp, by simp, by simp, by simp⟩

theorem drainKept_detail (s : State) (id : RegId) (v : W64) : DrainKept s (s.detail id v) :=
  ⟨by simp, by simp, by simp, by simp, by simp⟩

theorem Raised.drainKept {p : Part} {b : Nat} {s t : State} (h : Raised p b s t) : DrainKept s t := by
  refine ⟨fun n => by rw [h.body.core], ?_, ?_, h.body.hbm, h.body.scratch⟩ <;>
    rcases h.step with e | e <;> rw [e]

theorem drainKept_markRejected (s : State) : DrainKept s s.markRejected := ⟨fun _ => rfl, rfl, rfl, rfl, rfl⟩

theorem drainKept_plyReject (s : State) (core p code word idx : Nat) : DrainKept s (s.plyReject core p code word idx) :=
  (((drainKept_bump ..).trans (drainKept_detail ..)).trans (raised_raise ..).drainKept).trans (drainKept_markRejected _)

/-- A change of a core outside its control core. -/
theorem drainKept_onCore (s : State) (k : Nat) (f : Core → Core) (h : ∀ c, (f c).cc = c.cc) : DrainKept s (s.onCore k f) :=
  ⟨fun n => by rw [State.core_onCore]; split <;> simp_all, rfl, rfl, rfl, rfl⟩

theorem drainKept_dropHeld (s : State) (core : Nat) : DrainKept s (s.dropHeld core) := by
  unfold State.dropHeld
  exact (foldl_rel DrainKept.refl DrainKept.trans _ (fun s _ => drainKept_plyReject s ..) _ s).trans (drainKept_onCore _ _ _ fun _ => rfl)

theorem drainKept_releaseUnguarded (s : State) (core : Nat) : DrainKept s (s.releaseUnguarded core) :=
  drainKept_onCore _ _ _ fun _ => rfl

/-- The step controller in DRAINING from now on. -/
def drainingNow (s : State) : State := { s with step := { s.step with state := .draining, drainAt := s.clock } }

/-- Entry into DRAINING sets the step's state and its time, and keeps the control cores and memories. -/
theorem State.drainKept_enterDraining (s : State) : DrainKept (drainingNow s) s.enterDraining :=
  foldl_rel DrainKept.refl DrainKept.trans _ (fun s n => (drainKept_dropHeld s n).trans (drainKept_releaseUnguarded _ n)) _ _

/-- The state in which core n has ended its stream. -/
def ccEnded (s : State) (n : Nat) : State := ccUpd s n fun c => { c with mode := .ended, waiting := 6 }

theorem exec_stepend_eq {s : State} {n : Nat} {w : W64} (hat : CcAt s n w) (hop : ccOp w = 0x01) :
    exec (.stepend n) s = .next (if s.step.state = .running ∧ (∀ k ∈ s.usedCores, k ≠ n → (s.core k).cc.mode = .ended)
      then (ccEnded s n).enterDraining else ccEnded s n) := by
  have hlast : ((ccEnded s n).usedCores.all fun k => ((ccEnded s n).core k).cc.mode = .ended) = true ↔
      ∀ k ∈ s.usedCores, k ≠ n → (s.core k).cc.mode = .ended := by
    have hused : (ccEnded s n).usedCores = s.usedCores := rfl
    have hmode (k : Nat) : ((ccEnded s n).core k).cc.mode = .ended ↔ (k ≠ n → (s.core k).cc.mode = .ended) := by
      by_cases hk : k = n <;> simp [ccEnded, ccUpd, State.core_setCore, hk]
    simp only [List.all_eq_true, hused, decide_eq_true_eq, hmode]
  change execStepend n s = _
  rw [execStepend, ccRun_of_ccAt hat hop (by decide)]
  exact congrArg _ (ite_congr (propext (and_congr Iff.rfl hlast)) (fun _ => rfl) fun _ => rfl)

/- VRES (R267). -/

section

variable {s : State} {n : Nat} {w : W64} (hat : CcAt s n w) (hop : ccOp w = 0x22)
include hat hop

theorem exec_vres_of_found {r : LaunchRes} (hfind : (s.core n).cc.results.find? (fun r => w64 r.tag = (s.core n).cc.get (ccSa w)) = some r) :
    exec (.vres n) s = .next (if r.done then ccUpd s n (ccWrote (ccSd w) (w64 (sget r.words 0 (bits (ccExt w) 2 0)).toNat))
      else waitsAt s n 4) := by
  change execVres n s = _
  rw [execVres, ccRun_of_ccAt hat hop (by decide)]
  simp only [hfind]
  split
  · exact congrArg _ (s.onCC_put_adv n (ccSd w) fun _ => _)
  · rfl

theorem exec_vres_of_unknown (hnone : ∀ r ∈ (s.core n).cc.results, w64 r.tag ≠ (s.core n).cc.get (ccSa w)) :
    ∃ t, exec (.vres n) s = .next t ∧ (t.core n).cc = ccWrote (ccSd w) 0 (s.core n).cc ∧
      bit (t.reg (rid .CORE_STATUS (.core n))) 12 = true ∧ t.hbm = s.hbm ∧ t.scratch = s.scratch := by
  have hfind : (s.core n).cc.results.find? (fun r => w64 r.tag = (s.core n).cc.get (ccSa w)) = none := by simpa using hnone
  change ∃ t, execVres n s = .next t ∧ _
  rw [execVres, ccRun_of_ccAt hat hop (by decide)]
  simp only [hfind, State.onCC_put_adv, State.raiseDetail]
  generalize hu : s.detail (coreR .CC_ERR_DETAIL n) _ = u
  have hbody := (raised_raise u (.core n) 12 (s.ctxOf n) (u.reg (coreR .CC_ERR_DETAIL n))).body
  refine ⟨_, rfl, ?_, State.bit_status_raiseWith u (p := .core n) (b := 12) (by simp [leafOf]) (by decide) .., ?_, ?_⟩
  · rw [core_ccUpd_same, hbody.core, ← hu, State.detail_core]
  · exact hbody.hbm.trans (by rw [← hu, State.detail_hbm])
  · exact hbody.scratch.trans (by rw [← hu, State.detail_scratch])

end

/-- Settles O6: every reason of R269 comes to `ccIllegal`; STEPEND and VRES follow their own cases. -/
theorem coreEndsAndStops : Obligations.CoreEndsAndStops := by
  unfold Obligations.CoreEndsAndStops
  refine ⟨fun s n hn hmode hpend => ⟨stops_of_past_stream hn hmode hpend, fun w hinsn => ?stops⟩, fun s n w hat => ⟨fun hop => ⟨fun hmore => ?_, fun hrun hlast => ?_⟩,
    fun hop r hfind => ⟨fun hdone => ?_, fun hdone => ?_⟩, exec_vres_of_unknown hat⟩⟩
  case stops =>
    have hat : CcAt s n w := ⟨hn, hmode, hpend, hinsn⟩
    exact ⟨stops_of_reserved hat, gets_stops hat, ldc_stops hat, issue_stops_misaligned hat, issue_stops_kind hat,
      fun hpast => ⟨fun r hr hop htaken => branch_stops hat hr hop htaken hpast, fun hop hsd hmore => ccLoop_stops hat hop hsd hmore hpast⟩⟩
  · rw [exec_stepend_eq hat hop, if_neg]
    · rfl
    · rintro ⟨hrun, hlast⟩
      rcases hmore with hmore | ⟨k, hk, hkn, hmode⟩
      · exact hmore hrun
      · exact hmode (hlast k hk hkn)
  · rw [exec_stepend_eq hat hop, if_pos ⟨hrun, hlast⟩]
    obtain ⟨hcc, hstate, hdrainAt, hhbm, hscratch⟩ := (ccEnded s n).drainKept_enterDraining
    exact ⟨_, rfl, hstate, hdrainAt, (hcc n).trans (core_ccUpd_same s n fun c => { c with mode := .ended, waiting := 6 }), hhbm, hscratch⟩
  · rw [exec_vres_of_found hat hop hfind, if_pos hdone]
  · rw [exec_vres_of_found hat hop hfind, hdone, if_neg (by decide)]

end Sys2Proof.Machine
end

section
/-! Knots (11 R284–R301): a core's operations at its die's store, and remote operations. -/

set_option Elab.async false -- elaborate in order: side threads each hold a stack of their own

namespace Sys2Proof.Machine

open Sys2Proof.Safety Sys2Proof.Claims

/- A core's knot operation. -/

theorem State.ccResume_eq_ccUpd (s : State) (n : Nat) : s.ccResume n = ccUpd s n (ccJump ((s.core n).cc.pc + 1)) := rfl

/-- The five knot operations run at the store of the core's die, on the knot that the instruction names. -/
theorem exec_coreKnot {s : State} {n : Nat} {w : W64} (hat : CcAt s n w) (lag : Nat) :
    (ccOp w = 0x28 → exec (.tie n false) s = .next (ccKnot n .tie false 0 w s)) ∧
    (ccOp w = 0x29 → exec (.untie n false) s = .next (ccKnot n .untie false 0 w s)) ∧
    (ccOp w = 0x2A → exec (.wait n false lag) s = .next (ccKnot n .wait false lag w s)) ∧
    (ccOp w = 0x2B → exec (.waitclr n false lag) s = .next (ccKnot n .waitclr false lag w s)) ∧
    (ccOp w = 0x2C → exec (.take n false) s = .next (ccKnot n .take false 0 w s)) := by
  refine ⟨fun hop => ?_, fun hop => ?_, fun hop => ?_, fun hop => ?_, fun hop => ?_⟩
  · change execTie n false s = _; rw [execTie, ccRun_of_ccAt hat hop (by decide)]
  · change execUntie n false s = _; rw [execUntie, ccRun_of_ccAt hat hop (by decide)]
  · change execWait n false lag s = _; rw [execWait, ccRun_of_ccAt hat hop (by decide)]
  · change execWaitclr n false lag s = _; rw [execWaitclr, ccRun_of_ccAt hat hop (by decide)]
  · change execTake n false s = _; rw [execTake, ccRun_of_ccAt hat hop (by decide)]

/-- The operation of each knot command, by its OP. -/
def knotOpOf (op : Nat) : KOp :=
  if op = 0x28 then .tie else if op = 0x29 then .untie else if op = 0x2A then .wait else if op = 0x2B then .waitclr else .take

/-- How many changes the command lets the station's view lack: only WAIT and WAITCLR look at the view. -/
def knotLagOf (op lag : Nat) : Nat := if op = 0x2A ∨ op = 0x2B then lag else 0

theorem exec_coreKnots {r : (Nat → Nat → Instr) × Nat × Bool × Bool × Option RegName} (hr : r ∈ coreKnots) {s : State} {n : Nat} {w : W64}
    (hat : CcAt s n w) (lag : Nat) (hop : ccOp w = r.2.1) :
    exec (r.1 n lag) s = .next (ccKnot n (knotOpOf r.2.1) false (knotLagOf r.2.1 lag) w s) := by
  obtain ⟨htie, huntie, hwait, hwaitclr, htake⟩ := exec_coreKnot hat lag
  simp only [coreKnots, List.mem_cons, List.not_mem_nil, or_false] at hr
  obtain rfl | rfl | rfl | rfl | rfl := hr
  · exact htie hop
  · exact huntie hop
  · exact hwait hop
  · exact hwaitclr hop
  · exact htake hop

/-- Core n of s after the store's answer to its knot operation, where t is the state with the store's part done: it passes on, waits, or stops for an error. -/
def storeAnswered (s t : State) (n : Nat) (w : W64) : KRes → State
  | .done => (t.ccResume n).flush (coreDie n)
  | .wait => t.onCC n fun c => { c with waiting := 3 }
  | .unmapped => (t.ccStop n).knotError (coreDie n) 2 3 (s.ctxOf n) n (knotOf s n w) (s.core n).cc.pc true
  | .access => (t.ccStop n).knotError (coreDie n) 1 2 (s.ctxOf n) n (knotOf s n w) (s.core n).cc.pc true

section

variable {s : State} {n lag : Nat} {op : KOp} {w : W64}

/-- A view that shows what is waited for lets the core pass, with the knots as they were (R290). -/
theorem ccKnot_of_viewDone (h : s.viewDone n (knotOf s n w) lag op = true) :
    ccKnot n op false lag w s = ccUpd s n (ccJump ((s.core n).cc.pc + 1)) := by
  simp only [ccKnot, State.cellCheck, Bool.false_eq_true, if_false]
  exact if_pos h

/-- Else the store answers. -/
theorem ccKnot_of_knotDo {t : State} {res : KRes} (h : s.viewDone n (knotOf s n w) lag op = false)
    (hdo : s.knotDo (coreDie n) (s.ctxOf n) (knotOf s n w) (.core n) op = (t, res)) : ccKnot n op false lag w s = storeAnswered s t n w res := by
  have hknot : ((s.core n).cc.get (ccSa w) + ccImm w).toNat % 4096 = knotOf s n w := rfl
  simp only [ccKnot, State.cellCheck, Bool.false_eq_true, if_false, hknot, h, hdo]
  cases res <;> rfl

/-- Operations that complete only at the store do not look at the view. -/
theorem State.viewDone_of_changes (h : op = .tie ∨ op = .untie ∨ op = .take) (k : Nat) : s.viewDone n k lag op = false := by
  rcases h with rfl | rfl | rfl <;> simp [State.viewDone]

theorem State.viewDone_of_unmapped (k : Nat) (h : kValid (s.knotEntry (coreDie n) (s.ctxOf n) k) = false) : s.viewDone n k lag op = false := by
  simp [State.viewDone, h]

/-- A view shows at least what the store holds. -/
theorem State.viewShows_of_isTied {d phys : Nat} {want : Bool} (h : s.isTied d phys = want) : s.viewShows d phys n lag want = true := by
  simp [State.viewShows, h]

/-- A view that lacks no change shows what the store holds. -/
theorem State.viewShows_zero {d phys : Nat} {want : Bool} (h : s.isTied d phys ≠ want) : s.viewShows d phys n 0 want = false := by
  simp [State.viewShows, h]

/-- A view that lacks another station's newest change of the knot shows the knot as it was before it (R290). -/
theorem State.viewShows_of_recent {d phys : Nat} {want : Bool} {c : KnotChange} {rest : List KnotChange} (hrecent : (s.knot d).recent = c :: rest)
    (hphys : c.phys = phys) (hyoung : s.clock < c.time + 4) (hother : c.core ≠ some n) (htied : c.tied ≠ want) :
    s.viewShows d phys n 1 want = true := by
  simp [State.viewShows, State.unseen, hrecent, hphys, hyoung, viewCycles, hother, htied]

end

/- What the store answers a core. -/

section

variable {s : State} {d c k n : Nat}

theorem State.knotDo_unmapped (src : KSrc) (op : KOp) (h : kValid (s.knotEntry d c k) = false) : s.knotDo d c k src op = (s, .unmapped) := by
  simp [State.knotDo, h]

theorem State.knotDo_core_access {op : KOp} (hvalid : kValid (s.knotEntry d c k) = true) (hpersist : kPersist (s.knotEntry d c k) = true)
    (hop : op = .tie ∨ op = .untie ∨ op = .take) : s.knotDo d c k (.core n) op = (s, .access) := by
  simp [State.knotDo, hvalid, hpersist, hop]

variable (hvalid : kValid (s.knotEntry d c k) = true) (hpersist : kPersist (s.knotEntry d c k) = false)
include hvalid hpersist

theorem State.knotDo_core_tie_of_clear (hclear : s.isTied d (kPhys (s.knotEntry d c k)) = false) :
    s.knotDo d c k (.core n) .tie = (((knotTied s d (kPhys (s.knotEntry d c k)) true (some n)).bump (knotR .TIE_TOTAL d) 1).settleAll d (kPhys (s.knotEntry d c k)), .done) := by
  simp [State.knotDo, hvalid, hpersist, hclear, State.putKnot_eq_knotTied, KSrc.station]

theorem State.knotDo_core_untie_of_tied (htied : s.isTied d (kPhys (s.knotEntry d c k)) = true) :
    s.knotDo d c k (.core n) .untie = ((knotTied s d (kPhys (s.knotEntry d c k)) false (some n)).settleAll d (kPhys (s.knotEntry d c k)), .done) := by
  simp [State.knotDo, hvalid, hpersist, htied, State.putKnot_eq_knotTied, KSrc.station]

theorem State.knotDo_core_take_of_tied (htied : s.isTied d (kPhys (s.knotEntry d c k)) = true) :
    s.knotDo d c k (.core n) .take = (((knotTied s d (kPhys (s.knotEntry d c k)) false (some n)).bump (knotR .TAKE_TOTAL d) 1).settleAll d (kPhys (s.knotEntry d c k)), .done) := by
  simp [State.knotDo, hvalid, hpersist, htied, State.putKnot_eq_knotTied, KSrc.station]

end

/-- Nothing pends at a store and nothing stands behind, after the core passes on as before. -/
theorem flush_ccResume_settleAll {s : State} {d : Nat} (hpend : (s.knot d).pend = []) (hbehind : (s.knot d).behind = []) (phys n : Nat) :
    ((s.settleAll d phys).ccResume n).flush d = ccUpd s n (ccJump ((s.core n).cc.pc + 1)) := by
  rw [State.settleAll_of_noPend hpend, State.flush_of_noBehind (by simpa [State.ccResume] using hbehind), State.ccResume_eq_ccUpd]

section

variable {s : State} {n : Nat} {w : W64}

/-- TIE, UNTIE and TAKE on a knot in the state that they change, with nothing else pending at the store. -/
theorem ccKnot_changes (hpend : (s.knot (coreDie n)).pend = []) (hbehind : (s.knot (coreDie n)).behind = [])
    (hvalid : kValid (s.knotEntry (coreDie n) (s.ctxOf n) (knotOf s n w)) = true)
    (hpersist : kPersist (s.knotEntry (coreDie n) (s.ctxOf n) (knotOf s n w)) = false) (lag : Nat) :
    let d := coreDie n
    let ph := kPhys (s.knotEntry d (s.ctxOf n) (knotOf s n w))
    (s.isTied d ph = false → ccKnot n .tie false lag w s =
      ccUpd ((knotTied s d ph true (some n)).bump (knotR .TIE_TOTAL d) 1) n (ccJump ((s.core n).cc.pc + 1))) ∧
    (s.isTied d ph = true → ccKnot n .untie false lag w s = ccUpd (knotTied s d ph false (some n)) n (ccJump ((s.core n).cc.pc + 1))) ∧
    (s.isTied d ph = true → ccKnot n .take false lag w s =
      ccUpd ((knotTied s d ph false (some n)).bump (knotR .TAKE_TOTAL d) 1) n (ccJump ((s.core n).cc.pc + 1))) := by
  intro d ph
  have hcore (tied : Bool) : (knotTied s d ph tied (some n)).core n = s.core n := rfl
  refine ⟨fun h => ?_, fun h => ?_, fun h => ?_⟩
  · rw [ccKnot_of_knotDo (s.viewDone_of_changes (by simp) _) (State.knotDo_core_tie_of_clear hvalid hpersist h), storeAnswered,
      flush_ccResume_settleAll (by simpa using hpend) (by simpa using hbehind), State.bump_core, hcore]
  · rw [ccKnot_of_knotDo (s.viewDone_of_changes (by simp) _) (State.knotDo_core_untie_of_tied hvalid hpersist h), storeAnswered,
      flush_ccResume_settleAll (by simpa using hpend) (by simpa using hbehind), hcore]
  · rw [ccKnot_of_knotDo (s.viewDone_of_changes (by simp) _) (State.knotDo_core_take_of_tied hvalid hpersist h), storeAnswered,
      flush_ccResume_settleAll (by simpa using hpend) (by simpa using hbehind), State.bump_core, hcore]

/-- WAIT and WAITCLR on a knot in the state that they wait for. -/
theorem ccKnot_wait_of_holds (hvalid : kValid (s.knotEntry (coreDie n) (s.ctxOf n) (knotOf s n w)) = true) (lag : Nat) {want : Bool}
    (hshows : s.viewShows (coreDie n) (kPhys (s.knotEntry (coreDie n) (s.ctxOf n) (knotOf s n w))) n lag want = true) :
    ccKnot n (if want then .wait else .waitclr) false lag w s = ccUpd s n (ccJump ((s.core n).cc.pc + 1)) := by
  apply ccKnot_of_viewDone
  cases want <;> simp [State.viewDone, hvalid, hshows]

end

/-- Settles O7: a change is the store's write with nothing to settle, and a wait that holds asks only the view. -/
theorem knotTakesEffect : Obligations.KnotTakesEffect := by
  unfold Obligations.KnotTakesEffect
  constructor
  · intro r hr s n lag w hat hop d e hpend hbehind hvalid hpersist htied
    rw [exec_coreKnots hr hat lag hop]
    have hchange := ccKnot_changes hpend hbehind hvalid (w := w)
    have hnot (h : r.2.2.1 ≠ r.2.2.2.1) : kPersist e = false := by
      rcases hp : kPersist e <;> simp_all
    simp only [coreKnots, List.mem_cons, List.not_mem_nil, or_false] at hr
    obtain rfl | rfl | rfl | rfl | rfl := hr
    · exact congrArg _ ((hchange (hnot (by decide)) _).1 htied)
    · exact congrArg _ ((hchange (hnot (by decide)) _).2.1 htied)
    · exact congrArg _ (ccKnot_wait_of_holds hvalid lag (want := true) (State.viewShows_of_isTied htied))
    · exact congrArg _ (ccKnot_wait_of_holds hvalid lag (want := false) (State.viewShows_of_isTied htied))
    · exact congrArg _ ((hchange (hnot (by decide)) _).2.2 htied)
  · intro tied s n w c rest hat hop d e hvalid hrecent hphys hyoung hother hctied
    obtain ⟨-, -, hwait, hwaitclr, -⟩ := exec_coreKnot hat 1
    have hshows := State.viewShows_of_recent hrecent hphys hyoung hother hctied
    cases tied
    · exact (hwaitclr hop).trans (congrArg _ (ccKnot_wait_of_holds hvalid 1 (want := false) hshows))
    · exact (hwait hop).trans (congrArg _ (ccKnot_wait_of_holds hvalid 1 (want := true) hshows))

/- Operations that wait, and errors (R287–R289, R301). -/

theorem exec_coreKnotWaits {r : (Nat → Instr) × Nat × KOp × Bool × Bool} (hr : r ∈ coreKnotWaits) {s : State} {n : Nat} {w : W64}
    (hat : CcAt s n w) (hop : ccOp w = r.2.1) : exec (r.1 n) s = .next (ccKnot n r.2.2.1 false 0 w s) := by
  obtain ⟨htie, huntie, hwait, hwaitclr, htake⟩ := exec_coreKnot hat 0
  simp only [coreKnotWaits, List.mem_cons, List.not_mem_nil, or_false] at hr
  obtain rfl | rfl | rfl | rfl | rfl := hr
  · exact htie hop
  · exact huntie hop
  · exact hwait hop
  · exact hwaitclr hop
  · exact htake hop

/-- An operation pending at a store: nothing else of the store's knots, of the cores or of the memories changes. -/
structure Pended (d : Nat) (p : KnotPend) (s t : State) : Prop where
  core : ∀ n, t.core n = s.core n
  tied : (t.knot d).tied = (s.knot d).tied
  pend : (t.knot d).pend = (s.knot d).pend ++ [p]
  hbm : t.hbm = s.hbm
  scratch : t.scratch = s.scratch

theorem pended_addPend (s : State) (d : Nat) (p : KnotPend) : Pended d p s (s.addPend d p) :=
  ⟨fun _ => rfl, by simp [State.addPend], by simp [State.addPend], rfl, rfl⟩

theorem Pended.bump {d : Nat} {p : KnotPend} {s t : State} (h : Pended d p s t) (id : RegId) (k : Nat) : Pended d p s (t.bump id k) :=
  ⟨by simpa using h.core, by simpa using h.tied, by simpa using h.pend, by simpa using h.hbm, by simpa using h.scratch⟩

/-- A core's operation that its store cannot complete stays pending there. -/
theorem State.knotDo_core_waits {r : (Nat → Instr) × Nat × KOp × Bool × Bool} (hr : r ∈ coreKnotWaits) {s : State} {d c k n : Nat}
    (hvalid : kValid (s.knotEntry d c k) = true) (hpersist : kPersist (s.knotEntry d c k) = true → r.2.2.1 = .wait ∨ r.2.2.1 = .waitclr)
    (hbarrier : r.2.2.2.2 = true → kBarrier (s.knotEntry d c k) = true) (htied : s.isTied d (kPhys (s.knotEntry d c k)) = r.2.2.2.1) :
    ∃ t, s.knotDo d c k (.core n) r.2.2.1 = (t, .wait) ∧
      Pended d { src := .core n, op := r.2.2.1, ctx := c, knot := k % 4096, phys := kPhys (s.knotEntry d c k) } s t := by
  have hpend := pended_addPend s d { src := .core n, op := r.2.2.1, ctx := c, knot := k % 4096, phys := kPhys (s.knotEntry d c k) }
  simp only [coreKnotWaits, List.mem_cons, List.not_mem_nil, or_false] at hr
  obtain rfl | rfl | rfl | rfl | rfl := hr
  · exact ⟨_, by simp_all [State.knotDo], hpend.bump (knotR .BARRIER_STALL_TOTAL d) 1⟩
  · exact ⟨_, by simp_all [State.knotDo], hpend.bump (knotR .BARRIER_STALL_TOTAL d) 1⟩
  · exact ⟨_, by simp_all [State.knotDo], hpend⟩
  · exact ⟨_, by simp_all [State.knotDo], hpend⟩
  · exact ⟨_, by simp_all [State.knotDo], hpend⟩

/-- The view lacks no change of what it waits for, and the store does not hold it. -/
theorem State.viewDone_of_waits {r : (Nat → Instr) × Nat × KOp × Bool × Bool} (hr : r ∈ coreKnotWaits) {s : State} {n k : Nat}
    (htied : s.isTied (coreDie n) (kPhys (s.knotEntry (coreDie n) (s.ctxOf n) k)) = r.2.2.2.1) : s.viewDone n k 0 r.2.2.1 = false := by
  simp only [coreKnotWaits, List.mem_cons, List.not_mem_nil, or_false] at hr
  obtain rfl | rfl | rfl | rfl | rfl := hr
  · exact State.viewDone_of_changes (.inl rfl) k
  · exact State.viewDone_of_changes (.inr (.inl rfl)) k
  · simp [State.viewDone, State.viewShows_zero (n := n) (s := s) (want := true) (fun h => Bool.noConfusion (htied.symm.trans h))]
  · simp [State.viewDone, State.viewShows_zero (n := n) (s := s) (want := false) (fun h => Bool.noConfusion (htied.symm.trans h))]
  · exact State.viewDone_of_changes (.inr (.inr rfl)) k

theorem State.knot_of_knots_eq {s t : State} (h : t.knots = s.knots) (d : Nat) : t.knot d = s.knot d := by
  simp only [State.knot, h]

/-- A knot error that is a fault: the knots stay, its cause is set at the store and the step has a fault. -/
theorem State.knotError_fault (s : State) (d : Nat) {b : Nat} (hb : b < 64) (code ctx core knot idx : Nat) :
    let t := s.knotError d b code ctx core knot idx true
    t.knots = s.knots ∧ (∀ n, t.core n = s.core n) ∧ t.step.fault = true ∧ bit (t.reg (rid .KNOTST_STATUS (.knotStore d))) b = true := by
  have hbody (det det' : W64) := (raised_raiseWith (s.detail (knotR .KNOT_ERR_DETAIL d) det) (.knotStore d) b ctx det' true).body
  exact ⟨(hbody _ _).knots.trans (State.detail_knots ..), fun n => ((hbody _ _).core n).trans (State.detail_core ..),
    State.raiseWith_fault_flag .., State.bit_status_raiseWith _ (p := .knotStore d) (by simp [leafOf]) hb ..⟩

/-- What the statements say of a core that a knot error has stopped. -/
theorem knotError_ccStop (s : State) (n d : Nat) {b : Nat} (hb : b < 64) (code ctx core knot idx : Nat) :
    let t := (s.ccStop n).knotError d b code ctx core knot idx true
    (t.core n).cc = { (s.core n).cc with mode := .stopped, waiting := 5 } ∧ t.knots = s.knots ∧ t.step.fault = true ∧
      bit (t.reg (rid .KNOTST_STATUS (.knotStore d))) b = true := by
  obtain ⟨hknots, hcore, hfault, hbit⟩ := State.knotError_fault (s.ccStop n) d hb code ctx core knot idx
  exact ⟨by rw [hcore]; simp [State.ccStop], hknots, hfault, hbit⟩

/-- Settles O8. -/
theorem knotWaitsOrStops : Obligations.KnotWaitsOrStops := by
  unfold Obligations.KnotWaitsOrStops
  constructor
  · intro r hr s n w hat hop d e hvalid hpersist hbarrier htied
    obtain ⟨t, hdo, hcore, htied', hpend, hhbm, hscratch⟩ := State.knotDo_core_waits hr (n := n) hvalid hpersist hbarrier htied
    have hmod : knotOf s n w % 4096 = knotOf s n w := Nat.mod_mod ..
    rw [exec_coreKnotWaits hr hat hop, ccKnot_of_knotDo (State.viewDone_of_waits hr htied) hdo]
    refine ⟨_, rfl, ?_, htied', ?_, hhbm, hscratch⟩
    · simp [storeAnswered, hcore]
    · rw [← hmod]; exact hpend
  · intro r hr s n lag w hat hop d e hbad
    rw [exec_coreKnots hr hat lag hop]
    cases hvalid : kValid e
    · rw [ccKnot_of_knotDo (State.viewDone_of_unmapped _ hvalid) (State.knotDo_unmapped _ _ hvalid)]
      exact ⟨_, rfl, knotError_ccStop s n d (by decide) ..⟩
    · have hchange : knotOpOf r.2.1 = .tie ∨ knotOpOf r.2.1 = .untie ∨ knotOpOf r.2.1 = .take := by
        rcases hbad with h | ⟨-, h | h | h⟩
        · exact absurd h (by simp [hvalid])
        all_goals simp [h, knotOpOf]
      have hpersist : kPersist e = true := by simpa [hvalid] using fun h => (hbad.resolve_left h).1
      rw [ccKnot_of_knotDo (State.viewDone_of_changes hchange _) (State.knotDo_core_access hvalid hpersist hchange)]
      exact ⟨_, rfl, knotError_ccStop s n d (by decide) ..⟩

/- What sending keeps (13 R343–R349): a relation that link updates and flits keep is kept by a whole message. -/

/-- A relation between states that the steps of sending keep. -/
structure SendClosed (R : State → State → Prop) : Prop where
  refl : ∀ s, R s s
  trans : ∀ {s t u}, R s t → R t u → R s u
  setLink : ∀ s h l, R s (State.setLink s h l)
  wireFlit : ∀ s h head data, R s (State.wireFlit s h head data).1

section

variable {R : State → State → Prop} (hR : SendClosed R)
include hR

theorem SendClosed.sendControl (s : State) (h : Nat) (nak : Bool) (a b : Nat) : R s (s.sendControl h nak a b) := by
  unfold State.sendControl
  split
  · exact hR.wireFlit ..
  · exact hR.refl s

theorem SendClosed.giveCredits (s : State) (h vc n : Nat) : R s (s.giveCredits h vc n) := by
  unfold State.giveCredits
  split
  · exact hR.setLink ..
  · extract_lets t
    have ht : R s t := by
      simp only [t]
      split
      · exact hR.sendControl ..
      · exact hR.refl s
    split
    · exact hR.trans ht (hR.sendControl ..)
    · exact ht

theorem SendClosed.sendData (s : State) (h vc : Nat) : R s (s.sendData h vc) := by
  unfold State.sendData
  extract_lets
  split
  · exact hR.refl s
  · extract_lets
    have hsent {t u : State} {l l' : LinkSt} {head : Nat} {data : List Byte} (hu : u = ((t.setLink h l).wireFlit h head data).1.setLink h l') :
        R t u := hu ▸ hR.trans (hR.trans (hR.setLink ..) (hR.wireFlit ..)) (hR.setLink ..)
    split
    · exact hR.trans (hsent rfl) (hR.giveCredits ..)
    · exact hsent rfl

theorem SendClosed.pumpGo (n : Nat) (s : State) (h : Nat) : R s (State.pumpGo n s h) := by
  induction n generalizing s with
  | zero => exact hR.refl s
  | succ n ih =>
    unfold State.pumpGo
    extract_lets
    split
    · exact hR.refl s
    · split
      · exact hR.refl s
      · exact hR.trans (hR.sendData ..) (ih _)

theorem SendClosed.sendBodies (s : State) (set : Nat) (dest : Option Nat) (vc ctx : Nat) (bodies : List (List Byte)) :
    R s (s.sendBodies set dest vc ctx bodies) := by
  unfold State.sendBodies
  refine foldl_rel hR.refl hR.trans _ (fun s e => ?_) _ s
  dsimp only
  split
  · exact hR.refl s
  · exact foldl_rel hR.refl hR.trans _ (fun s b => hR.trans (hR.setLink ..) (hR.pumpGo ..)) _ s

/-- A message sent is noted, and then goes as its way says. -/
theorem SendClosed.send (s : State) (m : OutMsg) : R { s with out := s.out ++ [m] } (s.send m) := by
  unfold State.send
  extract_lets
  split
  · exact hR.refl _
  · exact hR.sendBodies ..

end

/-- What has left the module stays on record. -/
theorem sendClosed_out : SendClosed fun s t => s.out ⊆ t.out where
  refl _ := List.Subset.refl _
  trans := List.Subset.trans
  setLink _ _ _ := List.Subset.refl _
  wireFlit s h head data := by simp [State.wireFlit]

/-- A message sent has left the module. -/
theorem State.mem_out_send (s : State) (m : OutMsg) : m ∈ (s.send m).out :=
  sendClosed_out.send s m (by simp)

/- STATUS bits, once set, stay set while causes are raised. -/

theorem bit_or_left {x : W64} {b : Nat} (h : bit x b = true) (y : W64) : bit (x ||| y) b = true := by
  have hbit (v : W64) : bit v b = v.toNat.testBit b := by
    simp [bit, fld, bits, Nat.testBit_eq_decide_div_mod_eq, Nat.shiftRight_eq_div_pow]
  rw [hbit] at h ⊢
  simp [h]

/-- Every STATUS bit of register i that s has, t has. -/
structure BitsStay (i : RegId) (s t : State) : Prop where
  bit : ∀ b, bit (s.reg i) b = true → bit (t.reg i) b = true

theorem BitsStay.refl (i : RegId) (s : State) : BitsStay i s s := ⟨fun _ h => h⟩

theorem BitsStay.trans {i : RegId} {s t u : State} (a : BitsStay i s t) (b : BitsStay i t u) : BitsStay i s u := ⟨fun k h => b.bit k (a.bit k h)⟩

theorem BitsStay.of_reg_eq {i : RegId} {s t : State} (h : t.reg i = s.reg i) : BitsStay i s t := ⟨fun _ hb => h ▸ hb⟩

/-- The step controller is no register. -/
theorem bitsStay_step (i : RegId) (s : State) (c : StepCtl) : BitsStay i s { s with step := c } := .of_reg_eq rfl

/-- A STATUS register's identity. -/
def statusOf (p : Part) : RegId := rid (leafOf p).status p

theorem leaf_count_ne_status (l l' : Leaf) : l.count ≠ l'.status := by cases l <;> cases l' <;> decide

theorem bitsStay_setCause (s : State) (p q : Part) (b : Nat) : BitsStay (statusOf q) s (s.setCause p b) := by
  refine ⟨fun k hk => ?_⟩
  have hcount : statusOf q ≠ rid (leafOf p).count p b := fun e => leaf_count_ne_status _ _ (congrArg RegId.name e).symm
  by_cases he : statusOf q = statusOf p
  · simp only [State.setCause]
    rw [State.reg_bump_ne _ _ _ _ hcount, he]
    rw [he] at hk
    simpa [statusOf] using bit_or_left hk _
  · rwa [State.reg_setCause_ne _ _ _ _ he hcount]

/-- Every other register than STATUS registers may be written. -/
theorem bitsStay_setReg (s : State) (q : Part) (i : RegId) (v : W64) (h : ∀ l : Leaf, i.name ≠ l.status) : BitsStay (statusOf q) s (s.setReg i v) :=
  .of_reg_eq (State.reg_setReg_ne _ _ _ _ fun e => h _ (congrArg RegId.name e).symm)

theorem bitsStay_bump (s : State) (q : Part) (i : RegId) (k : Nat) (h : ∀ l : Leaf, i.name ≠ l.status) : BitsStay (statusOf q) s (s.bump i k) :=
  .of_reg_eq (State.reg_bump_ne _ _ _ _ fun e => h _ (congrArg RegId.name e).symm)

theorem status_name_ne {n : RegName} (h : n ∈ [RegName.CHAFE, .CHAFE_HEAD, .CHAFE_OVF_TOTAL, .FLIT_TX_TOTAL, .ALERT_STATUS, .KNOT_ERR_DETAIL]) (l : Leaf) :
    n ≠ l.status := by
  rintro rfl
  cases l <;> revert h <;> decide

theorem bitsStay_chafe (s : State) (q : Part) (d : Nat) (ws : List W64) : BitsStay (statusOf q) s (s.chafe d ws) := by
  have hset (s : State) (n : RegName) (h : n ∈ [RegName.CHAFE, .CHAFE_HEAD]) (p : Part) (i : Nat) (v : W64) :
      BitsStay (statusOf q) s (s.setReg (rid n p i) v) :=
    bitsStay_setReg s q _ v (status_name_ne (by revert h; simp [rid]; rintro (rfl | rfl) <;> simp))
  unfold State.chafe
  extract_lets hid s' i s1 s2
  split
  · have h1 : BitsStay (statusOf q) s s' := bitsStay_bump _ _ _ _ (status_name_ne (by simp [rid]))
    split
    · exact h1
    · exact (h1.trans (hset _ .CHAFE_HEAD (by simp) ..)).trans (bitsStay_setCause ..)
  · have h1 : BitsStay (statusOf q) s s1 := foldl_rel (BitsStay.refl _) BitsStay.trans _ (fun s a => hset s .CHAFE (by simp) ..) _ s
    have h2 : BitsStay (statusOf q) s s2 := h1.trans (hset _ .CHAFE_HEAD (by simp) ..)
    split
    · exact h2.trans (hset _ .CHAFE_HEAD (by simp) ..)
    · exact h2

theorem bitsStay_send (s : State) (q : Part) (m : OutMsg) : BitsStay (statusOf q) s (s.send m) :=
  .of_reg_eq ((sent_send s m).reg _ fun e => status_name_ne (by simp) (leafOf q) e.symm)

theorem bitsStay_fault (s : State) (q : Part) (d : Nat) (ws : List W64) : BitsStay (statusOf q) s (s.fault d ws) := by
  unfold State.fault
  exact ((bitsStay_chafe s q d ws).trans (bitsStay_step _ _ _)).trans (bitsStay_send _ q _)

/-- What follows the setting of a cause: its log entry, and the handling of a fault. -/
theorem bitsStay_raiseWith_setCause (s : State) (p q : Part) (b ctx : Nat) (det : W64) (f : Bool) :
    BitsStay (statusOf q) (s.setCause p b) (s.raiseWith p b ctx det f) := by
  unfold State.raiseWith
  extract_lets t g src ws
  split
  · exact bitsStay_fault ..
  · clear_value ws g
    cases g <;> first | exact bitsStay_chafe .. | exact .refl ..

theorem bitsStay_raiseWith (s : State) (p q : Part) (b ctx : Nat) (det : W64) (f : Bool) : BitsStay (statusOf q) s (s.raiseWith p b ctx det f) :=
  (bitsStay_setCause s p q b).trans (bitsStay_raiseWith_setCause ..)

theorem bitsStay_raise (s : State) (p q : Part) (b ctx : Nat) (det : W64) : BitsStay (statusOf q) s (s.raise p b ctx det) :=
  bitsStay_raiseWith ..

theorem State.bit_status_setCause (s : State) (p : Part) {b : Nat} (hb : b < 64) : bit ((s.setCause p b).reg (statusOf p)) b = true := by
  have hcount : statusOf p ≠ rid (leafOf p).count p b := fun e => leaf_count_ne_status _ _ (congrArg RegId.name e).symm
  simp only [State.setCause]
  rw [State.reg_bump_ne _ _ _ _ hcount]
  simpa [statusOf] using bit_or_pow _ b hb

/-- A raised cause reads 1 in its STATUS, at every part (15 R384). -/
theorem State.bit_status_raised (s : State) (p : Part) {b : Nat} (hb : b < 64) (ctx : Nat) (det : W64) (f : Bool) :
    bit ((s.raiseWith p b ctx det f).reg (statusOf p)) b = true :=
  (bitsStay_raiseWith_setCause s p p b ctx det f).bit b (s.bit_status_setCause p hb)

theorem State.bit_status_raiseFor (s : State) (p : Part) {b : Nat} (hb : b < 64) (ctxs : List Nat) :
    bit ((s.raiseFor p b ctxs).reg (statusOf p)) b = true := by
  unfold State.raiseFor
  split
  · exact s.bit_status_raised p hb ..
  · exact (foldl_rel (BitsStay.refl _) BitsStay.trans _ (fun s _ => bitsStay_fault s p ..) _ _).bit b (s.bit_status_raised p hb ..)

theorem bitsStay_override (s : State) (q : Part) : BitsStay (statusOf q) s s.override := by
  unfold State.override State.tnrNow State.timingNr
  split
  · extract_lets
    exact (bitsStay_step _ _ _).trans (foldl_rel (BitsStay.refl _) BitsStay.trans _ (fun s _ => bitsStay_raise s .module q ..) _ _)
  · exact .refl ..

theorem bitsStay_markCell (s : State) (q : Part) (d phys : Nat) : BitsStay (statusOf q) s (s.markCell d phys) := by
  unfold State.markCell
  split
  · exact .refl ..
  · split
    · exact (bitsStay_raise s _ q ..).trans (bitsStay_setReg _ _ _ _ (status_name_ne (by simp [modR, rid])))
    · exact .of_reg_eq rfl

/- Remote operations (R293, R294). -/

theorem exec_remoteKnotOp_eq {d : Nat} (hd : d < 2) (s : State) (o : RemoteOp) (err : Bool) :
    exec (.remoteKnotOp d o err) s = .next ((s.cellCheck err d o.ctx o.knot).remoteMsg d o) := by
  change execRemoteKnotOp d o err s = _
  rw [execRemoteKnotOp, if_pos hd]

/-- A parity error marks the cell and sets KNOT_CELL_ERR, whatever the marking and the safety action add (16 R414). -/
theorem State.bit_status_cellError (s : State) (d c k : Nat) (h : kValid (s.knotEntry d c k) = true) :
    bit ((s.cellError d c k).reg (dieR .DIECTL_STATUS d)) 7 = true := by
  rw [State.cellError, if_pos h]
  exact (bitsStay_override _ (.dieCtl d)).bit 7 ((bitsStay_markCell _ (.dieCtl d) d _).bit 7 (s.bit_status_raiseFor (.dieCtl d) (by decide) _))

section

variable {s : State} {d : Nat} {o : RemoteOp}

theorem State.remoteMsg_of_taken (hdoor : (s.knot d).door = []) {t : State} (harrive : s.remoteArrive d o = (t, true)) : s.remoteMsg d o = t := by
  simp [State.remoteMsg, hdoor, harrive]

theorem State.remoteMsg_of_full (hdoor : (s.knot d).door = []) {t : State} (harrive : s.remoteArrive d o = (t, false)) :
    s.remoteMsg d o = s.setKnot d { s.knot d with door := [o] } := by
  simp [State.remoteMsg, hdoor, harrive]

theorem State.remoteMsg_of_door (hdoor : (s.knot d).door ≠ []) : s.remoteMsg d o = s.setKnot d { s.knot d with door := (s.knot d).door ++ [o] } := by
  simp [State.remoteMsg, hdoor]

theorem State.entered_iff (s : State) : s.entered = true ↔ (s.step.state = .running ∨ s.step.state = .draining) ∧ s.step.aborting = false := by
  simp [State.entered]

theorem stepLt_iff (a b : Nat × Nat) : stepLt a b = true ↔ a.1 < b.1 ∨ a.1 = b.1 ∧ a.2 < b.2 := by
  simp [stepLt]

/-- The operation's context is not ACTIVE, or has another generation (15 R398). -/
def foreignTo (s : State) (o : RemoteOp) : Prop := (s.ctx o.ctx).state ≠ .active ∨ (s.ctx o.ctx).gen ≠ o.gen

/-- One more operation received at the die. -/
def received (s : State) (d : Nat) : State := s.bump (knotR .REMOTE_RECV_TOTAL d) 1

theorem State.remoteArrive_of_foreign (h : foreignTo s o) :
    s.remoteArrive d o = ((received s d).bump (knotR .REMOTE_STALE_TOTAL d) 1, true) := if_pos h

variable (hours : ¬ foreignTo s o)
include hours

theorem State.remoteArrive_of_past (hpast : stepLt (o.step, o.attempt) (s.logline, s.step.attempt) = true) :
    s.remoteArrive d o = (((received s d).bump (knotR .REMOTE_STALE_TOTAL d) 1).raise (.knotStore d) 3 o.ctx, true) :=
  (if_neg hours).trans (if_pos hpast)

variable (hnow : stepLt (o.step, o.attempt) (s.logline, s.step.attempt) = false)
include hnow

theorem State.remoteArrive_of_entered (hcur : (o.step, o.attempt) = (s.logline, s.step.attempt)) (hent : s.entered = true) :
    s.remoteArrive d o = (((received s d).remoteApply d o).flush d, true) :=
  (if_neg hours).trans ((if_neg (by simp [hnow])).trans (if_pos ⟨hcur, hent⟩))

variable (hlater : ¬ ((o.step, o.attempt) = (s.logline, s.step.attempt) ∧ s.entered = true))
include hlater

theorem State.remoteArrive_of_later :
    s.remoteArrive d o = if (s.knot d).queue.length < 256 then ((received s d).setKnot d { s.knot d with queue := (s.knot d).queue ++ [o] }, true)
      else (s, false) := by
  refine (if_neg hours).trans ((if_neg (by simp [hnow])).trans ((if_neg hlater).trans ?_))
  simp only [received, State.bump_knot]

end

/-- A later operation than the step entered is neither past nor to be applied. -/
theorem not_past_of_later {a b c e : Nat} {P : Prop} (h : a > c ∨ a = c ∧ (b > e ∨ b = e ∧ ¬ P)) :
    stepLt (a, b) (c, e) = false ∧ ¬ ((a, b) = (c, e) ∧ P) := by
  refine ⟨?_, ?_⟩
  · rw [← Bool.not_eq_true, stepLt_iff]
    simp only
    omega
  · rintro ⟨heq, hP⟩
    simp only [Prod.mk.injEq] at heq
    rcases h with h | ⟨-, h | ⟨-, h⟩⟩
    · omega
    · omega
    · exact h hP

/-- A remote tie of a clear valid knot at which nothing waits (R293). -/
theorem State.remoteApply_tie {s : State} {d : Nat} {o : RemoteOp} (hpend : (s.knot d).pend = []) (hbehind : (s.knot d).behind = [])
    (hvalid : kValid (s.knotEntry d o.ctx o.knot) = true) (hpersist : kPersist (s.knotEntry d o.ctx o.knot) = false)
    (hclear : s.isTied d (kPhys (s.knotEntry d o.ctx o.knot)) = false) (htie : o.tie = true) :
    s.remoteApply d o = (knotTied s d (kPhys (s.knotEntry d o.ctx o.knot)) true none).bump (knotR .TIE_TOTAL d) 1 := by
  have hdo : s.knotDo d o.ctx o.knot (.remote o) .tie =
      (((knotTied s d (kPhys (s.knotEntry d o.ctx o.knot)) true none).bump (knotR .TIE_TOTAL d) 1).settleAll d (kPhys (s.knotEntry d o.ctx o.knot)), .done) := by
    simp [State.knotDo, hvalid, hpersist, hclear, State.putKnot_eq_knotTied, KSrc.station]
  simp only [State.remoteApply, hpend, hbehind, htie, List.any_nil, Bool.or_self, Bool.false_eq_true, if_false, if_true, State.knotAct, hdo]
  exact State.settleAll_of_noPend (by simpa using hpend) _

/-- The clauses of a remote operation that arrives. -/
theorem remoteKnotOp_clauses (s : State) (d : Nat) (o : RemoteOp) (hd : d < 2) (hdoor : (s.knot d).door = []) (hours : ¬ foreignTo s o) :
    let cur := (s.logline, s.step.attempt)
    let recv := s.bump (knotR .REMOTE_RECV_TOTAL d) 1
    let entered := (s.step.state = .running ∨ s.step.state = .draining) ∧ s.step.aborting = false
    let later := o.step > cur.1 ∨ o.step = cur.1 ∧ (o.attempt > cur.2 ∨ o.attempt = cur.2 ∧ ¬ entered)
    ((o.step < cur.1 ∨ o.step = cur.1 ∧ o.attempt < cur.2) →
      ∃ t, exec (.remoteKnotOp d o false) s = .next t ∧ t.knots = s.knots ∧ bit (t.reg (rid .KNOTST_STATUS (.knotStore d))) 3 = true) ∧
    (later → (s.knot d).queue.length < 256 →
      exec (.remoteKnotOp d o false) s = .next (recv.setKnot d { s.knot d with queue := (s.knot d).queue ++ [o] })) ∧
    (later → 256 ≤ (s.knot d).queue.length → exec (.remoteKnotOp d o false) s = .next (s.setKnot d { s.knot d with door := [o] })) ∧
    ((o.step, o.attempt) = cur → entered → (s.knot d).pend = [] → (s.knot d).behind = [] →
      let e := s.knotEntry d o.ctx o.knot
      kValid e = true → kPersist e = false → s.isTied d (kPhys e) = false → o.tie = true →
      exec (.remoteKnotOp d o false) s = .next ((knotTied recv d (kPhys e) true none).bump (knotR .TIE_TOTAL d) 1)) := by
  intro cur recv entered later
  rw [exec_remoteKnotOp_eq hd]
  change (_ → ∃ t, Host.Outcome.next (s.remoteMsg d o) = .next t ∧ _) ∧ _
  refine ⟨fun hpast => ?_, fun hlater hroom => ?_, fun hlater hfull => ?_, ?_⟩
  · rw [State.remoteMsg_of_taken hdoor (State.remoteArrive_of_past hours ((stepLt_iff _ _).2 hpast))]
    refine ⟨_, rfl, ?_, State.bit_status_raised _ (.knotStore d) (by decide) ..⟩
    exact (raised_raise ..).body.knots.trans (by simp [received])
  · obtain ⟨hnow, hnot⟩ := not_past_of_later hlater
    have harrive := State.remoteArrive_of_later hours hnow (fun h => hnot ⟨h.1, s.entered_iff.1 h.2⟩) (d := d)
    rw [if_pos hroom] at harrive
    exact congrArg _ (State.remoteMsg_of_taken hdoor harrive)
  · obtain ⟨hnow, hnot⟩ := not_past_of_later hlater
    have harrive := State.remoteArrive_of_later hours hnow (fun h => hnot ⟨h.1, s.entered_iff.1 h.2⟩) (d := d)
    rw [if_neg (by omega)] at harrive
    exact congrArg _ (State.remoteMsg_of_full hdoor harrive)
  · intro hcur hent hpend hbehind e hvalid hpersist hclear htie
    have hnow : stepLt (o.step, o.attempt) cur = false := by rw [hcur]; simp [stepLt]
    refine congrArg _ ((State.remoteMsg_of_taken hdoor (State.remoteArrive_of_entered hours hnow hcur ((s.entered_iff).2 hent))).trans ?_)
    have hent' : (received s d).knotEntry d o.ctx o.knot = e := by simp [State.knotEntry, received, e]
    have happly := State.remoteApply_tie (s := received s d) (d := d) (o := o) (by simpa [received] using hpend) (by simpa [received] using hbehind)
      (by rw [hent']; exact hvalid) (by rw [hent']; exact hpersist) (by rw [hent']; simpa [State.isTied, received] using hclear) htie
    rw [happly, hent', State.flush_of_noBehind (by simpa [received] using hbehind)]
    rfl

/-- A held operation for another member goes out as a message, once nothing it waits for is in flight (R293). -/
theorem exec_remoteSend_other {s : State} {n : Nat} {h : HeldRemote} {rest : List HeldRemote} (hn : n < 384) (hheld : (s.core n).held = h :: rest)
    (hfence : ∀ g ∈ h.fence, ∀ o ∈ (s.core n).cc.inFlight, o.tag ≠ g) (hother : fld h.endpoint 13 0 ≠ s.job.member) :
    exec (.remoteSend n) s = .next (((s.onCore n fun c => { c with held := rest }).bump (knotR .REMOTE_SENT_TOTAL (coreDie n)) 1).send
      (.knot (fld h.endpoint 32 17) (fld h.endpoint 13 0) (fld h.endpoint 14 14) (s.remoteOf n h))) := by
  have hclear : (h.fence.any fun g => (s.core n).cc.inFlight.any (·.tag = g)) = false := by simpa using hfence
  have hn' : ¬ 384 ≤ n := by omega
  change execRemoteSend n s = _
  simp only [execRemoteSend, hn', if_false, hheld, hclear, Bool.false_eq_true, hother]

/-- R296: the pending operation is dropped, the core stops, and KNOT_TIMEOUT is raised as a fault. -/
theorem exec_knotTimeout_eq {s : State} {n : Nat} {p : KnotPend} (hn : n < 384)
    (hfind : (s.knot (coreDie n)).pend.find? (fun p => p.src = .core n) = some p) :
    exec (.knotTimeout n) s = .next ((((s.dropPend (coreDie n) p).ccStop n).bump (knotR .TIMEOUT_TOTAL (coreDie n)) 1).knotError
      (coreDie n) 0 1 p.ctx n p.knot (s.core n).cc.pc true) := by
  have hn' : ¬ 384 ≤ n := by omega
  change execKnotTimeout n s = _
  simp only [execKnotTimeout, hn', if_false, hfind]

/-- Settles O9. -/
theorem remoteKnots : Obligations.RemoteKnots := by
  unfold Obligations.RemoteKnots
  refine ⟨?arrive, ?send, ?timeout⟩
  case arrive =>
    intro s d o hd cur recv entered later
    refine ⟨fun hdoor => ⟨fun hforeign => ?_, fun hactive hgen => ?_⟩, fun hdoor => ?_, ?_, fun hvalid => s.bit_status_cellError d _ _ hvalid⟩
    · rw [exec_remoteKnotOp_eq hd]
      exact congrArg _ (State.remoteMsg_of_taken hdoor (State.remoteArrive_of_foreign hforeign))
    · exact remoteKnotOp_clauses s d o hd hdoor (by simp [foreignTo, hactive, hgen])
    · rw [exec_remoteKnotOp_eq hd]
      exact congrArg _ (State.remoteMsg_of_door hdoor)
    · rw [exec_remoteKnotOp_eq hd, exec_remoteKnotOp_eq hd]
      rfl
  case send =>
    intro s n h rest hn hheld hfence hother
    refine ⟨_, exec_remoteSend_other hn hheld hfence hother, ?_, ?_, State.mem_out_send ..⟩
    · rw [(sent_send ..).body.core]; simp
    · exact (sent_send ..).body.knots.trans (by simp)
  case timeout =>
    intro s n p hn hfind
    obtain ⟨hknots, hcore, hfault, hbit⟩ := State.knotError_fault (((s.dropPend (coreDie n) p).ccStop n).bump (knotR .TIMEOUT_TOTAL (coreDie n)) 1)
      (coreDie n) (b := 0) (by decide) 1 p.ctx n p.knot (s.core n).cc.pc
    refine ⟨_, exec_knotTimeout_eq hn hfind, ?_, ?_, ?_, hfault, hbit⟩
    · rw [State.knot_of_knots_eq hknots]; simp [State.dropPend, State.ccStop]
    · rw [State.knot_of_knots_eq hknots]; simp [State.dropPend, State.ccStop]
    · rw [hcore]; simp [State.ccStop, State.dropPend]

end Sys2Proof.Machine
end

section
/-! The whole machine (95; 00 R12): what a step runs, an idle cycle with nothing waiting, and the state after reset. The function stage's special inputs (07 R193). -/

set_option Elab.async false -- elaborate in order: side threads each hold a stack of their own

namespace Sys2Proof.Machine

open Sys2Proof.Safety Sys2Proof.Claims

/- The function stage on special inputs. -/

theorem funcStage_of_special {op : Nat} {w : W32} {r : Fl} (h : funcSpecial op (f32 w) = some r) : funcStage op w = toF32 r := by
  simp only [funcStage, h]

theorem f32_inf (neg : Bool) : f32 (if neg then 0xFF800000 else 0x7F800000) = .inf neg := by cases neg <;> decide

theorem toF32_inf (neg : Bool) : toF32 (.inf neg) = if neg then 0xFF800000 else 0x7F800000 := by cases neg <;> decide

/-- Settles O27. -/
theorem functionSpecials : Obligations.FunctionSpecials := by
  unfold Obligations.FunctionSpecials
  constructor
  · intro op w hnan
    have hw : f32 w = .nan := by
      cases h : f32 w <;> simp_all [Fl.isNan]
    rw [funcStage_of_special (r := .nan) (by rw [hw]; rfl)]
    decide
  · intro neg inf
    have hspecial {op : Nat} {r : Fl} (h : funcSpecial op (.inf neg) = some r) : funcStage op inf = toF32 r :=
      funcStage_of_special ((congrArg (funcSpecial op) (f32_inf neg)).trans h)
    rw [hspecial (op := 0x00) rfl, hspecial (op := 0x04) rfl, hspecial (op := 0x05) rfl, hspecial (op := 0x06) rfl, hspecial (op := 0x07) rfl,
      hspecial (op := 0x08) rfl, hspecial (op := 0x0A) rfl, hspecial (op := 0x0B) rfl, hspecial (op := 0x0C) rfl]
    cases neg <;> decide

/- Reset. -/

theorem State.reg_reset (id : RegId) : State.reset.reg id = regReset id.name := rfl

/-- Settles O60: every field is the initial one, and every register holds its table's reset value. -/
theorem resetState : Obligations.ResetState := by
  unfold Obligations.ResetState
  have hbit (v : W64) (b : Nat) (h : v = 0) : bit v b = false := by subst h; simp [bit, fld, bits]
  refine ⟨rfl, rfl, rfl, rfl, rfl, ⟨rfl, rfl⟩, rfl, rfl, rfl, rfl, ?_, ?_, rfl, fun _ => ⟨rfl, rfl⟩, fun _ => ⟨rfl, rfl⟩, fun _ _ => rfl, fun _ _ => rfl, ?_,
    ?_, ?_, ?_, ?_, ?_, ?_, ?_, ?_, ?_, ?_, ?_, ?_, ?_⟩
  · decide
  · decide
  · intro h; change fld (regReset .LINK_STATUS) 2 0 = 0; decide
  · decide
  · decide
  · decide
  · decide
  · decide
  · intro d; change fld (regReset .VOLT_BOUND) 15 0 = 600 ∧ fld (regReset .VOLT_BOUND) 31 16 = 850; decide
  · intro n; change regReset .TETHER_LIMIT = 3000000; decide
  · decide
  · intro d
    change regReset .CHAFE_HEAD = 0x1FF ∧ regReset .CHAFE_TAIL = 0x1FF ∧
      (fld (regReset .CHAFE_HEAD) 8 0 + 512 - fld (regReset .CHAFE_TAIL) 8 0) % 512 + (if bit (regReset .CHAFE_HEAD) 9 then 512 else 0) = 0 ∧
      regReset .DIE_IRQ_LINE_EN = 0xFF
    decide
  · intro n b
    exact ⟨hbit _ b (by change regReset .CORE_STATUS = 0; decide), by change regReset .CORE_COUNT = 0; decide⟩
  · decide
  · decide
  · decide

/- Steps. -/

theorem State.reg_tick_ne (s : State) (i : RegId) (h : i.name ≠ .THROTTLE_CYCLE_TOTAL) : s.tick.reg i = s.reg i := by
  unfold State.tick
  split
  · exact State.reg_bump_ne _ _ _ _ (by rintro rfl; exact h rfl)
  · rfl

theorem State.clock_tick (s : State) : s.tick.clock = s.clock + if s.pwr.pwrGood then 1 else 0 := by
  unfold State.tick
  split <;> simp

/-- The clock and the throttle total are all that a cycle's passing changes. -/
theorem State.tick_eq (s : State) : s.tick = { s with clock := s.tick.clock, regs := s.tick.regs } := by
  unfold State.tick State.bump
  split
  · split <;> rfl
  · rfl

/-- No window access waits. -/
theorem State.serveHeld_of_nil {s : State} (h : s.hostOut = []) : s.serveHeld = s := by
  have hsame : { s with hostOut := [] } = s := by rw [← h]
  unfold State.serveHeld
  split
  · rfl
  · rw [h, hsame, List.foldl_nil]

/-- No context drains. -/
theorem State.ctxPoll_of_none {s : State} (h : ∀ c < 4, (s.ctx c).state ≠ .draining) : s.ctxPoll = s := by
  have h0 := h 0 (by decide)
  have h1 := h 1 (by decide)
  have h2 := h 2 (by decide)
  have h3 := h 3 (by decide)
  simp [State.ctxPoll, List.range, List.range.loop, h0, h1, h2, h3]

theorem State.retryWaiting_of_nil {s : State} (h : s.waiting = []) : s.retryWaiting = .next s := by
  have hsame : { s with waiting := [] } = s := by rw [← h]
  rw [State.retryWaiting, h, hsame, runAll]

/-- Settles O57. -/
theorem stepRunsFront : Obligations.StepRunsFront := by
  unfold Obligations.StepRunsFront
  intro s
  have hidle (h : s.pending = []) : step s = s.tick.serveHeld.ctxPoll.retryWaiting := by simp only [step, h, State.idle]
  refine ⟨fun c rest h => by simp only [step, h], hidle, fun hpending hwaiting hhost hctx => ?_⟩
  have htick := s.tick_eq
  have hfield {α : Type} (f : State → α) (hf : ∀ c r, f { s with clock := c, regs := r } = f s) : f s.tick = f s := by rw [htick]; exact hf _ _
  have hrun : step s = .next s.tick := by
    rw [hidle hpending, State.serveHeld_of_nil ((hfield State.hostOut fun _ _ => rfl).trans hhost), State.ctxPoll_of_none, State.retryWaiting_of_nil]
    · exact (hfield State.waiting fun _ _ => rfl).trans hwaiting
    · intro c hc
      rw [State.ctx, hfield State.ctxs fun _ _ => rfl]
      exact hctx c hc
  exact ⟨s.tick, hrun, s.clock_tick, (hfield State.pending fun _ _ => rfl).trans hpending, hfield State.cores fun _ _ => rfl,
    hfield State.hbm fun _ _ => rfl, hfield State.scratch fun _ _ => rfl, fun id hid => s.reg_tick_ne id hid⟩

end Sys2Proof.Machine
end

section
/-! SUPPORT. Which fields of the state each function of the model may change, and that every one keeps the queue, the memories canonical and the written fuses. -/

-- One body at a time: elaborated side by side, the many bodies of this section exhaust the threads that the check allows.
set_option Elab.async false

namespace Sys2Proof.Machine
open Sys2Proof.Safety

/-- The fields of the state, but for the queue, which no command's effect changes. -/
inductive Field where
  | clock | free | out | hostReply | regs | cores | knots | ctxs | hbm | scratch | poison | mem | step | job | siteMax | sitePend | clusterMap | whips | caps
  | wMax | wPend | plan | route | hank | links | sec | journal | mirror | rel | pwr | load | hostOut | i3c | waiting | stackReset
deriving DecidableEq

/-- The field has the same value in both states. -/
def Field.Same : Field → State → State → Prop
  | .clock, s, t => t.clock = s.clock
  | .free, s, t => t.free = s.free
  | .out, s, t => t.out = s.out
  | .hostReply, s, t => t.hostReply = s.hostReply
  | .regs, s, t => t.regs = s.regs
  | .cores, s, t => t.cores = s.cores
  | .knots, s, t => t.knots = s.knots
  | .ctxs, s, t => t.ctxs = s.ctxs
  | .hbm, s, t => t.hbm = s.hbm
  | .scratch, s, t => t.scratch = s.scratch
  | .poison, s, t => t.poison = s.poison
  | .mem, s, t => t.mem = s.mem
  | .step, s, t => t.step = s.step
  | .job, s, t => t.job = s.job
  | .siteMax, s, t => t.siteMax = s.siteMax
  | .sitePend, s, t => t.sitePend = s.sitePend
  | .clusterMap, s, t => t.clusterMap = s.clusterMap
  | .whips, s, t => t.whips = s.whips
  | .caps, s, t => t.caps = s.caps
  | .wMax, s, t => t.wMax = s.wMax
  | .wPend, s, t => t.wPend = s.wPend
  | .plan, s, t => t.plan = s.plan
  | .route, s, t => t.route = s.route
  | .hank, s, t => t.hank = s.hank
  | .links, s, t => t.links = s.links
  | .sec, s, t => t.sec = s.sec
  | .journal, s, t => t.journal = s.journal
  | .mirror, s, t => t.mirror = s.mirror
  | .rel, s, t => t.rel = s.rel
  | .pwr, s, t => t.pwr = s.pwr
  | .load, s, t => t.load = s.load
  | .hostOut, s, t => t.hostOut = s.hostOut
  | .i3c, s, t => t.i3c = s.i3c
  | .waiting, s, t => t.waiting = s.waiting
  | .stackReset, s, t => t.stackReset = s.stackReset

theorem Field.Same.refl (f : Field) (s : State) : f.Same s s := by cases f <;> rfl

theorem Field.Same.trans {f : Field} {s t u : State} (a : f.Same s t) (b : f.Same t u) : f.Same s u := by
  cases f <;> exact Eq.trans (b : _ = _) a

/-- Between the two states only fields of `F` may differ, and the later one keeps what every step keeps. -/
structure Touches (F : List Field) (s t : State) : Prop where
  same : ∀ f, f ∉ F → f.Same s t
  keeps : Keeps s t

variable {F G : List Field} {s t u : State}

theorem Touches.refl : Touches F s s := ⟨fun _ _ => .refl _ _, .refl s⟩

/-- A change of fields of `G` after changes of fields of `F`, all of `G` being in `F`. -/
theorem Touches.step (k : Touches G t u) (h : Touches F s t) (hG : G ⊆ F := by decide) : Touches F s u :=
  ⟨fun f hf => (h.same f hf).trans (k.same f fun hg => hf (hG hg)), h.keeps.trans k.keeps⟩

theorem Touches.mono (k : Touches G s t) (hG : G ⊆ F := by decide) : Touches F s t := ⟨fun f hf => k.same f fun hg => hf (hG hg), k.keeps⟩

theorem Touches.ite {c : Prop} [Decidable c] (h : Touches F s t) (k : Touches F s u) : Touches F s (if c then t else u) := by
  split <;> assumption

theorem Touches.ite_by {β : Type} (g : β → State) {c : Prop} [Decidable c] {p q : β} (h : Touches F s (g p)) (k : Touches F s (g q)) :
    Touches F s (g (if c then p else q)) := by
  split <;> assumption

theorem Touches.foldl {α : Type} {f : State → α → State} {l : List α} (h : Touches F s t) (hf : ∀ t a, Touches F t (f t a)) :
    Touches F s (l.foldl f t) := by
  induction l generalizing t with
  | nil => exact h
  | cons a l ih => exact ih (Touches.step (hf t a) h (List.Subset.refl F))

theorem Touches.foldl_by {α β : Type} (g : β → State) {f : β → α → β} {l : List α} {p : β} (h : Touches F s (g p))
    (hf : ∀ p a, Touches F (g p) (g (f p a))) : Touches F s (g (l.foldl f p)) := by
  induction l generalizing p with
  | nil => exact h
  | cons a l ih => exact ih (Touches.step (hf p a) h (List.Subset.refl F))

/-- A pair taken apart. -/
theorem Touches.of_fst {β : Type} {p : State × β} {x : β} (k : Touches F s p.1) (h : p = (t, x)) : Touches F s t := by
  subst h; exact k

/-- What a function that may answer no state touches where it answers one. -/
structure OptTouches (F : List Field) (s : State) (o : Option State) : Prop where
  touches : ∀ t, o = some t → Touches F s t

/-- The same for one that may meet a memory error, -/
structure ExcTouches (F : List Field) (s : State) (o : Except MemErr State) : Prop where
  touches : ∀ t, o = .ok t → Touches F s t

/-- for the meaning of a command, -/
structure OutTouches (F : List Field) (s : State) (o : Out) : Prop where
  touches : ∀ t, o = .next t → Touches F s t

/-- and for answers that carry a value beside the state. -/
structure OptFstTouches {β : Type} (F : List Field) (s : State) (o : Option (State × β)) : Prop where
  touches : ∀ r, o = some r → Touches F s r.1

structure ExcFstTouches {β : Type} (F : List Field) (s : State) (o : Except MemErr (State × β)) : Prop where
  touches : ∀ r, o = .ok r → Touches F s r.1

structure ExcSndTouches {β : Type} (F : List Field) (s : State) (o : Except MemErr (β × State)) : Prop where
  touches : ∀ r, o = .ok r → Touches F s r.2

theorem OptTouches.none : OptTouches F s none := ⟨fun _ h => nomatch h⟩

theorem OptTouches.some (h : Touches F s t) : OptTouches F s (some t) := ⟨fun _ e => Option.some.inj e ▸ h⟩

theorem OptTouches.step {o : Option State} (k : OptTouches G t o) (h : Touches F s t) (hG : G ⊆ F := by decide) : OptTouches F s o :=
  ⟨fun u e => (k.touches u e).step h hG⟩

theorem OptTouches.ite {c : Prop} [Decidable c] {o p : Option State} (h : OptTouches F s o) (k : OptTouches F s p) :
    OptTouches F s (if c then o else p) := by
  split <;> assumption

theorem OptTouches.bind {α : Type} {o : Option α} {f : α → Option State} (hf : ∀ a, o = .some a → OptTouches F s (f a)) : OptTouches F s (o.bind f) := by
  cases o with
  | none => exact .none
  | some a => exact hf a rfl

theorem OptTouches.map {α : Type} {o : Option α} {f : α → State} (hf : ∀ a, o = .some a → Touches F s (f a)) : OptTouches F s (o.map f) := by
  cases o with
  | none => exact .none
  | some a => exact .some (hf a rfl)

theorem Touches.getD {o : Option State} (k : OptTouches F s o) (h : Touches F s t) : Touches F s (o.getD t) := by
  cases o with
  | none => exact h
  | some a => exact k.touches a rfl

theorem Touches.of_some {o : Option State} (k : OptTouches F s o) (h : o = some t) : Touches F s t := k.touches t h

theorem ExcTouches.error {e : MemErr} : ExcTouches F s (.error e) := ⟨fun _ h => nomatch h⟩

theorem ExcTouches.ok (h : Touches F s t) : ExcTouches F s (.ok t) := ⟨fun _ e => Except.ok.inj e ▸ h⟩

theorem ExcTouches.step {o : Except MemErr State} (k : ExcTouches G t o) (h : Touches F s t) (hG : G ⊆ F := by decide) : ExcTouches F s o :=
  ⟨fun u e => (k.touches u e).step h hG⟩

theorem ExcTouches.ite {c : Prop} [Decidable c] {o p : Except MemErr State} (h : ExcTouches F s o) (k : ExcTouches F s p) :
    ExcTouches F s (if c then o else p) := by
  split <;> assumption

theorem ExcTouches.bind {α : Type} {o : Except MemErr α} {f : α → Except MemErr State} (hf : ∀ a, ExcTouches F s (f a)) :
    ExcTouches F s (o >>= f) := by
  cases o with
  | error => exact .error
  | ok a => exact hf a

theorem Touches.of_ok {o : Except MemErr State} (k : ExcTouches F s o) (h : o = .ok t) : Touches F s t := k.touches t h

theorem OptFstTouches.none {β : Type} : OptFstTouches (β := β) F s none := ⟨fun _ h => nomatch h⟩

theorem OptFstTouches.some {β : Type} {x : β} (h : Touches F s t) : OptFstTouches F s (some (t, x)) := ⟨fun _ e => Option.some.inj e ▸ h⟩

theorem ExcFstTouches.error {β : Type} {e : MemErr} : ExcFstTouches (β := β) F s (.error e) := ⟨fun _ h => nomatch h⟩

theorem ExcFstTouches.ok {β : Type} {x : β} (h : Touches F s t) : ExcFstTouches F s (.ok (t, x)) := ⟨fun _ e => Except.ok.inj e ▸ h⟩

theorem ExcSndTouches.error {β : Type} {e : MemErr} : ExcSndTouches (β := β) F s (.error e) := ⟨fun _ h => nomatch h⟩

theorem ExcSndTouches.ok {β : Type} {x : β} (h : Touches F s t) : ExcSndTouches F s (.ok (x, t)) := ⟨fun _ e => Except.ok.inj e ▸ h⟩

theorem ExcFstTouches.ite {β : Type} {c : Prop} [Decidable c] {o p : Except MemErr (State × β)} (h : ExcFstTouches F s o) (k : ExcFstTouches F s p) :
    ExcFstTouches F s (if c then o else p) := by
  split <;> assumption

theorem ExcSndTouches.ite {β : Type} {c : Prop} [Decidable c] {o p : Except MemErr (β × State)} (h : ExcSndTouches F s o) (k : ExcSndTouches F s p) :
    ExcSndTouches F s (if c then o else p) := by
  split <;> assumption

theorem ExcFstTouches.mono {β : Type} {o : Except MemErr (State × β)} (k : ExcFstTouches G s o) (hG : G ⊆ F := by decide) : ExcFstTouches F s o :=
  ⟨fun r e => (k.touches r e).mono hG⟩

theorem OutTouches.next (h : Touches F s t) : OutTouches F s (.next t) := ⟨fun _ e => Host.Outcome.next.inj e ▸ h⟩

theorem OutTouches.refused {r : Refusal} : OutTouches F s (.refused r) := ⟨fun _ h => nomatch h⟩

theorem OutTouches.fault {r : Fault} : OutTouches F s (.fault r) := ⟨fun _ h => nomatch h⟩

theorem OutTouches.step {o : Out} (k : OutTouches G t o) (h : Touches F s t) (hG : G ⊆ F := by decide) : OutTouches F s o :=
  ⟨fun u e => (k.touches u e).step h hG⟩

theorem OutTouches.ite {c : Prop} [Decidable c] {o p : Out} (h : OutTouches F s o) (k : OutTouches F s p) : OutTouches F s (if c then o else p) := by
  split <;> assumption

theorem OptTouches.foldlM {α : Type} {f : State → α → Option State} {l : List α} (h : Touches F s t) (hf : ∀ t a, OptTouches F t (f t a)) :
    OptTouches F s (l.foldlM f t) := by
  induction l generalizing t with
  | nil => exact .some h
  | cons a l ih => exact .bind fun u e => ih (Touches.step ((hf t a).touches u e) h (List.Subset.refl F))

theorem Touches.of_some_fst {β : Type} {o : Option (State × β)} {r : State × β} (k : OptFstTouches F s o) (h : o = some r) : Touches F s r.1 :=
  k.touches r h

theorem Touches.of_some_pair {β : Type} {o : Option (State × β)} {x : β} (k : OptFstTouches F s o) (h : o = some (t, x)) : Touches F s t :=
  k.touches _ h

theorem Touches.of_ok_fst {β : Type} {o : Except MemErr (State × β)} {x : β} (k : ExcFstTouches F s o) (h : o = .ok (t, x)) : Touches F s t :=
  k.touches _ h

theorem Touches.of_ok_snd {β : Type} {o : Except MemErr (β × State)} {x : β} (k : ExcSndTouches F s o) (h : o = .ok (x, t)) : Touches F s t :=
  k.touches _ h

/- A change of one field. -/

theorem touches_set_clock (s : State) (x : Nat) : Touches [.clock] s { s with clock := x } :=
  ⟨fun f h => by cases f <;> simp_all [Field.Same], .of_eq rfl rfl rfl rfl⟩
theorem touches_set_free (s : State) (x : Nat) : Touches [.free] s { s with free := x } :=
  ⟨fun f h => by cases f <;> simp_all [Field.Same], .of_eq rfl rfl rfl rfl⟩
theorem touches_set_out (s : State) (x : List OutMsg) : Touches [.out] s { s with out := x } :=
  ⟨fun f h => by cases f <;> simp_all [Field.Same], .of_eq rfl rfl rfl rfl⟩
theorem touches_set_hostReply (s : State) (x : List Nat) : Touches [.hostReply] s { s with hostReply := x } :=
  ⟨fun f h => by cases f <;> simp_all [Field.Same], .of_eq rfl rfl rfl rfl⟩
theorem touches_set_regs (s : State) (x : List (RegId × W64)) : Touches [.regs] s { s with regs := x } :=
  ⟨fun f h => by cases f <;> simp_all [Field.Same], .of_eq rfl rfl rfl rfl⟩
theorem touches_set_cores (s : State) (x : SMap Core) : Touches [.cores] s { s with cores := x } :=
  ⟨fun f h => by cases f <;> simp_all [Field.Same], .of_eq rfl rfl rfl rfl⟩
theorem touches_set_knots (s : State) (x : SMap KnotStore) : Touches [.knots] s { s with knots := x } :=
  ⟨fun f h => by cases f <;> simp_all [Field.Same], .of_eq rfl rfl rfl rfl⟩
theorem touches_set_ctxs (s : State) (x : SMap Ctx) : Touches [.ctxs] s { s with ctxs := x } :=
  ⟨fun f h => by cases f <;> simp_all [Field.Same], .of_eq rfl rfl rfl rfl⟩
theorem touches_set_poison (s : State) (x : List Nat) : Touches [.poison] s { s with poison := x } :=
  ⟨fun f h => by cases f <;> simp_all [Field.Same], .of_eq rfl rfl rfl rfl⟩
theorem touches_set_mem (s : State) (x : MemSys) : Touches [.mem] s { s with mem := x } :=
  ⟨fun f h => by cases f <;> simp_all [Field.Same], .of_eq rfl rfl rfl rfl⟩
theorem touches_set_step (s : State) (x : StepCtl) : Touches [.step] s { s with step := x } :=
  ⟨fun f h => by cases f <;> simp_all [Field.Same], .of_eq rfl rfl rfl rfl⟩
theorem touches_set_job (s : State) (x : Job) : Touches [.job] s { s with job := x } :=
  ⟨fun f h => by cases f <;> simp_all [Field.Same], .of_eq rfl rfl rfl rfl⟩
theorem touches_set_siteMax (s : State) (x : SMap Fl) : Touches [.siteMax] s { s with siteMax := x } :=
  ⟨fun f h => by cases f <;> simp_all [Field.Same], .of_eq rfl rfl rfl rfl⟩
theorem touches_set_sitePend (s : State) (x : SMap Fl) : Touches [.sitePend] s { s with sitePend := x } :=
  ⟨fun f h => by cases f <;> simp_all [Field.Same], .of_eq rfl rfl rfl rfl⟩
theorem touches_set_clusterMap (s : State) (x : SMap W64) : Touches [.clusterMap] s { s with clusterMap := x } :=
  ⟨fun f h => by cases f <;> simp_all [Field.Same], .of_eq rfl rfl rfl rfl⟩
theorem touches_set_whips (s : State) (x : SMap Whip) : Touches [.whips] s { s with whips := x } :=
  ⟨fun f h => by cases f <;> simp_all [Field.Same], .of_eq rfl rfl rfl rfl⟩
theorem touches_set_caps (s : State) (x : SMap Cap) : Touches [.caps] s { s with caps := x } :=
  ⟨fun f h => by cases f <;> simp_all [Field.Same], .of_eq rfl rfl rfl rfl⟩
theorem touches_set_wMax (s : State) (x : SMap Fl) : Touches [.wMax] s { s with wMax := x } :=
  ⟨fun f h => by cases f <;> simp_all [Field.Same], .of_eq rfl rfl rfl rfl⟩
theorem touches_set_wPend (s : State) (x : SMap Fl) : Touches [.wPend] s { s with wPend := x } :=
  ⟨fun f h => by cases f <;> simp_all [Field.Same], .of_eq rfl rfl rfl rfl⟩
theorem touches_set_plan (s : State) (x : Plan) : Touches [.plan] s { s with plan := x } :=
  ⟨fun f h => by cases f <;> simp_all [Field.Same], .of_eq rfl rfl rfl rfl⟩
theorem touches_set_route (s : State) (x : RouteSec) : Touches [.route] s { s with route := x } :=
  ⟨fun f h => by cases f <;> simp_all [Field.Same], .of_eq rfl rfl rfl rfl⟩
theorem touches_set_hank (s : State) (x : Hank) : Touches [.hank] s { s with hank := x } :=
  ⟨fun f h => by cases f <;> simp_all [Field.Same], .of_eq rfl rfl rfl rfl⟩
theorem touches_set_links (s : State) (x : SMap LinkSt) : Touches [.links] s { s with links := x } :=
  ⟨fun f h => by cases f <;> simp_all [Field.Same], .of_eq rfl rfl rfl rfl⟩
theorem touches_set_journal (s : State) (x : Journal) : Touches [.journal] s { s with journal := x } :=
  ⟨fun f h => by cases f <;> simp_all [Field.Same], .of_eq rfl rfl rfl rfl⟩
theorem touches_set_mirror (s : State) (x : List MirRx) : Touches [.mirror] s { s with mirror := x } :=
  ⟨fun f h => by cases f <;> simp_all [Field.Same], .of_eq rfl rfl rfl rfl⟩
theorem touches_set_rel (s : State) (x : SMap DieRel) : Touches [.rel] s { s with rel := x } :=
  ⟨fun f h => by cases f <;> simp_all [Field.Same], .of_eq rfl rfl rfl rfl⟩
theorem touches_set_pwr (s : State) (x : Power) : Touches [.pwr] s { s with pwr := x } :=
  ⟨fun f h => by cases f <;> simp_all [Field.Same], .of_eq rfl rfl rfl rfl⟩
theorem touches_set_load (s : State) (x : Option LoadJob) : Touches [.load] s { s with load := x } :=
  ⟨fun f h => by cases f <;> simp_all [Field.Same], .of_eq rfl rfl rfl rfl⟩
theorem touches_set_hostOut (s : State) (x : List HostAccess) : Touches [.hostOut] s { s with hostOut := x } :=
  ⟨fun f h => by cases f <;> simp_all [Field.Same], .of_eq rfl rfl rfl rfl⟩
theorem touches_set_i3c (s : State) (x : List (List Byte)) : Touches [.i3c] s { s with i3c := x } :=
  ⟨fun f h => by cases f <;> simp_all [Field.Same], .of_eq rfl rfl rfl rfl⟩
theorem touches_set_waiting (s : State) (x : List Instr) : Touches [.waiting] s { s with waiting := x } :=
  ⟨fun f h => by cases f <;> simp_all [Field.Same], .of_eq rfl rfl rfl rfl⟩
theorem touches_set_stackReset (s : State) (x : SMap Nat) : Touches [.stackReset] s { s with stackReset := x } :=
  ⟨fun f h => by cases f <;> simp_all [Field.Same], .of_eq rfl rfl rfl rfl⟩

theorem touches_set_hbm (s : State) (x : List Host.Cell) (h : Memory.wf s.hbm = true → Memory.wf x = true) : Touches [.hbm] s { s with hbm := x } :=
  ⟨fun f h => by cases f <;> simp_all [Field.Same], rfl, h, id, fun _ _ => rfl⟩

theorem touches_set_scratch (s : State) (x : List Host.Cell) (h : Memory.wf s.scratch = true → Memory.wf x = true) :
    Touches [.scratch] s { s with scratch := x } :=
  ⟨fun f h => by cases f <;> simp_all [Field.Same], rfl, id, h, fun _ _ => rfl⟩

theorem touches_set_sec (s : State) (x : Sec) (h : ∀ k, sget s.sec.otp 0 k ≠ 0 → sget x.otp 0 k = sget s.sec.otp 0 k) :
    Touches [.sec] s { s with sec := x } :=
  ⟨fun f h => by cases f <;> simp_all [Field.Same], rfl, id, id, h⟩

/- A change of several fields. -/

theorem touches_set_siteMax_wMax (s : State) (x : SMap Fl) (y : SMap Fl) :
    Touches [.siteMax, .wMax] s { s with siteMax := x, wMax := y } :=
  (touches_set_wMax { s with siteMax := x } y).step ((touches_set_siteMax s x).step .refl)
theorem touches_set_mem_pwr (s : State) (x : MemSys) (y : Power) :
    Touches [.mem, .pwr] s { s with mem := x, pwr := y } :=
  (touches_set_pwr { s with mem := x } y).step ((touches_set_mem s x).step .refl)
theorem touches_set_siteMax_sitePend_wMax_wPend (s : State) (x : SMap Fl) (y : SMap Fl) (z : SMap Fl) (w : SMap Fl) :
    Touches [.siteMax, .sitePend, .wMax, .wPend] s { s with siteMax := x, sitePend := y, wMax := z, wPend := w } :=
  (touches_set_wPend { s with siteMax := x, sitePend := y, wMax := z } w).step ((touches_set_wMax { s with siteMax := x, sitePend := y } z).step ((touches_set_sitePend { s with siteMax := x } y).step ((touches_set_siteMax s x).step .refl)))
theorem touches_set_whips_caps_mirror (s : State) (x : SMap Whip) (y : SMap Cap) (z : List MirRx) :
    Touches [.whips, .caps, .mirror] s { s with whips := x, caps := y, mirror := z } :=
  (touches_set_mirror { s with whips := x, caps := y } z).step ((touches_set_caps { s with whips := x } y).step ((touches_set_whips s x).step .refl))
theorem touches_set_mem_sitePend_wPend_mirror (s : State) (x : MemSys) (y : SMap Fl) (z : SMap Fl) (w : List MirRx) :
    Touches [.mem, .sitePend, .wPend, .mirror] s { s with mem := x, sitePend := y, wPend := z, mirror := w } :=
  (touches_set_mirror { s with mem := x, sitePend := y, wPend := z } w).step ((touches_set_wPend { s with mem := x, sitePend := y } z).step ((touches_set_sitePend { s with mem := x } y).step ((touches_set_mem s x).step .refl)))
theorem touches_set_whips_caps (s : State) (x : SMap Whip) (y : SMap Cap) :
    Touches [.whips, .caps] s { s with whips := x, caps := y } :=
  (touches_set_caps { s with whips := x } y).step ((touches_set_whips s x).step .refl)
theorem touches_set_job_siteMax_sitePend_wMax_wPend_plan_route_mirror (s : State) (a : Job) (b : SMap Fl) (c : SMap Fl) (d : SMap Fl) (e : SMap Fl) (p : Plan) (r : RouteSec) (m : List MirRx) :
    Touches [.job, .siteMax, .sitePend, .wMax, .wPend, .plan, .route, .mirror] s
      { s with job := a, siteMax := b, sitePend := c, wMax := d, wPend := e, plan := p, route := r, mirror := m } :=
  ⟨fun f h => by cases f <;> simp_all [Field.Same], .of_eq rfl rfl rfl rfl⟩

end Sys2Proof.Machine
end

section
/-! SUPPORT. The fields that each function of the model on states may change, in the order in which they call each other. -/

-- One body at a time: elaborated side by side, the many bodies of this section exhaust the threads that the check allows.
set_option Elab.async false

namespace Sys2Proof.Machine
open Sys2Proof.Safety

theorem touches_setKnot (s : State) (d : Nat) (k : KnotStore) :
    Touches [.knots] s (s.setKnot d k) := by
  unfold State.setKnot
  exact .step (touches_set_knots ..) .refl

theorem touches_abortKnots (s : State) (d : Nat) :
    Touches [.knots] s (s.abortKnots d) := by
  unfold State.abortKnots
  exact .step (touches_setKnot ..) .refl

theorem touches_setCore (s : State) (n : Nat) (c : Core) :
    Touches [.cores] s (s.setCore n c) := by
  unfold State.setCore
  exact .step (touches_set_cores ..) .refl

theorem touches_onCore (s : State) (n : Nat) (f : Core → Core) :
    Touches [.cores] s (s.onCore n f) := by
  unfold State.onCore
  exact .step (touches_setCore ..) .refl

theorem touches_onPly (s : State) (core : Nat) (p : Nat) (f : Ply → Ply) :
    Touches [.cores] s (s.onPly core p f) := by
  unfold State.onPly
  exact .step (touches_onCore ..) .refl

theorem touches_onSlot (s : State) (core : Nat) (p : Nat) (q : Nat) (f : PlySlot → PlySlot) :
    Touches [.cores] s (s.onSlot core p q f) := by
  unfold State.onSlot
  exact .step (touches_onPly ..) .refl

theorem touches_setReg (s : State) (id : RegId) (v : W64) :
    Touches [.regs] s (s.setReg id v) := by
  unfold State.setReg
  exact .step (touches_set_regs ..) .refl

theorem touches_bump (s : State) (id : RegId) (k : Nat) :
    Touches [.regs] s (s.bump id k) := by
  unfold State.bump
  exact .ite .refl (.step (touches_setReg ..) .refl)

theorem touches_complete (s : State) (core : Nat) (m : OpMsg) :
    Touches [.cores] s (s.complete core m) := by
  unfold State.complete
  exact .ite .refl (.step (touches_onCore ..) .refl)

theorem touches_accDone (s : State) (core : Nat) (p : PlyDesc) (m : OpMsg) :
    Touches [.regs, .cores] s (s.accDone core p m) := by
  unfold State.accDone
  dsimp only
  exact .ite (.foldl .refl fun t a => .step (touches_onSlot ..) .refl) (.step (touches_complete ..) (.foldl .refl fun t a => .step
    (touches_bump ..) (.step (touches_onSlot ..) .refl)))

theorem touches_arrive {F : List Field} {s t : State} {i : Instr} {f : State → Option State} (h : Touches F s t)
    (hf : ∀ t, OptTouches F t (f t)) (hF : [.waiting] ⊆ F := by decide) : Touches F s (t.arrive i f) := by
  unfold State.arrive
  have hw := Touches.step (touches_set_waiting t (t.waiting ++ [i])) h hF
  exact .ite hw (.getD ((hf t).step h (List.Subset.refl F)) hw)

theorem touches_unitStore (s : State) (a : Nat) (bs : List Byte) : Touches [.hbm, .poison] s (s.unitStore a bs) := by
  unfold State.unitStore
  refine .foldl .refl fun t c => ?_
  exact .step (touches_set_poison ..) (.step (touches_set_hbm _ _ fun w => Memory.wf_memWrite _ _ w) .refl)

theorem touches_hbmWriteUnit (s : State) (a : Nat) (bs : List Byte) : Touches [.hbm, .poison, .mem] s (s.hbmWriteUnit a bs) := by
  unfold State.hbmWriteUnit
  split
  · exact (touches_unitStore ..).mono
  · dsimp only
    refine .ite (touches_unitStore ..).mono (.step (touches_set_mem ..) ?_)
    exact .ite (touches_unitStore ..).mono (.step (touches_set_poison ..) (touches_unitStore ..).mono)

theorem touches_hbmWriteGo (s : State) (l : List (Nat × Nat)) (bs : List Byte) : Touches [.hbm, .poison, .mem] s (s.hbmWriteGo l bs) := by
  induction l generalizing s bs with
  | nil => exact .refl
  | cons p l ih => exact .step (ih ..) (touches_hbmWriteUnit ..)

theorem touches_hbmWrite (s : State) (a : Nat) (bs : List Byte) :
    Touches [.hbm, .poison, .mem] s (s.hbmWrite a bs) := by
  unfold State.hbmWrite
  exact .step (touches_hbmWriteGo ..) .refl

theorem touches_takeTokens (s : State) (st : Nat) (p : Nat) (n : Nat) :
    Touches [.regs, .mem] s (s.takeTokens st p n) := by
  unfold State.takeTokens
  dsimp only
  exact .step (touches_bump ..) (.step (touches_set_mem ..) .refl)

theorem touches_chargeBurst (s : State) (p : Nat) (write : Bool) (r : Nat × Nat) :
    Touches [.regs, .mem] s (s.chargeBurst p write r) := by
  unfold State.chargeBurst
  dsimp only
  exact .foldl .refl fun t a => .step (touches_takeTokens ..) (.step (touches_bump ..) .refl)

theorem touches_charge (s : State) (p : Nat) (write : Bool) (a : Nat) (n : Nat) :
    Touches [.regs, .mem] s (s.charge p write a n) := by
  unfold State.charge
  exact .foldl .refl fun t a => .step (touches_chargeBurst ..) .refl

theorem touches_saveGo (s : State) :
    OptTouches [.regs, .hbm, .poison, .mem] s (s.saveGo) := by
  unfold State.saveGo
  dsimp only
  exact .ite .none (.some (.step (touches_hbmWrite ..) (.step (touches_charge ..) .refl)))

theorem touches_setCause (s : State) (p : Part) (b : Nat) :
    Touches [.regs] s (s.setCause p b) := by
  unfold State.setCause
  dsimp only
  exact .step (touches_bump ..) (.step (touches_setReg ..) .refl)

theorem touches_setRegFld (s : State) (id : RegId) (hi : Nat) (lo : Nat) (v : Nat) :
    Touches [.regs] s (s.setRegFld id hi lo v) := by
  unfold State.setRegFld
  exact .step (touches_setReg ..) .refl

theorem touches_chafe (s : State) (d : Nat) (ws : List W64) :
    Touches [.regs] s (s.chafe d ws) := by
  unfold State.chafe
  dsimp only
  exact .ite (.ite (.step (touches_bump ..) .refl) (.step (touches_setCause ..) (.step (touches_setRegFld ..) (.step (touches_bump ..)
    .refl)))) (.ite (.step (touches_setRegFld ..) (.step (touches_setRegFld ..) (.foldl .refl fun t a => .step (touches_setReg ..) .refl)))
    (.step (touches_setRegFld ..) (.foldl .refl fun t a => .step (touches_setReg ..) .refl)))

theorem touches_setLink (s : State) (h : Nat) (l : LinkSt) :
    Touches [.links] s (s.setLink h l) := by
  unfold State.setLink
  exact .step (touches_set_links ..) .refl

theorem touches_wireFlit (s : State) (h : Nat) (head : Nat) (data : List Byte) :
    Touches [.out, .regs, .links] s (s.wireFlit h head data).1 := by
  unfold State.wireFlit
  dsimp only
  exact .step (touches_set_out ..) (.step (touches_bump ..) (.step (touches_setLink ..) .refl))

theorem touches_sendControl (s : State) (h : Nat) (nak : Bool) (crVc : Nat) (crCount : Nat) :
    Touches [.out, .regs, .links] s (s.sendControl h nak crVc crCount) := by
  unfold State.sendControl
  exact .ite (.step (touches_wireFlit ..) .refl) .refl

theorem touches_giveCredits (s : State) (h : Nat) (vc : Nat) (n : Nat) :
    Touches [.out, .regs, .links] s (s.giveCredits h vc n) := by
  unfold State.giveCredits
  refine .ite ?_ ?_
  · dsimp only
    exact .step (touches_setLink ..) .refl
  · dsimp only
    exact .ite (.step (touches_sendControl ..) (.ite (.step (touches_sendControl ..) .refl) .refl)) (.ite (.step (touches_sendControl ..)
      .refl) .refl)

theorem touches_sendData (s : State) (h : Nat) (vc : Nat) :
    Touches [.out, .regs, .links] s (s.sendData h vc) := by
  unfold State.sendData
  dsimp only
  split
  · exact .refl
  · split
    · exact .step (touches_giveCredits ..) (.step (touches_setLink ..) (.step (touches_wireFlit ..) (.step (touches_setLink ..) .refl)))
    · exact .step (touches_setLink ..) (.step (touches_wireFlit ..) (.step (touches_setLink ..) .refl))

theorem touches_pumpGo (n : Nat) (s : State) (h : Nat) : Touches [.out, .regs, .links] s (State.pumpGo n s h) := by
  induction n generalizing s with
  | zero => exact .refl
  | succ n ih =>
    unfold State.pumpGo
    refine .ite .refl ?_
    split
    · exact .refl
    · exact .step (ih _) (touches_sendData ..).mono

theorem touches_pump (s : State) (h : Nat) :
    Touches [.out, .regs, .links] s (s.pump h) := by
  unfold State.pump
  exact .step (touches_pumpGo ..) .refl

theorem touches_enqueue (s : State) (h : Nat) (vc : Nat) (m : TxMsg) :
    Touches [.out, .regs, .links] s (s.enqueue h vc m) := by
  unfold State.enqueue
  dsimp only
  exact .step (touches_pump ..) (.step (touches_setLink ..) .refl)

theorem touches_sendBodies (s : State) (set : Nat) (dest : Option Nat) (vc : Nat) (ctx : Nat) (bodies : List (List Byte)) :
    Touches [.out, .regs, .links] s (s.sendBodies set dest vc ctx bodies) := by
  unfold State.sendBodies
  refine .foldl .refl fun t a => ?_
  dsimp only
  exact .ite .refl (.foldl .refl fun t a => .step (touches_enqueue ..) .refl)

theorem touches_send (s : State) (m : OutMsg) :
    Touches [.out, .regs, .links] s (s.send m) := by
  unfold State.send
  dsimp only
  split
  · exact .step (touches_set_out ..) .refl
  · exact .step (touches_sendBodies ..) (.step (touches_set_out ..) .refl)

theorem touches_fault (s : State) (d : Nat) (ws : List W64) :
    Touches [.out, .regs, .step, .links] s (s.fault d ws) := by
  unfold State.fault
  dsimp only
  exact .step (touches_send ..) (.step (touches_set_step ..) (.step (touches_chafe ..) .refl))

theorem touches_raiseWith (s : State) (p : Part) (b : Nat) (ctx : Nat) (det : W64) (isFault : Bool) :
    Touches [.out, .regs, .step, .links] s (s.raiseWith p b ctx det isFault) := by
  unfold State.raiseWith
  dsimp only
  refine .ite (.step (touches_fault ..) (.step (touches_setCause ..) .refl)) ?_
  split
  · exact .step (touches_chafe ..) (.step (touches_setCause ..) .refl)
  · exact .step (touches_chafe ..) (.step (touches_setCause ..) .refl)
  · exact .step (touches_chafe ..) (.step (touches_setCause ..) .refl)
  · exact .step (touches_setCause ..) .refl

theorem touches_raise (s : State) (p : Part) (b : Nat) (ctx : Nat) (det : W64) :
    Touches [.out, .regs, .step, .links] s (s.raise p b ctx det) := by
  unfold State.raise
  exact .step (touches_raiseWith ..) .refl

theorem touches_stateRestore (s : State) :
    Touches [.out, .regs, .cores, .step, .siteMax, .wMax, .links] s (s.stateRestore) := by
  unfold State.stateRestore
  dsimp only
  exact .ite (.step (touches_raise ..) (.step (touches_setRegFld ..) .refl)) (.step (touches_set_siteMax_wMax ..) (.foldl .refl fun t a =>
    .step (touches_onCore ..) .refl))

theorem touches_restoreGo (s : State) :
    OptTouches [.out, .regs, .cores, .mem, .step, .siteMax, .wMax, .links] s (s.restoreGo) := by
  unfold State.restoreGo
  dsimp only
  exact .ite .none (.some (.step (touches_stateRestore ..) (.step (touches_charge ..) .refl)))

theorem touches_memErr (s : State) (p : Part) (b : Nat) (ctx : Nat) (e : MemErr) (det : W64) :
    Touches [.out, .regs, .step, .links] s (s.memErr p b ctx e det) := by
  unfold State.memErr
  split
  · exact .step (touches_raise ..) .refl
  · exact .step (touches_raise ..) .refl
  · exact .refl

theorem touches_pageUse (s : State) (u : MemPort) (c : Nat) (i : Nat) :
    Touches [.regs, .mem] s (s.pageUse u c i) := by
  unfold State.pageUse
  refine .ite .refl ?_
  dsimp only
  exact .ite (.step (touches_charge ..) .refl) (.step (touches_set_mem ..) (.step (touches_charge ..) .refl))

theorem touches_ctxLoadGo (s : State) (u : MemPort) (c : Nat) (l : List (Nat × Nat)) : Touches [.regs, .mem] s (s.ctxLoadGo u c l) := by
  induction l generalizing s with
  | nil => exact .refl
  | cons p l ih =>
    unfold State.ctxLoadGo
    split
    · exact .refl
    · exact .step (ih _) (.step (touches_charge ..) (.step (touches_pageUse ..) .refl))

theorem touches_ctxLoad (s : State) (u : MemPort) (c : Nat) (a : Nat) (n : Nat) :
    Touches [.regs, .mem] s (s.ctxLoad u c a n) := by
  unfold State.ctxLoad
  exact .step (touches_ctxLoadGo ..) .refl

theorem touches_capLoad (s : State) (st : Nat) (r : CapRec) (l : List (Nat × Nat)) :
    Touches [.regs, .mem] s (s.capLoad st r l) := by
  unfold State.capLoad
  exact .foldl .refl fun t a => .step (touches_ctxLoad ..) .refl

theorem touches_capHalf (s : State) (st : Nat) (r : CapRec) (w : W64) (other : Bool) :
    ExcFstTouches [.regs, .mem] s (s.capHalf st r w other) := by
  unfold State.capHalf
  dsimp only
  split
  · exact .error
  · exact .ok (.step (touches_capLoad ..) .refl)

theorem touches_mirAcc_add {F : List Field} {a : MirAcc} {mk : MirrorMsg → OutMsg} {m : MirrorMsg} {p : Part} {b : Nat}
    {src : Except MemErr (State × List Byte)} (h : ExcFstTouches F a.st src) (hF : [.out, .regs, .step, .links] ⊆ F := by decide) :
    Touches F a.st (a.add mk m p b src).st := by
  unfold MirAcc.add
  split
  · rename_i r
    exact .foldl (h.touches _ rfl) fun t x => (touches_send ..).mono fun _ hf => hF (by revert hf; decide +revert)
  · exact (touches_memErr ..).mono hF

theorem touches_mirAcc_done {F : List Field} {s : State} {a : MirAcc} (h : Touches F s a.st) (hF : [.regs] ⊆ F := by decide) : OptTouches F s a.done := by
  unfold MirAcc.done
  exact .ite .none (.some ((touches_setReg ..).step h hF))

theorem touches_mirrorRebuild (s : State) (route target : Nat) : Touches [.out, .regs, .mem, .step, .links] s (s.mirrorRebuild route target).st := by
  unfold State.mirrorRebuild
  refine .foldl_by MirAcc.st .refl fun a x => ?_
  dsimp only
  split
  · exact touches_mirAcc_add .error
  · split
    · exact .refl
    · exact touches_mirAcc_add (touches_capHalf ..).mono

theorem touches_mirrorRestore (s : State) (route target : Nat) : Touches [.out, .regs, .mem, .step, .links] s (s.mirrorRestore route target).st := by
  unfold State.mirrorRestore
  refine .foldl_by MirAcc.st .refl fun a e => ?_
  dsimp only
  split
  · exact .refl
  · exact touches_mirAcc_add (.ite .error (.ok (touches_charge ..).mono))

theorem touches_mirrorGo (s : State) (v : W64) :
    OptTouches [.out, .regs, .mem, .step, .links] s (s.mirrorGo v) := by
  unfold State.mirrorGo
  exact .ite (touches_mirAcc_done (.step (touches_mirrorRebuild ..) .refl)) (touches_mirAcc_done (.step (touches_mirrorRestore ..) .refl))

theorem touches_journalPut (s : State) (e : List Byte) :
    Touches [.out, .regs, .step, .links, .journal] s (s.journalPut e) := by
  unfold State.journalPut
  dsimp only
  split
  · exact .step (touches_raise ..) (.step (touches_set_journal ..) .refl)
  · exact .ite (.step (touches_set_journal ..) .refl) (.step (touches_raise ..) (.step (touches_set_journal ..) .refl))

theorem touches_journalEntry (s : State) (kind : Nat) (origin : Nat) (vol : Bool) (fresh : Bool) (at_ : Nat × Nat) (body : List Byte) :
    Touches [.out, .regs, .step, .links, .journal] s (s.journalEntry kind origin vol fresh at_ body) := by
  unfold State.journalEntry
  dsimp only
  exact .step (touches_journalPut ..) (.step (touches_set_journal ..) .refl)

theorem touches_journalFresh (s : State) :
    Touches [.out, .regs, .step, .links, .journal] s (s.journalFresh) := by
  unfold State.journalFresh
  exact .step (touches_journalEntry ..) (.step (touches_set_journal ..) .refl)

theorem touches_journalResume (s : State) (base : Nat) :
    Touches [.out, .regs, .step, .links, .journal] s (s.journalResume base) := by
  unfold State.journalResume
  dsimp only
  exact .ite (.step (touches_journalEntry ..) (.step (touches_set_journal ..) .refl)) (.step (touches_journalFresh ..) .refl)

theorem touches_resumeGo (s : State) (value : W64) :
    OptTouches [.out, .regs, .mem, .step, .links, .journal] s (s.resumeGo value) := by
  unfold State.resumeGo
  dsimp only
  exact .ite .none (.some (.step (touches_journalResume ..) (.step (touches_charge ..) .refl)))

theorem touches_acceptedGo (s : State) (i : Instr) :
    OptTouches [.out, .regs, .cores, .hbm, .poison, .mem, .step, .siteMax, .wMax, .links, .journal, .waiting] s (s.acceptedGo i) := by
  unfold State.acceptedGo
  split
  · exact .some (touches_arrive .refl fun t => .step (touches_saveGo ..) .refl)
  · exact .some (touches_arrive .refl fun t => .step (touches_restoreGo ..) .refl)
  · exact .some (touches_arrive .refl fun t => .step (touches_mirrorGo ..) .refl)
  · exact .some (touches_arrive .refl fun t => .step (touches_mirrorGo ..) .refl)
  · exact .some (touches_arrive .refl fun t => .step (touches_resumeGo ..) .refl)
  · exact .none

theorem touches_addPend (s : State) (d : Nat) (p : KnotPend) :
    Touches [.knots] s (s.addPend d p) := by
  unfold State.addPend
  dsimp only
  exact .step (touches_setKnot ..) .refl

theorem touches_alert (s : State) (b : Nat) :
    Touches [.regs] s (s.alert b) := by
  unfold State.alert
  exact .step (touches_setRegFld ..) .refl

theorem touches_alertClear (s : State) (v : Nat) :
    Touches [.regs] s (s.alertClear v) := by
  unfold State.alertClear
  dsimp only
  exact .step (touches_setReg ..) .refl

theorem touches_powerStack (s : State) (st : Nat) :
    Touches [.mem, .stackReset] s (s.powerStack st) := by
  unfold State.powerStack
  dsimp only
  exact .ite .refl (.ite (.step (touches_set_stackReset ..) .refl) (.step (touches_set_mem ..) .refl))

theorem touches_useCoreSpare (s : State) (d : Nat) (p : Nat) :
    Touches [.regs] s (s.useCoreSpare d p) := by
  unfold State.useCoreSpare
  exact .step (touches_setRegFld ..) .refl

theorem touches_setMap (s : State) (d : Nat) (l : Nat) (v : W64) :
    Touches [.clusterMap] s (s.setMap d l v) := by
  unfold State.setMap
  exact .step (touches_set_clusterMap ..) .refl

theorem touches_moveBank (s : State) (core : Nat) (bank : Nat) (n : Nat) :
    Touches [.regs] s (s.moveBank core bank n) := by
  unfold State.moveBank
  dsimp only
  exact .ite (.step (touches_setRegFld ..) (.step (touches_setRegFld ..) .refl)) (.step (touches_setRegFld ..) (.step (touches_setRegFld ..)
    .refl))

theorem touches_onRel (s : State) (d : Nat) (f : DieRel → DieRel) :
    Touches [.rel] s (s.onRel d f) := by
  unfold State.onRel
  exact .step (touches_set_rel ..) .refl

theorem touches_failChannel (s : State) (st : Nat) (c : Nat) :
    Touches [.mem] s (s.failChannel st c) := by
  unfold State.failChannel
  exact .step (touches_set_mem ..) .refl

theorem touches_moveLane (s : State) (h : Nat) (old : Nat) (new : Nat) :
    Touches [.regs] s (s.moveLane h old new) := by
  unfold State.moveLane
  dsimp only
  exact .step (touches_setRegFld ..) (.step (touches_setRegFld ..) (.step (touches_setRegFld ..) .refl))

theorem touches_applyRepair (s : State) (d : Nat) (r : Repair) :
    Touches [.regs, .mem, .clusterMap, .rel] s (s.applyRepair d r) := by
  unfold State.applyRepair
  split
  · dsimp only
    exact .step (touches_useCoreSpare ..) (.step (touches_setMap ..) .refl)
  · exact .step (touches_setRegFld ..) (.step (touches_setMap ..) .refl)
  · exact .step (touches_moveBank ..) .refl
  · exact .step (touches_onRel ..) .refl
  · exact .step (touches_failChannel ..) .refl
  · exact .step (touches_moveLane ..) .refl
  · exact .step (touches_set_mem ..) .refl
  · dsimp only
    exact .step (touches_setRegFld ..) (.step (touches_setRegFld ..) .refl)
  · exact .refl

theorem touches_applyOtp (s : State) :
    Touches [.regs, .mem, .clusterMap, .rel, .stackReset] s (s.applyOtp) := by
  unfold State.applyOtp
  refine .foldl ?_ fun t a => .step (touches_powerStack ..) .refl
  refine .foldl .refl fun t a => ?_
  dsimp only
  exact .foldl (.foldl .refl fun t a => .step (touches_applyRepair ..) .refl) fun t a => .step (touches_applyRepair ..) .refl

theorem touches_ccResume (s : State) (n : Nat) :
    Touches [.cores] s (s.ccResume n) := by
  unfold State.ccResume
  exact .step (touches_onCore ..) .refl

theorem touches_onCap (s : State) (st : Nat) (f : Cap → Cap) :
    Touches [.caps] s (s.onCap st f) := by
  unfold State.onCap
  exact .step (touches_set_caps ..) .refl

theorem touches_releaseSrc (s : State) (p : KnotPend) :
    Touches [.cores, .caps] s (s.releaseSrc p) := by
  unfold State.releaseSrc
  split
  · exact .step (touches_ccResume ..) .refl
  · exact .step (touches_onCap ..) .refl
  · exact .refl

theorem touches_dropPend (s : State) (d : Nat) (p : KnotPend) :
    Touches [.knots] s (s.dropPend d p) := by
  unfold State.dropPend
  dsimp only
  exact .step (touches_setKnot ..) .refl

theorem touches_releaseWaits (s : State) (d : Nat) (phys : Nat) :
    Touches [.cores, .knots, .caps] s (s.releaseWaits d phys) := by
  unfold State.releaseWaits
  dsimp only
  exact .foldl .refl fun t a => .step (touches_releaseSrc ..) (.step (touches_dropPend ..) .refl)

theorem touches_putKnot (s : State) (d : Nat) (phys : Nat) (tied : Bool) (core : Option Nat) :
    Touches [.knots] s (s.putKnot d phys tied core) := by
  unfold State.putKnot
  dsimp only
  exact .step (touches_setKnot ..) .refl

theorem touches_settle (n : Nat) (s : State) (d phys : Nat) : Touches [.regs, .cores, .knots, .caps] s (State.settle n s d phys) := by
  induction n generalizing s with
  | zero => exact .refl
  | succ n ih =>
    unfold State.settle
    dsimp only
    refine .ite ?_ ?_
    · split
      · exact (touches_releaseWaits ..).mono
      · refine .step (ih _) (.step (touches_releaseSrc ..) (.ite (.step (touches_bump ..) ?_) ?_)) <;>
          exact .step (touches_putKnot ..) (.step (touches_dropPend ..) (touches_releaseWaits ..).mono)
    · split
      · exact (touches_releaseWaits ..).mono
      · exact .step (ih _) (.step (touches_releaseSrc ..) (.step (touches_bump ..) (.step (touches_putKnot ..) (.step (touches_dropPend ..)
          (touches_releaseWaits ..).mono))))

theorem touches_settleAll (s : State) (d : Nat) (phys : Nat) :
    Touches [.regs, .cores, .knots, .caps] s (s.settleAll d phys) := by
  unfold State.settleAll
  exact .step (touches_settle ..) .refl

theorem touches_knotDo (s : State) (d : Nat) (c : Nat) (k : Nat) (src : KSrc) (op : KOp) :
    Touches [.regs, .cores, .knots, .caps] s (s.knotDo d c k src op).1 := by
  unfold State.knotDo
  dsimp only
  split
  · dsimp only
    exact .refl
  · split
    · dsimp only
      exact .refl
    · split
      · split
        · dsimp only
          exact .step (touches_settleAll ..) (.step (touches_bump ..) (.step (touches_putKnot ..) .refl))
        · split
          · split
            · dsimp only
              exact .step (touches_bump ..) (.step (touches_addPend ..) .refl)
            · dsimp only
              exact .step (touches_bump ..) .refl
          · split
            · dsimp only
              exact .step (touches_bump ..) (.step (touches_addPend ..) .refl)
            · dsimp only
              exact .step (touches_bump ..) .refl
          · split
            · dsimp only
              exact .step (touches_bump ..) (.step (touches_addPend ..) .refl)
            · dsimp only
              exact .step (touches_bump ..) .refl
          · split
            · dsimp only
              exact .step (touches_bump ..) (.step (touches_addPend ..) .refl)
            · dsimp only
              exact .step (touches_bump ..) .refl
      · split
        · dsimp only
          exact .step (touches_settleAll ..) (.step (touches_putKnot ..) .refl)
        · split
          · split
            · dsimp only
              exact .step (touches_bump ..) (.step (touches_addPend ..) .refl)
            · dsimp only
              exact .step (touches_bump ..) .refl
          · split
            · dsimp only
              exact .step (touches_bump ..) (.step (touches_addPend ..) .refl)
            · dsimp only
              exact .step (touches_bump ..) .refl
          · split
            · dsimp only
              exact .step (touches_bump ..) (.step (touches_addPend ..) .refl)
            · dsimp only
              exact .step (touches_bump ..) .refl
          · split
            · dsimp only
              exact .step (touches_bump ..) (.step (touches_addPend ..) .refl)
            · dsimp only
              exact .step (touches_bump ..) .refl
      · split
        · dsimp only
          exact .refl
        · dsimp only
          exact .step (touches_addPend ..) .refl
      · split
        · dsimp only
          exact .step (touches_addPend ..) .refl
        · dsimp only
          exact .refl
      · split
        · dsimp only
          exact .step (touches_settleAll ..) (.step (touches_bump ..) (.step (touches_putKnot ..) .refl))
        · dsimp only
          exact .step (touches_addPend ..) .refl

theorem touches_detail (s : State) (id : RegId) (v : W64) :
    Touches [.regs] s (s.detail id v) := by
  unfold State.detail
  exact .ite .refl (.step (touches_setReg ..) .refl)

theorem touches_knotError (s : State) (d : Nat) (bitNo : Nat) (code : Nat) (ctx : Nat) (core : Nat) (knot : Nat) (idx : Nat) (isFault : Bool) :
    Touches [.out, .regs, .step, .links] s (s.knotError d bitNo code ctx core knot idx isFault) := by
  unfold State.knotError
  dsimp only
  exact .step (touches_raiseWith ..) (.step (touches_detail ..) .refl)

theorem touches_knotAct (s : State) (d : Nat) (c : Nat) (k : Nat) (src : KSrc) (op : KOp) :
    Touches [.out, .regs, .cores, .knots, .step, .caps, .links] s (s.knotAct d c k src op) := by
  unfold State.knotAct
  dsimp only
  split
  · exact .step (touches_knotError ..) (.step (touches_knotDo ..) .refl)
  · exact .step (touches_knotError ..) (.step (touches_knotDo ..) .refl)
  · exact .step (touches_knotDo ..) .refl

theorem touches_flushBehind (n : Nat) (s : State) (d : Nat) : Touches [.out, .regs, .cores, .knots, .step, .caps, .links] s (State.flushBehind n s d) := by
  induction n generalizing s with
  | zero => exact .refl
  | succ n ih =>
    unfold State.flushBehind
    dsimp only
    split
    · exact .refl
    · exact .step (ih _) (.step (touches_knotAct ..) (.step (touches_setKnot ..) .refl))

theorem touches_flush (s : State) (d : Nat) :
    Touches [.out, .regs, .cores, .knots, .step, .caps, .links] s (s.flush d) := by
  unfold State.flush
  exact .step (touches_flushBehind ..) .refl

theorem touches_remoteApply (s : State) (d : Nat) (o : RemoteOp) :
    Touches [.out, .regs, .cores, .knots, .step, .caps, .links] s (s.remoteApply d o) := by
  unfold State.remoteApply
  dsimp only
  exact .ite (.step (touches_setKnot ..) .refl) (.step (touches_knotAct ..) .refl)

theorem touches_remoteArrive (s : State) (d : Nat) (o : RemoteOp) :
    Touches [.out, .regs, .cores, .knots, .step, .caps, .links] s (s.remoteArrive d o).1 := by
  unfold State.remoteArrive
  dsimp only
  split
  · dsimp only
    exact .step (touches_bump ..) (.step (touches_bump ..) .refl)
  · split
    · dsimp only
      exact .step (touches_raise ..) (.step (touches_bump ..) (.step (touches_bump ..) .refl))
    · split
      · dsimp only
        exact .step (touches_flush ..) (.step (touches_remoteApply ..) (.step (touches_bump ..) .refl))
      · split
        · dsimp only
          exact .step (touches_setKnot ..) (.step (touches_bump ..) .refl)
        · dsimp only
          exact .refl

theorem touches_remoteMsg (s : State) (d : Nat) (o : RemoteOp) :
    Touches [.out, .regs, .cores, .knots, .step, .caps, .links] s (s.remoteMsg d o) := by
  unfold State.remoteMsg
  dsimp only
  exact .ite (.step (touches_remoteArrive ..) .refl) (.step (touches_setKnot ..) .refl)

theorem touches_doorOpen (s : State) (d : Nat) :
    Touches [.out, .regs, .cores, .knots, .step, .caps, .links] s (s.doorOpen d) := by
  unfold State.doorOpen
  dsimp only
  exact .foldl (.step (touches_setKnot ..) .refl) fun t a => .step (touches_remoteMsg ..) .refl

theorem touches_queuedOp (s : State) (d : Nat) (o : RemoteOp) :
    Touches [.out, .regs, .cores, .knots, .step, .caps, .links] s (s.queuedOp d o) := by
  unfold State.queuedOp
  dsimp only
  exact .ite (.step (touches_bump ..) .refl) (.ite (.step (touches_raise ..) (.step (touches_bump ..) .refl)) (.ite (.step (touches_flush ..)
    (.step (touches_remoteApply ..) .refl)) (.step (touches_setKnot ..) .refl)))

theorem touches_applyRemoteQueue (s : State) (d : Nat) :
    Touches [.out, .regs, .cores, .knots, .step, .caps, .links] s (s.applyRemoteQueue d) := by
  unfold State.applyRemoteQueue
  dsimp only
  exact .step (touches_doorOpen ..) (.foldl (.step (touches_setKnot ..) .refl) fun t a => .step (touches_queuedOp ..) .refl)

theorem touches_keyRebuild (s : State) :
    Touches [.out, .regs, .mem, .step, .links] s (s.keyRebuild).1 := by
  unfold State.keyRebuild
  dsimp only
  split
  · dsimp only
    exact .step (touches_raise ..) (.step (touches_setReg ..) .refl)
  · dsimp only
    exact .step (touches_setRegFld ..) (.step (touches_set_mem ..) .refl)

theorem touches_onStep (s : State) (f : StepCtl → StepCtl) :
    Touches [.step] s (s.onStep f) := by
  unfold State.onStep
  exact .step (touches_set_step ..) .refl

theorem touches_capsFresh (s : State) :
    Touches [.caps] s (s.capsFresh) := by
  unfold State.capsFresh
  exact .foldl .refl fun t a => .step (touches_onCap ..) .refl

theorem touches_refreshArm (s : State) :
    Touches [.regs] s (s.refreshArm) := by
  unfold State.refreshArm
  refine .foldl .refl fun t a => ?_
  dsimp only
  exact .ite (.step (touches_setRegFld ..) (.step (touches_setRegFld ..) .refl)) (.step (touches_bump ..) (.step (touches_setRegFld ..)
    (.step (touches_setRegFld ..) .refl)))

theorem touches_schedAll (s : State) :
    Touches [.regs] s (s.schedAll) := by
  unfold State.schedAll
  exact .foldl .refl fun t a => .foldl .refl fun t a => .step (touches_setReg ..) .refl

theorem touches_enterArmed (s : State) :
    Touches [.regs, .step, .whips, .caps] s (s.enterArmed) := by
  unfold State.enterArmed
  dsimp only
  exact .step (touches_set_whips ..) (.step (touches_capsFresh ..) (.step (touches_refreshArm ..) (.step (touches_schedAll ..) (.foldl (.step
    (touches_onStep ..) .refl) fun t a => .step (touches_setReg ..) .refl))))

theorem touches_setLinkState (s : State) (h : Nat) (v : Nat) :
    Touches [.regs] s (s.setLinkState h v) := by
  unfold State.setLinkState
  exact .step (touches_setRegFld ..) .refl

theorem touches_dropForwarded (s : State) (h : Nat) :
    Touches [.links] s (s.dropForwarded h) := by
  unfold State.dropForwarded
  exact .step (touches_set_links ..) .refl

theorem touches_trainLink (s : State) (h : Nat) :
    Touches [.regs, .links] s (s.trainLink h) := by
  unfold State.trainLink
  exact .ite .refl (.step (touches_setLinkState ..) (.step (touches_setLink ..) (.step (touches_dropForwarded ..) .refl)))

theorem touches_heldLinks (s : State) :
    Touches [.regs, .links] s (s.heldLinks) := by
  unfold State.heldLinks
  exact .foldl .refl fun t a => .ite (.step (touches_trainLink ..) .refl) .refl

theorem touches_onHank (s : State) (f : Hank → Hank) :
    Touches [.hank] s (s.onHank f) := by
  unfold State.onHank
  exact .step (touches_set_hank ..) .refl

theorem touches_unready (s : State) :
    Touches [.hank] s (s.unready) := by
  unfold State.unready
  exact .step (touches_onHank ..) .refl

theorem touches_enterHeld (s : State) :
    Touches [.out, .regs, .step, .hank, .links] s (s.enterHeld) := by
  unfold State.enterHeld
  exact .step (touches_heldLinks ..) (.step (touches_raise ..) (.step (touches_onStep ..) (.step (touches_unready ..) .refl)))

theorem touches_holdReady (s : State) :
    Touches [.hank] s (s.holdReady) := by
  unfold State.holdReady
  exact .step (touches_onHank ..) .refl

theorem touches_castDown (s : State) (m : Nat → OutMsg) :
    Touches [.out, .regs, .links] s (s.castDown m) := by
  unfold State.castDown
  exact .ite .refl (.ite (.step (touches_send ..) (.step (touches_send ..) .refl)) (.step (touches_send ..) .refl))

theorem touches_readyPoll (s : State) :
    Touches [.out, .regs, .step, .hank, .links] s (s.readyPoll) := by
  unfold State.readyPoll
  refine .ite .refl ?_
  dsimp only
  exact .ite (.step (touches_onStep ..) (.step (touches_castDown ..) (.step (touches_onHank ..) .refl))) (.step (touches_send ..) (.step
    (touches_onHank ..) .refl))

theorem touches_registerReady (s : State) (m : Nat) :
    Touches [.out, .regs, .step, .hank, .links] s (s.registerReady m) := by
  unfold State.registerReady
  exact .step (touches_readyPoll ..) (.step (touches_onHank ..) .refl)

theorem touches_feedPoll (s : State) :
    Touches [.out, .regs, .step, .hank, .links] s (s.feedPoll) := by
  unfold State.feedPoll
  refine .ite .refl ?_
  dsimp only
  exact .ite (.step (touches_registerReady ..) (.step (touches_onStep ..) .refl)) (.step (touches_send ..) (.step (touches_onStep ..) .refl))

theorem touches_armGo (s : State) :
    Touches [.out, .regs, .step, .whips, .caps, .hank, .links] s (s.armGo) := by
  unfold State.armGo
  dsimp only
  exact .ite (.step (touches_enterHeld ..) (.step (touches_holdReady ..) (.step (touches_onStep ..) (.step (touches_enterArmed ..) .refl))))
    (.step (touches_feedPoll ..) (.step (touches_enterArmed ..) .refl))

theorem touches_arm (s : State) :
    Touches [.out, .regs, .mem, .step, .whips, .caps, .hank, .links] s (s.arm) := by
  unfold State.arm
  dsimp only
  exact .ite (.step (touches_keyRebuild ..) .refl) (.step (touches_armGo ..) (.step (touches_keyRebuild ..) .refl))

theorem touches_armTry (s : State) :
    Touches [.out, .regs, .mem, .step, .whips, .caps, .hank, .links] s (s.armTry) := by
  unfold State.armTry
  exact .ite (.step (touches_arm ..) .refl) .refl

theorem touches_onVec (s : State) (core : Nat) (f : Vector16 → Vector16) :
    Touches [.cores] s (s.onVec core f) := by
  unfold State.onVec
  exact .step (touches_onCore ..) .refl

theorem touches_onStrand (s : State) (core : Nat) (t : Nat) (f : Strand → Strand) :
    Touches [.cores] s (s.onStrand core t f) := by
  unfold State.onStrand
  exact .step (touches_onVec ..) .refl

theorem touches_beginLaunch (s : State) (core : Nat) (t : Nat) :
    Touches [.cores] s (s.beginLaunch core t) := by
  unfold State.beginLaunch
  refine .ite .refl ?_
  split
  · exact .refl
  · dsimp only
    exact .step (touches_onStrand ..) (.step (touches_onVec ..) .refl)

theorem touches_scrWrite (s : State) (core a : Nat) (bs : List Byte) : Touches [.scratch] s (s.scrWrite core a bs) :=
  touches_set_scratch _ _ fun w => Memory.wf_memWrite _ _ w

theorem touches_onQnt (s : State) (core : Nat) (f : Quantiser → Quantiser) :
    Touches [.cores] s (s.onQnt core f) := by
  unfold State.onQnt
  exact .step (touches_onCore ..) .refl

theorem touches_ctxWriteGo (s : State) (u : MemPort) (c : Nat) (l : List (Nat × Nat)) (bs : List Byte) :
    ExcTouches [.regs, .hbm, .poison, .mem] s (s.ctxWriteGo u c l bs) := by
  induction l generalizing s bs with
  | nil => exact .ok .refl
  | cons p l ih =>
    unfold State.ctxWriteGo
    split
    · exact .error
    · exact .step (ih ..) (.step (touches_hbmWrite ..) (.step (touches_charge ..) (.step (touches_pageUse ..) .refl)))

theorem touches_ctxWrite (s : State) (u : MemPort) (c : Nat) (a : Nat) (bs : List Byte) :
    ExcTouches [.regs, .hbm, .poison, .mem] s (s.ctxWrite u c a bs) := by
  unfold State.ctxWrite
  exact .step (touches_ctxWriteGo ..) .refl

theorem touches_destWrite (s : State) (d : QDest) (a : Nat) (bs : List Byte) :
    ExcTouches [.regs, .hbm, .scratch, .poison, .mem] s (s.destWrite d a bs) := by
  unfold State.destWrite
  exact .ite (.step (touches_ctxWrite ..) .refl) (.ok (.step (touches_scrWrite ..) .refl))

theorem touches_writeRuns (s : State) (d : QDest) (l : List (Nat × List Byte)) :
    Touches [.regs, .hbm, .scratch, .poison, .mem] s (s.writeRuns d l).1 := by
  unfold State.writeRuns
  refine .foldl_by Prod.fst ?_ fun p a => ?_
  · dsimp only
    exact .refl
  · split
    · rename_i h2
      dsimp only
      exact .step (Touches.of_ok (touches_destWrite ..) h2) .refl
    · dsimp only
      exact .refl

theorem touches_damageTotals (s : State) (core : Nat) (d : Damage) :
    Touches [.regs] s (s.damageTotals core d) := by
  unfold State.damageTotals
  exact .step (touches_bump ..) (.step (touches_bump ..) (.step (touches_bump ..) (.step (touches_bump ..) (.step (touches_bump ..) .refl))))

theorem touches_trackRaise (s : State) (c : Core) (site : Nat) (m : Fl) :
    Touches [.sitePend] s (s.trackRaise c site m) := by
  unfold State.trackRaise
  dsimp only
  exact .ite (.step (touches_set_sitePend ..) .refl) .refl

theorem touches_onEcInbox (s : State) (core : Nat) (f : List DamageMsg → List DamageMsg) :
    Touches [.cores] s (s.onEcInbox core f) := by
  unfold State.onEcInbox
  exact .step (touches_onCore ..) .refl

theorem touches_setWhip (s : State) (d : Nat) (w : Whip) :
    Touches [.whips] s (s.setWhip d w) := by
  unfold State.setWhip
  exact .step (touches_set_whips ..) .refl

theorem touches_ringSend (s : State) (d : Nat) (x : XRec) (m : DenseMsg) :
    Touches [.out, .regs, .links] s (s.ringSend d x m) := by
  unfold State.ringSend
  dsimp only
  exact .step (touches_send ..) (.step (touches_bump ..) (.step (touches_bump ..) .refl))

theorem touches_memFail (s : State) (p : Part) (b : Nat) (ctx : Nat) (e : MemErr) :
    OptTouches [.out, .regs, .step, .links] s (s.memFail p b ctx e) := by
  unfold State.memFail
  exact .ite .none (.some (.step (touches_memErr ..) .refl))

theorem touches_knotUnit (s : State) (d : Nat) (c : Nat) (k : Nat) (src : KSrc) (op : KOp) :
    Touches [.out, .regs, .cores, .knots, .step, .caps, .links] s (s.knotUnit d c k src op) := by
  unfold State.knotUnit
  exact .step (touches_flush ..) (.step (touches_knotAct ..) .refl)

theorem touches_whipDone (s : State) (d : Nat) (i : Nat) (x : XRec) :
    Touches [.out, .regs, .cores, .knots, .step, .whips, .caps, .links] s (s.whipDone d i x) := by
  unfold State.whipDone
  dsimp only
  exact .ite .refl (.step (touches_knotUnit ..) (.step (touches_setWhip ..) .refl))

theorem touches_fanSend (s : State) (d : Nat) (i : Nat) (x : XRec) (c : XRec) (b : Nat) :
    OptTouches [.out, .regs, .mem, .step, .whips, .links] s (s.fanSend d i x c b) := by
  unfold State.fanSend
  dsimp only
  refine .ite (.some (.step (touches_setWhip ..) .refl)) ?_
  split
  · exact .step (touches_memFail ..) (.step (touches_setWhip ..) .refl)
  · exact .ite (.some (.step (touches_send ..) (.step (touches_bump ..) (.step (touches_bump ..) (.step (touches_ctxLoad ..) (.step
      (touches_setWhip ..) .refl)))))) (.some (.foldl (.step (touches_bump ..) (.step (touches_bump ..) (.step (touches_ctxLoad ..) (.step
      (touches_setWhip ..) .refl)))) fun t a => .step (touches_send ..) .refl))

theorem touches_fanOut (s : State) (d : Nat) (i : Nat) (x : XRec) (c : XRec) :
    OptTouches [.out, .regs, .mem, .step, .whips, .links] s (s.fanOut d i x c) := by
  unfold State.fanOut
  dsimp only
  exact .foldlM .refl fun t a => .step (touches_fanSend ..) .refl

theorem touches_ringWrite (s : State) (d : Nat) (i : Nat) (x : XRec) (r : Nat) (c : Nat) (off : Nat) (vals : List Nat) :
    OptTouches [.out, .regs, .cores, .knots, .hbm, .poison, .mem, .step, .whips, .caps, .links] s (s.ringWrite d i x r c off vals) := by
  unfold State.ringWrite
  dsimp only
  split
  · exact .step (touches_memFail ..) .refl
  · rename_i h1
    split
    · refine .bind ?_
      intro x51 h5
      exact .ite (.some (.step (touches_whipDone ..) (.step (Touches.of_some (touches_fanOut ..) h5) (.step (touches_setWhip ..) (.step
        (Touches.of_ok (touches_ctxWrite ..) h1) .refl))))) (.some (.step (Touches.of_some (touches_fanOut ..) h5) (.step (touches_setWhip
        ..) (.step (Touches.of_ok (touches_ctxWrite ..) h1) .refl))))
    · refine .bind ?_
      intro x51 h5
      refine .ite ?_ ?_
      · refine .some ?_
        refine .step (touches_whipDone ..) ?_
        cases h5
        exact .step (touches_setWhip ..) (.step (Touches.of_ok (touches_ctxWrite ..) h1) .refl)
      · refine .some ?_
        cases h5
        exact .step (touches_setWhip ..) (.step (Touches.of_ok (touches_ctxWrite ..) h1) .refl)

theorem touches_ringEnd (s : State) (d : Nat) (i : Nat) (x : XRec) (r : Nat) (c : Nat) (off : Nat) (sums : List Fl) :
    OptTouches [.out, .regs, .cores, .knots, .hbm, .poison, .mem, .step, .whips, .caps, .links] s (s.ringEnd d i x r c off sums) := by
  unfold State.ringEnd
  dsimp only
  refine .map ?_
  intro x11 h1
  exact .ite (.step (Touches.of_some (touches_ringWrite ..) h1) .refl) (.step (touches_ringSend ..) (.step (Touches.of_some
    (touches_ringWrite ..) h1) .refl))

theorem touches_ringTake (s : State) (d : Nat) (i : Nat) (x : XRec) (m : DenseMsg) :
    OptTouches [.out, .regs, .cores, .knots, .hbm, .poison, .mem, .step, .whips, .caps, .links] s (s.ringTake d i x m) := by
  unfold State.ringTake
  dsimp only
  refine .ite ?_ (.ite (.step (touches_ringEnd ..) .refl) (.some (.step (touches_ringSend ..) .refl)))
  refine .map ?_
  intro x21 h2
  exact .ite (.step (Touches.of_some (touches_ringWrite ..) h2) .refl) (.step (touches_ringSend ..) (.step (Touches.of_some
    (touches_ringWrite ..) h2) .refl))

theorem touches_ringEnter (s : State) (d : Nat) (i : Nat) (x : XRec) (r : Nat) :
    OptTouches [.out, .regs, .cores, .knots, .hbm, .poison, .mem, .step, .whips, .caps, .links] s (s.ringEnter d i x r) := by
  unfold State.ringEnter
  dsimp only
  refine .bind ?_
  intro x11 h1
  exact .foldlM (Touches.of_some (.foldlM (.step (touches_setWhip ..) .refl) fun t a => .ite (.step (touches_ringEnd ..) .refl) (.some (.step
    (touches_ringSend ..) .refl))) h1) fun t a => .step (touches_ringTake ..) .refl

theorem touches_ringStart (s : State) (d : Nat) (i : Nat) (x : XRec) :
    Touches [.out, .regs, .cores, .knots, .hbm, .poison, .mem, .step, .whips, .caps, .links] s (s.ringStart d i x) := by
  unfold State.ringStart
  exact .ite .refl (.foldl .refl fun t a => .getD (.step (touches_ringEnter ..) .refl) .refl)

theorem touches_ringsStart (s : State) (d : Nat) :
    Touches [.out, .regs, .cores, .knots, .hbm, .poison, .mem, .step, .whips, .caps, .links] s (s.ringsStart d) := by
  unfold State.ringsStart
  exact .foldl .refl fun t a => .step (touches_ringStart ..) .refl

theorem touches_tileReport (s : State) (d : Nat) (site : Nat) (tile : Nat) (epoch : Nat) (loc : TileLoc) (guard : Option Nat) :
    Touches [.out, .regs, .cores, .knots, .hbm, .poison, .mem, .step, .whips, .caps, .links] s (s.tileReport d site tile epoch loc guard) := by
  unfold State.tileReport
  dsimp only
  exact .ite (.ite (.step (touches_ringsStart ..) (.step (touches_setWhip ..) .refl)) (.step (touches_setWhip ..) .refl)) .refl

theorem touches_runQOp (s : State) (core : Nat) (o : QOp) (fixed : Bool) :
    OptFstTouches [.out, .regs, .cores, .knots, .hbm, .scratch, .poison, .mem, .step, .sitePend, .whips, .caps, .links] s (s.runQOp core o fixed) := by
  unfold State.runQOp
  dsimp only
  split
  · exact .none
  · refine .some ?_
    refine .ite ?_ ?_
    · refine .step (touches_onEcInbox ..) ?_
      refine .ite ?_ ?_
      · refine .step (touches_trackRaise ..) ?_
        refine .step (touches_damageTotals ..) ?_
        refine .step (touches_writeRuns ..) ?_
        split
        · exact .refl
        · exact .step (touches_onQnt ..) (.step (touches_bump ..) (.step (touches_scrWrite ..) .refl))
      · refine .step (touches_damageTotals ..) ?_
        refine .step (touches_writeRuns ..) ?_
        split
        · exact .refl
        · exact .step (touches_onQnt ..) (.step (touches_bump ..) (.step (touches_scrWrite ..) .refl))
    · refine .foldl ?_ fun t a => .step (touches_tileReport ..) .refl
      refine .step (touches_onEcInbox ..) ?_
      refine .ite ?_ ?_
      · refine .step (touches_trackRaise ..) ?_
        refine .step (touches_damageTotals ..) ?_
        refine .step (touches_writeRuns ..) ?_
        split
        · exact .refl
        · exact .step (touches_onQnt ..) (.step (touches_bump ..) (.step (touches_scrWrite ..) .refl))
      · refine .step (touches_damageTotals ..) ?_
        refine .step (touches_writeRuns ..) ?_
        split
        · exact .refl
        · exact .step (touches_onQnt ..) (.step (touches_bump ..) (.step (touches_scrWrite ..) .refl))

theorem touches_reqStage (s : State) (core : Nat) (p : PlyDesc) (m : OpMsg) (kb : Nat) :
    Touches [.out, .regs, .cores, .knots, .hbm, .scratch, .poison, .mem, .step, .sitePend, .whips, .caps, .links] s (s.reqStage core p m kb) := by
  unfold State.reqStage
  dsimp only
  refine .ite ?_ ?_
  · split
    · rename_i h2
      exact .step (Touches.of_some_fst (touches_runQOp ..) h2) .refl
    · exact .refl
  · refine .ite ?_ .refl
    split
    · rename_i h3
      exact .step (Touches.of_some_fst (touches_runQOp ..) h3) .refl
    · exact .refl

theorem touches_blockStep (s : State) (core : Nat) (p : PlyDesc) (m : OpMsg) (kb : Nat) (feedStalls : Nat) (gap : Nat) :
    Touches [.out, .regs, .cores, .knots, .hbm, .scratch, .poison, .mem, .step, .sitePend, .whips, .caps, .links] s (s.blockStep core p m kb feedStalls gap) := by
  unfold State.blockStep
  dsimp only
  exact .foldl (.step (touches_reqStage ..) .refl) fun t a => .step (touches_bump ..) (.step (touches_bump ..) (.step (touches_bump ..)
    (.step (touches_bump ..) (.step (touches_bump ..) (.step (touches_bump ..) (.step (touches_onSlot ..) .refl))))))

theorem touches_chafeEvent (s : State) (d : Nat) (source : Nat) (cause : Nat) (pc : Nat) (pk : Nat) (index : Nat) (ctx : Nat) :
    Touches [.regs] s (s.chafeEvent d source cause pc pk index ctx) := by
  unfold State.chafeEvent
  exact .step (touches_chafe ..) .refl

theorem touches_commitRepair (s : State) (d : Nat) (r : Repair) :
    Touches [.regs, .mem, .clusterMap, .rel] s (s.commitRepair d r) := by
  unfold State.commitRepair
  dsimp only
  exact .step (touches_onRel ..) (.step (touches_chafeEvent ..) (.step (touches_applyRepair ..) .refl))

theorem touches_clearFailed (s : State) (d : Nat) (f : Nat × Nat → Bool) :
    Touches [.regs, .rel] s (s.clearFailed d f) := by
  unfold State.clearFailed
  dsimp only
  exact .step (touches_setRegFld ..) (.step (touches_onRel ..) .refl)

theorem touches_wipeScratch (s : State) (n : Nat) : Touches [.scratch] s (s.wipeScratch n) :=
  touches_set_scratch _ _ fun w => Memory.wf_filter _ w

theorem touches_bringSpare (s : State) (d : Nat) (m : Mark) :
    Touches [.regs, .scratch, .mem, .clusterMap, .rel] s (s.bringSpare d m) := by
  unfold State.bringSpare
  split
  · dsimp only
    exact .foldl (.step (touches_clearFailed ..) (.step (touches_commitRepair ..) .refl)) fun t a => .step (touches_wipeScratch ..) .refl
  · dsimp only
    exact .step (touches_wipeScratch ..) (.step (touches_commitRepair ..) .refl)
  · dsimp only
    exact .step (touches_commitRepair ..) .refl
  · exact .step (touches_commitRepair ..) .refl
  · exact .step (touches_commitRepair ..) .refl

theorem touches_storeFill (s : State) (d : Nat) :
    Touches [.whips] s (s.storeFill d) := by
  unfold State.storeFill
  dsimp only
  exact .step (touches_setWhip ..) (.step (touches_setWhip ..) .refl)

theorem touches_whipStale (s : State) (d : Nat) (ctx : Nat) :
    Touches [.out, .regs, .step, .links] s (s.whipStale d ctx) := by
  unfold State.whipStale
  exact .step (touches_raise ..) (.step (touches_bump ..) .refl)

theorem touches_raiseDetail (s : State) (id : RegId) (v : W64) (p : Part) (b : Nat) (ctx : Nat) :
    Touches [.out, .regs, .step, .links] s (s.raiseDetail id v p b ctx) := by
  unfold State.raiseDetail
  exact .step (touches_raise ..) (.step (touches_detail ..) .refl)

theorem touches_whipError (s : State) (d : Nat) (code : Nat) (b : Nat) (i : Nat) (sender : Nat) (bucket : Nat) (ctx : Nat) :
    Touches [.out, .regs, .step, .links] s (s.whipError d code b i sender bucket ctx) := by
  unfold State.whipError
  dsimp only
  exact .step (touches_raiseDetail ..) .refl

theorem touches_fragTake (s : State) (d : Nat) (m : FragMsg) :
    OptTouches [.out, .regs, .hbm, .poison, .mem, .step, .whips, .links] s (s.fragTake d m) := by
  unfold State.fragTake
  dsimp only
  split
  · exact .some .refl
  · split
    · refine .ite (.some (.step (touches_whipStale ..) .refl)) ?_
      split
      · exact .step (touches_memFail ..) .refl
      · rename_i h6
        exact .some (.step (touches_setWhip ..) (.step (Touches.of_ok (touches_ctxWrite ..) h6) .refl))
    · refine .ite (.some (.step (touches_whipStale ..) .refl)) ?_
      split
      · exact .step (touches_memFail ..) .refl
      · rename_i h6
        exact .some (.step (touches_setWhip ..) (.step (Touches.of_ok (touches_ctxWrite ..) h6) .refl))
    · exact .some (.ite (.step (touches_whipStale ..) .refl) (.step (touches_storeFill ..) (.step (touches_setWhip ..) .refl)))
    · exact .some (.ite (.step (touches_storeFill ..) (.step (touches_setWhip ..) .refl)) (.step (touches_whipError ..) .refl))
    · exact .some .refl

theorem touches_fragSend (s : State) (d : Nat) (x : XRec) (b : Nat) (total : Option RegName) (m : FragMsg) :
    OptTouches [.out, .regs, .hbm, .poison, .mem, .step, .whips, .links] s (s.fragSend d x b total m) := by
  unfold State.fragSend
  dsimp only
  refine .ite ?_ ?_
  · refine .step (touches_fragTake ..) ?_
    refine .ite ?_ ?_
    · refine .step (touches_bump ..) ?_
      split
      · exact .step (touches_bump ..) .refl
      · exact .refl
    · refine .step (touches_send ..) ?_
      refine .step (touches_bump ..) ?_
      split
      · exact .step (touches_bump ..) .refl
      · exact .refl
  · refine .some ?_
    refine .ite ?_ ?_
    · refine .step (touches_bump ..) ?_
      split
      · exact .step (touches_bump ..) .refl
      · exact .refl
    · refine .step (touches_send ..) ?_
      refine .step (touches_bump ..) ?_
      split
      · exact .step (touches_bump ..) .refl
      · exact .refl

theorem touches_bucketFinal (s : State) (d : Nat) (i : Nat) (b : Nat) (x : XRec) :
    OptTouches [.out, .regs, .hbm, .poison, .mem, .step, .whips, .links] s (s.bucketFinal d i b x) := by
  unfold State.bucketFinal
  dsimp only
  exact .ite (.step (touches_fragSend ..) (.step (touches_setWhip ..) .refl)) (.some .refl)

theorem touches_bucketSend (s : State) (d : Nat) (i : Nat) (b : Nat) (x : XRec) :
    OptTouches [.out, .regs, .hbm, .poison, .mem, .step, .whips, .links] s (s.bucketSend d i b x) := by
  unfold State.bucketSend
  dsimp only
  split
  · exact .step (touches_memFail ..) .refl
  · split
    · exact .step (touches_memFail ..) .refl
    · rename_i h3
      exact .step (touches_fragSend ..) (.step (touches_setWhip ..) (.step (touches_bump ..) (.ite (.step (touches_bump ..) (.step
        (Touches.of_ok (touches_ctxWrite ..) h3) (.step (touches_ctxLoad ..) .refl))) (.step (touches_whipError ..) (.step (touches_bump ..)
        (.step (Touches.of_ok (touches_ctxWrite ..) h3) (.step (touches_ctxLoad ..) .refl)))))))

theorem touches_bucketGo (s : State) (d : Nat) (i : Nat) (b : Nat) (x : XRec) :
    OptTouches [.out, .regs, .hbm, .poison, .mem, .step, .whips, .links] s (s.bucketGo d i b x) := by
  unfold State.bucketGo
  dsimp only
  refine .ite ?_ ?_
  · refine .bind ?_
    intro x21 h2
    exact .step (touches_bucketFinal ..) (.step (Touches.of_some (touches_bucketSend ..) h2) .refl)
  · refine .bind ?_
    intro x21 h2
    refine .step (touches_bucketFinal ..) ?_
    cases h2
    exact .refl

theorem touches_mergeLoad (s : State) (d : Nat) (x : XRec) (b : Nat) :
    Touches [.regs, .mem] s (s.mergeLoad d x b) := by
  unfold State.mergeLoad
  exact .foldl .refl fun t a => .step (touches_ctxLoad ..) .refl

theorem touches_mergeMark (s : State) (d : Nat) (i : Nat) (b : Nat) :
    Touches [.whips] s (s.mergeMark d i b) := by
  unfold State.mergeMark
  dsimp only
  exact .step (touches_storeFill ..) (.step (touches_setWhip ..) .refl)

theorem touches_bucketMerge (s : State) (d : Nat) (i : Nat) (b : Nat) (x : XRec) :
    OptTouches [.out, .regs, .cores, .knots, .hbm, .poison, .mem, .step, .whips, .caps, .links] s (s.bucketMerge d i b x) := by
  unfold State.bucketMerge
  split
  · exact .step (touches_memFail ..) .refl
  · dsimp only
    split
    · exact .some (.step (touches_ringStart ..) (.step (touches_setWhip ..) (.step (touches_mergeMark ..) (.step (touches_mergeLoad ..)
        .refl))))
    · split
      · exact .step (touches_memFail ..) .refl
      · rename_i h5
        exact .some (.ite (.step (touches_whipDone ..) (.step (touches_mergeMark ..) (.step (Touches.of_ok (touches_ctxWrite ..) h5) (.step
          (touches_mergeLoad ..) .refl)))) (.step (touches_mergeMark ..) (.step (Touches.of_ok (touches_ctxWrite ..) h5) (.step
          (touches_mergeLoad ..) .refl))))

theorem touches_onSec (s : State) (f : Sec → Sec) (h : ∀ x k, sget x.otp 0 k ≠ 0 → sget (f x).otp 0 k = sget x.otp 0 k) :
    Touches [.sec] s (s.onSec f) :=
  touches_set_sec _ _ (h s.sec)

/-- A fuse write changes no written fuse (17 R441). -/
theorem touches_burn (s : State) (d w : Nat) (v : W64) : Touches [.sec] s (s.onSec fun x => x.burn d w v) :=
  touches_onSec _ _ fun x k h => x.otp_burn_kept d w v k h

theorem touches_burnAll (s : State) (l : List (Nat × W64)) : Touches [.out, .regs, .step, .links, .sec] s (s.burnAll l).1 := by
  induction l generalizing s with
  | nil => exact .refl
  | cons p l ih =>
    unfold State.burnAll
    dsimp only
    split
    · exact .step (ih _) (.step (touches_burn ..) .refl)
    · dsimp only
      exact .step (touches_raise ..) (.step (touches_burn ..) .refl)

theorem touches_capCommit (s : State) (st : Nat) (vetoed : Nat → Bool) :
    Touches [.out, .regs, .hbm, .poison, .mem, .step, .links] s (s.capCommit st vetoed) := by
  unfold State.capCommit
  dsimp only
  refine .foldl .refl fun t a => ?_
  refine .ite .refl ?_
  split
  · exact .step (touches_memErr ..) .refl
  · split
    · exact .step (touches_memErr ..) .refl
    · rename_i h5
      exact .step (touches_bump ..) (.step (Touches.of_ok (touches_ctxWrite ..) h5) .refl)

theorem touches_capVeto (s : State) (st : Nat) (i : Nat) (ctx : Nat) (code : Nat) (block : Nat) :
    Touches [.out, .regs, .step, .caps, .links] s (s.capVeto st i ctx code block) := by
  unfold State.capVeto
  refine .ite .refl ?_
  dsimp only
  exact .step (touches_raiseDetail ..) (.step (touches_bump ..) (.step (touches_onCap ..) .refl))

theorem touches_ctxWrites (s : State) (u : MemPort) (ctx : Nat) (l : List (Nat × List Byte)) : ExcTouches [.regs, .hbm, .poison, .mem] s (s.ctxWrites u ctx l) := by
  induction l generalizing s with
  | nil => exact .ok .refl
  | cons p l ih =>
    unfold State.ctxWrites
    split
    · rename_i h
      exact .step (ih _) (.of_ok (touches_ctxWrite ..) h)
    · exact .error

theorem touches_updMark (s : State) (st : Nat) (i : Nat) (r : CapRec) :
    Touches [.out, .regs, .cores, .knots, .step, .caps, .links] s (s.updMark st i r) := by
  unfold State.updMark
  exact .step (touches_knotUnit ..) (.step (touches_onCap ..) .refl)

theorem touches_capFinish (s : State) (st : Nat) (i : Nat) (r : CapRec) (x : CapIn) (outs : List (W32 × W32 × W32)) :
    OptTouches [.out, .regs, .cores, .knots, .hbm, .poison, .mem, .step, .caps, .wPend, .links] s (s.capFinish st i r x outs) := by
  unfold State.capFinish
  dsimp only
  split
  · refine .step (touches_memFail ..) ?_
    split
    · exact .step (touches_capVeto ..) (.ite (.step (touches_capVeto ..) .refl) .refl)
    · exact .ite (.step (touches_capVeto ..) .refl) .refl
  · rename_i h1
    refine .some ?_
    refine .step (touches_updMark ..) ?_
    refine .step (touches_onCap ..) ?_
    refine .ite ?_ ?_
    · refine .step (touches_set_wPend ..) ?_
      refine .step (touches_bump ..) ?_
      refine .step (touches_bump ..) ?_
      refine .step (touches_bump ..) ?_
      refine .step (touches_bump ..) ?_
      refine .step (touches_bump ..) ?_
      refine .step (Touches.of_ok (touches_ctxWrites ..) h1) ?_
      split
      · exact .step (touches_capVeto ..) (.ite (.step (touches_capVeto ..) .refl) .refl)
      · exact .ite (.step (touches_capVeto ..) .refl) .refl
    · refine .step (touches_bump ..) ?_
      refine .step (touches_bump ..) ?_
      refine .step (touches_bump ..) ?_
      refine .step (touches_bump ..) ?_
      refine .step (touches_bump ..) ?_
      refine .step (Touches.of_ok (touches_ctxWrites ..) h1) ?_
      split
      · exact .step (touches_capVeto ..) (.ite (.step (touches_capVeto ..) .refl) .refl)
      · exact .ite (.step (touches_capVeto ..) .refl) .refl

theorem touches_capSkip (s : State) (st : Nat) (i : Nat) (r : CapRec) :
    ExcSndTouches [.out, .regs, .mem, .step, .caps, .links] s (s.capSkip st i r) := by
  unfold State.capSkip
  refine .ite (.ok .refl) ?_
  split
  · exact .error
  · refine .ite (.ok .refl) ?_
    refine .ite (.ok .refl) ?_
    dsimp only
    exact .ok (.step (touches_raiseDetail ..) (.step (touches_onCap ..) (.step (touches_capLoad ..) .refl)))

theorem touches_ccStop (s : State) (n : Nat) :
    Touches [.cores] s (s.ccStop n) := by
  unfold State.ccStop
  exact .step (touches_onCore ..) .refl

theorem touches_ccIllegal (s : State) (n : Nat) (code : Nat) :
    Touches [.out, .regs, .cores, .step, .links] s (s.ccIllegal n code) := by
  unfold State.ccIllegal
  dsimp only
  exact .step (touches_raiseDetail ..) (.step (touches_ccStop ..) .refl)

theorem touches_onCC (s : State) (n : Nat) (f : ControlCore → ControlCore) :
    Touches [.cores] s (s.onCC n f) := by
  unfold State.onCC
  exact .step (touches_onCore ..) .refl

theorem touches_ccWait (s : State) (n : Nat) (why : Nat) :
    Touches [.regs, .cores] s (s.ccWait n why) := by
  unfold State.ccWait
  exact .step (touches_bump ..) (.step (touches_onCC ..) .refl)

theorem touches_timingNr (s : State) (m : Nat) :
    Touches [.out, .regs, .step, .links] s (s.timingNr m) := by
  unfold State.timingNr
  dsimp only
  exact .foldl (.step (touches_set_step ..) .refl) fun t a => .step (touches_raise ..) .refl

theorem touches_tnrNow (s : State) (m : Nat) :
    Touches [.out, .regs, .step, .links] s (s.tnrNow m) := by
  unfold State.tnrNow
  exact .ite (.step (touches_timingNr ..) .refl) .refl

theorem touches_override (s : State) :
    Touches [.out, .regs, .step, .links] s (s.override) := by
  unfold State.override
  exact .step (touches_tnrNow ..) .refl

theorem touches_spareExhausted (s : State) (d : Nat) :
    Touches [.out, .regs, .step, .links] s (s.spareExhausted d) := by
  unfold State.spareExhausted
  exact .step (touches_alert ..) (.step (touches_raise ..) .refl)

theorem touches_markCell (s : State) (d : Nat) (phys : Nat) :
    Touches [.out, .regs, .step, .links, .rel] s (s.markCell d phys) := by
  unfold State.markCell
  exact .ite .refl (.ite (.step (touches_spareExhausted ..) .refl) (.step (touches_onRel ..) .refl))

theorem touches_raiseFor (s : State) (p : Part) (b : Nat) (ctxs : List Nat) :
    Touches [.out, .regs, .step, .links] s (s.raiseFor p b ctxs) := by
  unfold State.raiseFor
  split
  · exact .step (touches_raiseWith ..) .refl
  · dsimp only
    exact .foldl (.step (touches_raiseWith ..) .refl) fun t a => .step (touches_fault ..) .refl

theorem touches_cellError (s : State) (d : Nat) (c : Nat) (k : Nat) :
    Touches [.out, .regs, .step, .links, .rel] s (s.cellError d c k) := by
  unfold State.cellError
  dsimp only
  exact .ite (.step (touches_override ..) (.step (touches_markCell ..) (.step (touches_raiseFor ..) .refl))) .refl

theorem touches_cellCheck (s : State) (err : Bool) (d : Nat) (c : Nat) (k : Nat) :
    Touches [.out, .regs, .step, .links, .rel] s (s.cellCheck err d c k) := by
  unfold State.cellCheck
  exact .ite (.step (touches_cellError ..) .refl) .refl

theorem touches_onCell (s : State) (d : Nat) (i : Nat) (f : CellJob → CellJob) :
    Touches [.whips] s (s.onCell d i f) := by
  unfold State.onCell
  exact .step (touches_setWhip ..) .refl

theorem touches_cellDone (s : State) (d : Nat) (i : Nat) (x : XRec) (res : List XCell) :
    OptTouches [.out, .regs, .cores, .knots, .hbm, .poison, .mem, .step, .whips, .caps, .links] s (s.cellDone d i x res) := by
  unfold State.cellDone
  dsimp only
  refine .ite ?_ (.some (.step (touches_whipDone ..) (.step (touches_onCell ..) .refl)))
  split
  · exact .step (touches_memFail ..) (.step (touches_onCell ..) .refl)
  · rename_i h2
    exact .some (.step (touches_whipDone ..) (.step (Touches.of_ok (touches_ctxWrite ..) h2) (.step (touches_onCell ..) .refl)))

theorem touches_cellSend (s : State) (d : Nat) (x : XRec) (i : Nat) (leg : Nat) (route : Nat) (dest : Nat) (cs : List XCell) :
    Touches [.out, .regs, .links] s (s.cellSend d x i leg route dest cs) := by
  unfold State.cellSend
  refine .foldl .refl fun t a => ?_
  dsimp only
  exact .step (touches_send ..) (.step (touches_bump ..) (.step (touches_bump ..) .refl))

theorem touches_cellManage (s : State) (d : Nat) (i : Nat) (x : XRec) :
    OptTouches [.out, .regs, .cores, .knots, .hbm, .poison, .mem, .step, .whips, .caps, .links] s (s.cellManage d i x) := by
  unfold State.cellManage
  dsimp only
  exact .ite (.step (touches_cellDone ..) (.foldl (.ite (.foldl (.step (touches_onCell ..) .refl) fun t a => .step (touches_cellSend ..)
    .refl) .refl) fun t a => .step (touches_cellSend ..) .refl)) (.some (.ite (.foldl (.step (touches_onCell ..) .refl) fun t a => .step
    (touches_cellSend ..) .refl) .refl))

theorem touches_cellMine (s : State) (d : Nat) (i : Nat) (x : XRec) (cs : List XCell) :
    OptTouches [.out, .regs, .cores, .knots, .hbm, .poison, .mem, .step, .whips, .caps, .links] s (s.cellMine d i x cs) := by
  unfold State.cellMine
  dsimp only
  exact .ite (.step (touches_cellManage ..) (.step (touches_onCell ..) (.step (touches_onCell ..) .refl))) (.some (.step (touches_cellSend
    ..) (.step (touches_onCell ..) .refl)))

theorem touches_cellRecv (s : State) (die : Nat) (m : CellMsg) :
    OptTouches [.out, .regs, .cores, .knots, .hbm, .poison, .mem, .step, .whips, .caps, .links] s (s.cellRecv die m) := by
  unfold State.cellRecv
  dsimp only
  refine .ite (.some (.step (touches_whipStale ..) (.step (touches_bump ..) .refl))) ?_
  split
  · exact .some (.step (touches_bump ..) .refl)
  · refine .ite (.some (.step (touches_bump ..) .refl)) ?_
    split
    · exact .step (touches_cellManage ..) (.step (touches_onCell ..) (.step (touches_bump ..) .refl))
    · exact .step (touches_cellManage ..) (.step (touches_onCell ..) (.step (touches_bump ..) .refl))
    · exact .ite (.step (touches_cellDone ..) (.step (touches_onCell ..) (.step (touches_bump ..) .refl))) (.some (.step (touches_onCell ..)
        (.step (touches_bump ..) .refl)))

theorem touches_cellTake (s : State) (d : Nat) (i : Nat) (x : XRec) :
    OptTouches [.out, .regs, .cores, .knots, .hbm, .poison, .mem, .step, .whips, .caps, .links] s (s.cellTake d i x) := by
  unfold State.cellTake
  refine .ite (.some .refl) ?_
  split
  · exact .step (touches_memFail ..) .refl
  · exact .step (touches_cellMine ..) (.step (touches_ctxLoad ..) .refl)

theorem touches_chafeRetire (s : State) (d : Nat) (value : W64) :
    Touches [.regs] s (s.chafeRetire d value) := by
  unfold State.chafeRetire
  dsimp only
  exact .ite .refl (.step (touches_setReg ..) (.step (touches_setReg ..) .refl))

theorem touches_clearCtxKnots (s : State) (d : Nat) (c : Nat) :
    Touches [.knots] s (s.clearCtxKnots d c) := by
  unfold State.clearCtxKnots
  dsimp only
  exact .step (touches_setKnot ..) .refl

theorem touches_clearStepKnots (s : State) (d : Nat) :
    Touches [.knots] s (s.clearStepKnots d) := by
  unfold State.clearStepKnots
  dsimp only
  exact .step (touches_setKnot ..) .refl

theorem touches_clearTotals (s : State) :
    Touches [.regs] s (s.clearTotals) := by
  unfold State.clearTotals
  exact .step (touches_set_regs ..) .refl

theorem touches_decodeError (s : State) (write : Bool) (addr : Nat) :
    Touches [.out, .regs, .step, .links] s (s.decodeError write addr) := by
  unfold State.decodeError
  dsimp only
  exact .step (touches_raise ..) (.step (touches_detail ..) .refl)

theorem touches_clkBound (s : State) (value : W64) :
    Touches [.out, .regs, .step, .links] s (s.clkBound value) := by
  unfold State.clkBound
  dsimp only
  exact .ite (.step (touches_decodeError ..) .refl) (.step (touches_setRegFld ..) (.step (touches_setRegFld ..) .refl))

theorem touches_commitCaps (s : State) (vetoes : List Nat) :
    Touches [.out, .regs, .hbm, .poison, .mem, .step, .links] s (s.commitCaps vetoes) := by
  unfold State.commitCaps
  refine .foldl .refl fun t a => ?_
  dsimp only
  exact .foldl (.step (touches_capCommit ..) .refl) fun t a => .step (touches_raise ..) (.step (touches_bump ..) .refl)

theorem touches_commitMboxes (s : State) :
    Touches [.regs] s (s.commitMboxes) := by
  unfold State.commitMboxes
  dsimp only
  exact .foldl .refl fun t a => .step (touches_setReg ..) .refl

theorem touches_mirWord (s : State) (e : MirEntry) (version : Nat) (h : Bool) :
    Touches [.hbm, .poison, .mem] s (s.mirWord e version h) := by
  unfold State.mirWord
  exact .step (touches_hbmWrite ..) .refl

theorem touches_mirrorCommit (s : State) (vetoes : List Nat) :
    Touches [.hbm, .poison, .mem, .mirror] s (s.mirrorCommit vetoes) := by
  unfold State.mirrorCommit
  dsimp only
  refine .step (touches_set_mirror ..) ?_
  refine .foldl .refl fun t a => ?_
  split
  · exact .refl
  · exact .ite .refl (.step (touches_mirWord ..) .refl)

theorem touches_onEc (s : State) (core : Nat) (f : ErrCtl → ErrCtl) :
    Touches [.cores] s (s.onEc core f) := by
  unfold State.onEc
  exact .step (touches_onCore ..) .refl

theorem touches_onLayer (s : State) (core : Nat) (n : Nat) (f : EcLayer → EcLayer) :
    Touches [.cores] s (s.onLayer core n f) := by
  unfold State.onLayer
  exact .step (touches_onEc ..) .refl

theorem touches_ecFlag (s : State) (core : Nat) (kind : Nat) (metrics : Nat) (layer : Nat) (epoch : Nat) (idx : Nat) (tile : Nat) :
    Touches [.out, .regs, .step, .links] s (s.ecFlag core kind metrics layer epoch idx tile) := by
  unfold State.ecFlag
  dsimp only
  exact .ite (.step (touches_raise ..) (.step (touches_bump ..) (.ite .refl (.step (touches_setReg ..) (.step (touches_detail ..) .refl)))))
    (.ite (.step (touches_raise ..) (.step (touches_raise ..) (.step (touches_bump ..) (.ite .refl (.step (touches_setReg ..) (.step
    (touches_detail ..) .refl)))))) (.step (touches_raise ..) (.step (touches_bump ..) (.ite .refl (.step (touches_setReg ..) (.step
    (touches_detail ..) .refl))))))

theorem touches_ratchetLayer (s : State) (core : Nat) (n : Nat) (l : EcLayer) (m : Summary) :
    Touches [.out, .regs, .cores, .step, .links] s (s.ratchetLayer core n l m) := by
  unfold State.ratchetLayer
  dsimp only
  exact .ite (.step (touches_ecFlag ..) (.step (touches_bump ..) (.step (touches_bump ..) (.step (touches_onLayer ..) .refl)))) (.step
    (touches_bump ..) (.step (touches_bump ..) (.step (touches_onLayer ..) .refl)))

theorem touches_ratchetAll (s : State) (m : Summary) :
    Touches [.out, .regs, .cores, .step, .links] s (s.ratchetAll m) := by
  unfold State.ratchetAll
  refine .foldl .refl fun t a => ?_
  dsimp only
  exact .foldl (.step (touches_bump ..) .refl) fun t a => .step (touches_ratchetLayer ..) .refl

theorem touches_releaseFeeds (s : State) :
    Touches [.out, .regs, .cores, .knots, .step, .caps, .links] s (s.releaseFeeds) := by
  unfold State.releaseFeeds
  refine .foldl .refl fun t a => ?_
  dsimp only
  exact .ite (.step (touches_flush ..) (.step (touches_settleAll ..) (.step (touches_putKnot ..) .refl))) .refl

theorem touches_stepRecord (s : State) (committed : Bool) :
    Touches [.regs] s (s.stepRecord committed) := by
  unfold State.stepRecord
  dsimp only
  exact .ite (.step (touches_setReg ..) (.step (touches_setReg ..) (.step (touches_setReg ..) (.step (touches_setReg ..) (.step
    (touches_setReg ..) .refl))))) (.step (touches_bump ..) (.step (touches_setReg ..) (.step (touches_setReg ..) (.step (touches_setReg ..)
    (.step (touches_setReg ..) (.step (touches_setReg ..) .refl))))))

theorem touches_hankClear (s : State) :
    Touches [.hank] s (s.hankClear) := by
  unfold State.hankClear
  exact .step (touches_onHank ..) .refl

theorem touches_samplePhy (s : State) (f : SlotFacts) :
    Touches [.out, .regs, .mem, .step, .links] s (s.samplePhy f) := by
  unfold State.samplePhy
  dsimp only
  exact .foldl (.step (touches_set_mem ..) .refl) fun t a => .step (touches_raise ..) .refl

theorem touches_slotSpares (s : State) (d : Nat) :
    Touches [.regs, .scratch, .mem, .clusterMap, .rel] s (s.slotSpares d) := by
  unfold State.slotSpares
  dsimp only
  exact .foldl (.step (touches_onRel ..) .refl) fun t a => .foldl .refl fun t a => .step (touches_bringSpare ..) .refl

theorem touches_otpPairs (s : State) (d : Nat) (v : W64) (l : List Nat) : Touches [.out, .regs, .step, .links, .sec] s (s.otpPairs d v l).1 := by
  induction l generalizing s with
  | nil =>
    unfold State.otpPairs
    dsimp only
    exact .step (touches_raise ..) .refl
  | cons i l ih =>
    unfold State.otpPairs
    dsimp only
    split
    · exact .step (ih _) (.step (touches_raise ..) (.step (touches_burn ..) .refl))
    · split
      · dsimp only
        exact .step (touches_burn ..) (.step (touches_burn ..) .refl)
      · exact .step (ih _) (.step (touches_raise ..) (.step (touches_burn ..) (.step (touches_burn ..) .refl)))

theorem touches_otpRecord (s : State) (d : Nat) (r : Repair) :
    Touches [.out, .regs, .step, .links, .sec] s (s.otpRecord d r).1 := by
  unfold State.otpRecord
  exact .step (touches_otpPairs ..) .refl

theorem touches_journalEmit (s : State) (kind : Nat) (origin : Nat) (vol : Bool) (at_ : Nat × Nat) (body : List Byte) :
    Touches [.out, .regs, .step, .links, .journal] s (s.journalEmit kind origin vol at_ body) := by
  unfold State.journalEmit
  dsimp only
  exact .step (touches_journalEntry ..) (.ite .refl (.step (touches_journalFresh ..) .refl))

theorem touches_recordRepairs (s : State) (d : Nat) :
    Touches [.out, .regs, .step, .links, .sec, .journal, .rel] s (s.recordRepairs d) := by
  unfold State.recordRepairs
  dsimp only
  exact .foldl (.step (touches_onRel ..) .refl) fun t a => .step (touches_journalEmit ..) (.ite (.step (touches_otpRecord ..) .refl) (.step
    (touches_onRel ..) (.step (touches_otpRecord ..) .refl)))

theorem touches_slotUcie (s : State) (f : SlotFacts) :
    Touches [.regs, .mem, .clusterMap, .rel] s (s.slotUcie f) := by
  unfold State.slotUcie
  exact .foldl .refl fun t a => .step (touches_commitRepair ..) .refl

theorem touches_slotLink (s : State) (h : Nat) :
    Touches [.regs, .mem, .clusterMap, .links, .rel] s (s.slotLink h) := by
  unfold State.slotLink
  refine .ite .refl ?_
  dsimp only
  exact .ite (.step (touches_setLinkState ..) (.step (touches_setRegFld ..) (.foldl .refl fun t a => .ite (.step (touches_setRegFld ..)
    (.step (touches_setRegFld ..) .refl)) (.ite (.step (touches_commitRepair ..) .refl) (.step (touches_setLink ..) .refl))))) (.ite (.step
    (touches_trainLink ..) (.step (touches_setRegFld ..) (.foldl .refl fun t a => .ite (.step (touches_setRegFld ..) (.step
    (touches_setRegFld ..) .refl)) (.ite (.step (touches_commitRepair ..) .refl) (.step (touches_setLink ..) .refl))))) (.step
    (touches_setRegFld ..) (.foldl .refl fun t a => .ite (.step (touches_setRegFld ..) (.step (touches_setRegFld ..) .refl)) (.ite (.step
    (touches_commitRepair ..) .refl) (.step (touches_setLink ..) .refl)))))

theorem touches_slotPhase (s : State) (h : Nat) :
    Touches [.regs, .links] s (s.slotPhase h) := by
  unfold State.slotPhase
  dsimp only
  exact .ite .refl (.ite (.step (touches_setLink ..) (.step (touches_setRegFld ..) .refl)) (.step (touches_bump ..) .refl))

theorem touches_slotLinks (s : State) :
    Touches [.regs, .mem, .clusterMap, .links, .rel] s (s.slotLinks) := by
  unfold State.slotLinks
  exact .foldl .refl fun t a => .step (touches_slotLink ..) (.step (touches_slotPhase ..) .refl)

theorem touches_migComplete (s : State) (st : Nat) :
    Touches [.out, .regs, .mem, .step, .links] s (s.migComplete st) := by
  unfold State.migComplete
  dsimp only
  exact .step (touches_raise ..) (.step (touches_setRegFld ..) (.step (touches_setReg ..) (.step (touches_set_mem ..) .refl)))

theorem touches_slotHbm (s : State) (f : SlotFacts) :
    Touches [.out, .regs, .mem, .step, .clusterMap, .links, .rel] s (s.slotHbm f) := by
  unfold State.slotHbm
  dsimp only
  refine .foldl (.foldl (.step (touches_set_mem ..) .refl) fun t a => .step (touches_raise ..) (.step (touches_raise ..) .refl)) fun t a =>
    ?_
  split
  · exact .ite (.ite (.step (touches_commitRepair ..) (.step (touches_migComplete ..) .refl)) .refl) (.step (touches_set_mem ..) (.step
      (touches_setReg ..) (.ite (.step (touches_commitRepair ..) (.step (touches_migComplete ..) .refl)) .refl)))
  · exact .ite (.step (touches_commitRepair ..) (.step (touches_migComplete ..) .refl)) .refl

theorem touches_slotClock (s : State) (scheduled : Bool) :
    Touches [.out, .regs, .step, .links] s (s.slotClock scheduled) := by
  unfold State.slotClock
  dsimp only
  exact .ite .refl (.ite (.step (touches_bump ..) (.step (touches_raise ..) (.step (touches_setRegFld ..) (.step (touches_setRegFld ..)
    .refl)))) (.step (touches_setRegFld ..) (.step (touches_setRegFld ..) .refl)))

theorem touches_lanePeriod (s : State) :
    Touches [.links] s (s.lanePeriod) := by
  unfold State.lanePeriod
  exact .step (touches_set_links ..) .refl

theorem touches_wear {F : List Field} {s t : State} {d : Nat} {critical : Bool} {mark : State → State} (h : Touches F s t)
    (hm : ∀ t, Touches F t (mark t)) (hF : [.out, .regs, .step, .links] ⊆ F := by decide) : Touches F s (t.wear d critical mark) := by
  unfold State.wear
  have h1 : Touches F s (t.raise (.dieCtl d) 1) := .step (touches_raise ..) h hF
  have h2 : Touches F s ((t.raise (.dieCtl d) 1).raise (.dieCtl d) 2) := .step (touches_raise ..) h1 hF
  exact .ite h1 (.ite ((hm _).step h2 (List.Subset.refl F)) h2)

theorem touches_markCluster (s : State) (d : Nat) (l : Nat) :
    Touches [.out, .regs, .step, .links, .rel] s (s.markCluster d l) := by
  unfold State.markCluster
  exact .ite .refl (.ite (.step (touches_spareExhausted ..) .refl) (.step (touches_onRel ..) .refl))

theorem touches_markCore (s : State) (d : Nat) (l : Nat) (k : Nat) :
    Touches [.out, .regs, .step, .links, .rel] s (s.markCore d l k) := by
  unfold State.markCore
  dsimp only
  exact .ite .refl (.ite (.step (touches_markCluster ..) .refl) (.step (touches_onRel ..) .refl))

theorem touches_markBank (s : State) (d : Nat) (l : Nat) (part : Nat) :
    Touches [.out, .regs, .step, .links, .rel] s (s.markBank d l part) := by
  unfold State.markBank
  dsimp only
  exact .ite .refl (.ite (.step (touches_spareExhausted ..) .refl) (.step (touches_onRel ..) .refl))

theorem touches_sampleWear (s : State) (f : SlotFacts) :
    Touches [.out, .regs, .step, .links, .rel] s (s.sampleWear f) := by
  unfold State.sampleWear
  dsimp only
  exact .foldl (.foldl .refl fun t a => .ite .refl (touches_wear .refl fun t => .ite (.step (touches_markCluster ..) .refl) (.step
    (touches_markCore ..) .refl))) fun t a => .foldl (.step (touches_onRel ..) .refl) fun t a => .ite .refl (touches_wear .refl fun t =>
    .step (touches_markBank ..) .refl)

theorem touches_slot (s : State) (f : SlotFacts) (scheduled : Bool) :
    Touches [.out, .regs, .scratch, .mem, .step, .clusterMap, .links, .sec, .journal, .rel, .pwr] s (s.slot f scheduled) := by
  unfold State.slot
  dsimp only
  exact .ite (.step (touches_setRegFld ..) (.step (touches_set_mem_pwr ..) (.step (touches_lanePeriod ..) (.step (touches_sampleWear ..)
    (.ite (.step (touches_slotClock ..) (.ite (.step (touches_slotHbm ..) (.ite (.step (touches_slotLinks ..) (.ite (.step (touches_slotUcie
    ..) (.ite (.step (touches_slotSpares ..) (.step (touches_slotSpares ..) (.step (touches_recordRepairs ..) (.step (touches_recordRepairs
    ..) (.step (touches_samplePhy ..) (.step (touches_bump ..) (.step (touches_onStep ..) .refl))))))) (.step (touches_samplePhy ..) (.step
    (touches_bump ..) (.step (touches_onStep ..) .refl))))) (.ite (.step (touches_slotSpares ..) (.step (touches_slotSpares ..) (.step
    (touches_recordRepairs ..) (.step (touches_recordRepairs ..) (.step (touches_samplePhy ..) (.step (touches_bump ..) (.step
    (touches_onStep ..) .refl))))))) (.step (touches_samplePhy ..) (.step (touches_bump ..) (.step (touches_onStep ..) .refl)))))) (.ite
    (.step (touches_slotUcie ..) (.ite (.step (touches_slotSpares ..) (.step (touches_slotSpares ..) (.step (touches_recordRepairs ..) (.step
    (touches_recordRepairs ..) (.step (touches_samplePhy ..) (.step (touches_bump ..) (.step (touches_onStep ..) .refl))))))) (.step
    (touches_samplePhy ..) (.step (touches_bump ..) (.step (touches_onStep ..) .refl))))) (.ite (.step (touches_slotSpares ..) (.step
    (touches_slotSpares ..) (.step (touches_recordRepairs ..) (.step (touches_recordRepairs ..) (.step (touches_samplePhy ..) (.step
    (touches_bump ..) (.step (touches_onStep ..) .refl))))))) (.step (touches_samplePhy ..) (.step (touches_bump ..) (.step (touches_onStep
    ..) .refl))))))) (.ite (.step (touches_slotLinks ..) (.ite (.step (touches_slotUcie ..) (.ite (.step (touches_slotSpares ..) (.step
    (touches_slotSpares ..) (.step (touches_recordRepairs ..) (.step (touches_recordRepairs ..) (.step (touches_samplePhy ..) (.step
    (touches_bump ..) (.step (touches_onStep ..) .refl))))))) (.step (touches_samplePhy ..) (.step (touches_bump ..) (.step (touches_onStep
    ..) .refl))))) (.ite (.step (touches_slotSpares ..) (.step (touches_slotSpares ..) (.step (touches_recordRepairs ..) (.step
    (touches_recordRepairs ..) (.step (touches_samplePhy ..) (.step (touches_bump ..) (.step (touches_onStep ..) .refl))))))) (.step
    (touches_samplePhy ..) (.step (touches_bump ..) (.step (touches_onStep ..) .refl)))))) (.ite (.step (touches_slotUcie ..) (.ite (.step
    (touches_slotSpares ..) (.step (touches_slotSpares ..) (.step (touches_recordRepairs ..) (.step (touches_recordRepairs ..) (.step
    (touches_samplePhy ..) (.step (touches_bump ..) (.step (touches_onStep ..) .refl))))))) (.step (touches_samplePhy ..) (.step
    (touches_bump ..) (.step (touches_onStep ..) .refl))))) (.ite (.step (touches_slotSpares ..) (.step (touches_slotSpares ..) (.step
    (touches_recordRepairs ..) (.step (touches_recordRepairs ..) (.step (touches_samplePhy ..) (.step (touches_bump ..) (.step
    (touches_onStep ..) .refl))))))) (.step (touches_samplePhy ..) (.step (touches_bump ..) (.step (touches_onStep ..) .refl)))))))) (.ite
    (.step (touches_slotHbm ..) (.ite (.step (touches_slotLinks ..) (.ite (.step (touches_slotUcie ..) (.ite (.step (touches_slotSpares ..)
    (.step (touches_slotSpares ..) (.step (touches_recordRepairs ..) (.step (touches_recordRepairs ..) (.step (touches_samplePhy ..) (.step
    (touches_bump ..) (.step (touches_onStep ..) .refl))))))) (.step (touches_samplePhy ..) (.step (touches_bump ..) (.step (touches_onStep
    ..) .refl))))) (.ite (.step (touches_slotSpares ..) (.step (touches_slotSpares ..) (.step (touches_recordRepairs ..) (.step
    (touches_recordRepairs ..) (.step (touches_samplePhy ..) (.step (touches_bump ..) (.step (touches_onStep ..) .refl))))))) (.step
    (touches_samplePhy ..) (.step (touches_bump ..) (.step (touches_onStep ..) .refl)))))) (.ite (.step (touches_slotUcie ..) (.ite (.step
    (touches_slotSpares ..) (.step (touches_slotSpares ..) (.step (touches_recordRepairs ..) (.step (touches_recordRepairs ..) (.step
    (touches_samplePhy ..) (.step (touches_bump ..) (.step (touches_onStep ..) .refl))))))) (.step (touches_samplePhy ..) (.step
    (touches_bump ..) (.step (touches_onStep ..) .refl))))) (.ite (.step (touches_slotSpares ..) (.step (touches_slotSpares ..) (.step
    (touches_recordRepairs ..) (.step (touches_recordRepairs ..) (.step (touches_samplePhy ..) (.step (touches_bump ..) (.step
    (touches_onStep ..) .refl))))))) (.step (touches_samplePhy ..) (.step (touches_bump ..) (.step (touches_onStep ..) .refl))))))) (.ite
    (.step (touches_slotLinks ..) (.ite (.step (touches_slotUcie ..) (.ite (.step (touches_slotSpares ..) (.step (touches_slotSpares ..)
    (.step (touches_recordRepairs ..) (.step (touches_recordRepairs ..) (.step (touches_samplePhy ..) (.step (touches_bump ..) (.step
    (touches_onStep ..) .refl))))))) (.step (touches_samplePhy ..) (.step (touches_bump ..) (.step (touches_onStep ..) .refl))))) (.ite
    (.step (touches_slotSpares ..) (.step (touches_slotSpares ..) (.step (touches_recordRepairs ..) (.step (touches_recordRepairs ..) (.step
    (touches_samplePhy ..) (.step (touches_bump ..) (.step (touches_onStep ..) .refl))))))) (.step (touches_samplePhy ..) (.step
    (touches_bump ..) (.step (touches_onStep ..) .refl)))))) (.ite (.step (touches_slotUcie ..) (.ite (.step (touches_slotSpares ..) (.step
    (touches_slotSpares ..) (.step (touches_recordRepairs ..) (.step (touches_recordRepairs ..) (.step (touches_samplePhy ..) (.step
    (touches_bump ..) (.step (touches_onStep ..) .refl))))))) (.step (touches_samplePhy ..) (.step (touches_bump ..) (.step (touches_onStep
    ..) .refl))))) (.ite (.step (touches_slotSpares ..) (.step (touches_slotSpares ..) (.step (touches_recordRepairs ..) (.step
    (touches_recordRepairs ..) (.step (touches_samplePhy ..) (.step (touches_bump ..) (.step (touches_onStep ..) .refl))))))) (.step
    (touches_samplePhy ..) (.step (touches_bump ..) (.step (touches_onStep ..) .refl)))))))))))) (.step (touches_set_mem_pwr ..) (.step
    (touches_lanePeriod ..) (.step (touches_sampleWear ..) (.ite (.step (touches_slotClock ..) (.ite (.step (touches_slotHbm ..) (.ite (.step
    (touches_slotLinks ..) (.ite (.step (touches_slotUcie ..) (.ite (.step (touches_slotSpares ..) (.step (touches_slotSpares ..) (.step
    (touches_recordRepairs ..) (.step (touches_recordRepairs ..) (.step (touches_samplePhy ..) (.step (touches_bump ..) (.step
    (touches_onStep ..) .refl))))))) (.step (touches_samplePhy ..) (.step (touches_bump ..) (.step (touches_onStep ..) .refl))))) (.ite
    (.step (touches_slotSpares ..) (.step (touches_slotSpares ..) (.step (touches_recordRepairs ..) (.step (touches_recordRepairs ..) (.step
    (touches_samplePhy ..) (.step (touches_bump ..) (.step (touches_onStep ..) .refl))))))) (.step (touches_samplePhy ..) (.step
    (touches_bump ..) (.step (touches_onStep ..) .refl)))))) (.ite (.step (touches_slotUcie ..) (.ite (.step (touches_slotSpares ..) (.step
    (touches_slotSpares ..) (.step (touches_recordRepairs ..) (.step (touches_recordRepairs ..) (.step (touches_samplePhy ..) (.step
    (touches_bump ..) (.step (touches_onStep ..) .refl))))))) (.step (touches_samplePhy ..) (.step (touches_bump ..) (.step (touches_onStep
    ..) .refl))))) (.ite (.step (touches_slotSpares ..) (.step (touches_slotSpares ..) (.step (touches_recordRepairs ..) (.step
    (touches_recordRepairs ..) (.step (touches_samplePhy ..) (.step (touches_bump ..) (.step (touches_onStep ..) .refl))))))) (.step
    (touches_samplePhy ..) (.step (touches_bump ..) (.step (touches_onStep ..) .refl))))))) (.ite (.step (touches_slotLinks ..) (.ite (.step
    (touches_slotUcie ..) (.ite (.step (touches_slotSpares ..) (.step (touches_slotSpares ..) (.step (touches_recordRepairs ..) (.step
    (touches_recordRepairs ..) (.step (touches_samplePhy ..) (.step (touches_bump ..) (.step (touches_onStep ..) .refl))))))) (.step
    (touches_samplePhy ..) (.step (touches_bump ..) (.step (touches_onStep ..) .refl))))) (.ite (.step (touches_slotSpares ..) (.step
    (touches_slotSpares ..) (.step (touches_recordRepairs ..) (.step (touches_recordRepairs ..) (.step (touches_samplePhy ..) (.step
    (touches_bump ..) (.step (touches_onStep ..) .refl))))))) (.step (touches_samplePhy ..) (.step (touches_bump ..) (.step (touches_onStep
    ..) .refl)))))) (.ite (.step (touches_slotUcie ..) (.ite (.step (touches_slotSpares ..) (.step (touches_slotSpares ..) (.step
    (touches_recordRepairs ..) (.step (touches_recordRepairs ..) (.step (touches_samplePhy ..) (.step (touches_bump ..) (.step
    (touches_onStep ..) .refl))))))) (.step (touches_samplePhy ..) (.step (touches_bump ..) (.step (touches_onStep ..) .refl))))) (.ite
    (.step (touches_slotSpares ..) (.step (touches_slotSpares ..) (.step (touches_recordRepairs ..) (.step (touches_recordRepairs ..) (.step
    (touches_samplePhy ..) (.step (touches_bump ..) (.step (touches_onStep ..) .refl))))))) (.step (touches_samplePhy ..) (.step
    (touches_bump ..) (.step (touches_onStep ..) .refl)))))))) (.ite (.step (touches_slotHbm ..) (.ite (.step (touches_slotLinks ..) (.ite
    (.step (touches_slotUcie ..) (.ite (.step (touches_slotSpares ..) (.step (touches_slotSpares ..) (.step (touches_recordRepairs ..) (.step
    (touches_recordRepairs ..) (.step (touches_samplePhy ..) (.step (touches_bump ..) (.step (touches_onStep ..) .refl))))))) (.step
    (touches_samplePhy ..) (.step (touches_bump ..) (.step (touches_onStep ..) .refl))))) (.ite (.step (touches_slotSpares ..) (.step
    (touches_slotSpares ..) (.step (touches_recordRepairs ..) (.step (touches_recordRepairs ..) (.step (touches_samplePhy ..) (.step
    (touches_bump ..) (.step (touches_onStep ..) .refl))))))) (.step (touches_samplePhy ..) (.step (touches_bump ..) (.step (touches_onStep
    ..) .refl)))))) (.ite (.step (touches_slotUcie ..) (.ite (.step (touches_slotSpares ..) (.step (touches_slotSpares ..) (.step
    (touches_recordRepairs ..) (.step (touches_recordRepairs ..) (.step (touches_samplePhy ..) (.step (touches_bump ..) (.step
    (touches_onStep ..) .refl))))))) (.step (touches_samplePhy ..) (.step (touches_bump ..) (.step (touches_onStep ..) .refl))))) (.ite
    (.step (touches_slotSpares ..) (.step (touches_slotSpares ..) (.step (touches_recordRepairs ..) (.step (touches_recordRepairs ..) (.step
    (touches_samplePhy ..) (.step (touches_bump ..) (.step (touches_onStep ..) .refl))))))) (.step (touches_samplePhy ..) (.step
    (touches_bump ..) (.step (touches_onStep ..) .refl))))))) (.ite (.step (touches_slotLinks ..) (.ite (.step (touches_slotUcie ..) (.ite
    (.step (touches_slotSpares ..) (.step (touches_slotSpares ..) (.step (touches_recordRepairs ..) (.step (touches_recordRepairs ..) (.step
    (touches_samplePhy ..) (.step (touches_bump ..) (.step (touches_onStep ..) .refl))))))) (.step (touches_samplePhy ..) (.step
    (touches_bump ..) (.step (touches_onStep ..) .refl))))) (.ite (.step (touches_slotSpares ..) (.step (touches_slotSpares ..) (.step
    (touches_recordRepairs ..) (.step (touches_recordRepairs ..) (.step (touches_samplePhy ..) (.step (touches_bump ..) (.step
    (touches_onStep ..) .refl))))))) (.step (touches_samplePhy ..) (.step (touches_bump ..) (.step (touches_onStep ..) .refl)))))) (.ite
    (.step (touches_slotUcie ..) (.ite (.step (touches_slotSpares ..) (.step (touches_slotSpares ..) (.step (touches_recordRepairs ..) (.step
    (touches_recordRepairs ..) (.step (touches_samplePhy ..) (.step (touches_bump ..) (.step (touches_onStep ..) .refl))))))) (.step
    (touches_samplePhy ..) (.step (touches_bump ..) (.step (touches_onStep ..) .refl))))) (.ite (.step (touches_slotSpares ..) (.step
    (touches_slotSpares ..) (.step (touches_recordRepairs ..) (.step (touches_recordRepairs ..) (.step (touches_samplePhy ..) (.step
    (touches_bump ..) (.step (touches_onStep ..) .refl))))))) (.step (touches_samplePhy ..) (.step (touches_bump ..) (.step (touches_onStep
    ..) .refl)))))))))))

theorem touches_sample (s : State) :
    Touches [.out, .regs, .step, .whips, .caps, .hank, .links] s (s.sample) := by
  unfold State.sample
  refine .ite (.step (touches_armGo ..) .refl) ?_
  dsimp only
  exact .ite (.step (touches_castDown ..) (.step (touches_holdReady ..) (.step (touches_enterHeld ..) .refl))) (.step (touches_enterHeld ..)
    .refl)

theorem touches_commitStep (s : State) (m : Summary) (f : SlotFacts) :
    Touches [.out, .regs, .cores, .knots, .hbm, .scratch, .poison, .mem, .step, .siteMax, .sitePend, .clusterMap, .whips, .caps, .wMax, .wPend, .hank, .links, .sec, .journal, .mirror, .rel, .pwr] s (s.commitStep m f) := by
  unfold State.commitStep
  dsimp only
  exact .ite (.step (touches_slot ..) (.step (touches_hankClear ..) (.step (touches_bump ..) (.step (touches_onStep ..) (.step
    (touches_setReg ..) (.step (touches_stepRecord ..) (.step (touches_onStep ..) (.step (touches_timingNr ..) (.step (touches_releaseFeeds
    ..) (.step (touches_commitMboxes ..) (.step (touches_set_siteMax_sitePend_wMax_wPend ..) (.step (touches_ratchetAll ..) (.step
    (touches_mirrorCommit ..) (.step (touches_commitCaps ..) .refl)))))))))))))) (.step (touches_sample ..) (.step (touches_hankClear ..)
    (.step (touches_bump ..) (.step (touches_onStep ..) (.step (touches_setReg ..) (.step (touches_stepRecord ..) (.step (touches_onStep ..)
    (.step (touches_timingNr ..) (.step (touches_releaseFeeds ..) (.step (touches_commitMboxes ..) (.step
    (touches_set_siteMax_sitePend_wMax_wPend ..) (.step (touches_ratchetAll ..) (.step (touches_mirrorCommit ..) (.step (touches_commitCaps
    ..) .refl))))))))))))))

theorem touches_noteK (s : State) (k : Nat) :
    Touches [.step] s (s.noteK k) := by
  unfold State.noteK
  exact .ite (.step (touches_onStep ..) .refl) .refl

theorem touches_commitTake (s : State) (step : Nat) (attempt : Nat) (m : Summary) (k : Nat) (facts : SlotFacts) :
    OptTouches [.out, .regs, .cores, .knots, .hbm, .scratch, .poison, .mem, .step, .siteMax, .sitePend, .clusterMap, .whips, .caps, .wMax, .wPend, .hank, .links, .sec, .journal, .mirror, .rel, .pwr] s (s.commitTake step attempt m k facts) := by
  unfold State.commitTake
  dsimp only
  exact .ite .none (.some (.ite (.ite (.step (touches_commitStep ..) .refl) .refl) (.ite (.step (touches_commitStep ..) (.step (touches_noteK
    ..) (.step (touches_castDown ..) .refl))) (.step (touches_castDown ..) .refl))))

theorem touches_ravelInput (s : State) (core : Nat) (n : RegName) (v : W64) :
    Touches [.regs] s (s.ravelInput core n v) := by
  unfold State.ravelInput
  exact .step (touches_setRegFld ..) (.step (touches_setReg ..) .refl)

theorem touches_plainWrite (s : State) (id : RegId) (v : W64) :
    Touches [.regs] s (s.plainWrite id v) := by
  unfold State.plainWrite
  exact .step (touches_setReg ..) .refl

theorem touches_heldWrite (s : State) (id : RegId) (v : W64) (addr : Nat) :
    Touches [.out, .regs, .step, .links] s (s.heldWrite id v addr) := by
  unfold State.heldWrite
  exact .ite (.step (touches_plainWrite ..) .refl) (.step (touches_decodeError ..) .refl)

theorem touches_layerBound (s : State) (core : Nat) (n : Nat) (v : W64) (addr : Nat) :
    Touches [.out, .regs, .cores, .step, .links] s (s.layerBound core n v addr) := by
  unfold State.layerBound
  dsimp only
  split
  · exact .step (touches_decodeError ..) .refl
  · exact .ite (.step (touches_decodeError ..) .refl) (.step (touches_onLayer ..) .refl)

theorem touches_layerWrite (s : State) (n : Nat) (i : Nat) (v : W64) :
    Touches [.out, .regs, .cores, .step, .links] s (s.layerWrite n i v) := by
  unfold State.layerWrite
  exact .step (touches_layerBound ..) .refl

theorem touches_coreRegWrite (s : State) (id : RegId) (n : Nat) (v : W64) (addr : Nat) :
    Touches [.out, .regs, .cores, .step, .links] s (s.coreRegWrite id n v addr) := by
  unfold State.coreRegWrite
  dsimp only
  split
  · exact .step (touches_heldWrite ..) .refl
  · exact .step (touches_heldWrite ..) .refl
  · exact .step (touches_layerWrite ..) .refl
  · exact .step (touches_ravelInput ..) .refl
  · exact .step (touches_ravelInput ..) .refl
  · exact .step (touches_ravelInput ..) .refl
  · exact .step (touches_ravelInput ..) .refl
  · exact .step (touches_onQnt ..) (.step (touches_ravelInput ..) .refl)
  · exact .step (touches_plainWrite ..) .refl

theorem touches_crossLate (s : State) (d : Nat) (n : Nat) :
    Touches [.out, .regs, .step, .links] s (s.crossLate d n) := by
  unfold State.crossLate
  exact .ite .refl (.step (touches_tnrNow ..) (.step (touches_bump ..) .refl))

theorem touches_onCtx (s : State) (c : Nat) (f : Ctx → Ctx) :
    Touches [.ctxs] s (s.onCtx c f) := by
  unfold State.onCtx
  exact .step (touches_set_ctxs ..) .refl

theorem touches_ctxRefuse (s : State) (c : Nat) :
    Touches [.out, .regs, .step, .links] s (s.ctxRefuse c) := by
  unfold State.ctxRefuse
  exact .step (touches_raise ..) (.step (touches_setRegFld ..) .refl)

theorem touches_ctxCreate (s : State) (c : Nat) (g : Nat) :
    Touches [.out, .regs, .ctxs, .mem, .step, .links] s (s.ctxCreate c g) := by
  unfold State.ctxCreate
  exact .ite (.step (touches_keyRebuild ..) (.step (touches_onCtx ..) .refl)) (.step (touches_ctxRefuse ..) .refl)

theorem touches_ctxScrub (s : State) (c : Nat) :
    Touches [.out, .regs, .ctxs, .mem, .step, .links] s (s.ctxScrub c) := by
  unfold State.ctxScrub
  exact .step (touches_keyRebuild ..) (.step (touches_onCtx ..) .refl)

theorem touches_ctxPoll (s : State) :
    Touches [.out, .regs, .ctxs, .mem, .step, .links] s (s.ctxPoll) := by
  unfold State.ctxPoll
  exact .foldl .refl fun t a => .ite (.step (touches_ctxScrub ..) .refl) .refl

theorem touches_dropKnots (s : State) (c : Nat) (d : Nat) :
    Touches [.out, .regs, .cores, .knots, .step, .caps, .links] s (s.dropKnots c d) := by
  unfold State.dropKnots
  dsimp only
  exact .step (touches_flush ..) (.step (touches_doorOpen ..) (.step (touches_setKnot ..) .refl))

theorem touches_ctxTeardown (s : State) (c : Nat) :
    Touches [.out, .regs, .cores, .knots, .ctxs, .mem, .step, .job, .caps, .links] s (s.ctxTeardown c) := by
  unfold State.ctxTeardown
  refine .ite (.step (touches_ctxRefuse ..) .refl) ?_
  dsimp only
  exact .step (touches_ctxPoll ..) (.step (touches_dropKnots ..) (.step (touches_dropKnots ..) (.foldl (.step (touches_set_job ..) (.step
    (touches_onCtx ..) .refl)) fun t a => .step (touches_onCore ..) .refl)))

theorem touches_ctxCtrlWrite (s : State) (c : Nat) (v : W64) :
    Touches [.out, .regs, .cores, .knots, .ctxs, .mem, .step, .job, .caps, .links] s (s.ctxCtrlWrite c v) := by
  unfold State.ctxCtrlWrite
  dsimp only
  exact .ite (.step (touches_ctxTeardown ..) (.ite (.step (touches_ctxCreate ..) (.ite (.step (touches_setRegFld ..) .refl) .refl)) (.ite
    (.step (touches_setRegFld ..) .refl) .refl))) (.ite (.step (touches_ctxCreate ..) (.ite (.step (touches_setRegFld ..) .refl) .refl))
    (.ite (.step (touches_setRegFld ..) .refl) .refl))

theorem touches_draw (s : State) :
    Touches [.sec] s (s.draw).1 := by
  unfold State.draw
  dsimp only
  exact .step (touches_onSec _ _ fun _ _ _ => rfl) .refl

theorem touches_ctxKeyGen (s : State) (c : Nat) :
    Touches [.ctxs, .sec] s (s.ctxKeyGen c).1 := by
  unfold State.ctxKeyGen
  split
  · dsimp only
    exact .refl
  · split
    · dsimp only
      exact .refl
    · split
      · dsimp only
        exact .refl
      · dsimp only
        exact .step (touches_set_ctxs ..) (.step (touches_draw ..) .refl)

theorem touches_ctxRegWrite (s : State) (id : RegId) (v : W64) (addr : Nat) :
    Touches [.out, .regs, .step, .links] s (s.ctxRegWrite id v addr) := by
  unfold State.ctxRegWrite
  dsimp only
  exact .ite (.step (touches_setReg ..) .refl) (.step (touches_decodeError ..) .refl)

theorem touches_refuseFlit (s : State) (h : Nat) :
    Touches [.out, .regs, .links] s (s.refuseFlit h) := by
  unfold State.refuseFlit
  exact .step (touches_sendControl ..) .refl

theorem touches_misroute (s : State) (h : Nat) (vc : Nat) :
    Touches [.out, .regs, .step, .links] s (s.misroute h vc) := by
  unfold State.misroute
  exact .step (touches_giveCredits ..) (.step (touches_raise ..) (.step (touches_bump ..) .refl))

theorem touches_deliver (s : State) (h : Nat) (m : RxMsg) :
    Touches [.out, .regs, .links] s (s.deliver h m) := by
  unfold State.deliver
  refine .ite (.step (touches_giveCredits ..) .refl) ?_
  dsimp only
  exact .step (touches_setLink ..) .refl

theorem touches_forward (s : State) (h : Nat) (g : Nat) (vc : Nat) (first : Bool) (last : Bool) (data : List Byte) :
    Touches [.out, .regs, .links] s (s.forward h g vc first last data) := by
  unfold State.forward
  dsimp only
  exact .ite (.step (touches_enqueue ..) (.step (touches_setLink ..) .refl)) (.step (touches_pump ..) (.step (touches_setLink ..) (.step
    (touches_setLink ..) .refl)))

theorem touches_firstFlit (s : State) (h : Nat) (vc : Nat) (last : Bool) (data : List Byte) :
    Touches [.out, .regs, .step, .links] s (s.firstFlit h vc last data) := by
  unfold State.firstFlit
  dsimp only
  exact .ite (.ite (.step (touches_misroute ..) .refl) (.ite (.step (touches_deliver ..) .refl) (.step (touches_setLink ..) .refl))) (.ite
    (.step (touches_misroute ..) .refl) (.step (touches_forward ..) .refl))

theorem touches_nextFlit (s : State) (h : Nat) (vc : Nat) (last : Bool) (data : List Byte) :
    Touches [.out, .regs, .links] s (s.nextFlit h vc last data) := by
  unfold State.nextFlit
  dsimp only
  split
  · exact .ite (.step (touches_deliver ..) (.step (touches_setLink ..) .refl)) (.step (touches_setLink ..) .refl)
  · exact .step (touches_forward ..) .refl
  · exact .step (touches_giveCredits ..) .refl

theorem touches_dataFlit (s : State) (h : Nat) (head : Nat) (data : List Byte) :
    Touches [.out, .regs, .step, .links] s (s.dataFlit h head data) := by
  unfold State.dataFlit
  dsimp only
  exact .ite (.step (touches_refuseFlit ..) .refl) (.step (touches_sendControl ..) (.ite (.step (touches_firstFlit ..) (.step
    (touches_setLink ..) .refl)) (.step (touches_nextFlit ..) (.step (touches_setLink ..) .refl))))

theorem touches_debugChallenge (s : State) :
    Touches [.sec] s (s.debugChallenge).1 := by
  unfold State.debugChallenge
  split
  · dsimp only
    exact .refl
  · dsimp only
    exact .step (touches_onSec _ _ fun _ _ _ => rfl) (.step (touches_draw ..) .refl)

theorem touches_debugUnlock (s : State) (slot : Nat) :
    Touches [.out, .regs, .step, .links, .sec] s (s.debugUnlock slot).1 := by
  unfold State.debugUnlock
  split
  · dsimp only
    exact .refl
  · dsimp only
    split
    · dsimp only
      exact .step (touches_onSec _ _ fun _ _ _ => rfl) .refl
    · split
      · dsimp only
        exact .step (touches_onSec _ _ fun _ _ _ => rfl) .refl
      · dsimp only
        exact .step (touches_raise ..) (.step (touches_onSec _ _ fun _ _ _ => rfl) (.step (touches_onSec _ _ fun _ _ _ => rfl) .refl))

theorem touches_startAbort (s : State) :
    Touches [.cores, .knots, .step, .whips, .caps, .mirror] s (s.startAbort) := by
  unfold State.startAbort
  dsimp only
  exact .step (touches_set_whips_caps_mirror ..) (.step (touches_abortKnots ..) (.step (touches_abortKnots ..) (.foldl (.step (touches_onStep
    ..) .refl) fun t a => .step (touches_onCore ..) .refl)))

theorem touches_rootAbort (s : State) :
    Touches [.out, .regs, .cores, .knots, .step, .whips, .caps, .links, .mirror] s (s.rootAbort) := by
  unfold State.rootAbort
  exact .ite .refl (.step (touches_startAbort ..) (.step (touches_castDown ..) .refl))

theorem touches_decide_ (s : State) (m : Summary) :
    Touches [.out, .regs, .cores, .knots, .step, .whips, .caps, .hank, .links, .mirror] s (s.decide_ m) := by
  unfold State.decide_
  refine .ite (.step (touches_rootAbort ..) .refl) ?_
  dsimp only
  exact .step (touches_noteK ..) (.step (touches_onHank ..) (.step (touches_castDown ..) .refl))

theorem touches_followTake (s : State) (d : Nat) (i : Nat) (x : XRec) (c : XRec) (m : DenseMsg) :
    OptTouches [.out, .regs, .cores, .knots, .hbm, .poison, .mem, .step, .whips, .caps, .links] s (s.followTake d i x c m) := by
  unfold State.followTake
  dsimp only
  refine .ite (.some .refl) ?_
  split
  · exact .step (touches_memFail ..) .refl
  · rename_i h2
    exact .some (.ite (.step (touches_whipDone ..) (.step (touches_setWhip ..) (.step (Touches.of_ok (touches_ctxWrite ..) h2) .refl)))
      (.step (touches_setWhip ..) (.step (Touches.of_ok (touches_ctxWrite ..) h2) .refl)))

theorem touches_denseTake (s : State) (d : Nat) (m : DenseMsg) :
    OptTouches [.out, .regs, .cores, .knots, .hbm, .poison, .mem, .step, .whips, .caps, .links] s (s.denseTake d m) := by
  unfold State.denseTake
  dsimp only
  refine .ite (.some (.step (touches_whipStale ..) (.step (touches_bump ..) .refl))) ?_
  split
  · exact .some (.step (touches_bump ..) .refl)
  · refine .ite (.some (.step (touches_bump ..) .refl)) ?_
    split
    · exact .ite (.step (touches_followTake ..) (.step (touches_bump ..) .refl)) (.ite (.step (touches_ringTake ..) (.step (touches_bump ..)
        .refl)) (.some (.step (touches_setWhip ..) (.step (touches_bump ..) .refl))))
    · exact .ite (.step (touches_ringTake ..) (.step (touches_bump ..) .refl)) (.some (.step (touches_ringStart ..) (.step (touches_setWhip
        ..) (.step (touches_bump ..) .refl))))

theorem touches_takeDump (s : State) (d : Nat) (reason : Nat) (cores : List Nat) :
    Touches [.out, .regs, .step, .links, .rel] s (s.takeDump d reason cores) := by
  unfold State.takeDump
  dsimp only
  exact .ite (.step (touches_setRegFld ..) .refl) (.step (touches_raise ..) (.step (touches_setRegFld ..) (.step (touches_onRel ..) .refl)))

theorem touches_resetCore (s : State) (core : Nat) :
    Touches [.cores, .knots] s (s.resetCore core) := by
  unfold State.resetCore
  dsimp only
  exact .step (touches_setKnot ..) (.step (touches_onCore ..) .refl)

theorem touches_dieFailed (s : State) (core : Nat) :
    Touches [.out, .regs, .cores, .knots, .step, .links, .journal, .rel] s (s.dieFailed core) := by
  unfold State.dieFailed
  dsimp only
  exact .foldl (.step (touches_override ..) (.step (touches_markCluster ..) (.step (touches_journalEmit ..) (.step (touches_takeDump ..)
    (.step (touches_alert ..) (.step (touches_raise ..) (.step (touches_clearFailed ..) (.step (touches_onRel ..) .refl)))))))) fun t a =>
    .step (touches_onCore ..) (.step (touches_resetCore ..) .refl)

theorem touches_slotNow (s : State) (f : SlotFacts) :
    Touches [.out, .regs, .scratch, .mem, .step, .clusterMap, .links, .sec, .journal, .rel, .pwr] s (s.slotNow f) := by
  unfold State.slotNow
  exact .ite (.step (touches_slot ..) .refl) .refl

theorem touches_relCtrl (s : State) (d : Nat) (v : W64) :
    Touches [.out, .regs, .scratch, .mem, .step, .clusterMap, .links, .sec, .journal, .rel, .pwr] s (s.relCtrl d v) := by
  unfold State.relCtrl
  dsimp only
  exact .ite (.step (touches_slotNow ..) (.step (touches_setRegFld ..) .refl)) (.step (touches_setRegFld ..) .refl)

theorem touches_spareReq (s : State) (d : Nat) (value : W64) :
    Touches [.out, .regs, .step, .links, .rel] s (s.spareReq d value) := by
  unfold State.spareReq
  dsimp only
  exact .ite (.ite (.step (touches_setRegFld ..) (.ite (.step (touches_setRegFld ..) (.step (touches_setRegFld ..) .refl)) (.step
    (touches_setRegFld ..) .refl))) (.ite (.step (touches_setRegFld ..) (.step (touches_setRegFld ..) .refl)) (.step (touches_setRegFld ..)
    .refl))) (.ite (.step (touches_markCluster ..) (.ite (.step (touches_setRegFld ..) (.ite (.step (touches_setRegFld ..) (.step
    (touches_setRegFld ..) .refl)) (.step (touches_setRegFld ..) .refl))) (.ite (.step (touches_setRegFld ..) (.step (touches_setRegFld ..)
    .refl)) (.step (touches_setRegFld ..) .refl)))) (.ite (.ite (.step (touches_setRegFld ..) (.ite (.step (touches_setRegFld ..) (.step
    (touches_setRegFld ..) .refl)) (.step (touches_setRegFld ..) .refl))) (.ite (.step (touches_setRegFld ..) (.step (touches_setRegFld ..)
    .refl)) (.step (touches_setRegFld ..) .refl))) (.step (touches_markCore ..) (.ite (.step (touches_setRegFld ..) (.ite (.step
    (touches_setRegFld ..) (.step (touches_setRegFld ..) .refl)) (.step (touches_setRegFld ..) .refl))) (.ite (.step (touches_setRegFld ..)
    (.step (touches_setRegFld ..) .refl)) (.step (touches_setRegFld ..) .refl))))))

theorem touches_dumpCtrl (s : State) (d : Nat) (v : W64) :
    Touches [.out, .regs, .step, .links, .rel] s (s.dumpCtrl d v) := by
  unfold State.dumpCtrl
  dsimp only
  exact .ite (.step (touches_takeDump ..) (.ite (.step (touches_setRegFld ..) .refl) .refl)) (.ite (.step (touches_setRegFld ..) .refl)
    .refl)

theorem touches_dieRegWrite (s : State) (id : RegId) (d : Nat) (v : W64) :
    Touches [.out, .regs, .scratch, .mem, .step, .clusterMap, .links, .sec, .journal, .rel, .pwr] s (s.dieRegWrite id d v) := by
  unfold State.dieRegWrite
  split
  · exact .step (touches_chafeRetire ..) .refl
  · exact .step (touches_relCtrl ..) .refl
  · exact .step (touches_spareReq ..) .refl
  · exact .step (touches_dumpCtrl ..) .refl
  · exact .step (touches_plainWrite ..) .refl

theorem touches_dropKeeps (s : State) (core : Nat) (f : KeepEntry → Bool) :
    Touches [.cores] s (s.dropKeeps core f) := by
  unfold State.dropKeeps
  exact .step (touches_onCore ..) .refl

theorem touches_whipCancel (s : State) (d : Nat) (site : Nat) (tile : Nat) (epoch : Nat) :
    Touches [.out, .regs, .hbm, .poison, .mem, .step, .whips, .links] s (s.whipCancel d site tile epoch) := by
  unfold State.whipCancel
  dsimp only
  exact .foldl (.step (touches_setWhip ..) .refl) fun t a => .ite (.getD (.step (touches_fragSend ..) (.step (touches_setWhip ..) .refl))
    (.step (touches_setWhip ..) .refl)) .refl

theorem touches_discardEpoch (s : State) (core : Nat) (gi : Nat) (g : GuardSt) :
    Touches [.out, .regs, .cores, .hbm, .poison, .mem, .step, .whips, .links] s (s.discardEpoch core gi g) := by
  unfold State.discardEpoch
  dsimp only
  refine .step (touches_bump ..) ?_
  split
  · exact .foldl (.step (touches_onEc ..) (.step (touches_dropKeeps ..) (.step (touches_onCore ..) (.foldl .refl fun t a => .step
      (touches_complete ..) .refl)))) fun t a => .step (touches_whipCancel ..) .refl
  · exact .step (touches_onEc ..) (.step (touches_dropKeeps ..) (.step (touches_onCore ..) (.foldl .refl fun t a => .step (touches_complete
      ..) .refl)))

theorem touches_dmaComplete (s : State) (core : Nat) (acks : Nat) (late : Nat) :
    Touches [.out, .regs, .cores, .step, .links] s (s.dmaComplete core acks late) := by
  unfold State.dmaComplete
  dsimp only
  split
  · exact .step (touches_onCore ..) (.step (touches_crossLate ..) .refl)
  · exact .step (touches_complete ..) (.step (touches_bump ..) (.step (touches_onCore ..) (.step (touches_onCore ..) (.step
      (touches_crossLate ..) .refl))))

theorem touches_dmaCount (s : State) (core : Nat) (rd : Nat) (wr : Nat) :
    Touches [.regs] s (s.dmaCount core rd wr) := by
  unfold State.dmaCount
  exact .step (touches_bump ..) (.step (touches_bump ..) .refl)

theorem touches_dmaLoad (s : State) (d : DmaSide) (a : Int) (n : Nat) :
    Touches [.regs, .mem] s (s.dmaLoad d a n) := by
  unfold State.dmaLoad
  exact .ite (.step (touches_ctxLoad ..) .refl) .refl

theorem touches_dmaMemErr (s : State) (core : Nat) (m : OpMsg) (e : MemErr) :
    Touches [.out, .regs, .step, .links] s (s.dmaMemErr core m e) := by
  unfold State.dmaMemErr
  refine .ite .refl ?_
  dsimp only
  exact .step (touches_memErr ..) (.step (touches_detail ..) .refl)

theorem touches_dmaWrite (s : State) (d : DmaSide) (a : Int) (bs : List Byte) :
    ExcTouches [.regs, .hbm, .scratch, .poison, .mem] s (s.dmaWrite d a bs) := by
  unfold State.dmaWrite
  exact .ite (.step (touches_ctxWrite ..) .refl) (.ok (.step (touches_scrWrite ..) .refl))

theorem touches_dmaRecsLoad (s : State) (d : DmaSide) (off : Int) (n : Nat) :
    Touches [.regs, .mem] s (s.dmaRecsLoad d off n) := by
  unfold State.dmaRecsLoad
  dsimp only
  exact .ite (.step (touches_dmaLoad ..) (.step (touches_dmaLoad ..) .refl)) (.step (touches_dmaLoad ..) .refl)

theorem touches_dmaServeRow (s : State) (p : DmaDesc) (r : DmaRow) :
    Touches [.regs, .mem] s (s.dmaServeRow p r) := by
  unfold State.dmaServeRow
  split
  · exact .step (touches_dmaRecsLoad ..) .refl
  · exact .refl

theorem touches_dmaAcc_put (a : DmaAcc) (p : DmaDesc) (l : List (Int × List Byte)) : Touches [.regs, .hbm, .scratch, .poison, .mem] a.s (a.put p l).s := by
  induction l generalizing a with
  | nil => exact .refl
  | cons q l ih =>
    unfold DmaAcc.put
    refine .ite_by DmaAcc.s (ih _) (.ite_by DmaAcc.s (ih { a with runs := a.runs ++ [(q.1.toNat, q.2)] }) ?_)
    split
    · rename_i t h
      exact .step (ih { a with s := t }) (.of_ok (touches_dmaWrite ..) h)
    · exact .refl

theorem touches_dmaAcc_row (a : DmaAcc) (p : DmaDesc) (pos : List Nat) : Touches [.regs, .hbm, .scratch, .poison, .mem] a.s (a.row p pos).s := by
  unfold DmaAcc.row
  refine .ite_by DmaAcc.s .refl ?_
  split
  · exact .refl
  · dsimp only
    refine .ite_by DmaAcc.s ?_ ?_
    · split
      · exact .refl
      · exact .step (touches_dmaAcc_put ..) (.step (touches_dmaServeRow ..) .refl)
    · split
      · exact .refl
      · exact .step (touches_dmaAcc_put ..) (.step (touches_dmaServeRow ..) .refl)

theorem touches_dmaAcc_addRow (a : DmaAcc) (p : DmaDesc) (pos : List Nat) : Touches [.regs, .hbm, .scratch, .poison, .mem] a.s (a.addRow p pos).s := by
  unfold DmaAcc.addRow
  refine .ite_by DmaAcc.s .refl ?_
  split
  · dsimp only
    split
    · rename_i h
      refine .of_ok (.bind fun r => .bind fun cs => ?_) h
      exact .step (touches_dmaWrite ..) (.step (touches_dmaLoad ..) (.step (touches_dmaServeRow ..) .refl))
    · exact .refl
  · exact .refl

theorem touches_dmaPlain (s : State) (core : Nat) (m : OpMsg) (p : DmaDesc) :
    Touches [.out, .regs, .cores, .hbm, .scratch, .poison, .mem, .links] s (s.dmaPlain core m p).1 := by
  unfold State.dmaPlain
  dsimp only
  have h : Touches [.out, .regs, .cores, .hbm, .scratch, .poison, .mem, .links] s (p.rows.foldl (fun (a : DmaAcc) pos => if p.adds then a.addRow p pos else a.row p pos) { s := s }).s :=
    .foldl_by DmaAcc.s .refl fun a pos => .ite_by DmaAcc.s (touches_dmaAcc_addRow ..).mono (touches_dmaAcc_row ..).mono
  exact .ite h (.step (touches_onCore ..) (.step (touches_send ..) h))

theorem touches_dmaQuant (s : State) (core : Nat) (m : OpMsg) (p : DmaDesc) :
    Touches [.regs, .cores, .mem] s (s.dmaQuant core m p).1 := by
  unfold State.dmaQuant
  split
  · dsimp only
    exact .refl
  · dsimp only
    exact .step (touches_onCore ..) (.foldl .refl fun t a => .ite (.step (touches_dmaServeRow ..) .refl) .refl)

theorem touches_markRejected (s : State) :
    Touches [.step] s (s.markRejected) := by
  unfold State.markRejected
  exact .step (touches_set_step ..) .refl

theorem touches_dmaReject (s : State) (core : Nat) (m : OpMsg) (code : Nat) :
    Touches [.out, .regs, .cores, .step, .links] s (s.dmaReject core m code) := by
  unfold State.dmaReject
  dsimp only
  exact .step (touches_complete ..) (.step (touches_onCore ..) (.step (touches_markRejected ..) (.step (touches_raiseDetail ..) (.step
    (touches_bump ..) .refl))))

theorem touches_dmaTotals (s : State) (core : Nat) (p : DmaDesc) :
    Touches [.out, .regs, .step, .links] s (s.dmaTotals core p) := by
  unfold State.dmaTotals
  dsimp only
  exact .foldl (.step (touches_dmaCount ..) (.step (touches_bump ..) .refl)) fun t a => .step (touches_raise ..) (.step (touches_bump ..)
    .refl)

theorem touches_dmaTscale (s : State) (core : Nat) (p : DmaDesc) :
    Touches [.out, .regs, .step, .links] s (s.dmaTscale core p) := by
  unfold State.dmaTscale
  exact .ite .refl (.step (touches_raise ..) .refl)

theorem touches_dmaWalk (s : State) (core : Nat) (m : OpMsg) :
    Touches [.out, .regs, .cores, .hbm, .scratch, .poison, .mem, .step, .links] s (s.dmaWalk core m) := by
  unfold State.dmaWalk
  dsimp only
  split
  · exact .ite .refl (.step (touches_dmaMemErr ..) (.step (touches_onCore ..) .refl))
  · exact .step (touches_dmaReject ..) .refl
  · split
    · exact .step (touches_dmaReject ..) .refl
    · refine .ite (.step (touches_onCore ..) .refl) ?_
      split
      · split
        · exact .step (touches_dmaQuant ..) (.step (touches_dmaTscale ..) (.step (touches_dmaTotals ..) (.step (touches_onCore ..) .refl)))
        · exact .step (touches_dmaPlain ..) (.step (touches_dmaTscale ..) (.step (touches_dmaTotals ..) (.step (touches_onCore ..) .refl)))
      · refine .ite .refl ?_
        refine .step (touches_dmaMemErr ..) ?_
        split
        · exact .step (touches_dmaQuant ..) (.step (touches_dmaTscale ..) (.step (touches_dmaTotals ..) (.step (touches_onCore ..) .refl)))
        · exact .step (touches_dmaPlain ..) (.step (touches_dmaTscale ..) (.step (touches_dmaTotals ..) (.step (touches_onCore ..) .refl)))

theorem touches_plyReject (s : State) (core : Nat) (p : Nat) (code : Nat) (word : Nat) (idx : Nat) :
    Touches [.out, .regs, .step, .links] s (s.plyReject core p code word idx) := by
  unfold State.plyReject
  dsimp only
  exact .step (touches_markRejected ..) (.step (touches_raiseDetail ..) (.step (touches_bump ..) .refl))

theorem touches_dropHeld (s : State) (core : Nat) :
    Touches [.out, .regs, .cores, .step, .links] s (s.dropHeld core) := by
  unfold State.dropHeld
  dsimp only
  exact .step (touches_onCore ..) (.foldl .refl fun t a => .step (touches_plyReject ..) .refl)

theorem touches_dropStale (s : State) (c : Nat) :
    Touches [.regs] s (s.dropStale c) := by
  unfold State.dropStale
  exact .step (touches_bump ..) .refl

theorem touches_onGuard (s : State) (core : Nat) (g : Nat) (f : GuardSt → GuardSt) :
    Touches [.cores] s (s.onGuard core g f) := by
  unfold State.onGuard
  exact .step (touches_onEc ..) .refl

theorem touches_tileAccept (s : State) (d : Nat) (site : Nat) (tile : Nat) (epoch : Nat) (core : Nat) (g : Nat) :
    Touches [.out, .regs, .cores, .knots, .hbm, .poison, .mem, .step, .whips, .caps, .links] s (s.tileAccept d site tile epoch core g) := by
  unfold State.tileAccept
  dsimp only
  exact .step (touches_ringsStart ..) (.step (touches_setWhip ..) .refl)

theorem touches_releaseAccepted (s : State) (core : Nat) :
    Touches [.cores] s (s.releaseAccepted core) := by
  unfold State.releaseAccepted
  dsimp only
  exact .step (touches_dropKeeps ..) .refl

theorem touches_ecAccept (s : State) (core : Nat) (gi : Nat) :
    Touches [.out, .regs, .cores, .knots, .hbm, .poison, .mem, .step, .whips, .caps, .links] s (s.ecAccept core gi) := by
  unfold State.ecAccept
  split
  · exact .refl
  · refine .ite .refl ?_
    dsimp only
    refine .step (touches_releaseAccepted ..) ?_
    split
    · exact .foldl (.step (touches_knotUnit ..) (.step (touches_onGuard ..) .refl)) fun t a => .step (touches_tileAccept ..) .refl
    · exact .step (touches_knotUnit ..) (.step (touches_onGuard ..) .refl)

theorem touches_ecCost (s : State) (core : Nat) (layer : Nat) (cost : Nat) :
    Touches [.out, .regs, .cores, .step, .links] s (s.ecCost core layer cost) := by
  unfold State.ecCost
  dsimp only
  exact .ite (.step (touches_onLayer ..) .refl) (.ite (.step (touches_bump ..) (.step (touches_onLayer ..) .refl)) (.step (touches_raise ..)
    (.step (touches_set_step ..) (.step (touches_bump ..) (.step (touches_onLayer ..) .refl)))))

theorem touches_stagePart (s : State) (core : Nat) (l : EcLayer) (r : Nat) (m : DamageMsg) :
    Touches [.regs, .hbm, .scratch, .poison, .mem] s (s.stagePart core l r m).1 := by
  unfold State.stagePart
  split
  · dsimp only
    exact .refl
  · dsimp only
    exact .step (touches_damageTotals ..) (.step (touches_writeRuns ..) .refl)

theorem touches_stageTile (s : State) (core : Nat) (gi : Nat) (r : Nat) (t : TileRec) :
    Touches [.out, .regs, .cores, .hbm, .scratch, .poison, .mem, .step, .links] s (s.stageTile core gi r t) := by
  unfold State.stageTile
  split
  · exact .refl
  · refine .ite .refl ?_
    dsimp only
    refine .ite ?_ ?_
    · refine .step (touches_bump ..) ?_
      refine .step (touches_ecCost ..) ?_
      refine .step (touches_onEc ..) ?_
      refine .foldl_by Prod.fst ?_ fun p a => ?_
      · dsimp only
        exact .refl
      · dsimp only
        exact .step (touches_stagePart ..) .refl
    · refine .step (touches_ecFlag ..) ?_
      refine .step (touches_onLayer ..) ?_
      refine .step (touches_bump ..) ?_
      refine .step (touches_bump ..) ?_
      refine .step (touches_ecCost ..) ?_
      refine .step (touches_onEc ..) ?_
      refine .foldl_by Prod.fst ?_ fun p a => ?_
      · dsimp only
        exact .refl
      · dsimp only
        exact .step (touches_stagePart ..) .refl

theorem touches_ecDecide (s : State) (core : Nat) (gi : Nat) (g : GuardSt) :
    Touches [.out, .regs, .cores, .knots, .hbm, .scratch, .poison, .mem, .step, .whips, .caps, .links] s (s.ecDecide core gi g) := by
  unfold State.ecDecide
  dsimp only
  refine .ite (.step (touches_ecAccept ..) (.step (touches_onGuard ..) (.foldl .refl fun t a => .step (touches_ecFlag ..) .refl))) ?_
  refine .ite (.step (touches_ecAccept ..) (.step (touches_ecFlag ..) (.step (touches_onLayer ..) (.step (touches_onGuard ..) (.foldl .refl
    fun t a => .step (touches_ecFlag ..) .refl))))) ?_
  refine .ite (.step (touches_ecAccept ..) (.foldl (.step (touches_onLayer ..) (.step (touches_onGuard ..) (.foldl .refl fun t a => .step
    (touches_ecFlag ..) .refl))) fun t a => .step (touches_ecFlag ..) .refl)) ?_
  refine .step (touches_bump ..) ?_
  refine .step (touches_ecCost ..) ?_
  refine .step (touches_onCore ..) ?_
  refine .step (touches_onGuard ..) ?_
  refine .step (touches_discardEpoch ..) ?_
  refine .foldl (.foldl (.step (touches_onLayer ..) (.step (touches_onGuard ..) (.foldl .refl fun t a => .step (touches_ecFlag ..) .refl)))
    fun t a => .step (touches_ecFlag ..) .refl) fun t a => ?_
  refine .foldl .refl fun t a => ?_
  split
  · exact .step (touches_stageTile ..) .refl
  · exact .refl

theorem touches_ecPoll (s : State) (core : Nat) :
    Touches [.out, .regs, .cores, .knots, .hbm, .scratch, .poison, .mem, .step, .whips, .caps, .links] s (s.ecPoll core) := by
  unfold State.ecPoll
  refine .foldl .refl fun t a => ?_
  split
  · exact .refl
  · exact .ite (.step (touches_ecDecide ..) .refl) .refl

theorem touches_ecReadOut (s : State) (core : Nat) (m : OpMsg) :
    Touches [.out, .regs, .cores, .knots, .hbm, .poison, .mem, .step, .whips, .caps, .links] s (s.ecReadOut core m) := by
  unfold State.ecReadOut
  split
  · exact .refl
  · exact .ite .refl (.step (touches_ecAccept ..) (.step (touches_onGuard ..) .refl))

theorem touches_ecRecord (s : State) (core : Nat) (m : DamageMsg) :
    Touches [.regs, .cores] s (s.ecRecord core m) := by
  unfold State.ecRecord
  dsimp only
  refine .ite (.step (touches_onEc ..) .refl) ?_
  split
  · exact .step (touches_onEc ..) .refl
  · exact .ite (.step (touches_bump ..) (.step (touches_onEc ..) .refl)) (.step (touches_bump ..) (.step (touches_bump ..) (.step
      (touches_onEc ..) .refl)))

theorem touches_eccEvent (s : State) (e : EccEvent) :
    Touches [.out, .regs, .poison, .mem, .step, .links] s (s.eccEvent e) := by
  unfold State.eccEvent
  dsimp only
  exact .ite (.step (touches_bump ..) (.step (touches_setReg ..) (.step (touches_setReg ..) (.step (touches_set_poison ..) .refl)))) (.ite
    (.step (touches_raise ..) (.step (touches_set_mem ..) (.step (touches_bump ..) .refl))) (.step (touches_set_mem ..) (.step (touches_bump
    ..) .refl)))

theorem touches_eccEvents (s : State) (l : List EccEvent) :
    Touches [.out, .regs, .poison, .mem, .step, .links] s (s.eccEvents l) := by
  unfold State.eccEvents
  exact .foldl .refl fun t a => .step (touches_eccEvent ..) .refl

theorem touches_endLaunch (s : State) (core : Nat) (t : Nat) :
    Touches [.cores] s (s.endLaunch core t) := by
  unfold State.endLaunch
  split
  · exact .refl
  · exact .step (touches_onStrand ..) (.step (touches_onVec ..) .refl)

theorem touches_releaseUnguarded (s : State) (core : Nat) :
    Touches [.cores] s (s.releaseUnguarded core) := by
  unfold State.releaseUnguarded
  exact .step (touches_onCore ..) .refl

theorem touches_enterDraining (s : State) :
    Touches [.out, .regs, .cores, .step, .links] s (s.enterDraining) := by
  unfold State.enterDraining
  dsimp only
  exact .foldl (.step (touches_set_step ..) .refl) fun t a => .step (touches_releaseUnguarded ..) (.step (touches_dropHeld ..) .refl)

theorem touches_payCredits (s : State) :
    Touches [.out, .regs, .links] s (s.payCredits) := by
  unfold State.payCredits
  refine .foldl .refl fun t a => ?_
  dsimp only
  exact .ite .refl (.step (touches_giveCredits ..) (.step (touches_setLink ..) .refl))

theorem touches_enterRunning (s : State) :
    Touches [.out, .regs, .cores, .knots, .mem, .step, .sitePend, .caps, .wPend, .links, .mirror] s (s.enterRunning) := by
  unfold State.enterRunning
  dsimp only
  exact .ite (.step (touches_enterDraining ..) (.step (touches_payCredits ..) (.step (touches_applyRemoteQueue ..) (.step
    (touches_applyRemoteQueue ..) (.step (touches_timingNr ..) (.foldl (.step (touches_set_mem_sitePend_wPend_mirror ..) (.step
    (touches_clearStepKnots ..) (.step (touches_clearStepKnots ..) (.step (touches_onStep ..) .refl)))) fun t a => .step (touches_onCore ..)
    .refl)))))) (.step (touches_payCredits ..) (.step (touches_applyRemoteQueue ..) (.step (touches_applyRemoteQueue ..) (.step
    (touches_timingNr ..) (.foldl (.step (touches_set_mem_sitePend_wPend_mirror ..) (.step (touches_clearStepKnots ..) (.step
    (touches_clearStepKnots ..) (.step (touches_onStep ..) .refl)))) fun t a => .step (touches_onCore ..) .refl)))))

theorem touches_linkAck (s : State) (h : Nat) (ack : Nat) :
    Touches [.links] s (s.linkAck h ack) := by
  unfold State.linkAck
  dsimp only
  exact .ite .refl (.step (touches_setLink ..) .refl)

theorem touches_linkDown (s : State) (h : Nat) :
    Touches [.out, .regs, .step, .links] s (s.linkDown h) := by
  unfold State.linkDown
  dsimp only
  exact .ite (.step (touches_trainLink ..) (.step (touches_raiseFor ..) (.step (touches_bump ..) (.step (touches_setLinkState ..) (.step
    (touches_setLink ..) (.step (touches_dropForwarded ..) .refl)))))) (.step (touches_raiseFor ..) (.step (touches_bump ..) (.step
    (touches_setLinkState ..) (.step (touches_setLink ..) (.step (touches_dropForwarded ..) .refl)))))

theorem touches_linkNak (s : State) (h : Nat) (ack : Nat) :
    Touches [.out, .regs, .step, .links] s (s.linkNak h ack) := by
  unfold State.linkNak
  dsimp only
  exact .ite (.step (touches_linkAck ..) .refl) (.ite (.step (touches_linkDown ..) (.ite (.step (touches_tnrNow ..) (.step (touches_raise ..)
    (.step (touches_bump ..) (.step (touches_bump ..) (.step (touches_set_out ..) (.step (touches_setLink ..) (.step (touches_linkAck ..)
    .refl))))))) (.step (touches_raise ..) (.step (touches_bump ..) (.step (touches_bump ..) (.step (touches_set_out ..) (.step
    (touches_setLink ..) (.step (touches_linkAck ..) .refl)))))))) (.ite (.step (touches_tnrNow ..) (.step (touches_raise ..) (.step
    (touches_bump ..) (.step (touches_bump ..) (.step (touches_set_out ..) (.step (touches_setLink ..) (.step (touches_linkAck ..)
    .refl))))))) (.step (touches_raise ..) (.step (touches_bump ..) (.step (touches_bump ..) (.step (touches_set_out ..) (.step
    (touches_setLink ..) (.step (touches_linkAck ..) .refl))))))))

theorem touches_flitHeader (s : State) (h : Nat) (head : Nat) :
    Touches [.out, .regs, .step, .links] s (s.flitHeader h head) := by
  unfold State.flitHeader
  dsimp only
  exact .ite (.ite (.step (touches_linkNak ..) (.step (touches_setLink ..) .refl)) (.step (touches_linkAck ..) (.step (touches_setLink ..)
    .refl))) (.step (touches_setLink ..) .refl)

theorem touches_markLane (s : State) (h : Nat) (l : Nat) :
    Touches [.out, .regs, .step, .links] s (s.markLane h l) := by
  unfold State.markLane
  exact .ite .refl (.step (touches_raise ..) (.step (touches_setRegFld ..) .refl))

theorem touches_flitPhy (s : State) (h : Nat) (p : PhyFacts) :
    Touches [.out, .regs, .step, .links] s (s.flitPhy h p) := by
  unfold State.flitPhy
  dsimp only
  exact .step (touches_bump ..) (.foldl .refl fun t a => .ite (.step (touches_markLane ..) (.step (touches_setLink ..) (.step (touches_bump
    ..) .refl))) (.step (touches_setLink ..) (.step (touches_bump ..) .refl)))

theorem touches_fragRecv (s : State) (d : Nat) (m : FragMsg) :
    OptTouches [.out, .regs, .hbm, .poison, .mem, .step, .whips, .links] s (s.fragRecv d m) := by
  unfold State.fragRecv
  exact .ite (.some (.step (touches_whipStale ..) .refl)) (.step (touches_fragTake ..) .refl)

theorem touches_raiseSvn (s : State) (n : Nat) : Touches [.out, .regs, .step, .links, .sec] s (s.raiseSvn n) := by
  unfold State.raiseSvn
  refine .foldl .refl fun t i => ?_
  dsimp only
  exact .ite (.step (touches_burn ..) .refl) (.step (touches_raise ..) (.step (touches_burn ..) .refl))

theorem touches_fwRelease (s : State) : Touches [.out, .regs, .mem, .step, .clusterMap, .links, .sec, .rel, .stackReset] s s.fwRelease := by
  unfold State.fwRelease
  extract_lets bs svn ok s1 src sec
  have h : Touches [.out, .regs, .mem, .step, .clusterMap, .links, .sec, .rel, .stackReset] s s1 := .ite (touches_raiseSvn ..).mono .refl
  have h2 : Touches [.out, .regs, .mem, .step, .clusterMap, .links, .sec, .rel, .stackReset] s src := .step (touches_applyOtp ..) h
  have e : sec.otp = src.sec.otp := by simp only [sec, src]
  clear_value sec src s1
  exact .step (touches_set_sec src _ fun k _ => congrArg (fun o => sget o 0 k) e) h2

theorem touches_gradWait (s : State) (st : Nat) (i : Nat) (r : CapRec) :
    Touches [.out, .regs, .cores, .knots, .step, .caps, .links] s (s.gradWait st i r) := by
  unfold State.gradWait
  exact .ite .refl (.step (touches_knotUnit ..) .refl)

theorem touches_handGroups (s : State) (st : Nat) :
    Touches [.out, .regs, .cores, .knots, .hbm, .poison, .mem, .step, .whips, .caps, .links] s (s.handGroups st) := by
  unfold State.handGroups
  refine .foldl .refl fun t a => ?_
  dsimp only
  exact .foldl (.step (touches_onCap ..) .refl) fun t a => .ite (.ite (.getD (.step (touches_cellMine ..) (.step (touches_onCell ..) .refl))
    (.step (touches_onCell ..) .refl)) (.step (touches_onCell ..) .refl)) .refl

theorem touches_hold (s : State) (a : HostAccess) :
    Touches [.hostOut] s (s.hold a) := by
  unfold State.hold
  exact .step (touches_set_hostOut ..) .refl

theorem touches_reply (s : State) (v : Nat) :
    Touches [.hostReply] s (s.reply v) := by
  unfold State.reply
  exact .step (touches_set_hostReply ..) .refl

theorem touches_hostPoison (s : State) (a : Nat) (n : Nat) :
    Touches [.out, .regs, .step, .links] s (s.hostPoison a n) := by
  unfold State.hostPoison
  exact .foldl .refl fun t a => .step (touches_raise ..) .refl

theorem touches_hostHbm (s : State) (a : HostAccess) :
    Touches [.out, .hostReply, .regs, .hbm, .poison, .mem, .step, .links] s (s.hostHbm a) := by
  unfold State.hostHbm
  refine .ite ?_ ?_
  · dsimp only
    exact .ite (.step (touches_decodeError ..) .refl) (.step (touches_reply ..) (.step (touches_decodeError ..) .refl))
  · refine .ite ?_ (.step (touches_reply ..) (.step (touches_charge ..) (.step (touches_hostPoison ..) .refl)))
    dsimp only
    exact .step (touches_hbmWrite ..) (.step (touches_charge ..) (.foldl .refl fun t a => .step (touches_hostPoison ..) .refl))

theorem touches_hostKnotOp (s : State) (d : Nat) (c : Nat) (k : Nat) (op : Option KOp) :
    Touches [.out, .regs, .cores, .knots, .step, .caps, .links] s (s.hostKnotOp d c k op) := by
  unfold State.hostKnotOp
  dsimp only
  refine .ite ?_ (.step (touches_decodeError ..) .refl)
  split
  · exact .refl
  · exact .step (touches_flush ..) (.step (touches_knotDo ..) .refl)

theorem touches_hostKnot (s : State) (d : Nat) (c : Nat) (k : Nat) (op : Option KOp) :
    Touches [.out, .regs, .cores, .knots, .step, .caps, .hank, .links] s (s.hostKnot d c k op) := by
  unfold State.hostKnot
  exact .ite (.step (touches_feedPoll ..) (.step (touches_hostKnotOp ..) .refl)) (.step (touches_hostKnotOp ..) .refl)

theorem touches_i3cReply (s : State) (bs : List Byte) :
    Touches [.i3c] s (s.i3cReply bs) := by
  unfold State.i3cReply
  exact .ite (.step (touches_set_i3c ..) .refl) .refl

theorem touches_ccSet (n : Nat) (v : ControlCore → W64 → W64) (w : W64) (s : State) :
    Touches [.cores] s (ccSet n v w s) := by
  unfold ccSet
  exact .step (touches_onCC ..) .refl

theorem touches_ccBranch (n : Nat) (taken : Bool) (w : W64) (s : State) :
    Touches [.out, .regs, .cores, .step, .links] s (ccBranch n taken w s) := by
  unfold ccBranch
  exact .ite (.step (touches_onCC ..) .refl) (.ite (.step (touches_ccIllegal ..) .refl) (.step (touches_onCC ..) .refl))

theorem touches_ccKnot (core : Nat) (op : KOp) (err : Bool) (lag : Nat) (w : W64) (s : State) :
    Touches [.out, .regs, .cores, .knots, .step, .caps, .links, .rel] s (ccKnot core op err lag w s) := by
  unfold ccKnot
  dsimp only
  refine .ite (.step (touches_ccResume ..) (.step (touches_cellCheck ..) .refl)) ?_
  split
  · exact .step (touches_flush ..) (.step (touches_ccResume ..) (.step (touches_knotDo ..) (.step (touches_cellCheck ..) .refl)))
  · exact .step (touches_onCC ..) (.step (touches_knotDo ..) (.step (touches_cellCheck ..) .refl))
  · exact .step (touches_knotError ..) (.step (touches_ccStop ..) (.step (touches_knotDo ..) (.step (touches_cellCheck ..) .refl)))
  · exact .step (touches_knotError ..) (.step (touches_ccStop ..) (.step (touches_knotDo ..) (.step (touches_cellCheck ..) .refl)))

theorem touches_ccRemote (core : Nat) (tie : Bool) (w : W64) (s : State) :
    Touches [.out, .regs, .cores, .step, .links] s (ccRemote core tie w s) := by
  unfold ccRemote
  dsimp only
  split
  · exact .step (touches_knotError ..) (.step (touches_ccStop ..) .refl)
  · exact .ite (.step (touches_knotError ..) (.step (touches_ccStop ..) .refl)) (.ite (.step (touches_ccWait ..) .refl) (.step (touches_onCC
      ..) (.step (touches_onCore ..) .refl)))

theorem touches_plyAccept (s : State) (core : Nat) (m : OpMsg) :
    Touches [.out, .regs, .cores, .knots, .hbm, .scratch, .poison, .mem, .step, .whips, .caps, .links] s (s.plyAccept core m) := by
  unfold State.plyAccept
  dsimp only
  split
  · exact .step (touches_complete ..) (.step (touches_plyReject ..) (.step (touches_onCore ..) .refl))
  · split
    · exact .foldl (.step (touches_onCore ..) .refl) fun t a => .step (touches_onPly ..) .refl
    · exact .ite (.foldl (.step (touches_onCore ..) .refl) fun t a => .step (touches_onPly ..) .refl) (.step (touches_ecPoll ..) (.step
        (touches_onGuard ..) (.foldl (.step (touches_onCore ..) .refl) fun t a => .step (touches_onPly ..) .refl)))

theorem touches_scrEcc (s : State) (core : Nat) (a : Nat) (ecc : Nat) :
    Touches [.out, .regs, .step, .links, .rel] s (s.scrEcc core a ecc) := by
  unfold State.scrEcc
  dsimp only
  exact .ite (.ite (.step (touches_raise ..) (.step (touches_onRel ..) .refl)) (.step (touches_onRel ..) .refl)) (.ite (.step
    (touches_override ..) (.step (touches_markBank ..) (.step (touches_raise ..) .refl))) .refl)

theorem touches_scrEvents (s : State) (core : Nat) (l : List (Nat × Nat)) :
    Touches [.free, .out, .regs, .scratch, .step, .links, .rel] s (s.scrEvents core l) := by
  unfold State.scrEvents
  refine .foldl .refl fun t a => ?_
  refine .ite ?_ (.step (touches_scrEcc ..) .refl)
  dsimp only
  exact .step (touches_scrEcc ..) (.step (touches_set_free ..) (.step (touches_scrWrite ..) .refl))

theorem touches_residueEvents (s : State) (core : Nat) (k : Nat) (p : PlyDesc) (m : OpMsg) (r : List (Nat × Nat × Nat) × Nat × Nat) :
    Touches [.out, .regs, .step, .links] s (s.residueEvents core k p m r) := by
  unfold State.residueEvents
  dsimp only
  split
  · exact .ite (.step (touches_bump ..) (.step (touches_bump ..) .refl)) (.step (touches_setRegFld ..) (.step (touches_bump ..) (.step
      (touches_bump ..) .refl)))
  · exact .step (touches_raise ..) (.ite (.step (touches_bump ..) (.ite (.step (touches_bump ..) (.step (touches_bump ..) .refl)) (.step
      (touches_setRegFld ..) (.step (touches_bump ..) (.step (touches_bump ..) .refl))))) (.step (touches_setReg ..) (.step (touches_detail
      ..) (.step (touches_bump ..) (.ite (.step (touches_bump ..) (.step (touches_bump ..) .refl)) (.step (touches_setRegFld ..) (.step
      (touches_bump ..) (.step (touches_bump ..) .refl))))))))

theorem touches_readOut (s : State) (core : Nat) (p : PlyDesc) (m : OpMsg) :
    Touches [.out, .regs, .cores, .step, .links] s (s.readOut core p m) := by
  unfold State.readOut
  dsimp only
  exact .ite (.step (touches_complete ..) (.foldl (.foldl .refl fun t a => .step (touches_bump ..) (.step (touches_onSlot ..) .refl)) fun t a
    => .step (touches_residueEvents ..) .refl)) (.step (touches_onQnt ..) (.foldl (.ite (.step (touches_raise ..) (.ite (.step (touches_raise
    ..) (.foldl (.foldl .refl fun t a => .step (touches_bump ..) (.step (touches_onSlot ..) .refl)) fun t a => .step (touches_residueEvents
    ..) .refl)) (.foldl (.foldl .refl fun t a => .step (touches_bump ..) (.step (touches_onSlot ..) .refl)) fun t a => .step
    (touches_residueEvents ..) .refl))) (.ite (.step (touches_raise ..) (.foldl (.foldl .refl fun t a => .step (touches_bump ..) (.step
    (touches_onSlot ..) .refl)) fun t a => .step (touches_residueEvents ..) .refl)) (.foldl (.foldl .refl fun t a => .step (touches_bump ..)
    (.step (touches_onSlot ..) .refl)) fun t a => .step (touches_residueEvents ..) .refl))) fun t a => .step (touches_bump ..) (.step
    (touches_bump ..) .refl)))

theorem touches_keepStall (s : State) (core : Nat) (port : Nat) :
    Touches [.regs, .cores] s (s.keepStall core port) := by
  unfold State.keepStall
  exact .ite .refl (.step (touches_onQnt ..) (.step (touches_bump ..) .refl))

theorem touches_portRan (s : State) (core : Nat) (port : Nat) (rest : List QOp) :
    Touches [.cores] s (s.portRan core port rest) := by
  unfold State.portRan
  exact .step (touches_onQnt ..) .refl

theorem touches_qopDone (s : State) (core : Nat) (port : Nat) (o : QOp) :
    Touches [.out, .regs, .cores, .knots, .hbm, .poison, .mem, .step, .whips, .caps, .links] s (s.qopDone core port o) := by
  unfold State.qopDone
  dsimp only
  split
  · split
    · exact .step (touches_ecReadOut ..) (.step (touches_complete ..) .refl)
    · exact .refl
  · refine .step (touches_onCore ..) ?_
    split
    · exact .step (touches_ecReadOut ..) (.step (touches_complete ..) .refl)
    · exact .refl

theorem touches_residueInject (s : State) (core : Nat) (ply : Nat) (addr : Nat) :
    Touches [.out, .regs, .step, .links] s (s.residueInject core ply addr) := by
  unfold State.residueInject
  exact .ite (.step (touches_setRegFld ..) .refl) (.step (touches_decodeError ..) .refl)

theorem touches_launchDone (s : State) (core : Nat) (m : OpMsg) :
    Touches [.cores] s (s.launchDone core m) := by
  unfold State.launchDone
  exact .step (touches_complete ..) (.step (touches_onCore ..) .refl)

theorem touches_vecTileEnd (s : State) (core : Nat) (site : Nat) (tile : Nat) (epoch : Nat) :
    Touches [.out, .regs, .cores, .knots, .hbm, .scratch, .poison, .mem, .step, .whips, .caps, .links] s (s.vecTileEnd core site tile epoch) := by
  unfold State.vecTileEnd
  dsimp only
  split
  · exact .step (touches_onEc ..) .refl
  · split
    · exact .refl
    · split
      · exact .refl
      · exact .step (touches_ecPoll ..) (.step (touches_ecRecord ..) (.step (touches_onEc ..) .refl))

theorem touches_vecIllegal (s : State) (core : Nat) (t : Nat) (m : OpMsg) :
    Touches [.out, .regs, .cores, .step, .links] s (s.vecIllegal core t m) := by
  unfold State.vecIllegal
  dsimp only
  exact .step (touches_endLaunch ..) (.step (touches_markRejected ..) (.step (touches_raiseDetail ..) .refl))

theorem touches_ocStall (s : State) (core : Nat) (n : Nat) :
    Touches [.regs] s (s.ocStall core n) := by
  unfold State.ocStall
  exact .step (touches_bump ..) .refl

theorem touches_scrEventsAt (s : State) (core : Nat) (lines : List Nat) (l : List (Nat × Nat)) :
    Touches [.free, .out, .regs, .scratch, .step, .links, .rel] s (s.scrEventsAt core lines l) := by
  unfold State.scrEventsAt
  exact .step (touches_scrEvents ..) .refl

theorem touches_vecOob (s : State) (core : Nat) (write : Bool) (n : Nat) :
    Touches [.out, .regs, .step, .links] s (s.vecOob core write n) := by
  unfold State.vecOob
  exact .ite .refl (.step (touches_raise ..) (.step (touches_bump ..) .refl))

theorem touches_slotTscale (s : State) (core : Nat) (t : TSlot) (es : List Nat) :
    Touches [.out, .regs, .step, .links] s (s.slotTscale core t es) := by
  unfold State.slotTscale
  exact .ite .refl (.step (touches_raise ..) .refl)

theorem touches_slotStall (s : State) (core : Nat) (lines : List Nat) (scr : Nat) (oc : Nat) :
    Touches [.regs] s (s.slotStall core lines scr oc) := by
  unfold State.slotStall
  exact .step (touches_bump ..) (.step (touches_bump ..) .refl)

theorem touches_vecDescError (s : State) (core : Nat) (t : Nat) (m : OpMsg) :
    Touches [.out, .regs, .step, .links] s (s.vecDescError core t m) := by
  unfold State.vecDescError
  dsimp only
  exact .step (touches_raiseDetail ..) .refl

theorem touches_normMark (s : State) (st : Nat) (i : Nat) :
    Touches [.caps] s (s.normMark st i) := by
  unfold State.normMark
  exact .step (touches_onCap ..) .refl

theorem touches_normPass (s : State) (st : Nat) (i : Nat) (r : CapRec) :
    Touches [.out, .regs, .cores, .knots, .mem, .step, .caps, .links] s (s.normPass st i r) := by
  unfold State.normPass
  split
  · exact .step (touches_memErr ..) .refl
  · rename_i h1
    exact .step (touches_normMark ..) (.step (Touches.of_ok_snd (touches_capSkip ..) h1) .refl)
  · rename_i h1
    refine .ite (.step (touches_gradWait ..) (.step (Touches.of_ok_snd (touches_capSkip ..) h1) .refl)) ?_
    split
    · dsimp only
      exact .step (touches_normMark ..) (.step (touches_onCap ..) (.step (touches_capLoad ..) (.step (Touches.of_ok_snd (touches_capSkip ..)
        h1) .refl)))
    · exact .step (touches_memErr ..) (.step (Touches.of_ok_snd (touches_capSkip ..) h1) .refl)
    · exact .step (touches_memErr ..) (.step (Touches.of_ok_snd (touches_capSkip ..) h1) .refl)

theorem touches_updatePass (s : State) (st : Nat) (i : Nat) (r : CapRec) :
    Touches [.out, .regs, .cores, .knots, .hbm, .poison, .mem, .step, .caps, .wPend, .links] s (s.updatePass st i r) := by
  unfold State.updatePass
  split
  · exact .step (touches_memErr ..) .refl
  · rename_i h1
    exact .step (touches_updMark ..) (.step (Touches.of_ok_snd (touches_capSkip ..) h1) .refl)
  · rename_i h1
    refine .ite (.step (touches_gradWait ..) (.step (Touches.of_ok_snd (touches_capSkip ..) h1) .refl)) ?_
    refine .ite (.step (Touches.of_ok_snd (touches_capSkip ..) h1) .refl) ?_
    split
    · exact .step (touches_memErr ..) (.step (Touches.of_ok_snd (touches_capSkip ..) h1) .refl)
    · dsimp only
      exact .ite (.step (touches_onCap ..) (.step (touches_capLoad ..) (.step (Touches.of_ok_snd (touches_capSkip ..) h1) .refl))) (.getD
        (.step (touches_capFinish ..) (.step (touches_capLoad ..) (.step (Touches.of_ok_snd (touches_capSkip ..) h1) .refl))) (.step
        (Touches.of_ok_snd (touches_capSkip ..) h1) .refl))

theorem touches_schedTest (s : State) (st : Nat) (mode : Bool) (index : Nat) (entry : Nat) :
    Touches [.regs, .caps] s (s.schedTest st mode index entry) := by
  unfold State.schedTest
  dsimp only
  exact .step (touches_onCap ..) (.step (touches_setRegFld ..) (.step (touches_setReg ..) .refl))

theorem touches_loadEnd (s : State) (code : Nat) (section_ : Nat) :
    Touches [.out, .regs, .step, .links] s (s.loadEnd code section_) := by
  unfold State.loadEnd
  dsimp only
  exact .ite (.step (touches_setReg ..) (.step (touches_setRegFld ..) .refl)) (.step (touches_raise ..) (.step (touches_setReg ..) (.step
    (touches_setRegFld ..) .refl)))

theorem touches_loadWrite (s : State) :
    Touches [.out, .regs, .step, .links, .load] s (s.loadWrite) := by
  unfold State.loadWrite
  refine .ite .refl ?_
  refine .ite (.step (touches_loadEnd ..) .refl) ?_
  dsimp only
  exact .step (touches_set_load ..) (.step (touches_setRegFld ..) .refl)

theorem touches_runWrite (s : State) (run : Bool) :
    Touches [.out, .regs, .mem, .step, .whips, .caps, .hank, .links] s (s.runWrite run) := by
  unfold State.runWrite
  dsimp only
  exact .ite (.step (touches_armTry ..) (.step (touches_setRegFld ..) .refl)) (.ite (.step (touches_enterHeld ..) (.step (touches_setRegFld
    ..) .refl)) (.step (touches_setRegFld ..) .refl))

theorem touches_reissueApply (s : State) :
    Touches [.out, .regs, .mem, .step, .whips, .caps, .hank, .links] s (s.reissueApply) := by
  unfold State.reissueApply
  exact .step (touches_armTry ..) (.step (touches_hankClear ..) (.step (touches_onStep ..) .refl))

theorem touches_reissueWrite (s : State) :
    Touches [.out, .regs, .mem, .step, .whips, .caps, .hank, .links] s (s.reissueWrite) := by
  unfold State.reissueWrite
  refine .ite .refl ?_
  dsimp only
  exact .step (touches_reissueApply ..) (.ite (.step (touches_onHank ..) (.step (touches_castDown ..) .refl)) .refl)

theorem touches_limitWrite (s : State) (v : W64) :
    Touches [.out, .regs, .mem, .step, .whips, .caps, .hank, .links] s (s.limitWrite v) := by
  unfold State.limitWrite
  exact .step (touches_armTry ..) (.step (touches_setReg ..) .refl)

theorem touches_tickLate (s : State) :
    Touches [.out, .regs, .step, .links] s (s.tickLate) := by
  unfold State.tickLate
  exact .step (touches_timingNr ..) (.step (touches_raise ..) (.step (touches_bump ..) .refl))

theorem touches_registerSummary (s : State) (member : Nat) (m : Summary) :
    Touches [.out, .regs, .cores, .knots, .step, .whips, .caps, .hank, .links, .mirror] s (s.registerSummary member m) := by
  unfold State.registerSummary
  refine .ite .refl ?_
  dsimp only
  exact .ite (.step (touches_onHank ..) .refl) (.ite (.step (touches_decide_ ..) (.step (touches_onHank ..) .refl)) (.step (touches_send ..)
    (.step (touches_onHank ..) .refl)))

theorem touches_sendSummary (s : State) :
    Touches [.out, .regs, .cores, .knots, .step, .whips, .caps, .hank, .links, .mirror] s (s.sendSummary) := by
  unfold State.sendSummary
  dsimp only
  exact .ite (.step (touches_registerSummary ..) (.step (touches_onStep ..) .refl)) (.step (touches_send ..) (.step (touches_onStep ..)
    .refl))

theorem touches_sendMirrors (s : State) : Touches [.out, .regs, .mem, .step, .links] s s.sendMirrors.st := by
  unfold State.sendMirrors
  refine .foldl_by MirAcc.st (.foldl_by MirAcc.st .refl fun a x => touches_mirAcc_add ?_) fun a x => touches_mirAcc_add ?_
  · split
    · exact .error
    · exact (touches_capHalf ..).mono
  · split
    · exact .error
    · exact .ok (touches_ctxLoad ..).mono

theorem touches_serveHeld (s : State) :
    Touches [.out, .hostReply, .regs, .hbm, .poison, .mem, .step, .links, .hostOut] s (s.serveHeld) := by
  unfold State.serveHeld
  exact .ite .refl (.foldl (.step (touches_set_hostOut ..) .refl) fun t a => .ite (.step (touches_hold ..) .refl) (.step (touches_hostHbm ..)
    .refl))

theorem touches_resetStage (s : State) (core : Nat) (cause : Nat) (stage : Nat) :
    Touches [.regs, .cores] s (s.resetStage core cause stage) := by
  unfold State.resetStage
  dsimp only
  exact .step (touches_chafeEvent ..) (.step (touches_onCore ..) .refl)

theorem touches_stuck (s : State) (u : Nat × Nat) :
    Touches [.regs, .cores, .stackReset] s (s.stuck u) := by
  unfold State.stuck
  exact .ite (.ite (.step (touches_resetStage ..) .refl) .refl) (.ite (.step (touches_chafeEvent ..) (.step (touches_set_stackReset ..)
    .refl)) .refl)

theorem touches_putWords (s : State) (n : RegName) (ws : List W64) :
    Touches [.regs] s (s.putWords n ws) := by
  unfold State.putWords
  exact .foldl .refl fun t a => .step (touches_setReg ..) .refl

theorem touches_routeLoad (s : State) :
    Touches [.regs, .route] s (s.routeLoad) := by
  unfold State.routeLoad
  dsimp only
  exact .ite (.step (touches_setRegFld ..) .refl) (.step (touches_putWords ..) (.step (touches_set_route ..) (.step (touches_setRegFld ..)
    .refl)))

theorem touches_routeCtrl (s : State) (v : W64) :
    Touches [.regs, .route] s (s.routeCtrl v) := by
  unfold State.routeCtrl
  dsimp only
  exact .ite (.step (touches_routeLoad ..) (.step (touches_setRegFld ..) .refl)) (.step (touches_setRegFld ..) .refl)

theorem touches_mirrorError (s : State) :
    Touches [.out, .regs, .step, .links] s (s.mirrorError) := by
  unfold State.mirrorError
  exact .step (touches_raise ..) .refl

theorem touches_mirWrite (s : State) (e : MirEntry) (m : MirrorMsg) :
    Touches [.regs, .hbm, .poison, .mem] s (s.mirWrite e m) := by
  unfold State.mirWrite
  dsimp only
  exact .ite (.step (touches_hbmWrite ..) (.ite (.step (touches_hbmWrite ..) (.step (touches_charge ..) .refl)) .refl)) (.ite (.step
    (touches_hbmWrite ..) (.step (touches_charge ..) .refl)) .refl)

theorem touches_mirrorTake (s : State) (m : MirrorMsg) :
    OptTouches [.out, .regs, .hbm, .poison, .mem, .step, .links, .mirror] s (s.mirrorTake m) := by
  unfold State.mirrorTake
  dsimp only
  refine .ite (.some (.step (touches_dropStale ..) .refl)) ?_
  refine .ite (.some .refl) ?_
  split
  · exact .some (.step (touches_mirrorError ..) .refl)
  · exact .ite .none (.some (.ite (.step (touches_mirWord ..) (.step (touches_set_mirror ..) (.step (touches_send ..) (.step
      (touches_mirWrite ..) .refl)))) (.step (touches_set_mirror ..) (.step (touches_send ..) (.step (touches_mirWrite ..) .refl)))))

theorem touches_mirrorCtrl (s : State) (v : W64) :
    Touches [.out, .regs, .mem, .step, .links, .waiting] s (s.mirrorCtrl v) := by
  unfold State.mirrorCtrl
  refine .ite (.step (touches_decodeError ..) .refl) ?_
  dsimp only
  exact .ite (.step (touches_setReg ..) .refl) (touches_arrive (.step (touches_setReg ..) .refl) fun t => .step (touches_mirrorGo ..) .refl)

theorem touches_restoreWrite (s : State) (st : Nat) (ctx : Nat) (a : Nat) (bs : List Byte) :
    OptTouches [.out, .regs, .hbm, .poison, .mem, .step, .links] s (s.restoreWrite st ctx a bs) := by
  unfold State.restoreWrite
  split
  · rename_i h1
    exact .some (.step (Touches.of_ok (touches_ctxWrite ..) h1) .refl)
  · exact .step (touches_memFail ..) .refl

theorem touches_restoreAll (s : State) (st ctx : Nat) (l : List (Nat × List Byte)) : OptTouches [.out, .regs, .hbm, .poison, .mem, .step, .links] s (s.restoreAll st ctx l) := by
  induction l generalizing s with
  | nil => exact .some .refl
  | cons w l ih => exact .bind fun t h => .step (ih t) (.step (.of_some (touches_restoreWrite ..) h) .refl)

theorem touches_restoreRecord (s : State) (st : Nat) (r : CapRec) (wt : Nat) (version : Nat) :
    OptTouches [.out, .regs, .hbm, .poison, .mem, .step, .links] s (s.restoreRecord st r wt version) := by
  unfold State.restoreRecord
  split
  · exact .step (touches_memFail ..) .refl
  · dsimp only
    exact .step (touches_restoreAll ..) (.step (touches_capLoad ..) .refl)

theorem touches_restoreTake (s : State) (m : MirrorMsg) :
    OptTouches [.out, .regs, .hbm, .poison, .mem, .step, .links] s (s.restoreTake m) := by
  unfold State.restoreTake
  refine .ite (.some (.step (touches_mirrorError ..) .refl)) ?_
  refine .ite ?_ ?_
  · split
    · exact .some (.step (touches_mirrorError ..) .refl)
    · exact .ite (.some (.step (touches_dropStale ..) .refl)) (.step (touches_restoreWrite ..) .refl)
  · split
    · exact .some (.step (touches_mirrorError ..) .refl)
    · refine .ite (.some (.step (touches_dropStale ..) .refl)) ?_
      refine .bind ?_
      intro x61 h6
      exact .ite (.step (touches_restoreRecord ..) (.step (Touches.of_some (touches_restoreWrite ..) h6) .refl)) (.some (.step
        (Touches.of_some (touches_restoreWrite ..) h6) .refl))

theorem touches_stateCtrl (s : State) (v : W64) :
    Touches [.out, .regs, .cores, .hbm, .poison, .mem, .step, .siteMax, .wMax, .links, .waiting] s (s.stateCtrl v) := by
  unfold State.stateCtrl
  refine .ite (.step (touches_decodeError ..) .refl) ?_
  dsimp only
  exact .ite (touches_arrive (.ite (touches_arrive (.ite (.step (touches_setRegFld ..) .refl) .refl) fun t => .step (touches_saveGo ..)
    .refl) (.ite (.step (touches_setRegFld ..) .refl) .refl)) fun t => .step (touches_restoreGo ..) .refl) (.ite (touches_arrive (.ite (.step
    (touches_setRegFld ..) .refl) .refl) fun t => .step (touches_saveGo ..) .refl) (.ite (.step (touches_setRegFld ..) .refl) .refl))

theorem touches_resetEscalate (s : State) (core : Nat) :
    Touches [.out, .regs, .cores, .knots, .step, .links, .journal, .rel] s (s.resetEscalate core) := by
  unfold State.resetEscalate
  split
  · exact .refl
  · dsimp only
    split
    · exact .step (touches_resetStage ..) (.step (touches_takeDump ..) (.step (touches_override ..) (.step (touches_markCore ..) (.step
        (touches_raise ..) .refl))))
    · exact .step (touches_resetStage ..) (.step (touches_override ..) (.step (touches_markCluster ..) (.step (touches_raise ..) .refl)))
    · exact .step (touches_dieFailed ..) (.step (touches_raise ..) .refl)

theorem touches_resetDone (s : State) (core : Nat) :
    Touches [.cores, .knots, .scratch] s (s.resetDone core) := by
  unfold State.resetDone
  split
  · exact .refl
  · dsimp only
    exact .ite (.step (touches_resetCore ..) (.step (touches_onCore ..) .refl)) (.foldl (.step (touches_onCore ..) .refl) fun t a => .ite
      (.step (touches_wipeScratch ..) (.step (touches_resetCore ..) .refl)) (.step (touches_resetCore ..) .refl))

theorem touches_journalAck (s : State) (slot : Nat) :
    Touches [.out, .regs, .step, .links, .journal] s (s.journalAck slot) := by
  unfold State.journalAck
  dsimp only
  refine .ite .refl ?_
  split
  · exact .step (touches_set_journal ..) .refl
  · exact .step (touches_raise ..) (.step (touches_set_journal ..) .refl)

theorem touches_resumeWrite (s : State) (value : W64) :
    Touches [.out, .regs, .mem, .step, .links, .journal, .waiting] s (s.resumeWrite value) := by
  unfold State.resumeWrite
  refine .ite (.step (touches_decodeError ..) .refl) ?_
  dsimp only
  exact .ite (touches_arrive (.step (touches_setReg ..) .refl) fun t => .step (touches_resumeGo ..) .refl) (.step (touches_setReg ..) .refl)

theorem touches_submitWrite (s : State) (value : W64) :
    Touches [.out, .regs, .mem, .step, .links, .journal, .waiting] s (s.submitWrite value) := by
  unfold State.submitWrite
  dsimp only
  exact .ite (touches_arrive (.step (touches_setReg ..) .refl) fun t => .ite .none (.some (.step (touches_journalEmit ..) (.step
    (touches_charge ..) .refl)))) (.step (touches_setReg ..) .refl)

theorem touches_migRequest (s : State) (st : Nat) (src : Nat) (dst : Nat) :
    Touches [.out, .regs, .mem, .step, .links] s (s.migRequest st src dst) := by
  unfold State.migRequest
  dsimp only
  exact .ite (.step (touches_raise ..) (.step (touches_setRegFld ..) (.step (touches_setRegFld ..) (.step (touches_setRegFld ..) .refl))))
    (.step (touches_set_mem ..) (.step (touches_setRegFld ..) (.step (touches_setRegFld ..) .refl)))

theorem touches_retrainRequest (s : State) (st : Nat) (src : Nat) :
    Touches [.regs, .mem] s (s.retrainRequest st src) := by
  unfold State.retrainRequest
  dsimp only
  exact .step (touches_set_mem ..) (.step (touches_setRegFld ..) (.step (touches_setRegFld ..) .refl))

theorem touches_zeroGranule (s : State) (a : Nat) : Touches [.hbm, .poison] s (s.zeroGranule a) := by
  unfold State.zeroGranule
  refine .foldl .refl fun t c => ?_
  exact .step (touches_set_poison ..) (.step (touches_set_hbm _ _ fun w => Memory.wf_filter _ w) .refl)

theorem touches_zeroPage (s : State) (p : Nat) :
    Touches [.hbm, .poison, .mem] s (s.zeroPage p) := by
  unfold State.zeroPage
  dsimp only
  exact .step (touches_set_mem ..) (.ite (.foldl .refl fun t a => .step (touches_zeroGranule ..) .refl) .refl)

theorem touches_statusClear (s : State) (id : RegId) (value : W64) (met : W64) :
    Touches [.out, .regs, .step, .links] s (s.statusClear id value met) := by
  unfold State.statusClear
  dsimp only
  exact .foldl (.step (touches_plainWrite ..) .refl) fun t a => .step (touches_raise ..) .refl

theorem touches_scratchAccess (s : State) (a : HostAccess) (ecc : List (Nat × Nat)) :
    Touches [.free, .out, .hostReply, .regs, .scratch, .step, .links, .rel] s (s.scratchAccess a ecc) := by
  unfold State.scratchAccess
  dsimp only
  exact .ite (.ite (.step (touches_decodeError ..) .refl) (.step (touches_reply ..) (.step (touches_decodeError ..) .refl))) (.ite (.step
    (touches_scrWrite ..) .refl) (.ite (.step (touches_reply ..) (.step (touches_scrEventsAt ..) .refl)) (.step (touches_reply ..) (.step
    (touches_scrEventsAt ..) .refl))))

theorem touches_knotHostOp (s : State) (d : Nat) (v : W64) (addr : Nat) :
    Touches [.out, .regs, .cores, .knots, .step, .caps, .hank, .links] s (s.knotHostOp d v addr) := by
  unfold State.knotHostOp
  dsimp only
  split
  · exact .step (touches_hostKnot ..) .refl
  · exact .step (touches_hostKnot ..) .refl
  · exact .step (touches_hostKnot ..) .refl
  · exact .step (touches_decodeError ..) .refl

theorem touches_settleTokens (s : State) (st : Nat) (p : Nat) :
    Touches [.mem] s (s.settleTokens st p) := by
  unfold State.settleTokens
  dsimp only
  exact .step (touches_set_mem ..) .refl

theorem touches_refreshWrite (s : State) (id : RegId) (v : W64) (addr : Nat) :
    Touches [.out, .regs, .step, .links] s (s.refreshWrite id v addr) := by
  unfold State.refreshWrite
  refine .ite (.step (touches_decodeError ..) .refl) ?_
  dsimp only
  exact .ite (.ite .refl (.step (touches_setRegFld ..) .refl)) (.step (touches_setRegFld ..) (.ite .refl (.step (touches_setRegFld ..)
    .refl)))

theorem touches_repairWrite (s : State) (st : Nat) (v : W64) :
    Touches [.out, .regs, .mem, .step, .links] s (s.repairWrite st v) := by
  unfold State.repairWrite
  dsimp only
  exact .ite (.step (touches_retrainRequest ..) (.ite (.step (touches_setRegFld ..) (.ite (.step (touches_setRegFld ..) .refl) .refl)) (.ite
    (.step (touches_setRegFld ..) .refl) .refl))) (.ite (.ite (.step (touches_setRegFld ..) (.ite (.step (touches_setRegFld ..) .refl)
    .refl)) (.ite (.step (touches_setRegFld ..) .refl) .refl)) (.step (touches_migRequest ..) (.ite (.step (touches_setRegFld ..) (.ite
    (.step (touches_setRegFld ..) .refl) .refl)) (.ite (.step (touches_setRegFld ..) .refl) .refl))))

theorem touches_stackRegWrite (s : State) (id : RegId) (st : Nat) (v : W64) (addr : Nat) :
    Touches [.out, .regs, .mem, .step, .caps, .links] s (s.stackRegWrite id st v addr) := by
  unfold State.stackRegWrite
  split
  · exact .step (touches_heldWrite ..) (.step (touches_settleTokens ..) .refl)
  · exact .step (touches_heldWrite ..) .refl
  · exact .step (touches_refreshWrite ..) .refl
  · exact .step (touches_repairWrite ..) .refl
  · exact .step (touches_schedTest ..) .refl
  · exact .step (touches_plainWrite ..) .refl

theorem touches_laneCtrl (s : State) (h : Nat) (value : W64) :
    Touches [.out, .regs, .step, .links] s (s.laneCtrl h value) := by
  unfold State.laneCtrl
  dsimp only
  exact .ite (.step (touches_decodeError ..) .refl) (.step (touches_trainLink ..) (.step (touches_setRegFld ..) (.step (touches_setRegFld ..)
    .refl)))

theorem touches_stepCtrl (s : State) (v : W64) :
    Touches [.out, .regs, .mem, .step, .whips, .caps, .hank, .links, .load] s (s.stepCtrl v) := by
  unfold State.stepCtrl
  dsimp only
  exact .ite (.step (touches_reissueWrite ..) (.step (touches_runWrite ..) (.ite (.step (touches_loadWrite ..) .refl) .refl))) (.step
    (touches_runWrite ..) (.ite (.step (touches_loadWrite ..) .refl) .refl))

theorem touches_loglineWrite (s : State) (v : W64) :
    Touches [.out, .regs, .mem, .step, .whips, .caps, .hank, .links] s (s.loglineWrite v) := by
  unfold State.loglineWrite
  exact .ite (.step (touches_decodeError ..) .refl) (.step (touches_armTry ..) (.step (touches_hankClear ..) (.step (touches_setReg ..)
    .refl)))

theorem touches_linkSecret (s : State) :
    Touches [.out, .links, .sec] s (s.linkSecret).1 := by
  unfold State.linkSecret
  dsimp only
  exact .foldl (.step (touches_onSec _ _ fun _ _ _ => rfl) .refl) fun t a => .ite .refl (.step (touches_set_out ..) (.step (touches_setLink
    ..) .refl))

theorem touches_policyWrite (s : State) :
    Touches [.out, .regs, .step, .links, .sec] s (s.policyWrite).1 := by
  unfold State.policyWrite
  split
  · dsimp only
    exact .refl
  · dsimp only
    split
    · dsimp only
      exact .refl
    · split
      · dsimp only
        exact .step (touches_raise ..) .refl
      · dsimp only
        exact .step (touches_burnAll ..) .refl

theorem touches_lifeAdvance (s : State) :
    Touches [.out, .regs, .step, .links, .sec] s (s.lifeAdvance).1 := by
  unfold State.lifeAdvance
  split
  · dsimp only
    exact .refl
  · dsimp only
    split
    · dsimp only
      exact .refl
    · split
      · dsimp only
        exact .refl
      · split
        · dsimp only
          exact .refl
        · dsimp only
          exact .step (touches_burnAll ..) .refl

theorem touches_spdmRelay (s : State) :
    Touches [.sec] s (s.spdmRelay).1 := by
  unfold State.spdmRelay
  dsimp only
  split
  · dsimp only
    exact .refl
  · dsimp only
    exact .step (touches_onSec _ _ fun _ _ _ => rfl) .refl

theorem touches_secRandom (s : State) :
    Touches [.sec] s (s.secRandom).1 := by
  unfold State.secRandom
  split
  · dsimp only
    exact .refl
  · dsimp only
    exact .step (touches_draw ..) .refl

theorem touches_secRun (s : State) (op : Nat) (index : Nat) :
    Touches [.out, .regs, .ctxs, .step, .links, .sec] s (s.secRun op index).1 := by
  unfold State.secRun
  split
  · exact .step (touches_ctxKeyGen ..) .refl
  · exact .step (touches_linkSecret ..) .refl
  · dsimp only
    exact .step (touches_onSec _ _ fun _ _ _ => rfl) .refl
  · exact .step (touches_policyWrite ..) .refl
  · exact .step (touches_lifeAdvance ..) .refl
  · exact .step (touches_debugChallenge ..) .refl
  · exact .step (touches_debugUnlock ..) .refl
  · exact .step (touches_spdmRelay ..) .refl
  · exact .step (touches_secRandom ..) .refl
  · dsimp only
    exact .refl

theorem touches_secGo (s : State) (op : Nat) (index : Nat) :
    Touches [.out, .regs, .ctxs, .step, .links, .sec] s (s.secGo op index) := by
  unfold State.secGo
  refine .ite (.step (touches_bump ..) .refl) ?_
  dsimp only
  exact .step (touches_setRegFld ..) (.step (touches_onSec _ _ fun _ _ _ => rfl) (.step (touches_secRun ..) (.step (touches_setReg ..)
    .refl)))

theorem touches_secCmd (s : State) (v : W64) :
    Touches [.out, .regs, .ctxs, .step, .links, .sec] s (s.secCmd v) := by
  unfold State.secCmd
  exact .ite (.step (touches_secGo ..) .refl) (.step (touches_setReg ..) .refl)

theorem touches_onPwr (s : State) (f : Power → Power) :
    Touches [.pwr] s (s.onPwr f) := by
  unfold State.onPwr
  exact .step (touches_set_pwr ..) .refl

theorem touches_voltBound (s : State) (d : Nat) (value : W64) :
    Touches [.out, .regs, .step, .links, .pwr] s (s.voltBound d value) := by
  unfold State.voltBound
  dsimp only
  exact .ite (.step (touches_decodeError ..) .refl) (.step (touches_setRegFld ..) (.step (touches_setRegFld ..) (.step (touches_setRegFld ..)
    (.step (touches_onPwr ..) .refl))))

theorem touches_powerCap (s : State) (value : W64) :
    Touches [.out, .regs, .step, .links] s (s.powerCap value) := by
  unfold State.powerCap
  dsimp only
  exact .ite (.step (touches_decodeError ..) .refl) (.step (touches_setRegFld ..) .refl)

theorem touches_modRegWrite (s : State) (id : RegId) (v : W64) (addr : Nat) :
    Touches [.out, .regs, .cores, .knots, .ctxs, .hbm, .poison, .mem, .step, .job, .siteMax, .whips, .caps, .wMax, .route, .hank, .links, .sec, .journal, .pwr, .load, .waiting] s (s.modRegWrite id v addr) := by
  unfold State.modRegWrite
  split
  · exact .step (touches_stepCtrl ..) .refl
  · exact .step (touches_loglineWrite ..) .refl
  · exact .step (touches_limitWrite ..) .refl
  · exact .step (touches_routeCtrl ..) .refl
  · exact .ite (.step (touches_ctxCtrlWrite ..) .refl) .refl
  · exact .step (touches_ctxRegWrite ..) .refl
  · exact .step (touches_ctxRegWrite ..) .refl
  · exact .step (touches_ctxRegWrite ..) .refl
  · exact .step (touches_journalAck ..) .refl
  · exact .step (touches_resumeWrite ..) .refl
  · exact .step (touches_submitWrite ..) .refl
  · exact .step (touches_stateCtrl ..) .refl
  · exact .step (touches_heldWrite ..) .refl
  · exact .step (touches_mirrorCtrl ..) .refl
  · exact .step (touches_secCmd ..) .refl
  · exact .step (touches_alertClear ..) .refl
  · exact .step (touches_voltBound ..) .refl
  · exact .step (touches_clkBound ..) .refl
  · exact .step (touches_powerCap ..) .refl
  · exact .step (touches_plainWrite ..) .refl

theorem touches_regWrite (s : State) (id : RegId) (v : W64) (addr : Nat) :
    Touches [.out, .regs, .cores, .knots, .ctxs, .hbm, .scratch, .poison, .mem, .step, .job, .siteMax, .clusterMap, .whips, .caps, .wMax, .route, .hank, .links, .sec, .journal, .rel, .pwr, .load, .waiting] s (s.regWrite id v addr) := by
  unfold State.regWrite
  split
  · exact .step (touches_coreRegWrite ..) .refl
  · exact .ite (.ite (.step (touches_residueInject ..) .refl) .refl) (.step (touches_plainWrite ..) .refl)
  · exact .step (touches_dieRegWrite ..) .refl
  · exact .ite (.step (touches_knotHostOp ..) .refl) (.step (touches_plainWrite ..) .refl)
  · exact .step (touches_stackRegWrite ..) .refl
  · exact .ite (.step (touches_laneCtrl ..) .refl) (.step (touches_plainWrite ..) .refl)
  · exact .step (touches_modRegWrite ..) .refl
  · exact .step (touches_plainWrite ..) .refl
  · exact .step (touches_plainWrite ..) .refl
  · exact .step (touches_plainWrite ..) .refl

theorem touches_putBytes (s : State) (n : RegName) (bs : List Byte) :
    Touches [.regs] s (s.putBytes n bs) := by
  unfold State.putBytes
  exact .foldl .refl fun t a => .step (touches_setReg ..) .refl

theorem touches_secZero (s : State) :
    Touches [.regs, .sec] s (s.secZero) := by
  unfold State.secZero
  exact .ite (.step (touches_onSec _ _ fun _ _ _ => rfl) (.step (touches_putBytes ..) (.step (touches_putBytes ..) .refl))) .refl

theorem touches_regRead (s : State) (id : RegId) :
    Touches [.hostReply, .regs, .sec] s (s.regRead id) := by
  unfold State.regRead
  dsimp only
  exact .ite (.step (touches_secZero ..) (.step (touches_reply ..) .refl)) (.step (touches_reply ..) .refl)

theorem touches_regAccess (s : State) (a : HostAccess) :
    Touches [.out, .hostReply, .regs, .cores, .knots, .ctxs, .hbm, .scratch, .poison, .mem, .step, .job, .siteMax, .clusterMap, .whips, .caps, .wMax, .route, .hank, .links, .sec, .journal, .rel, .pwr, .load, .waiting] s (s.regAccess a) := by
  unfold State.regAccess
  split
  · dsimp only
    exact .ite (.step (touches_decodeError ..) .refl) (.step (touches_reply ..) (.step (touches_decodeError ..) .refl))
  · exact .ite (.step (touches_regWrite ..) .refl) (.step (touches_regRead ..) .refl)

theorem touches_tagFailure (s : State) (h : Nat) (kind : Nat) (seq : Nat) :
    Touches [.out, .regs, .step, .links] s (s.tagFailure h kind seq) := by
  unfold State.tagFailure
  dsimp only
  exact .ite (.step (touches_refuseFlit ..) (.step (touches_bump ..) .refl)) (.ite (.step (touches_raise ..) (.step (touches_linkDown ..)
    (.step (touches_setLink ..) (.step (touches_bump ..) .refl)))) (.step (touches_refuseFlit ..) (.step (touches_setLink ..) (.step
    (touches_bump ..) .refl))))

theorem touches_set_sec_pwr (s : State) (x : Sec) (y : Power) (h : ∀ k, sget s.sec.otp 0 k ≠ 0 → sget x.otp 0 k = sget s.sec.otp 0 k) :
    Touches [.sec, .pwr] s { s with sec := x, pwr := y } :=
  (touches_set_pwr { s with sec := x } y).step ((touches_set_sec s x h).mono)

theorem touches_set_poison_mem_pwr (s : State) (x : List Nat) (y : MemSys) (z : Power) :
    Touches [.poison, .mem, .pwr] s { s with poison := x, mem := y, pwr := z } :=
  ⟨fun f h => by cases f <;> simp_all [Field.Same], .of_eq rfl rfl rfl rfl⟩

theorem touches_powerOff (s : State) (en latched tripN : Bool) :
    Touches [.clock, .regs, .cores, .knots, .ctxs, .hbm, .scratch, .poison, .mem, .step, .job, .siteMax, .sitePend, .clusterMap, .whips, .caps, .wMax, .wPend, .plan, .route, .hank, .links, .sec, .journal, .mirror, .rel, .pwr, .load, .hostOut, .waiting, .stackReset]
      s (s.powerOff en latched tripN) :=
  ⟨fun f h => by cases f <;> simp_all [Field.Same, State.powerOff], rfl, fun _ => rfl, fun _ => rfl, fun _ _ => rfl⟩

theorem touches_moduleReset (s : State) (inReset : Bool) :
    Touches [.regs, .cores, .knots, .ctxs, .hbm, .scratch, .poison, .mem, .step, .job, .siteMax, .sitePend, .clusterMap, .whips, .caps, .wMax, .wPend, .plan, .route, .hank, .links, .sec, .journal, .mirror, .rel, .pwr, .load, .hostOut, .waiting, .stackReset]
      s (s.moduleReset inReset) :=
  ⟨fun f h => by cases f <;> simp_all [Field.Same, State.moduleReset], rfl, fun _ => rfl, fun _ => rfl, fun _ _ => rfl⟩

theorem touches_throttle (s : State) (d : Nat) (b : Nat) :
    Touches [.out, .regs, .step, .links, .pwr] s (s.throttle d b) := by
  unfold State.throttle
  dsimp only
  exact .ite (.step (touches_onPwr ..) .refl) (.step (touches_override ..) (.step (touches_alert ..) (.step (touches_raise ..) (.step
    (touches_onPwr ..) .refl))))

theorem touches_unthrottle (s : State) (d : Nat) (b : Nat) :
    Touches [.pwr] s (s.unthrottle d b) := by
  unfold State.unthrottle
  dsimp only
  exact .step (touches_onPwr ..) .refl

theorem touches_spdmI3c (s : State) (r : SpdmReq) :
    Touches [.sec, .i3c] s (s.spdmI3c r) := by
  unfold State.spdmI3c
  refine .ite .refl ?_
  split
  · exact .ite (.step (touches_i3cReply ..) .refl) (.step (touches_i3cReply ..) .refl)
  · exact .step (touches_onSec _ _ fun _ _ _ => rfl) (.step (touches_i3cReply ..) .refl)

theorem touches_lockLanes (s : State) (h : Nat) (lanes : Nat) :
    Touches [.out, .regs, .step, .links] s (s.lockLanes h lanes) := by
  unfold State.lockLanes
  exact .foldl (.step (touches_setReg ..) .refl) fun t a => .ite .refl (.step (touches_markLane ..) .refl)

theorem touches_loadMemory (s : State) (b : List Byte) :
    Touches [.regs, .mem] s (s.loadMemory b) := by
  unfold State.loadMemory
  dsimp only
  exact .foldl (.step (touches_set_mem ..) .refl) fun t a => .step (touches_setRegFld ..) (.step (touches_settleTokens ..) .refl)

theorem touches_loadCore (s : State) (l : List ImgSec) (n : Nat) :
    Touches [.regs, .cores] s (s.loadCore l n) := by
  unfold State.loadCore
  dsimp only
  exact .foldl (.step (touches_setCore ..) .refl) fun t a => .step (touches_setReg ..) .refl

theorem touches_loadKnots (s : State) (l : List ImgSec) (d : Nat) :
    Touches [.regs, .knots] s (s.loadKnots l d) := by
  unfold State.loadKnots
  dsimp only
  exact .foldl (.step (touches_setKnot ..) .refl) fun t a => .step (touches_setReg ..) .refl

theorem touches_loadLink (s : State) (h : Nat) (ws : List W64) (newJob : Bool) :
    Touches [.regs, .links] s (s.loadLink h ws newJob) := by
  unfold State.loadLink
  dsimp only
  exact .ite (.step (touches_setLinkState ..) (.step (touches_setLink ..) (.step (touches_dropForwarded ..) (.step (touches_setRegFld ..)
    (.ite (.step (touches_setRegFld ..) (.step (touches_setRegFld ..) (.step (touches_setRegFld ..) (.step (touches_setLink ..) .refl))))
    (.step (touches_setRegFld ..) (.step (touches_setRegFld ..) (.step (touches_setLink ..) .refl)))))))) (.ite (.step (touches_setRegFld ..)
    (.ite (.step (touches_setRegFld ..) (.step (touches_setRegFld ..) (.step (touches_setRegFld ..) (.step (touches_setLink ..) .refl))))
    (.step (touches_setRegFld ..) (.step (touches_setRegFld ..) (.step (touches_setLink ..) .refl))))) (.step (touches_trainLink ..) (.step
    (touches_setRegFld ..) (.ite (.step (touches_setRegFld ..) (.step (touches_setRegFld ..) (.step (touches_setRegFld ..) (.step
    (touches_setLink ..) .refl)))) (.step (touches_setRegFld ..) (.step (touches_setRegFld ..) (.step (touches_setLink ..) .refl)))))))

theorem touches_loadLinks (s : State) (l : List ImgSec) (newJob : Bool) :
    Touches [.regs, .links] s (s.loadLinks l newJob) := by
  unfold State.loadLinks
  exact .foldl .refl fun t a => .step (touches_loadLink ..) .refl

theorem touches_loadMboxes (s : State) (start : Nat) :
    Touches [.regs] s (s.loadMboxes start) := by
  unfold State.loadMboxes
  refine .foldl .refl fun t a => ?_
  dsimp only
  exact .step (touches_setReg ..) .refl

theorem touches_install (s : State) (j : LoadJob) :
    Touches [.regs, .cores, .knots, .mem, .step, .job, .siteMax, .sitePend, .whips, .caps, .wMax, .wPend, .plan, .route, .hank, .links, .mirror, .rel] s (s.install j) := by
  unfold State.install
  dsimp only
  exact .step (touches_loadLinks ..) (.step (touches_loadMboxes ..) (.foldl (.step (touches_set_whips_caps ..) (.step (touches_loadKnots ..)
    (.step (touches_loadKnots ..) (.foldl (.step (touches_loadMemory ..) (.step (touches_putWords ..) (.step (touches_hankClear ..) (.step
    (touches_setReg ..) (.step (touches_onHank ..) (.step (touches_onStep ..) (.step
    (touches_set_job_siteMax_sitePend_wMax_wPend_plan_route_mirror ..) (.step (touches_clearTotals ..) .refl)))))))) fun t a => .step
    (touches_loadCore ..) .refl)))) fun t a => .step (touches_clearFailed ..) .refl))

theorem touches_tick (s : State) :
    Touches [.clock, .regs] s (s.tick) := by
  unfold State.tick
  exact .ite (.step (touches_bump ..) (.step (touches_set_clock ..) .refl)) .refl

theorem touches_ccUpd (s : State) (n : Nat) (f : ControlCore → ControlCore) :
    Touches [.cores] s (Sys2Proof.Safety.ccUpd s n f) := by
  unfold Sys2Proof.Safety.ccUpd
  exact .step (touches_setCore ..) .refl

theorem touches_ccEnded (s : State) (n : Nat) :
    Touches [.cores] s (ccEnded s n) := by
  unfold ccEnded
  exact .step (touches_ccUpd ..) .refl

theorem touches_drainingNow (s : State) :
    Touches [.step] s (drainingNow s) := by
  unfold drainingNow
  exact .step (touches_set_step ..) .refl

theorem touches_received (s : State) (d : Nat) :
    Touches [.regs] s (received s d) := by
  unfold received
  exact .step (touches_bump ..) .refl

theorem touches_strandUpd (s : State) (n : Nat) (t : Nat) (f : Strand → Strand) :
    Touches [.regs, .cores] s (Sys2Proof.Safety.strandUpd s n t f) := by
  unfold Sys2Proof.Safety.strandUpd
  dsimp only
  exact .step (touches_setCore ..) (.step (touches_bump ..) .refl)

end Sys2Proof.Machine
end

section
/-! SUPPORT. The fields that the meaning of each command may change. -/

-- One body at a time: elaborated side by side, the many bodies of this section exhaust the threads that the check allows.
set_option Elab.async false

namespace Sys2Proof.Machine
open Sys2Proof.Safety

theorem touches_ccRun {F : List Field} {n op : Nat} {s : State} {f : W64 → State → State} (hf : ∀ w t, Touches F t (f w t))
    (hF : [.out, .regs, .cores, .step, .links] ⊆ F := by decide) : OutTouches F s (ccRun n op s f) := by
  unfold ccRun
  refine .ite .fault ?_
  dsimp only
  refine .ite (.next .refl) ?_
  split
  · exact .next (.step (touches_ccIllegal ..) .refl hF)
  · exact .ite (.next (.step (touches_ccIllegal ..) .refl hF)) (.ite (.next .refl) (.next (hf _ _)))

theorem touches_execCcNop (core : Nat) (s : State) :
    OutTouches [.out, .regs, .cores, .step, .links] s (execCcNop core s) := by
  unfold execCcNop
  exact touches_ccRun fun w t => .step (touches_onCC ..) .refl

theorem touches_execStepend (core : Nat) (s : State) :
    OutTouches [.out, .regs, .cores, .step, .links] s (execStepend core s) := by
  unfold execStepend
  refine touches_ccRun fun w t => ?_
  dsimp only
  exact .ite (.step (touches_enterDraining ..) (.step (touches_onCC ..) .refl)) (.step (touches_onCC ..) .refl)

theorem touches_execAddi (core : Nat) (s : State) :
    OutTouches [.out, .regs, .cores, .step, .links] s (execAddi core s) := by
  unfold execAddi
  exact touches_ccRun fun w t => .step (touches_ccSet ..) .refl

theorem touches_execCcAdd (core : Nat) (s : State) :
    OutTouches [.out, .regs, .cores, .step, .links] s (execCcAdd core s) := by
  unfold execCcAdd
  exact touches_ccRun fun w t => .step (touches_ccSet ..) .refl

theorem touches_execCcSub (core : Nat) (s : State) :
    OutTouches [.out, .regs, .cores, .step, .links] s (execCcSub core s) := by
  unfold execCcSub
  exact touches_ccRun fun w t => .step (touches_ccSet ..) .refl

theorem touches_execCcMul (core : Nat) (s : State) :
    OutTouches [.out, .regs, .cores, .step, .links] s (execCcMul core s) := by
  unfold execCcMul
  exact touches_ccRun fun w t => .step (touches_ccSet ..) .refl

theorem touches_execCcAnd (core : Nat) (s : State) :
    OutTouches [.out, .regs, .cores, .step, .links] s (execCcAnd core s) := by
  unfold execCcAnd
  exact touches_ccRun fun w t => .step (touches_ccSet ..) .refl

theorem touches_execCcOr (core : Nat) (s : State) :
    OutTouches [.out, .regs, .cores, .step, .links] s (execCcOr core s) := by
  unfold execCcOr
  exact touches_ccRun fun w t => .step (touches_ccSet ..) .refl

theorem touches_execCcXor (core : Nat) (s : State) :
    OutTouches [.out, .regs, .cores, .step, .links] s (execCcXor core s) := by
  unfold execCcXor
  exact touches_ccRun fun w t => .step (touches_ccSet ..) .refl

theorem touches_execShl (core : Nat) (s : State) :
    OutTouches [.out, .regs, .cores, .step, .links] s (execShl core s) := by
  unfold execShl
  exact touches_ccRun fun w t => .step (touches_ccSet ..) .refl

theorem touches_execShr (core : Nat) (s : State) :
    OutTouches [.out, .regs, .cores, .step, .links] s (execShr core s) := by
  unfold execShr
  exact touches_ccRun fun w t => .step (touches_ccSet ..) .refl

theorem touches_execSra (core : Nat) (s : State) :
    OutTouches [.out, .regs, .cores, .step, .links] s (execSra core s) := by
  unfold execSra
  exact touches_ccRun fun w t => .step (touches_ccSet ..) .refl

theorem touches_execLi (core : Nat) (s : State) :
    OutTouches [.out, .regs, .cores, .step, .links] s (execLi core s) := by
  unfold execLi
  exact touches_ccRun fun w t => .step (touches_ccSet ..) .refl

theorem touches_execLih (core : Nat) (s : State) :
    OutTouches [.out, .regs, .cores, .step, .links] s (execLih core s) := by
  unfold execLih
  exact touches_ccRun fun w t => .step (touches_ccSet ..) .refl

theorem touches_execLdc (core : Nat) (s : State) :
    OutTouches [.out, .regs, .cores, .step, .links] s (execLdc core s) := by
  unfold execLdc
  refine touches_ccRun fun w t => ?_
  dsimp only
  exact .ite (.step (touches_ccIllegal ..) .refl) (.step (touches_onCC ..) .refl)

theorem touches_execGets (core : Nat) (s : State) :
    OutTouches [.out, .regs, .cores, .step, .links] s (execGets core s) := by
  unfold execGets
  refine touches_ccRun fun w t => ?_
  dsimp only
  split
  · exact .step (touches_onCC ..) .refl
  · exact .step (touches_onCC ..) .refl
  · exact .step (touches_onCC ..) .refl
  · exact .step (touches_onCC ..) .refl
  · exact .step (touches_onCC ..) .refl
  · exact .step (touches_ccIllegal ..) .refl

theorem touches_execBeq (core : Nat) (s : State) :
    OutTouches [.out, .regs, .cores, .step, .links] s (execBeq core s) := by
  unfold execBeq
  refine touches_ccRun fun w t => ?_
  dsimp only
  exact .step (touches_ccBranch ..) .refl

theorem touches_execBne (core : Nat) (s : State) :
    OutTouches [.out, .regs, .cores, .step, .links] s (execBne core s) := by
  unfold execBne
  refine touches_ccRun fun w t => ?_
  dsimp only
  exact .step (touches_ccBranch ..) .refl

theorem touches_execBlt (core : Nat) (s : State) :
    OutTouches [.out, .regs, .cores, .step, .links] s (execBlt core s) := by
  unfold execBlt
  refine touches_ccRun fun w t => ?_
  dsimp only
  exact .step (touches_ccBranch ..) .refl

theorem touches_execBltu (core : Nat) (s : State) :
    OutTouches [.out, .regs, .cores, .step, .links] s (execBltu core s) := by
  unfold execBltu
  refine touches_ccRun fun w t => ?_
  dsimp only
  exact .step (touches_ccBranch ..) .refl

theorem touches_execCcLoop (core : Nat) (s : State) :
    OutTouches [.out, .regs, .cores, .step, .links] s (execCcLoop core s) := by
  unfold execCcLoop
  refine touches_ccRun fun w t => ?_
  dsimp only
  exact .ite (.step (touches_ccIllegal ..) .refl) (.step (touches_ccBranch ..) (.step (touches_onCC ..) .refl))

theorem touches_execIssue (core : Nat) (s : State) :
    OutTouches [.out, .regs, .cores, .step, .links] s (execIssue core s) := by
  unfold execIssue
  refine touches_ccRun fun w t => ?_
  dsimp only
  refine .ite (.step (touches_ccIllegal ..) .refl) ?_
  split
  · exact .step (touches_ccIllegal ..) .refl
  · exact .ite (.step (touches_ccWait ..) .refl) (.step (touches_onCore ..) (.step (touches_bump ..) (.step (touches_onCC ..) .refl)))

theorem touches_execFence (core : Nat) (s : State) :
    OutTouches [.out, .regs, .cores, .step, .links] s (execFence core s) := by
  unfold execFence
  exact touches_ccRun fun w t => .ite (.step (touches_ccWait ..) .refl) (.step (touches_onCC ..) .refl)

theorem touches_execVres (core : Nat) (s : State) :
    OutTouches [.out, .regs, .cores, .step, .links] s (execVres core s) := by
  unfold execVres
  refine touches_ccRun fun w t => ?_
  dsimp only
  split
  · exact .ite (.step (touches_onCC ..) .refl) (.step (touches_ccWait ..) .refl)
  · exact .step (touches_onCC ..) (.step (touches_raiseDetail ..) .refl)

theorem touches_execTie (core : Nat) (cellErr : Bool) (s : State) :
    OutTouches [.out, .regs, .cores, .knots, .step, .caps, .links, .rel] s (execTie core cellErr s) := by
  unfold execTie
  exact touches_ccRun fun w t => .step (touches_ccKnot ..) .refl

theorem touches_execUntie (core : Nat) (cellErr : Bool) (s : State) :
    OutTouches [.out, .regs, .cores, .knots, .step, .caps, .links, .rel] s (execUntie core cellErr s) := by
  unfold execUntie
  exact touches_ccRun fun w t => .step (touches_ccKnot ..) .refl

theorem touches_execWait (core : Nat) (cellErr : Bool) (lag : Nat) (s : State) :
    OutTouches [.out, .regs, .cores, .knots, .step, .caps, .links, .rel] s (execWait core cellErr lag s) := by
  unfold execWait
  exact touches_ccRun fun w t => .step (touches_ccKnot ..) .refl

theorem touches_execWaitclr (core : Nat) (cellErr : Bool) (lag : Nat) (s : State) :
    OutTouches [.out, .regs, .cores, .knots, .step, .caps, .links, .rel] s (execWaitclr core cellErr lag s) := by
  unfold execWaitclr
  exact touches_ccRun fun w t => .step (touches_ccKnot ..) .refl

theorem touches_execTake (core : Nat) (cellErr : Bool) (s : State) :
    OutTouches [.out, .regs, .cores, .knots, .step, .caps, .links, .rel] s (execTake core cellErr s) := by
  unfold execTake
  exact touches_ccRun fun w t => .step (touches_ccKnot ..) .refl

theorem touches_execRtie (core : Nat) (s : State) :
    OutTouches [.out, .regs, .cores, .step, .links] s (execRtie core s) := by
  unfold execRtie
  exact touches_ccRun fun w t => .step (touches_ccRemote ..) .refl

theorem touches_execRuntie (core : Nat) (s : State) :
    OutTouches [.out, .regs, .cores, .step, .links] s (execRuntie core s) := by
  unfold execRuntie
  exact touches_ccRun fun w t => .step (touches_ccRemote ..) .refl

theorem touches_execRemoteSend (core : Nat) (s : State) :
    OutTouches [.out, .regs, .cores, .knots, .step, .caps, .links] s (execRemoteSend core s) := by
  unfold execRemoteSend
  refine .ite .fault ?_
  dsimp only
  split
  · exact .next .refl
  · exact .ite (.next .refl) (.ite (.ite (.next (.step (touches_bump ..) (.step (touches_onCore ..) (.step (touches_remoteArrive ..)
      .refl)))) (.next .refl)) (.next (.step (touches_send ..) (.step (touches_bump ..) (.step (touches_onCore ..) .refl)))))

theorem touches_execRemoteKnotOp (die : Nat) (o : RemoteOp) (cellErr : Bool) (s : State) :
    OutTouches [.out, .regs, .cores, .knots, .step, .caps, .links, .rel] s (execRemoteKnotOp die o cellErr s) := by
  unfold execRemoteKnotOp
  exact .ite (.next (.step (touches_remoteMsg ..) (.step (touches_cellCheck ..) .refl))) .fault

theorem touches_execKnotTimeout (core : Nat) (s : State) :
    OutTouches [.out, .regs, .cores, .knots, .step, .links] s (execKnotTimeout core s) := by
  unfold execKnotTimeout
  refine .ite .fault ?_
  dsimp only
  split
  · exact .next .refl
  · exact .next (.step (touches_knotError ..) (.step (touches_bump ..) (.step (touches_ccStop ..) (.step (touches_dropPend ..) .refl))))

theorem touches_guardPart (ok : Bool) (s : State) :
    OutTouches [] s (guardPart ok s) := by
  unfold guardPart
  exact .ite (.next .refl) .fault

theorem touches_execHostNop (die : Nat) (ctx : Nat) (knot : Nat) (s : State) :
    OutTouches [.out, .regs, .cores, .knots, .step, .caps, .hank, .links] s (execHostNop die ctx knot s) := by
  unfold execHostNop
  exact .step (touches_guardPart ..) (.step (touches_hostKnot ..) .refl)

theorem touches_execHostTie (die : Nat) (ctx : Nat) (knot : Nat) (cellErr : Bool) (s : State) :
    OutTouches [.out, .regs, .cores, .knots, .step, .caps, .hank, .links, .rel] s (execHostTie die ctx knot cellErr s) := by
  unfold execHostTie
  exact .step (touches_guardPart ..) (.step (touches_hostKnot ..) (.step (touches_cellCheck ..) .refl))

theorem touches_execHostUntie (die : Nat) (ctx : Nat) (knot : Nat) (cellErr : Bool) (s : State) :
    OutTouches [.out, .regs, .cores, .knots, .step, .caps, .hank, .links, .rel] s (execHostUntie die ctx knot cellErr s) := by
  unfold execHostUntie
  exact .step (touches_guardPart ..) (.step (touches_hostKnot ..) (.step (touches_cellCheck ..) .refl))

theorem touches_execPlyAccept (kind : Nat) (core : Nat) (ply : Nat) (s : State) :
    OutTouches [.out, .regs, .cores, .knots, .hbm, .scratch, .poison, .mem, .step, .whips, .caps, .links] s (execPlyAccept kind core ply s) := by
  unfold execPlyAccept
  refine .step (touches_guardPart ..) ?_
  dsimp only
  split
  · exact .refl
  · exact .ite .refl (.step (touches_plyAccept ..) .refl)

theorem touches_execMatmul (core : Nat) (ply : Nat) (s : State) :
    OutTouches [.out, .regs, .cores, .knots, .hbm, .scratch, .poison, .mem, .step, .whips, .caps, .links] s (execMatmul core ply s) := by
  unfold execMatmul
  exact .step (touches_execPlyAccept ..) .refl

theorem touches_execPacked (core : Nat) (ply : Nat) (s : State) :
    OutTouches [.out, .regs, .cores, .knots, .hbm, .scratch, .poison, .mem, .step, .whips, .caps, .links] s (execPacked core ply s) := by
  unfold execPacked
  exact .step (touches_execPlyAccept ..) .refl

theorem touches_execBlockStep (core : Nat) (ply : Nat) (quad : Nat) (feedStalls : Nat) (gap : Nat) (ecc : List (Nat × Nat)) (s : State) :
    OutTouches [.free, .out, .regs, .cores, .knots, .hbm, .scratch, .poison, .mem, .step, .sitePend, .whips, .caps, .links, .rel] s (execBlockStep core ply quad feedStalls gap ecc s) := by
  unfold execBlockStep
  refine .step (touches_guardPart ..) ?_
  split
  · dsimp only
    exact .ite .refl (.ite (.step (touches_accDone ..) (.step (touches_blockStep ..) (.step (touches_scrEvents ..) .refl))) (.step
      (touches_blockStep ..) (.step (touches_scrEvents ..) .refl)))
  · split
    · exact .refl
    · dsimp only
      exact .ite .refl (.ite (.step (touches_accDone ..) (.step (touches_blockStep ..) (.step (touches_scrEvents ..) (.foldl .refl fun t a =>
        .step (touches_onSlot ..) (.step (touches_onPly ..) .refl))))) (.step (touches_blockStep ..) (.step (touches_scrEvents ..) (.foldl
        .refl fun t a => .step (touches_onSlot ..) (.step (touches_onPly ..) .refl)))))

theorem touches_execReadOut (core : Nat) (ply : Nat) (quad : Nat) (s : State) :
    OutTouches [.out, .regs, .cores, .step, .links] s (execReadOut core ply quad s) := by
  unfold execReadOut
  refine .step (touches_guardPart ..) ?_
  split
  · exact .refl
  · dsimp only
    exact .ite .refl (.ite (.foldl .refl fun t a => .step (touches_bump ..) .refl) (.step (touches_readOut ..) .refl))

theorem touches_execQuantiserOperation (core : Nat) (port : Nat) (s : State) :
    OutTouches [.out, .regs, .cores, .knots, .hbm, .scratch, .poison, .mem, .step, .sitePend, .whips, .caps, .links] s (execQuantiserOperation core port s) := by
  unfold execQuantiserOperation
  refine .step (touches_guardPart ..) ?_
  split
  · exact .refl
  · split
    · exact .step (touches_keepStall ..) .refl
    · rename_i h3
      refine .ite .refl ?_
      dsimp only
      refine .ite ?_ ?_
      · refine .step (touches_releaseUnguarded ..) ?_
        refine .step (touches_qopDone ..) ?_
        split
        · exact .step (touches_memErr ..) (.step (touches_portRan ..) (.step (Touches.of_some_fst (touches_runQOp ..) h3) .refl))
        · exact .step (touches_portRan ..) (.step (Touches.of_some_fst (touches_runQOp ..) h3) .refl)
      · refine .step (touches_qopDone ..) ?_
        split
        · exact .step (touches_memErr ..) (.step (touches_portRan ..) (.step (Touches.of_some_fst (touches_runQOp ..) h3) .refl))
        · exact .step (touches_portRan ..) (.step (Touches.of_some_fst (touches_runQOp ..) h3) .refl)

theorem touches_execDamageRecord (core : Nat) (s : State) :
    OutTouches [.out, .regs, .cores, .knots, .hbm, .scratch, .poison, .mem, .step, .whips, .caps, .links] s (execDamageRecord core s) := by
  unfold execDamageRecord
  refine .step (touches_guardPart ..) ?_
  split
  · exact .refl
  · dsimp only
    exact .ite (.step (touches_dropKeeps ..) (.step (touches_onEc ..) .refl)) (.step (touches_ecPoll ..) (.step (touches_ecRecord ..) (.step
      (touches_onEc ..) .refl)))

theorem touches_execEcLayerBound (core : Nat) (layer : Nat) (value : W64) (s : State) :
    OutTouches [.out, .regs, .cores, .step, .links] s (execEcLayerBound core layer value s) := by
  unfold execEcLayerBound
  exact .step (touches_guardPart ..) (.step (touches_layerWrite ..) .refl)

theorem touches_execResidueInject (core : Nat) (ply : Nat) (s : State) :
    OutTouches [.out, .regs, .step, .links] s (execResidueInject core ply s) := by
  unfold execResidueInject
  exact .step (touches_guardPart ..) (.step (touches_residueInject ..) .refl)

theorem touches_execRavelTestIndex (core : Nat) (value : W64) (s : State) :
    OutTouches [.regs, .cores] s (execRavelTestIndex core value s) := by
  unfold execRavelTestIndex
  exact .step (touches_guardPart ..) (.step (touches_onQnt ..) (.step (touches_ravelInput ..) .refl))

theorem touches_execRavelTestInput (core : Nat) (sel : Nat) (value : W64) (s : State) :
    OutTouches [.regs] s (execRavelTestInput core sel value s) := by
  unfold execRavelTestInput
  exact .step (touches_guardPart ..) (.step (touches_ravelInput ..) .refl)

theorem touches_execRavelTestDone (core : Nat) (s : State) :
    OutTouches [.regs, .cores] s (execRavelTestDone core s) := by
  unfold execRavelTestDone
  refine .step (touches_guardPart ..) ?_
  refine .ite ?_ .refl
  dsimp only
  exact .step (touches_onQnt ..) (.step (touches_setReg ..) .refl)

theorem touches_execVlaunch (core : Nat) (s : State) :
    OutTouches [.out, .regs, .cores, .step, .links] s (execVlaunch core s) := by
  unfold execVlaunch
  refine .step (touches_guardPart ..) ?_
  split
  · exact .refl
  · split
    · dsimp only
      exact .step (touches_launchDone ..) (.step (touches_markRejected ..) (.step (touches_raiseDetail ..) (.step (touches_bump ..) (.step
        (touches_onVec ..) .refl))))
    · exact .step (touches_onVec ..) .refl

theorem touches_execLaunchComplete (core : Nat) (s : State) :
    OutTouches [.out, .regs, .cores, .knots, .hbm, .scratch, .poison, .mem, .step, .whips, .caps, .links] s (execLaunchComplete core s) := by
  unfold execLaunchComplete
  refine .step (touches_guardPart ..) ?_
  split
  · exact .refl
  · dsimp only
    exact .step (touches_launchDone ..) (.foldl (.step (touches_onVec ..) .refl) fun t a => .step (touches_vecTileEnd ..) .refl)

theorem touches_vecRun {F : List Field} {core t cls op : Nat} {s : State} {f : OpMsg → W64 → State → State}
    (hf : ∀ m w t, Touches F t (f m w t)) (hF : [.out, .regs, .cores, .step, .links] ⊆ F := by decide) : OutTouches F s (vecRun core t cls op s f) := by
  unfold vecRun
  refine .step (touches_guardPart ..) ?_ (List.nil_subset _)
  dsimp only
  split
  · exact .refl
  · split
    · exact .refl
    · have hb : Touches [.out, .regs, .cores, .step, .links] s ((s.beginLaunch core t).bump (coreR .INSN_TOTAL core) 1) :=
        .step (touches_bump ..) (.step (touches_beginLaunch ..) .refl)
      exact .ite (.mono (.step (touches_vecIllegal ..) hb) hF) (.ite .refl ((hf ..).step (hb.mono hF) (List.Subset.refl F)))

theorem touches_vecLocal (core : Nat) (t : Nat) (cls : Nat) (op : Nat) (s : State) (f : OpMsg → W64 → Strand → Strand) :
    OutTouches [.out, .regs, .cores, .step, .links] s (vecLocal core t cls op s f) := by
  unfold vecLocal
  exact touches_vecRun fun m w t => .step (touches_onStrand ..) .refl

theorem touches_execVecNop (core : Nat) (strand : Nat) (s : State) :
    OutTouches [.out, .regs, .cores, .step, .links] s (execVecNop core strand s) := by
  unfold execVecNop
  exact .step (touches_vecLocal ..) .refl

theorem touches_execStrandEnd (core : Nat) (strand : Nat) (s : State) :
    OutTouches [.out, .regs, .cores, .step, .links] s (execStrandEnd core strand s) := by
  unfold execStrandEnd
  exact touches_vecRun fun m w t => .step (touches_endLaunch ..) .refl

theorem touches_execBr (core : Nat) (strand : Nat) (s : State) :
    OutTouches [.out, .regs, .cores, .step, .links] s (execBr core strand s) := by
  unfold execBr
  exact touches_vecRun fun m w t => .step (touches_onStrand ..) .refl

theorem touches_execBrany (core : Nat) (strand : Nat) (s : State) :
    OutTouches [.out, .regs, .cores, .step, .links] s (execBrany core strand s) := by
  unfold execBrany
  exact touches_vecRun fun m w t => .step (touches_onStrand ..) .refl

theorem touches_execLset (core : Nat) (strand : Nat) (s : State) :
    OutTouches [.out, .regs, .cores, .step, .links] s (execLset core strand s) := by
  unfold execLset
  exact .step (touches_vecLocal ..) .refl

theorem touches_execVecLoop (core : Nat) (strand : Nat) (s : State) :
    OutTouches [.out, .regs, .cores, .step, .links] s (execVecLoop core strand s) := by
  unfold execVecLoop
  exact touches_vecRun fun m w t => .step (touches_onStrand ..) .refl

theorem touches_execVout (core : Nat) (strand : Nat) (s : State) :
    OutTouches [.out, .regs, .cores, .step, .links] s (execVout core strand s) := by
  unfold execVout
  refine touches_vecRun fun m w t => ?_
  dsimp only
  exact .step (touches_onStrand ..) (.ite (.step (touches_onCore ..) .refl) .refl)

theorem touches_execVld (core : Nat) (strand : Nat) (stalls : Nat) (ecc : List (Nat × Nat)) (s : State) :
    OutTouches [.free, .out, .regs, .cores, .scratch, .step, .links, .rel] s (execVld core strand stalls ecc s) := by
  unfold execVld
  refine touches_vecRun fun m w t => ?_
  dsimp only
  split
  · exact .step (touches_onStrand ..) (.step (touches_scrEventsAt ..) (.step (touches_ocStall ..) .refl))
  · exact .step (touches_onStrand ..) (.step (touches_vecOob ..) (.step (touches_ocStall ..) .refl))

theorem touches_vecStore (core : Nat) (strand : Nat) (op : Nat) (stalls : Nat) (raw : Bool) (s : State) :
    OutTouches [.out, .regs, .cores, .scratch, .step, .links] s (vecStore core strand op stalls raw s) := by
  unfold vecStore
  refine touches_vecRun fun m w t => ?_
  dsimp only
  refine .step (touches_onStrand ..) ?_
  split
  · exact .foldl (.step (touches_ocStall ..) .refl) fun t a => .step (touches_scrWrite ..) .refl
  · exact .step (touches_vecOob ..) (.step (touches_ocStall ..) .refl)

theorem touches_execVst (core : Nat) (strand : Nat) (stalls : Nat) (s : State) :
    OutTouches [.out, .regs, .cores, .scratch, .step, .links] s (execVst core strand stalls s) := by
  unfold execVst
  exact .step (touches_vecStore ..) .refl

theorem touches_execVstr (core : Nat) (strand : Nat) (stalls : Nat) (s : State) :
    OutTouches [.out, .regs, .cores, .scratch, .step, .links] s (execVstr core strand stalls s) := by
  unfold execVstr
  exact .step (touches_vecStore ..) .refl

theorem touches_execVldq (core : Nat) (strand : Nat) (scr : Nat) (oc : Nat) (ecc : List (Nat × Nat)) (s : State) :
    OutTouches [.free, .out, .regs, .cores, .scratch, .step, .links, .rel] s (execVldq core strand scr oc ecc s) := by
  unfold execVldq
  refine touches_vecRun fun m w t => ?_
  dsimp only
  split
  · exact .step (touches_onStrand ..) (.step (touches_slotTscale ..) (.step (touches_slotStall ..) (.step (touches_scrEventsAt ..) .refl)))
  · exact .step (touches_onStrand ..) (.step (touches_vecOob ..) .refl)

theorem touches_execVstq (core : Nat) (strand : Nat) (stalls : Nat) (s : State) :
    OutTouches [.out, .regs, .cores, .step, .links] s (execVstq core strand stalls s) := by
  unfold execVstq
  refine touches_vecRun fun m w t => ?_
  dsimp only
  refine .step (touches_onStrand ..) ?_
  split
  · exact .step (touches_vecOob ..) (.step (touches_ocStall ..) .refl)
  · exact .step (touches_onVec ..) (.step (touches_onQnt ..) (.step (touches_ocStall ..) .refl))

theorem touches_vecLanes (core : Nat) (t : Nat) (cls : Nat) (op : Nat) (s : State) (f : W64 → W32 → W32 → W32 → W32) :
    OutTouches [.out, .regs, .cores, .step, .links] s (vecLanes core t cls op s f) := by
  unfold vecLanes
  exact .step (touches_vecLocal ..) .refl

theorem touches_execVadd (core : Nat) (strand : Nat) (s : State) :
    OutTouches [.out, .regs, .cores, .step, .links] s (execVadd core strand s) := by
  unfold execVadd
  exact .step (touches_vecLanes ..) .refl

theorem touches_execVsub (core : Nat) (strand : Nat) (s : State) :
    OutTouches [.out, .regs, .cores, .step, .links] s (execVsub core strand s) := by
  unfold execVsub
  exact .step (touches_vecLanes ..) .refl

theorem touches_execVmul (core : Nat) (strand : Nat) (s : State) :
    OutTouches [.out, .regs, .cores, .step, .links] s (execVmul core strand s) := by
  unfold execVmul
  exact .step (touches_vecLanes ..) .refl

theorem touches_execVfma (core : Nat) (strand : Nat) (s : State) :
    OutTouches [.out, .regs, .cores, .step, .links] s (execVfma core strand s) := by
  unfold execVfma
  exact .step (touches_vecLanes ..) .refl

theorem touches_execVfms (core : Nat) (strand : Nat) (s : State) :
    OutTouches [.out, .regs, .cores, .step, .links] s (execVfms core strand s) := by
  unfold execVfms
  exact .step (touches_vecLanes ..) .refl

theorem touches_execVmin (core : Nat) (strand : Nat) (s : State) :
    OutTouches [.out, .regs, .cores, .step, .links] s (execVmin core strand s) := by
  unfold execVmin
  exact .step (touches_vecLanes ..) .refl

theorem touches_execVmax (core : Nat) (strand : Nat) (s : State) :
    OutTouches [.out, .regs, .cores, .step, .links] s (execVmax core strand s) := by
  unfold execVmax
  exact .step (touches_vecLanes ..) .refl

theorem touches_execVabs (core : Nat) (strand : Nat) (s : State) :
    OutTouches [.out, .regs, .cores, .step, .links] s (execVabs core strand s) := by
  unfold execVabs
  exact .step (touches_vecLanes ..) .refl

theorem touches_execVneg (core : Nat) (strand : Nat) (s : State) :
    OutTouches [.out, .regs, .cores, .step, .links] s (execVneg core strand s) := by
  unfold execVneg
  exact .step (touches_vecLanes ..) .refl

theorem touches_execVmov (core : Nat) (strand : Nat) (s : State) :
    OutTouches [.out, .regs, .cores, .step, .links] s (execVmov core strand s) := by
  unfold execVmov
  exact .step (touches_vecLanes ..) .refl

theorem touches_vecFunc (core : Nat) (t : Nat) (op : Nat) (s : State) :
    OutTouches [.out, .regs, .cores, .step, .links] s (vecFunc core t op s) := by
  unfold vecFunc
  exact .step (touches_vecLanes ..) .refl

theorem touches_execVrcp (core : Nat) (strand : Nat) (s : State) :
    OutTouches [.out, .regs, .cores, .step, .links] s (execVrcp core strand s) := by
  unfold execVrcp
  exact .step (touches_vecFunc ..) .refl

theorem touches_execVdiv (core : Nat) (strand : Nat) (s : State) :
    OutTouches [.out, .regs, .cores, .step, .links] s (execVdiv core strand s) := by
  unfold execVdiv
  exact .step (touches_vecLanes ..) .refl

theorem touches_execVsqrt (core : Nat) (strand : Nat) (s : State) :
    OutTouches [.out, .regs, .cores, .step, .links] s (execVsqrt core strand s) := by
  unfold execVsqrt
  exact .step (touches_vecLanes ..) .refl

theorem touches_execVrsq (core : Nat) (strand : Nat) (s : State) :
    OutTouches [.out, .regs, .cores, .step, .links] s (execVrsq core strand s) := by
  unfold execVrsq
  exact .step (touches_vecFunc ..) .refl

theorem touches_execVexp2 (core : Nat) (strand : Nat) (s : State) :
    OutTouches [.out, .regs, .cores, .step, .links] s (execVexp2 core strand s) := by
  unfold execVexp2
  exact .step (touches_vecFunc ..) .refl

theorem touches_execVexp (core : Nat) (strand : Nat) (s : State) :
    OutTouches [.out, .regs, .cores, .step, .links] s (execVexp core strand s) := by
  unfold execVexp
  exact .step (touches_vecFunc ..) .refl

theorem touches_execVlog2 (core : Nat) (strand : Nat) (s : State) :
    OutTouches [.out, .regs, .cores, .step, .links] s (execVlog2 core strand s) := by
  unfold execVlog2
  exact .step (touches_vecFunc ..) .refl

theorem touches_execVlog (core : Nat) (strand : Nat) (s : State) :
    OutTouches [.out, .regs, .cores, .step, .links] s (execVlog core strand s) := by
  unfold execVlog
  exact .step (touches_vecFunc ..) .refl

theorem touches_execVtanh (core : Nat) (strand : Nat) (s : State) :
    OutTouches [.out, .regs, .cores, .step, .links] s (execVtanh core strand s) := by
  unfold execVtanh
  exact .step (touches_vecFunc ..) .refl

theorem touches_execVsigm (core : Nat) (strand : Nat) (s : State) :
    OutTouches [.out, .regs, .cores, .step, .links] s (execVsigm core strand s) := by
  unfold execVsigm
  exact .step (touches_vecFunc ..) .refl

theorem touches_execVerf (core : Nat) (strand : Nat) (s : State) :
    OutTouches [.out, .regs, .cores, .step, .links] s (execVerf core strand s) := by
  unfold execVerf
  exact .step (touches_vecFunc ..) .refl

theorem touches_execVsin (core : Nat) (strand : Nat) (s : State) :
    OutTouches [.out, .regs, .cores, .step, .links] s (execVsin core strand s) := by
  unfold execVsin
  exact .step (touches_vecFunc ..) .refl

theorem touches_execVcos (core : Nat) (strand : Nat) (s : State) :
    OutTouches [.out, .regs, .cores, .step, .links] s (execVcos core strand s) := by
  unfold execVcos
  exact .step (touches_vecFunc ..) .refl

theorem touches_vecTest (core : Nat) (t : Nat) (cls : Nat) (op : Nat) (s : State) (f : W32 → W32 → Bool) :
    OutTouches [.out, .regs, .cores, .step, .links] s (vecTest core t cls op s f) := by
  unfold vecTest
  exact .step (touches_vecLocal ..) .refl

theorem touches_execVceq (core : Nat) (strand : Nat) (s : State) :
    OutTouches [.out, .regs, .cores, .step, .links] s (execVceq core strand s) := by
  unfold execVceq
  exact .step (touches_vecTest ..) .refl

theorem touches_execVclt (core : Nat) (strand : Nat) (s : State) :
    OutTouches [.out, .regs, .cores, .step, .links] s (execVclt core strand s) := by
  unfold execVclt
  exact .step (touches_vecTest ..) .refl

theorem touches_execVcle (core : Nat) (strand : Nat) (s : State) :
    OutTouches [.out, .regs, .cores, .step, .links] s (execVcle core strand s) := by
  unfold execVcle
  exact .step (touches_vecTest ..) .refl

theorem touches_execVcun (core : Nat) (strand : Nat) (s : State) :
    OutTouches [.out, .regs, .cores, .step, .links] s (execVcun core strand s) := by
  unfold execVcun
  exact .step (touches_vecTest ..) .refl

theorem touches_execVsel (core : Nat) (strand : Nat) (s : State) :
    OutTouches [.out, .regs, .cores, .step, .links] s (execVsel core strand s) := by
  unfold execVsel
  exact .step (touches_vecLocal ..) .refl

theorem touches_vecPred (core : Nat) (t : Nat) (op : Nat) (s : State) (f : Bool → Bool → Bool) :
    OutTouches [.out, .regs, .cores, .step, .links] s (vecPred core t op s f) := by
  unfold vecPred
  exact .step (touches_vecLocal ..) .refl

theorem touches_execPand (core : Nat) (strand : Nat) (s : State) :
    OutTouches [.out, .regs, .cores, .step, .links] s (execPand core strand s) := by
  unfold execPand
  exact .step (touches_vecPred ..) .refl

theorem touches_execPor (core : Nat) (strand : Nat) (s : State) :
    OutTouches [.out, .regs, .cores, .step, .links] s (execPor core strand s) := by
  unfold execPor
  exact .step (touches_vecPred ..) .refl

theorem touches_execPxor (core : Nat) (strand : Nat) (s : State) :
    OutTouches [.out, .regs, .cores, .step, .links] s (execPxor core strand s) := by
  unfold execPxor
  exact .step (touches_vecPred ..) .refl

theorem touches_execPnot (core : Nat) (strand : Nat) (s : State) :
    OutTouches [.out, .regs, .cores, .step, .links] s (execPnot core strand s) := by
  unfold execPnot
  exact .step (touches_vecPred ..) .refl

theorem touches_execVcvti (core : Nat) (strand : Nat) (s : State) :
    OutTouches [.out, .regs, .cores, .step, .links] s (execVcvti core strand s) := by
  unfold execVcvti
  exact .step (touches_vecLanes ..) .refl

theorem touches_execVcvtf (core : Nat) (strand : Nat) (s : State) :
    OutTouches [.out, .regs, .cores, .step, .links] s (execVcvtf core strand s) := by
  unfold execVcvtf
  exact .step (touches_vecLanes ..) .refl

theorem touches_execVrbf (core : Nat) (strand : Nat) (s : State) :
    OutTouches [.out, .regs, .cores, .step, .links] s (execVrbf core strand s) := by
  unfold execVrbf
  exact .step (touches_vecLanes ..) .refl

theorem touches_execViadd (core : Nat) (strand : Nat) (s : State) :
    OutTouches [.out, .regs, .cores, .step, .links] s (execViadd core strand s) := by
  unfold execViadd
  exact .step (touches_vecLanes ..) .refl

theorem touches_execVisub (core : Nat) (strand : Nat) (s : State) :
    OutTouches [.out, .regs, .cores, .step, .links] s (execVisub core strand s) := by
  unfold execVisub
  exact .step (touches_vecLanes ..) .refl

theorem touches_execVimul (core : Nat) (strand : Nat) (s : State) :
    OutTouches [.out, .regs, .cores, .step, .links] s (execVimul core strand s) := by
  unfold execVimul
  exact .step (touches_vecLanes ..) .refl

theorem touches_execVand (core : Nat) (strand : Nat) (s : State) :
    OutTouches [.out, .regs, .cores, .step, .links] s (execVand core strand s) := by
  unfold execVand
  exact .step (touches_vecLanes ..) .refl

theorem touches_execVor (core : Nat) (strand : Nat) (s : State) :
    OutTouches [.out, .regs, .cores, .step, .links] s (execVor core strand s) := by
  unfold execVor
  exact .step (touches_vecLanes ..) .refl

theorem touches_execVxor (core : Nat) (strand : Nat) (s : State) :
    OutTouches [.out, .regs, .cores, .step, .links] s (execVxor core strand s) := by
  unfold execVxor
  exact .step (touches_vecLanes ..) .refl

theorem touches_vecShift (core : Nat) (t : Nat) (op : Nat) (s : State) (f : W32 → Nat → W32) :
    OutTouches [.out, .regs, .cores, .step, .links] s (vecShift core t op s f) := by
  unfold vecShift
  exact .step (touches_vecLanes ..) .refl

theorem touches_execVshl (core : Nat) (strand : Nat) (s : State) :
    OutTouches [.out, .regs, .cores, .step, .links] s (execVshl core strand s) := by
  unfold execVshl
  exact .step (touches_vecShift ..) .refl

theorem touches_execVshra (core : Nat) (strand : Nat) (s : State) :
    OutTouches [.out, .regs, .cores, .step, .links] s (execVshra core strand s) := by
  unfold execVshra
  exact .step (touches_vecShift ..) .refl

theorem touches_execVshrl (core : Nat) (strand : Nat) (s : State) :
    OutTouches [.out, .regs, .cores, .step, .links] s (execVshrl core strand s) := by
  unfold execVshrl
  exact .step (touches_vecShift ..) .refl

theorem touches_execVimin (core : Nat) (strand : Nat) (s : State) :
    OutTouches [.out, .regs, .cores, .step, .links] s (execVimin core strand s) := by
  unfold execVimin
  exact .step (touches_vecLanes ..) .refl

theorem touches_execVimax (core : Nat) (strand : Nat) (s : State) :
    OutTouches [.out, .regs, .cores, .step, .links] s (execVimax core strand s) := by
  unfold execVimax
  exact .step (touches_vecLanes ..) .refl

theorem touches_execViclt (core : Nat) (strand : Nat) (s : State) :
    OutTouches [.out, .regs, .cores, .step, .links] s (execViclt core strand s) := by
  unfold execViclt
  exact .step (touches_vecTest ..) .refl

theorem touches_execVperm (core : Nat) (strand : Nat) (s : State) :
    OutTouches [.out, .regs, .cores, .step, .links] s (execVperm core strand s) := by
  unfold execVperm
  exact .step (touches_vecLocal ..) .refl

theorem touches_execVblane (core : Nat) (strand : Nat) (s : State) :
    OutTouches [.out, .regs, .cores, .step, .links] s (execVblane core strand s) := by
  unfold execVblane
  exact .step (touches_vecLocal ..) .refl

theorem touches_execViota (core : Nat) (strand : Nat) (s : State) :
    OutTouches [.out, .regs, .cores, .step, .links] s (execViota core strand s) := by
  unfold execViota
  exact .step (touches_vecLocal ..) .refl

theorem touches_execVrot (core : Nat) (strand : Nat) (s : State) :
    OutTouches [.out, .regs, .cores, .step, .links] s (execVrot core strand s) := by
  unfold execVrot
  exact .step (touches_vecLocal ..) .refl

theorem touches_vecRed (core : Nat) (t : Nat) (op : Nat) (s : State) (f : OpMsg → W64 → Strand → RedState → RedState) :
    OutTouches [.out, .regs, .cores, .step, .links] s (vecRed core t op s f) := by
  unfold vecRed
  exact .step (touches_vecLocal ..) .refl

theorem touches_execRclr (core : Nat) (strand : Nat) (s : State) :
    OutTouches [.out, .regs, .cores, .step, .links] s (execRclr core strand s) := by
  unfold execRclr
  exact .step (touches_vecRed ..) .refl

theorem touches_execRadd (core : Nat) (strand : Nat) (s : State) :
    OutTouches [.out, .regs, .cores, .step, .links] s (execRadd core strand s) := by
  unfold execRadd
  exact .step (touches_vecRed ..) .refl

theorem touches_vecSpan (core : Nat) (t : Nat) (op : Nat) (s : State) (f : OpMsg → W64 → Strand → RedState → RedState) :
    OutTouches [.out, .regs, .cores, .step, .links] s (vecSpan core t op s f) := by
  unfold vecSpan
  refine touches_vecRun fun m w t => ?_
  dsimp only
  exact .ite (.step (touches_raise ..) (.step (touches_bump ..) (.step (touches_onStrand ..) .refl))) (.step (touches_onStrand ..) .refl)

theorem touches_execRmax (core : Nat) (strand : Nat) (s : State) :
    OutTouches [.out, .regs, .cores, .step, .links] s (execRmax core strand s) := by
  unfold execRmax
  exact .step (touches_vecSpan ..) .refl

theorem touches_execRmin (core : Nat) (strand : Nat) (s : State) :
    OutTouches [.out, .regs, .cores, .step, .links] s (execRmin core strand s) := by
  unfold execRmin
  exact .step (touches_vecRed ..) .refl

theorem touches_execRarg (core : Nat) (strand : Nat) (s : State) :
    OutTouches [.out, .regs, .cores, .step, .links] s (execRarg core strand s) := by
  unfold execRarg
  exact .step (touches_vecSpan ..) .refl

theorem touches_execRsoft (core : Nat) (strand : Nat) (s : State) :
    OutTouches [.out, .regs, .cores, .step, .links] s (execRsoft core strand s) := by
  unfold execRsoft
  exact .step (touches_vecSpan ..) .refl

theorem touches_execRread (core : Nat) (strand : Nat) (s : State) :
    OutTouches [.out, .regs, .cores, .step, .links] s (execRread core strand s) := by
  unfold execRread
  exact .step (touches_vecLocal ..) .refl

theorem touches_execRxport (core : Nat) (strand : Nat) (stalls : Nat) (s : State) :
    OutTouches [.out, .regs, .cores, .scratch, .step, .links] s (execRxport core strand stalls s) := by
  unfold execRxport
  refine touches_vecRun fun m w t => ?_
  dsimp only
  refine .step (touches_onStrand ..) ?_
  split
  · exact .step (touches_scrWrite ..) (.step (touches_ocStall ..) .refl)
  · exact .step (touches_vecOob ..) (.step (touches_ocStall ..) .refl)

theorem touches_execRimport (core : Nat) (strand : Nat) (stalls : Nat) (ecc : List (Nat × Nat)) (s : State) :
    OutTouches [.free, .out, .regs, .cores, .scratch, .step, .links, .rel] s (execRimport core strand stalls ecc s) := by
  unfold execRimport
  refine touches_vecRun fun m w t => ?_
  dsimp only
  split
  · exact .step (touches_onStrand ..) (.step (touches_scrEventsAt ..) (.step (touches_ocStall ..) .refl))
  · exact .step (touches_onStrand ..) (.step (touches_vecOob ..) (.step (touches_ocStall ..) .refl))

theorem touches_execVsmx (core : Nat) (strand : Nat) (s : State) :
    OutTouches [.out, .regs, .cores, .step, .links] s (execVsmx core strand s) := by
  unfold execVsmx
  refine touches_vecRun fun m w t => ?_
  dsimp only
  exact .ite (.step (touches_raise ..) (.step (touches_bump ..) (.step (touches_onStrand ..) .refl))) (.step (touches_onStrand ..) .refl)

theorem touches_execVgath (core : Nat) (strand : Nat) (scr : Nat) (oc : Nat) (ecc : List (Nat × Nat)) (s : State) :
    OutTouches [.free, .out, .regs, .cores, .scratch, .step, .links, .rel] s (execVgath core strand scr oc ecc s) := by
  unfold execVgath
  refine touches_vecRun fun m w t => ?_
  dsimp only
  exact .step (touches_onStrand ..) (.step (touches_vecOob ..) (.step (touches_scrEventsAt ..) (.step (touches_slotTscale ..) (.step
    (touches_slotStall ..) .refl))))

theorem touches_execVscat (core : Nat) (strand : Nat) (scr : Nat) (oc : Nat) (s : State) :
    OutTouches [.out, .regs, .cores, .scratch, .step, .links] s (execVscat core strand scr oc s) := by
  unfold execVscat
  refine touches_vecRun fun m w t => ?_
  dsimp only
  refine .step (touches_onStrand ..) ?_
  refine .ite (.step (touches_vecDescError ..) .refl) ?_
  refine .step (touches_vecOob ..) ?_
  refine .foldl (.step (touches_slotStall ..) .refl) fun t a => ?_
  split
  · exact .step (touches_scrWrite ..) .refl
  · exact .refl

theorem touches_execVscadd (core : Nat) (strand : Nat) (scr : Nat) (oc : Nat) (ecc : List (Nat × Nat)) (s : State) :
    OutTouches [.free, .out, .regs, .cores, .scratch, .step, .links, .rel] s (execVscadd core strand scr oc ecc s) := by
  unfold execVscadd
  refine touches_vecRun fun m w t => ?_
  dsimp only
  refine .step (touches_onStrand ..) ?_
  refine .ite (.step (touches_vecDescError ..) .refl) ?_
  refine .step (touches_vecOob ..) ?_
  refine .foldl (.step (touches_scrEventsAt ..) (.step (touches_slotStall ..) .refl)) fun t a => ?_
  split
  · exact .step (touches_scrWrite ..) .refl
  · exact .refl

theorem touches_execDma (core : Nat) (want : Nat → Nat → Bool) (ecc : List EccEvent) (scr : List (Nat × Nat)) (late : Nat) (s : State) :
    OutTouches [.free, .out, .regs, .cores, .hbm, .scratch, .poison, .mem, .step, .links, .rel] s (execDma core want ecc scr late s) := by
  unfold execDma
  refine .step (touches_guardPart ..) ?_
  split
  · exact .refl
  · dsimp only
    exact .ite (.step (touches_crossLate ..) (.step (touches_dmaWalk ..) (.step (touches_scrEvents ..) (.step (touches_eccEvents ..)
      .refl)))) .refl

theorem touches_execCopy (core : Nat) (ecc : List EccEvent) (scr : List (Nat × Nat)) (late : Nat) (s : State) :
    OutTouches [.free, .out, .regs, .cores, .hbm, .scratch, .poison, .mem, .step, .links, .rel] s (execCopy core ecc scr late s) := by
  unfold execCopy
  exact .step (touches_execDma ..) .refl

theorem touches_execDmaGather (core : Nat) (ecc : List EccEvent) (scr : List (Nat × Nat)) (late : Nat) (s : State) :
    OutTouches [.free, .out, .regs, .cores, .hbm, .scratch, .poison, .mem, .step, .links, .rel] s (execDmaGather core ecc scr late s) := by
  unfold execDmaGather
  exact .step (touches_execDma ..) .refl

theorem touches_execDmaScatterStore (core : Nat) (ecc : List EccEvent) (scr : List (Nat × Nat)) (late : Nat) (s : State) :
    OutTouches [.free, .out, .regs, .cores, .hbm, .scratch, .poison, .mem, .step, .links, .rel] s (execDmaScatterStore core ecc scr late s) := by
  unfold execDmaScatterStore
  exact .step (touches_execDma ..) .refl

theorem touches_execDmaScatterAdd (core : Nat) (ecc : List EccEvent) (scr : List (Nat × Nat)) (late : Nat) (s : State) :
    OutTouches [.free, .out, .regs, .cores, .hbm, .scratch, .poison, .mem, .step, .links, .rel] s (execDmaScatterAdd core ecc scr late s) := by
  unfold execDmaScatterAdd
  exact .step (touches_execDma ..) .refl

theorem touches_execDmaComplete (core : Nat) (acks : Nat) (late : Nat) (s : State) :
    OutTouches [.out, .regs, .cores, .ctxs, .mem, .step, .links] s (execDmaComplete core acks late s) := by
  unfold execDmaComplete
  exact .step (touches_guardPart ..) (.step (touches_ctxPoll ..) (.step (touches_dmaComplete ..) .refl))

theorem touches_execPeerWrite (die : Nat) (member : Nat) (ctx : Nat) (gen : Nat) (runs : List (Nat × List Byte)) (s : State) :
    OutTouches [.out, .regs, .hbm, .poison, .mem, .step, .links, .waiting] s (execPeerWrite die member ctx gen runs s) := by
  unfold execPeerWrite
  refine .step (touches_guardPart ..) ?_
  refine touches_arrive .refl fun t => ?_
  refine .ite (.some (.step (touches_bump ..) .refl)) ?_
  refine .map ?_
  intro x31 h3
  refine .step (touches_send ..) ?_
  refine Touches.of_some ?_ h3
  refine .foldlM .refl fun t a => ?_
  split
  · rename_i h6
    exact .some (.step (Touches.of_ok (touches_ctxWrite ..) h6) .refl)
  · exact .step (touches_memFail ..) .refl

theorem touches_execHostHbmAccess (a : HostAccess) (ecc : List EccEvent) (s : State) :
    OutTouches [.out, .hostReply, .regs, .hbm, .poison, .mem, .step, .links, .hostOut] s (execHostHbmAccess a ecc s) := by
  unfold execHostHbmAccess
  exact .next (.ite .refl (.ite (.step (touches_hold ..) .refl) (.step (touches_hostHbm ..) (.step (touches_eccEvents ..) .refl))))

theorem touches_execHostAccessTimeout (s : State) :
    OutTouches [.hostReply, .hostOut] s (execHostAccessTimeout s) := by
  unfold execHostAccessTimeout
  refine .next ?_
  split
  · exact .refl
  · dsimp only
    exact .ite (.step (touches_set_hostOut ..) .refl) (.step (touches_reply ..) (.step (touches_set_hostOut ..) .refl))

theorem touches_execNormPass (stack : Nat) (rcd : Nat) (s : State) :
    OutTouches [.out, .regs, .cores, .knots, .hbm, .poison, .mem, .step, .whips, .caps, .links] s (execNormPass stack rcd s) := by
  unfold execNormPass
  refine .step (touches_guardPart ..) ?_
  split
  · exact .refl
  · dsimp only
    exact .ite .refl (.step (touches_handGroups ..) (.step (touches_normPass ..) .refl))

theorem touches_execClipNorm (stack : Nat) (group : Nat) (s : State) :
    OutTouches [.regs, .caps] s (execClipNorm stack group s) := by
  unfold execClipNorm
  refine .step (touches_guardPart ..) ?_
  dsimp only
  split
  · exact .refl
  · exact .ite .refl (.step (touches_onCap ..) (.ite (.step (touches_bump ..) .refl) .refl))

theorem touches_execUpdatePass (stack : Nat) (rcd : Nat) (s : State) :
    OutTouches [.out, .regs, .cores, .knots, .hbm, .poison, .mem, .step, .caps, .wPend, .links] s (execUpdatePass stack rcd s) := by
  unfold execUpdatePass
  refine .step (touches_guardPart ..) ?_
  split
  · exact .refl
  · dsimp only
    exact .ite .refl (.step (touches_updatePass ..) .refl)

theorem touches_execMp (op : Nat) (stack : Nat) (s : State) :
    OutTouches [.out, .regs, .cores, .knots, .hbm, .poison, .mem, .step, .caps, .wPend, .links] s (execMp op stack s) := by
  unfold execMp
  refine .step (touches_guardPart ..) ?_
  dsimp only
  split
  · exact .refl
  · split
    · exact .refl
    · split
      · exact .step (touches_memErr ..) .refl
      · exact .ite (.getD (.step (touches_capFinish ..) .refl) .refl) (.ite .refl (.ite (.step (touches_onCap ..) .refl) (.ite (.getD (.step
          (touches_capFinish ..) .refl) .refl) (.step (touches_onCap ..) .refl))))

theorem touches_execMpEnd (stack : Nat) (s : State) :
    OutTouches [.out, .regs, .cores, .knots, .hbm, .poison, .mem, .step, .caps, .wPend, .links] s (execMpEnd stack s) := by
  unfold execMpEnd
  exact .step (touches_execMp ..) .refl

theorem touches_execMpAdd (stack : Nat) (s : State) :
    OutTouches [.out, .regs, .cores, .knots, .hbm, .poison, .mem, .step, .caps, .wPend, .links] s (execMpAdd stack s) := by
  unfold execMpAdd
  exact .step (touches_execMp ..) .refl

theorem touches_execMpSub (stack : Nat) (s : State) :
    OutTouches [.out, .regs, .cores, .knots, .hbm, .poison, .mem, .step, .caps, .wPend, .links] s (execMpSub stack s) := by
  unfold execMpSub
  exact .step (touches_execMp ..) .refl

theorem touches_execMpMul (stack : Nat) (s : State) :
    OutTouches [.out, .regs, .cores, .knots, .hbm, .poison, .mem, .step, .caps, .wPend, .links] s (execMpMul stack s) := by
  unfold execMpMul
  exact .step (touches_execMp ..) .refl

theorem touches_execMpFma (stack : Nat) (s : State) :
    OutTouches [.out, .regs, .cores, .knots, .hbm, .poison, .mem, .step, .caps, .wPend, .links] s (execMpFma stack s) := by
  unfold execMpFma
  exact .step (touches_execMp ..) .refl

theorem touches_execMpDiv (stack : Nat) (s : State) :
    OutTouches [.out, .regs, .cores, .knots, .hbm, .poison, .mem, .step, .caps, .wPend, .links] s (execMpDiv stack s) := by
  unfold execMpDiv
  exact .step (touches_execMp ..) .refl

theorem touches_execMpSqrt (stack : Nat) (s : State) :
    OutTouches [.out, .regs, .cores, .knots, .hbm, .poison, .mem, .step, .caps, .wPend, .links] s (execMpSqrt stack s) := by
  unfold execMpSqrt
  exact .step (touches_execMp ..) .refl

theorem touches_execMpMin (stack : Nat) (s : State) :
    OutTouches [.out, .regs, .cores, .knots, .hbm, .poison, .mem, .step, .caps, .wPend, .links] s (execMpMin stack s) := by
  unfold execMpMin
  exact .step (touches_execMp ..) .refl

theorem touches_execMpMax (stack : Nat) (s : State) :
    OutTouches [.out, .regs, .cores, .knots, .hbm, .poison, .mem, .step, .caps, .wPend, .links] s (execMpMax stack s) := by
  unfold execMpMax
  exact .step (touches_execMp ..) .refl

theorem touches_execMpAbs (stack : Nat) (s : State) :
    OutTouches [.out, .regs, .cores, .knots, .hbm, .poison, .mem, .step, .caps, .wPend, .links] s (execMpAbs stack s) := by
  unfold execMpAbs
  exact .step (touches_execMp ..) .refl

theorem touches_execMpNeg (stack : Nat) (s : State) :
    OutTouches [.out, .regs, .cores, .knots, .hbm, .poison, .mem, .step, .caps, .wPend, .links] s (execMpNeg stack s) := by
  unfold execMpNeg
  exact .step (touches_execMp ..) .refl

theorem touches_execMpSign (stack : Nat) (s : State) :
    OutTouches [.out, .regs, .cores, .knots, .hbm, .poison, .mem, .step, .caps, .wPend, .links] s (execMpSign stack s) := by
  unfold execMpSign
  exact .step (touches_execMp ..) .refl

theorem touches_execMpSelneg (stack : Nat) (s : State) :
    OutTouches [.out, .regs, .cores, .knots, .hbm, .poison, .mem, .step, .caps, .wPend, .links] s (execMpSelneg stack s) := by
  unfold execMpSelneg
  exact .step (touches_execMp ..) .refl

theorem touches_execMpMov (stack : Nat) (s : State) :
    OutTouches [.out, .regs, .cores, .knots, .hbm, .poison, .mem, .step, .caps, .wPend, .links] s (execMpMov stack s) := by
  unfold execMpMov
  exact .step (touches_execMp ..) .refl

theorem touches_execSchedTestCompute (stack : Nat) (index : Nat) (entry : Nat) (s : State) :
    OutTouches [.regs, .caps] s (execSchedTestCompute stack index entry s) := by
  unfold execSchedTestCompute
  exact .step (touches_guardPart ..) (.step (touches_schedTest ..) .refl)

theorem touches_execSchedTestCt (stack : Nat) (index : Nat) (entry : Nat) (s : State) :
    OutTouches [.regs, .caps] s (execSchedTestCt stack index entry s) := by
  unfold execSchedTestCt
  exact .step (touches_guardPart ..) (.step (touches_schedTest ..) .refl)

theorem touches_execSchedTestDone (stack : Nat) (s : State) :
    OutTouches [.regs, .caps] s (execSchedTestDone stack s) := by
  unfold execSchedTestDone
  refine .step (touches_guardPart ..) ?_
  split
  · exact .refl
  · exact .step (touches_onCap ..) (.step (touches_setReg ..) .refl)

theorem touches_execBucketCompress (die : Nat) (rcd : Nat) (bucket : Nat) (s : State) :
    OutTouches [.out, .regs, .cores, .knots, .hbm, .poison, .mem, .step, .whips, .caps, .links] s (execBucketCompress die rcd bucket s) := by
  unfold execBucketCompress
  refine .ite .fault ?_
  split
  · exact .next .refl
  · exact .ite (.next .refl) (.ite (.next (.ite (.getD (.step (touches_cellTake ..) .refl) .refl) .refl)) (.ite (.next (.step
      (touches_ringStart ..) .refl)) (.ite (.next .refl) (.next (.getD (.step (touches_bucketGo ..) .refl) .refl)))))

theorem touches_fragArrive (die : Nat) (kind : Nat) (m : FragMsg) (i : Instr) (s : State) :
    OutTouches [.out, .regs, .hbm, .poison, .mem, .step, .whips, .links, .waiting] s (fragArrive die kind m i s) := by
  unfold fragArrive
  exact .ite .fault (.ite (.next .refl) (.next (touches_arrive .refl fun t => .step (touches_fragRecv ..) (.ite (.step (touches_bump ..)
    .refl) .refl))))

theorem touches_execTopkMsg (die : Nat) (m : FragMsg) (s : State) :
    OutTouches [.out, .regs, .hbm, .poison, .mem, .step, .whips, .links, .waiting] s (execTopkMsg die m s) := by
  unfold execTopkMsg
  exact .step (touches_fragArrive ..) .refl

theorem touches_execSignMsg (die : Nat) (m : FragMsg) (s : State) :
    OutTouches [.out, .regs, .hbm, .poison, .mem, .step, .whips, .links, .waiting] s (execSignMsg die m s) := by
  unfold execSignMsg
  exact .step (touches_fragArrive ..) .refl

theorem touches_execCancelMsg (die : Nat) (m : FragMsg) (s : State) :
    OutTouches [.out, .regs, .hbm, .poison, .mem, .step, .whips, .links, .waiting] s (execCancelMsg die m s) := by
  unfold execCancelMsg
  exact .step (touches_fragArrive ..) .refl

theorem touches_execFinalMsg (die : Nat) (m : FragMsg) (s : State) :
    OutTouches [.out, .regs, .hbm, .poison, .mem, .step, .whips, .links, .waiting] s (execFinalMsg die m s) := by
  unfold execFinalMsg
  exact .step (touches_fragArrive ..) .refl

theorem touches_execCellMsg (die : Nat) (m : CellMsg) (s : State) :
    OutTouches [.out, .regs, .cores, .knots, .hbm, .poison, .mem, .step, .whips, .caps, .links, .waiting] s (execCellMsg die m s) := by
  unfold execCellMsg
  exact .ite .fault (.next (touches_arrive .refl fun t => .step (touches_cellRecv ..) .refl))

theorem touches_execDenseMsg (die : Nat) (m : DenseMsg) (s : State) :
    OutTouches [.out, .regs, .cores, .knots, .hbm, .poison, .mem, .step, .whips, .caps, .links, .waiting] s (execDenseMsg die m s) := by
  unfold execDenseMsg
  exact .ite .fault (.next (touches_arrive .refl fun t => .step (touches_denseTake ..) .refl))

theorem touches_execBucketMerge (die : Nat) (rcd : Nat) (bucket : Nat) (stalls : Nat) (s : State) :
    OutTouches [.out, .regs, .cores, .knots, .hbm, .poison, .mem, .step, .whips, .caps, .links] s (execBucketMerge die rcd bucket stalls s) := by
  unfold execBucketMerge
  refine .ite .fault ?_
  split
  · exact .next .refl
  · exact .ite (.next .refl) (.next (.getD (.step (touches_bucketMerge ..) (.step (touches_bump ..) .refl)) .refl))

theorem touches_execLoad (s : State) :
    OutTouches [.out, .regs, .step, .links, .load] s (execLoad s) := by
  unfold execLoad
  exact .next (.step (touches_loadWrite ..) .refl)

theorem touches_execRun (value : Bool) (s : State) :
    OutTouches [.out, .regs, .mem, .step, .whips, .caps, .hank, .links] s (execRun value s) := by
  unfold execRun
  exact .next (.step (touches_runWrite ..) .refl)

theorem touches_execReissue (s : State) :
    OutTouches [.out, .regs, .mem, .step, .whips, .caps, .hank, .links] s (execReissue s) := by
  unfold execReissue
  exact .next (.step (touches_reissueWrite ..) .refl)

theorem touches_execStepLimit (value : W64) (s : State) :
    OutTouches [.out, .regs, .mem, .step, .whips, .caps, .hank, .links] s (execStepLimit value s) := by
  unfold execStepLimit
  exact .next (.step (touches_limitWrite ..) .refl)

theorem touches_execReady (member : Nat) (step : Nat) (attempt : Nat) (s : State) :
    OutTouches [.out, .regs, .step, .hank, .links] s (execReady member step attempt s) := by
  unfold execReady
  exact .next (.ite (.step (touches_registerReady ..) .refl) .refl)

theorem touches_execTick (step : Nat) (attempt : Nat) (hold : Bool) (elapsed : Nat) (link : Nat) (residence : Nat) (s : State) :
    OutTouches [.out, .regs, .cores, .knots, .mem, .step, .sitePend, .caps, .wPend, .hank, .links, .mirror] s (execTick step attempt hold elapsed link residence s) := by
  unfold execTick
  refine .step (touches_guardPart ..) ?_
  dsimp only
  exact .ite .refl (.ite (.ite (.step (touches_enterHeld ..) (.step (touches_holdReady ..) (.step (touches_castDown ..) .refl))) (.step
    (touches_onStep ..) (.step (touches_holdReady ..) (.step (touches_castDown ..) .refl)))) (.ite (.step (touches_castDown ..) .refl) (.ite
    (.step (touches_enterRunning ..) (.step (touches_tickLate ..) (.step (touches_castDown ..) .refl))) (.step (touches_onStep ..) (.step
    (touches_castDown ..) .refl)))))

theorem touches_execEnterRunning (s : State) :
    OutTouches [.out, .regs, .cores, .knots, .mem, .step, .sitePend, .caps, .wPend, .links, .mirror] s (execEnterRunning s) := by
  unfold execEnterRunning
  exact .next (.ite (.step (touches_enterRunning ..) .refl) .refl)

theorem touches_execDrainComplete (acks : Nat) (s : State) :
    OutTouches [.out, .regs, .cores, .knots, .mem, .step, .whips, .caps, .hank, .links, .mirror] s (execDrainComplete acks s) := by
  unfold execDrainComplete
  refine .next ?_
  refine .ite .refl ?_
  dsimp only
  exact .ite (.ite (.step (touches_sendSummary ..) (.step (touches_onStep ..) (.foldl .refl fun t a => .step (touches_dropHeld ..) .refl)))
    (.step (touches_onStep ..) (.foldl .refl fun t a => .step (touches_dropHeld ..) .refl))) (.ite (.foldl .refl fun t a => .step
    (touches_dropHeld ..) .refl) (.ite (.step (touches_sendMirrors ..) (.foldl .refl fun t a => .step (touches_dropHeld ..) .refl)) (.ite
    (.step (touches_sendSummary ..) (.foldl .refl fun t a => .step (touches_dropHeld ..) .refl)) (.step (touches_onStep ..) (.step
    (touches_sendMirrors ..) (.foldl .refl fun t a => .step (touches_dropHeld ..) .refl))))))

theorem touches_execStepSummary (member : Nat) (step : Nat) (attempt : Nat) (m : Summary) (s : State) :
    OutTouches [.out, .regs, .cores, .knots, .step, .whips, .caps, .hank, .links, .mirror] s (execStepSummary member step attempt m s) := by
  unfold execStepSummary
  exact .next (.ite (.step (touches_registerSummary ..) .refl) .refl)

theorem touches_execDrainTimeout (s : State) :
    OutTouches [.out, .regs, .step, .links] s (execDrainTimeout s) := by
  unfold execDrainTimeout
  exact .next (.ite (.step (touches_raise ..) .refl) .refl)

theorem touches_execCommit (step : Nat) (attempt : Nat) (m : Summary) (k : Nat) (facts : SlotFacts) (s : State) :
    OutTouches [.out, .regs, .cores, .knots, .hbm, .scratch, .poison, .mem, .step, .siteMax, .sitePend, .clusterMap, .whips, .caps, .wMax, .wPend, .hank, .links, .sec, .journal, .mirror, .rel, .pwr, .waiting] s (execCommit step attempt m k facts s) := by
  unfold execCommit
  exact .next (touches_arrive .refl fun t => .step (touches_commitTake ..) .refl)

theorem touches_execMaintenanceEnd (s : State) :
    OutTouches [.out, .hostReply, .regs, .hbm, .poison, .mem, .step, .whips, .caps, .hank, .links, .hostOut] s (execMaintenanceEnd s) := by
  unfold execMaintenanceEnd
  refine .next ?_
  refine .ite .refl ?_
  dsimp only
  exact .ite (.step (touches_armTry ..) (.step (touches_enterHeld ..) (.step (touches_serveHeld ..) (.step (touches_set_mem ..) (.foldl .refl
    fun t a => .step (touches_setRegFld ..) .refl))))) (.step (touches_sample ..) (.step (touches_serveHeld ..) (.step (touches_set_mem ..)
    (.foldl .refl fun t a => .step (touches_setRegFld ..) .refl))))

theorem touches_execAbortStep (step : Nat) (attempt : Nat) (s : State) :
    OutTouches [.out, .regs, .cores, .knots, .step, .whips, .caps, .links, .mirror] s (execAbortStep step attempt s) := by
  unfold execAbortStep
  refine .next ?_
  refine .ite .refl ?_
  dsimp only
  exact .ite (.step (touches_startAbort ..) (.step (touches_castDown ..) .refl)) (.step (touches_castDown ..) .refl)

theorem touches_execQuiesceCheck (stuck : List (Nat × Nat)) (s : State) :
    OutTouches [.out, .regs, .cores, .step, .hank, .links, .stackReset] s (execQuiesceCheck stuck s) := by
  unfold execQuiesceCheck
  refine .next ?_
  refine .ite .refl ?_
  dsimp only
  exact .step (touches_enterHeld ..) (.step (touches_onStep ..) (.step (touches_bump ..) (.step (touches_stepRecord ..) (.foldl .refl fun t a
    => .step (touches_stuck ..) .refl))))

theorem touches_execReissueMessage (step : Nat) (attempt : Nat) (s : State) :
    OutTouches [.out, .regs, .mem, .step, .whips, .caps, .hank, .links] s (execReissueMessage step attempt s) := by
  unfold execReissueMessage
  refine .next ?_
  dsimp only
  exact .ite (.step (touches_reissueApply ..) (.step (touches_castDown ..) .refl)) (.step (touches_castDown ..) .refl)

theorem touches_execFaultReport (member : Nat) (entry : List W64) (s : State) :
    OutTouches [.out, .regs, .cores, .knots, .step, .whips, .caps, .hank, .links, .mirror] s (execFaultReport member entry s) := by
  unfold execFaultReport
  refine .next ?_
  refine .ite .refl ?_
  refine .ite (.step (touches_send ..) .refl) ?_
  dsimp only
  refine .ite ?_ ?_
  · refine .step (touches_rootAbort ..) ?_
    split
    · exact .step (touches_onHank ..) .refl
    · exact .refl
  · split
    · exact .step (touches_onHank ..) .refl
    · exact .refl

theorem touches_execHeartbeat (member : Nat) (k : Nat) (standby : Bool) (s : State) :
    OutTouches [.hank] s (execHeartbeat member k standby s) := by
  unfold execHeartbeat
  exact .next (.ite .refl (.step (touches_onHank ..) .refl))

theorem touches_execHeartbeatTimer (s : State) :
    OutTouches [.out, .regs, .hank, .links] s (execHeartbeatTimer s) := by
  unfold execHeartbeatTimer
  refine .next ?_
  refine .ite .refl ?_
  dsimp only
  exact .step (touches_onHank ..) (.ite (.step (touches_send ..) (.ite .refl (.step (touches_send ..) .refl))) (.ite .refl (.step
    (touches_send ..) .refl)))

theorem touches_execHankMemberLost (member : Nat) (s : State) :
    OutTouches [.out, .regs, .cores, .knots, .step, .whips, .caps, .hank, .links, .mirror] s (execHankMemberLost member s) := by
  unfold execHankMemberLost
  refine .next ?_
  refine .ite .refl ?_
  dsimp only
  exact .ite (.step (touches_rootAbort ..) (.step (touches_onHank ..) (.step (touches_raise ..) .refl))) (.step (touches_send ..) (.step
    (touches_onHank ..) (.step (touches_raise ..) .refl)))

theorem touches_execHankManagerLost (s : State) :
    OutTouches [.out, .regs, .step, .links] s (execHankManagerLost s) := by
  unfold execHankManagerLost
  exact .next (.ite (.step (touches_raise ..) .refl) .refl)

theorem touches_execRouteLoad (value : W64) (s : State) :
    OutTouches [.regs, .route] s (execRouteLoad value s) := by
  unfold execRouteLoad
  exact .next (.step (touches_routeCtrl ..) .refl)

theorem touches_execMirrorData (m : MirrorMsg) (s : State) :
    OutTouches [.out, .regs, .hbm, .poison, .mem, .step, .links, .mirror, .waiting] s (execMirrorData m s) := by
  unfold execMirrorData
  exact .next (touches_arrive .refl fun t => .step (touches_mirrorTake ..) .refl)

theorem touches_execMirrorRestore (value : W64) (s : State) :
    OutTouches [.out, .regs, .mem, .step, .links, .waiting] s (execMirrorRestore value s) := by
  unfold execMirrorRestore
  exact .next (.step (touches_mirrorCtrl ..) .refl)

theorem touches_execMirrorRebuild (value : W64) (s : State) :
    OutTouches [.out, .regs, .mem, .step, .links, .waiting] s (execMirrorRebuild value s) := by
  unfold execMirrorRebuild
  exact .next (.step (touches_mirrorCtrl ..) .refl)

theorem touches_execRestoreData (m : MirrorMsg) (s : State) :
    OutTouches [.out, .regs, .hbm, .poison, .mem, .step, .links, .waiting] s (execRestoreData m s) := by
  unfold execRestoreData
  exact .next (touches_arrive .refl fun t => .step (touches_restoreTake ..) .refl)

theorem touches_execSave (s : State) :
    OutTouches [.out, .regs, .cores, .hbm, .poison, .mem, .step, .siteMax, .wMax, .links, .waiting] s (execSave s) := by
  unfold execSave
  exact .next (.step (touches_stateCtrl ..) .refl)

theorem touches_execRestore (s : State) :
    OutTouches [.out, .regs, .cores, .hbm, .poison, .mem, .step, .siteMax, .wMax, .links, .waiting] s (execRestore s) := by
  unfold execRestore
  exact .next (.step (touches_stateCtrl ..) .refl)

theorem touches_execTether (core : Nat) (part : Nat) (s : State) :
    OutTouches [.out, .regs, .cores, .step, .links, .rel] s (execTether core part s) := by
  unfold execTether
  refine .step (touches_guardPart ..) ?_
  refine .ite .refl ?_
  dsimp only
  exact .step (touches_resetStage ..) (.step (touches_takeDump ..) (.step (touches_raise ..) (.step (touches_bump ..) (.step
    (touches_setRegFld ..) .refl))))

theorem touches_execResetEscalated (kind : Nat) (idx : Nat) (s : State) :
    OutTouches [.out, .regs, .cores, .knots, .step, .links, .journal, .rel, .stackReset] s (execResetEscalated kind idx s) := by
  unfold execResetEscalated
  refine .ite (.step (touches_guardPart ..) (.step (touches_resetEscalate ..) .refl)) ?_
  refine .ite (.step (touches_guardPart ..) (.step (touches_onRel ..) .refl)) ?_
  refine .step (touches_guardPart ..) ?_
  split
  · exact .step (touches_set_stackReset ..) (.step (touches_chafeEvent ..) (.step (touches_raise ..) .refl))
  · exact .refl

theorem touches_execResetDone (kind : Nat) (idx : Nat) (s : State) :
    OutTouches [.cores, .knots, .scratch, .caps, .stackReset] s (execResetDone kind idx s) := by
  unfold execResetDone
  refine .ite (.step (touches_guardPart ..) (.step (touches_resetDone ..) .refl)) ?_
  refine .step (touches_guardPart ..) ?_
  split
  · dsimp only
    exact .step (touches_set_stackReset ..) (.step (touches_onCap ..) .refl)
  · exact .refl

theorem touches_execSlotNow (facts : SlotFacts) (s : State) :
    OutTouches [.out, .regs, .scratch, .mem, .step, .clusterMap, .links, .sec, .journal, .rel, .pwr] s (execSlotNow facts s) := by
  unfold execSlotNow
  exact .next (.step (touches_slotNow ..) .refl)

theorem touches_execSpareReq (die : Nat) (value : W64) (s : State) :
    OutTouches [.out, .regs, .step, .links, .rel] s (execSpareReq die value s) := by
  unfold execSpareReq
  exact .step (touches_guardPart ..) (.step (touches_spareReq ..) .refl)

theorem touches_execTakeDump (die : Nat) (s : State) :
    OutTouches [.out, .regs, .step, .links, .rel] s (execTakeDump die s) := by
  unfold execTakeDump
  exact .step (touches_guardPart ..) (.step (touches_takeDump ..) .refl)

theorem touches_execReleaseDump (die : Nat) (s : State) :
    OutTouches [.regs] s (execReleaseDump die s) := by
  unfold execReleaseDump
  exact .step (touches_guardPart ..) (.step (touches_setRegFld ..) .refl)

theorem touches_execChafeTail (die : Nat) (value : W64) (s : State) :
    OutTouches [.regs] s (execChafeTail die value s) := by
  unfold execChafeTail
  exact .step (touches_guardPart ..) (.step (touches_chafeRetire ..) .refl)

theorem touches_execJournalAck (slot : Nat) (s : State) :
    OutTouches [.out, .regs, .step, .links, .journal] s (execJournalAck slot s) := by
  unfold execJournalAck
  exact .next (.step (touches_journalAck ..) .refl)

theorem touches_execJournalResume (value : W64) (s : State) :
    OutTouches [.out, .regs, .mem, .step, .links, .journal, .waiting] s (execJournalResume value s) := by
  unfold execJournalResume
  exact .next (.step (touches_resumeWrite ..) .refl)

theorem touches_execJournalSubmit (value : W64) (s : State) :
    OutTouches [.out, .regs, .mem, .step, .links, .journal, .waiting] s (execJournalSubmit value s) := by
  unfold execJournalSubmit
  exact .next (.step (touches_submitWrite ..) .refl)

theorem touches_execMigrationRequest (stack : Nat) (value : W64) (s : State) :
    OutTouches [.out, .regs, .mem, .step, .links] s (execMigrationRequest stack value s) := by
  unfold execMigrationRequest
  exact .step (touches_guardPart ..) (.step (touches_migRequest ..) .refl)

theorem touches_execRetrain (stack : Nat) (src : Nat) (s : State) :
    OutTouches [.regs, .mem] s (execRetrain stack src s) := by
  unfold execRetrain
  exact .step (touches_guardPart ..) (.step (touches_retrainRequest ..) .refl)

theorem touches_execMigrationChunk (stack : Nat) (s : State) : OutTouches [.regs, .hbm, .poison, .mem] s (execMigrationChunk stack s) := by
  unfold execMigrationChunk
  refine .step (touches_guardPart ..) ?_
  dsimp only
  refine .ite .refl (.step (touches_setRegFld ..) (.step (touches_takeTokens ..) (.step (touches_bump ..) (.step (touches_bump ..) ?_))))
  exact .step (touches_set_poison ..) (.step (touches_set_hbm _ _ fun w => Memory.wf_copyChan _ _ _ _ w) .refl)

theorem touches_execPatrolScrub (stack : Nat) (ecc : List EccEvent) (s : State) :
    OutTouches [.out, .regs, .poison, .mem, .step, .links] s (execPatrolScrub stack ecc s) := by
  unfold execPatrolScrub
  refine .step (touches_guardPart ..) ?_
  dsimp only
  exact .ite .refl (.step (touches_eccEvents ..) (.step (touches_set_mem ..) (.foldl .refl fun t a => .step (touches_bump ..) .refl)))

theorem touches_execRefreshOverride (stack : Nat) (temp : Nat) (s : State) :
    OutTouches [.out, .regs, .mem, .step, .links] s (execRefreshOverride stack temp s) := by
  unfold execRefreshOverride
  refine .step (touches_guardPart ..) ?_
  dsimp only
  exact .ite (.step (touches_set_mem ..) .refl) (.step (touches_override ..) (.step (touches_raise ..) (.step (touches_setRegFld ..) (.step
    (touches_set_mem ..) .refl))))

theorem touches_execCreate (ctx : Nat) (gen : Nat) (s : State) :
    OutTouches [.out, .regs, .ctxs, .mem, .step, .links] s (execCreate ctx gen s) := by
  unfold execCreate
  exact .step (touches_guardPart ..) (.step (touches_ctxCreate ..) .refl)

theorem touches_execTeardown (ctx : Nat) (s : State) :
    OutTouches [.out, .regs, .cores, .knots, .ctxs, .mem, .step, .job, .caps, .links] s (execTeardown ctx s) := by
  unfold execTeardown
  exact .step (touches_guardPart ..) (.step (touches_ctxTeardown ..) .refl)

theorem touches_execCtxDrainForced (ctx : Nat) (s : State) :
    OutTouches [.out, .regs, .cores, .ctxs, .mem, .step, .caps, .links] s (execCtxDrainForced ctx s) := by
  unfold execCtxDrainForced
  refine .step (touches_guardPart ..) ?_
  refine .ite .refl ?_
  dsimp only
  refine .step (touches_ctxScrub ..) ?_
  refine .step (touches_raise ..) ?_
  refine .step (touches_set_links ..) ?_
  refine .foldl (.foldl .refl fun t a => .step (touches_onCore ..) .refl) fun t a => ?_
  split
  · exact .ite (.step (touches_onCap ..) .refl) .refl
  · exact .refl

theorem touches_execCtxTeardownDone (ctx : Nat) (s : State) :
    OutTouches [.out, .regs, .knots, .ctxs, .hbm, .scratch, .poison, .mem, .step, .links] s (execCtxTeardownDone ctx s) := by
  unfold execCtxTeardownDone
  refine .step (touches_guardPart ..) ?_
  refine .ite .refl ?_
  dsimp only
  exact .step (touches_raise ..) (.step (touches_onCtx ..) (.step (touches_clearCtxKnots ..) (.step (touches_clearCtxKnots ..) (.foldl
    (.foldl .refl fun t a => .step (touches_zeroPage ..) .refl) fun t a => .step (touches_wipeScratch ..) .refl))))

theorem touches_kindWrite {F : List Field} {kind : RegName → Bool} {addr : Nat} {value : W64} {act : State → RegId → State} {s : State}
    (hf : ∀ t id, Touches F t (act t id)) (hF : [.hostOut] ⊆ F := by decide) : OutTouches F s (kindWrite kind addr value act s) := by
  unfold kindWrite
  split
  · exact .step (touches_guardPart ..) (.ite (.step (touches_hold ..) .refl hF) (hf ..)) (List.nil_subset _)
  · exact .fault

theorem touches_execStatusClear (addr : Nat) (value : W64) (met : W64) (s : State) :
    OutTouches [.out, .regs, .step, .links, .hostOut] s (execStatusClear addr value met s) := by
  unfold execStatusClear
  exact touches_kindWrite fun t id => .step (touches_statusClear ..) .refl

theorem touches_execDetailValidClear (addr : Nat) (value : W64) (met : W64) (s : State) :
    OutTouches [.regs, .hostOut] s (execDetailValidClear addr value met s) := by
  unfold execDetailValidClear
  exact touches_kindWrite fun t id => .ite (.step (touches_detail ..) .refl) (.step (touches_plainWrite ..) .refl)

theorem touches_execRegisterWrite (a : HostAccess) (ecc : List (Nat × Nat)) (s : State) :
    OutTouches [.free, .out, .hostReply, .regs, .cores, .knots, .ctxs, .hbm, .scratch, .poison, .mem, .step, .job, .siteMax, .clusterMap, .whips, .caps, .wMax, .route, .hank, .links, .sec, .journal, .rel, .pwr, .load, .hostOut, .waiting] s (execRegisterWrite a ecc s) := by
  unfold execRegisterWrite
  exact .step (touches_guardPart ..) (.ite (.step (touches_hold ..) .refl) (.ite (.step (touches_scratchAccess ..) .refl) (.step
    (touches_regAccess ..) .refl)))

theorem touches_execLaneCtrl (link : Nat) (value : W64) (s : State) :
    OutTouches [.out, .regs, .step, .links] s (execLaneCtrl link value s) := by
  unfold execLaneCtrl
  exact .step (touches_guardPart ..) (.step (touches_laneCtrl ..) .refl)

theorem touches_execVoltBound (die : Nat) (value : W64) (s : State) :
    OutTouches [.out, .regs, .step, .links, .pwr] s (execVoltBound die value s) := by
  unfold execVoltBound
  exact .step (touches_guardPart ..) (.step (touches_voltBound ..) .refl)

theorem touches_execClkBound (value : W64) (s : State) :
    OutTouches [.out, .regs, .step, .links] s (execClkBound value s) := by
  unfold execClkBound
  exact .next (.step (touches_clkBound ..) .refl)

theorem touches_execPowerCap (value : W64) (s : State) :
    OutTouches [.out, .regs, .step, .links] s (execPowerCap value s) := by
  unfold execPowerCap
  exact .next (.step (touches_powerCap ..) .refl)

theorem touches_execFlit (link : Nat) (bytes : List Byte) (phy : PhyFacts) (s : State) :
    OutTouches [.out, .regs, .step, .links] s (execFlit link bytes phy s) := by
  unfold execFlit
  refine .step (touches_guardPart ..) ?_
  refine .ite .refl ?_
  dsimp only
  refine .ite (.step (touches_refuseFlit ..) (.step (touches_bump ..) (.step (touches_bump ..) (.step (touches_flitPhy ..) .refl)))) ?_
  refine .ite (.step (touches_refuseFlit ..) (.step (touches_bump ..) (.step (touches_bump ..) (.step (touches_flitPhy ..) .refl)))) ?_
  refine .ite (.step (touches_pump ..) (.step (touches_flitHeader ..) (.step (touches_bump ..) (.step (touches_flitPhy ..) .refl)))) ?_
  split
  · exact .step (touches_tagFailure ..) (.step (touches_bump ..) (.step (touches_flitPhy ..) .refl))
  · exact .step (touches_pump ..) (.ite (.step (touches_dataFlit ..) (.step (touches_flitHeader ..) (.step (touches_setLink ..) (.step
      (touches_bump ..) (.step (touches_flitPhy ..) .refl))))) (.step (touches_flitHeader ..) (.step (touches_setLink ..) (.step
      (touches_bump ..) (.step (touches_flitPhy ..) .refl)))))

theorem touches_execNak (link : Nat) (ack : Nat) (s : State) :
    OutTouches [.out, .regs, .step, .links] s (execNak link ack s) := by
  unfold execNak
  exact .step (touches_guardPart ..) (.step (touches_pump ..) (.step (touches_linkNak ..) .refl))

theorem touches_execAckTimeout (link : Nat) (s : State) :
    OutTouches [.out, .regs, .step, .links] s (execAckTimeout link s) := by
  unfold execAckTimeout
  exact .step (touches_guardPart ..) (.ite (.step (touches_linkDown ..) .refl) .refl)

theorem touches_execLaneLockLoss (link : Nat) (lane : Nat) (s : State) :
    OutTouches [.out, .regs, .step, .links] s (execLaneLockLoss link lane s) := by
  unfold execLaneLockLoss
  refine .step (touches_guardPart ..) ?_
  dsimp only
  exact .ite (.step (touches_linkDown ..) (.step (touches_markLane ..) (.step (touches_setRegFld ..) .refl))) (.step (touches_markLane ..)
    (.step (touches_setRegFld ..) .refl))

theorem touches_execMessageRelease (link : Nat) (index : Nat) (release : Nat) (s : State) :
    OutTouches [.out, .regs, .step, .links] s (execMessageRelease link index release s) := by
  unfold execMessageRelease
  refine .step (touches_guardPart ..) ?_
  dsimp only
  split
  · exact .refl
  · exact .ite (.step (touches_giveCredits ..) (.step (touches_setLink ..) .refl)) (.ite .refl (.ite (.step (touches_giveCredits ..) (.step
      (touches_setLink ..) .refl)) (.ite (.step (touches_bump ..) (.step (touches_giveCredits ..) (.step (touches_setLink ..) .refl))) (.step
      (touches_tnrNow ..) (.step (touches_bump ..) (.step (touches_giveCredits ..) (.step (touches_setLink ..) .refl)))))))

theorem touches_execFirmwareBoot (s : State) : OutTouches [.sec, .pwr] s (execFirmwareBoot s) := by
  unfold execFirmwareBoot
  exact .next (.ite .refl (.step (touches_set_sec_pwr s _ _ fun _ _ => rfl) .refl))

theorem touches_execFirmwareVerified (s : State) :
    OutTouches [.out, .regs, .mem, .step, .clusterMap, .links, .sec, .rel, .stackReset] s (execFirmwareVerified s) := by
  unfold execFirmwareVerified
  refine .next ?_
  refine .ite .refl ?_
  dsimp only
  exact .ite (.step (touches_fwRelease ..) .refl) (.step (touches_alert ..) (.step (touches_set_sec _ _ fun _ _ => rfl) .refl))

theorem touches_execRecoveryImage (bytes : List Byte) (s : State) :
    OutTouches [.sec] s (execRecoveryImage bytes s) := by
  unfold execRecoveryImage
  exact .next (.ite .refl (.step (touches_set_sec _ _ fun _ _ => rfl) .refl))

theorem touches_execHbmReady (s : State) : OutTouches [.out, .hostReply, .regs, .hbm, .poison, .mem, .step, .links, .pwr, .hostOut] s (execHbmReady s) := by
  unfold execHbmReady
  refine .next (.ite .refl (.step (touches_serveHeld ..) ?_))
  exact .step (touches_set_poison_mem_pwr ..) (.step (touches_set_hbm s [] fun _ => rfl) .refl)

theorem touches_execPwrEnRise (s : State) : OutTouches [.clock, .sec, .pwr] s (execPwrEnRise s) := by
  unfold execPwrEnRise
  exact .next (.ite .refl (.step (touches_set_sec_pwr { s with clock := 0 } _ _ fun _ _ => rfl) (.step (touches_set_clock ..) .refl)))

theorem touches_execPwrEnFall (s : State) :
    OutTouches [.clock, .regs, .cores, .knots, .ctxs, .hbm, .scratch, .poison, .mem, .step, .job, .siteMax, .sitePend, .clusterMap, .whips, .caps, .wMax, .wPend, .plan, .route, .hank, .links, .sec, .journal, .mirror, .rel, .pwr, .load, .hostOut, .waiting, .stackReset] s (execPwrEnFall s) := by
  unfold execPwrEnFall
  exact .next (.ite (.step (touches_powerOff ..) .refl) .refl)

theorem touches_execResetNAssert (s : State) :
    OutTouches [.regs, .cores, .knots, .ctxs, .hbm, .scratch, .poison, .mem, .step, .job, .siteMax, .sitePend, .clusterMap, .whips, .caps, .wMax, .wPend, .plan, .route, .hank, .links, .sec, .journal, .mirror, .rel, .pwr, .load, .hostOut, .waiting, .stackReset] s (execResetNAssert s) := by
  unfold execResetNAssert
  exact .next (.ite (.step (touches_moduleReset ..) .refl) .refl)

theorem touches_execVinWarn (mv : Nat) (s : State) :
    OutTouches [.out, .regs, .step, .links, .pwr] s (execVinWarn mv s) := by
  unfold execVinWarn
  refine .next ?_
  dsimp only
  exact .ite (.step (touches_alert ..) (.step (touches_raise ..) (.step (touches_onPwr ..) .refl))) (.step (touches_onPwr ..) .refl)

theorem touches_execVinFault (mv : Nat) (s : State) :
    OutTouches [.clock, .out, .regs, .cores, .knots, .ctxs, .hbm, .scratch, .poison, .mem, .step, .job, .siteMax, .sitePend, .clusterMap, .whips, .caps, .wMax, .wPend, .plan, .route, .hank, .links, .sec, .journal, .mirror, .rel, .pwr, .load, .hostOut, .waiting, .stackReset] s (execVinFault mv s) := by
  unfold execVinFault
  refine .next ?_
  dsimp only
  exact .ite (.step (touches_powerOff ..) (.step (touches_alert ..) (.step (touches_raise ..) (.step (touches_onPwr ..) .refl)))) (.step
    (touches_onPwr ..) .refl)

theorem touches_execVinOvercurrent (ma : Nat) (s : State) :
    OutTouches [.out, .regs, .step, .links, .pwr] s (execVinOvercurrent ma s) := by
  unfold execVinOvercurrent
  refine .next ?_
  dsimp only
  exact .ite (.step (touches_alert ..) (.step (touches_raise ..) (.step (touches_throttle ..) (.step (touches_throttle ..) (.step
    (touches_onPwr ..) .refl))))) (.step (touches_unthrottle ..) (.step (touches_unthrottle ..) (.step (touches_onPwr ..) .refl)))

theorem touches_execPhaseShed (phase : Nat) (s : State) :
    OutTouches [.clock, .out, .regs, .cores, .knots, .ctxs, .hbm, .scratch, .poison, .mem, .step, .job, .siteMax, .sitePend, .clusterMap, .whips, .caps, .wMax, .wPend, .plan, .route, .hank, .links, .sec, .journal, .mirror, .rel, .pwr, .load, .hostOut, .waiting, .stackReset] s (execPhaseShed phase s) := by
  unfold execPhaseShed
  refine .step (touches_guardPart ..) ?_
  dsimp only
  exact .ite .refl (.ite (.step (touches_powerOff ..) (.step (touches_override ..) (.step (touches_alert ..) (.step (touches_raise ..) (.step
    (touches_bump ..) (.step (touches_setRegFld ..) .refl)))))) (.ite (.step (touches_spareExhausted ..) (.step (touches_onPwr ..) (.step
    (touches_override ..) (.step (touches_alert ..) (.step (touches_raise ..) (.step (touches_bump ..) (.step (touches_setRegFld ..)
    .refl))))))) (.ite (.step (touches_onRel ..) (.step (touches_override ..) (.step (touches_alert ..) (.step (touches_raise ..) (.step
    (touches_bump ..) (.step (touches_setRegFld ..) .refl)))))) (.step (touches_override ..) (.step (touches_alert ..) (.step (touches_raise
    ..) (.step (touches_bump ..) (.step (touches_setRegFld ..) .refl))))))))

theorem touches_execThermalThrottle (die : Nat) (temp : Nat) (s : State) :
    OutTouches [.out, .regs, .step, .links, .pwr] s (execThermalThrottle die temp s) := by
  unfold execThermalThrottle
  refine .step (touches_guardPart ..) ?_
  dsimp only
  exact .ite (.step (touches_throttle ..) (.step (touches_onPwr ..) .refl)) (.step (touches_onPwr ..) .refl)

theorem touches_execThrottleRelease (die : Nat) (temp : Nat) (s : State) :
    OutTouches [.pwr] s (execThrottleRelease die temp s) := by
  unfold execThrottleRelease
  refine .step (touches_guardPart ..) ?_
  dsimp only
  exact .ite (.step (touches_unthrottle ..) (.step (touches_onPwr ..) .refl)) (.step (touches_onPwr ..) .refl)

theorem touches_execThermTrip (part : Nat) (temp : Nat) (s : State) :
    OutTouches [.clock, .regs, .cores, .knots, .ctxs, .hbm, .scratch, .poison, .mem, .step, .job, .siteMax, .sitePend, .clusterMap, .whips, .caps, .wMax, .wPend, .plan, .route, .hank, .links, .sec, .journal, .mirror, .rel, .pwr, .load, .hostOut, .waiting, .stackReset] s (execThermTrip part temp s) := by
  unfold execThermTrip
  exact .step (touches_guardPart ..) (.ite (.step (touches_powerOff ..) .refl) (.step (touches_onPwr ..) .refl))

theorem touches_execVoltageLoop (die : Nat) (margin : Nat) (s : State) :
    OutTouches [.out, .regs, .step, .links, .pwr] s (execVoltageLoop die margin s) := by
  unfold execVoltageLoop
  refine .step (touches_guardPart ..) ?_
  refine .ite .refl ?_
  dsimp only
  exact .ite (.step (touches_throttle ..) (.ite (.step (touches_raise ..) (.ite (.step (touches_bump ..) (.step (touches_setRegFld ..) (.step
    (touches_setRegFld ..) (.step (touches_onPwr ..) .refl)))) (.step (touches_setRegFld ..) (.step (touches_setRegFld ..) (.step
    (touches_onPwr ..) .refl))))) (.ite (.step (touches_bump ..) (.step (touches_setRegFld ..) (.step (touches_setRegFld ..) (.step
    (touches_onPwr ..) .refl)))) (.step (touches_setRegFld ..) (.step (touches_setRegFld ..) (.step (touches_onPwr ..) .refl)))))) (.step
    (touches_unthrottle ..) (.ite (.step (touches_raise ..) (.ite (.step (touches_bump ..) (.step (touches_setRegFld ..) (.step
    (touches_setRegFld ..) (.step (touches_onPwr ..) .refl)))) (.step (touches_setRegFld ..) (.step (touches_setRegFld ..) (.step
    (touches_onPwr ..) .refl))))) (.ite (.step (touches_bump ..) (.step (touches_setRegFld ..) (.step (touches_setRegFld ..) (.step
    (touches_onPwr ..) .refl)))) (.step (touches_setRegFld ..) (.step (touches_setRegFld ..) (.step (touches_onPwr ..) .refl))))))

theorem touches_execRefLost (r : Nat) (s : State) :
    OutTouches [.out, .regs, .step, .links, .pwr] s (execRefLost r s) := by
  unfold execRefLost
  exact .step (touches_guardPart ..) (.ite .refl (.step (touches_alert ..) (.step (touches_raise ..) (.step (touches_onPwr ..) .refl))))

theorem touches_execRefHoldoverExpiry (s : State) :
    OutTouches [.regs, .cores, .knots, .ctxs, .hbm, .scratch, .poison, .mem, .step, .job, .siteMax, .sitePend, .clusterMap, .whips, .caps, .wMax, .wPend, .plan, .route, .hank, .links, .sec, .journal, .mirror, .rel, .pwr, .load, .hostOut, .waiting, .stackReset] s (execRefHoldoverExpiry s) := by
  unfold execRefHoldoverExpiry
  exact .next (.ite .refl (.step (touches_alert ..) (.step (touches_onPwr ..) (.step (touches_moduleReset ..) .refl))))

theorem touches_execAlertStatusClear (value : W64) (s : State) :
    OutTouches [.regs] s (execAlertStatusClear value s) := by
  unfold execAlertStatusClear
  exact .next (.step (touches_alertClear ..) .refl)

theorem touches_execClearFaults (s : State) :
    OutTouches [.regs] s (execClearFaults s) := by
  unfold execClearFaults
  exact .next (.ite (.step (touches_alertClear ..) .refl) .refl)

theorem touches_execCapability (s : State) :
    OutTouches [.i3c] s (execCapability s) := by
  unfold execCapability
  exact .next (.step (touches_i3cReply ..) .refl)

theorem touches_execVinUvWarnLimit (s : State) :
    OutTouches [.i3c] s (execVinUvWarnLimit s) := by
  unfold execVinUvWarnLimit
  exact .next (.step (touches_i3cReply ..) .refl)

theorem touches_execStatusWord (s : State) :
    OutTouches [.i3c] s (execStatusWord s) := by
  unfold execStatusWord
  exact .next (.step (touches_i3cReply ..) .refl)

theorem touches_execStatusInput (s : State) :
    OutTouches [.i3c] s (execStatusInput s) := by
  unfold execStatusInput
  exact .next (.step (touches_i3cReply ..) .refl)

theorem touches_execStatusTemperature (s : State) :
    OutTouches [.i3c] s (execStatusTemperature s) := by
  unfold execStatusTemperature
  exact .next (.step (touches_i3cReply ..) .refl)

theorem touches_execReadVin (s : State) :
    OutTouches [.i3c] s (execReadVin s) := by
  unfold execReadVin
  exact .next (.step (touches_i3cReply ..) .refl)

theorem touches_execReadIin (s : State) :
    OutTouches [.i3c] s (execReadIin s) := by
  unfold execReadIin
  exact .next (.step (touches_i3cReply ..) .refl)

theorem touches_execReadTemperature1 (s : State) :
    OutTouches [.i3c] s (execReadTemperature1 s) := by
  unfold execReadTemperature1
  exact .next (.step (touches_i3cReply ..) .refl)

theorem touches_execReadTemperature2 (s : State) :
    OutTouches [.i3c] s (execReadTemperature2 s) := by
  unfold execReadTemperature2
  exact .next (.step (touches_i3cReply ..) .refl)

theorem touches_execReadPin (s : State) :
    OutTouches [.i3c] s (execReadPin s) := by
  unfold execReadPin
  exact .next (.step (touches_i3cReply ..) .refl)

theorem touches_execMfrId (s : State) :
    OutTouches [.i3c] s (execMfrId s) := by
  unfold execMfrId
  exact .next (.step (touches_i3cReply ..) .refl)

theorem touches_execMfrModel (s : State) :
    OutTouches [.i3c] s (execMfrModel s) := by
  unfold execMfrModel
  exact .next (.step (touches_i3cReply ..) .refl)

theorem touches_execGetVersion (s : State) :
    OutTouches [.sec, .i3c] s (execGetVersion s) := by
  unfold execGetVersion
  exact .next (.step (touches_spdmI3c ..) .refl)

theorem touches_execGetCapabilities (s : State) :
    OutTouches [.sec, .i3c] s (execGetCapabilities s) := by
  unfold execGetCapabilities
  exact .next (.step (touches_spdmI3c ..) .refl)

theorem touches_execNegotiateAlgorithms (s : State) :
    OutTouches [.sec, .i3c] s (execNegotiateAlgorithms s) := by
  unfold execNegotiateAlgorithms
  exact .next (.step (touches_spdmI3c ..) .refl)

theorem touches_execGetDigests (s : State) :
    OutTouches [.sec, .i3c] s (execGetDigests s) := by
  unfold execGetDigests
  exact .next (.step (touches_spdmI3c ..) .refl)

theorem touches_execGetCertificate (slot : Nat) (offset : Nat) (length : Nat) (s : State) :
    OutTouches [.sec, .i3c] s (execGetCertificate slot offset length s) := by
  unfold execGetCertificate
  exact .next (.step (touches_spdmI3c ..) .refl)

theorem touches_execChallenge (slot : Nat) (nonce : List Byte) (s : State) :
    OutTouches [.sec, .i3c] s (execChallenge slot nonce s) := by
  unfold execChallenge
  exact .next (.step (touches_spdmI3c ..) .refl)

theorem touches_execGetMeasurements (op : Nat) (signed : Bool) (nonce : List Byte) (s : State) :
    OutTouches [.sec, .i3c] s (execGetMeasurements op signed nonce s) := by
  unfold execGetMeasurements
  exact .next (.step (touches_spdmI3c ..) .refl)

theorem touches_execCtxKeyGen (ctx : Nat) (s : State) :
    OutTouches [.out, .regs, .ctxs, .step, .links, .sec] s (execCtxKeyGen ctx s) := by
  unfold execCtxKeyGen
  exact .next (.step (touches_secGo ..) .refl)

theorem touches_execLinkSecret (s : State) :
    OutTouches [.out, .regs, .ctxs, .step, .links, .sec] s (execLinkSecret s) := by
  unfold execLinkSecret
  exact .next (.step (touches_secGo ..) .refl)

theorem touches_execImageKey (s : State) :
    OutTouches [.out, .regs, .ctxs, .step, .links, .sec] s (execImageKey s) := by
  unfold execImageKey
  exact .next (.step (touches_secGo ..) .refl)

theorem touches_execPolicyWrite (s : State) :
    OutTouches [.out, .regs, .ctxs, .step, .links, .sec] s (execPolicyWrite s) := by
  unfold execPolicyWrite
  exact .next (.step (touches_secGo ..) .refl)

theorem touches_execLifecycleAdvance (s : State) :
    OutTouches [.out, .regs, .ctxs, .step, .links, .sec] s (execLifecycleAdvance s) := by
  unfold execLifecycleAdvance
  exact .next (.step (touches_secGo ..) .refl)

theorem touches_execDebugChallenge (s : State) :
    OutTouches [.out, .regs, .ctxs, .step, .links, .sec] s (execDebugChallenge s) := by
  unfold execDebugChallenge
  exact .next (.step (touches_secGo ..) .refl)

theorem touches_execDebugUnlock (slot : Nat) (s : State) :
    OutTouches [.out, .regs, .ctxs, .step, .links, .sec] s (execDebugUnlock slot s) := by
  unfold execDebugUnlock
  exact .next (.step (touches_secGo ..) .refl)

theorem touches_execSpdmRelay (s : State) :
    OutTouches [.out, .regs, .ctxs, .step, .links, .sec] s (execSpdmRelay s) := by
  unfold execSpdmRelay
  exact .next (.step (touches_secGo ..) .refl)

theorem touches_execRandomBytes (s : State) :
    OutTouches [.out, .regs, .ctxs, .step, .links, .sec] s (execRandomBytes s) := by
  unfold execRandomBytes
  exact .next (.step (touches_secGo ..) .refl)

theorem touches_execSecArgZeroing (s : State) :
    OutTouches [.regs, .sec] s (execSecArgZeroing s) := by
  unfold execSecArgZeroing
  exact .next (.step (touches_secZero ..) .refl)

theorem touches_execTrngFail (s : State) :
    OutTouches [.out, .regs, .step, .links, .sec] s (execTrngFail s) := by
  unfold execTrngFail
  exact .next (.step (touches_raise ..) (.step (touches_onSec _ _ fun _ _ _ => rfl) .refl))

theorem touches_execTrainingExchange (link : Nat) (t : TrainMsg) (s : State) :
    OutTouches [.out, .regs, .step, .links] s (execTrainingExchange link t s) := by
  unfold execTrainingExchange
  refine .step (touches_guardPart ..) ?_
  refine .ite .refl ?_
  dsimp only
  refine .ite (.step (touches_raise ..) (.step (touches_setLinkState ..) (.step (touches_setRegFld ..) (.step (touches_setRegFld ..) (.step
    (touches_set_out ..) .refl))))) ?_
  refine .ite (.step (touches_setLinkState ..) (.step (touches_lockLanes ..) (.step (touches_setRegFld ..) (.step (touches_setRegFld ..)
    (.step (touches_set_out ..) .refl))))) ?_
  refine .ite (.step (touches_setLinkState ..) (.step (touches_lockLanes ..) (.step (touches_setRegFld ..) (.step (touches_setRegFld ..)
    (.step (touches_set_out ..) .refl))))) ?_
  split
  · exact .step (touches_raise ..) (.step (touches_setLinkState ..) (.step (touches_lockLanes ..) (.step (touches_setRegFld ..) (.step
      (touches_setRegFld ..) (.step (touches_set_out ..) .refl)))))
  · exact .step (touches_pump ..) (.ite (.step (touches_raise ..) (.ite (.step (touches_tnrNow ..) (.step (touches_setLinkState ..) (.step
      (touches_setLink ..) (.step (touches_setRegFld ..) (.step (touches_setReg ..) (.step (touches_setReg ..) (.step (touches_setRegFld ..)
      (.step (touches_setRegFld ..) (.step (touches_lockLanes ..) (.step (touches_setRegFld ..) (.step (touches_setRegFld ..) (.step
      (touches_set_out ..) .refl)))))))))))) (.step (touches_setLinkState ..) (.step (touches_setLink ..) (.step (touches_setRegFld ..)
      (.step (touches_setReg ..) (.step (touches_setReg ..) (.step (touches_setRegFld ..) (.step (touches_setRegFld ..) (.step
      (touches_lockLanes ..) (.step (touches_setRegFld ..) (.step (touches_setRegFld ..) (.step (touches_set_out ..) .refl))))))))))))) (.ite
      (.step (touches_tnrNow ..) (.step (touches_setLinkState ..) (.step (touches_setLink ..) (.step (touches_setRegFld ..) (.step
      (touches_setReg ..) (.step (touches_setReg ..) (.step (touches_setRegFld ..) (.step (touches_setRegFld ..) (.step (touches_lockLanes
      ..) (.step (touches_setRegFld ..) (.step (touches_setRegFld ..) (.step (touches_set_out ..) .refl)))))))))))) (.step
      (touches_setLinkState ..) (.step (touches_setLink ..) (.step (touches_setRegFld ..) (.step (touches_setReg ..) (.step (touches_setReg
      ..) (.step (touches_setRegFld ..) (.step (touches_setRegFld ..) (.step (touches_lockLanes ..) (.step (touches_setRegFld ..) (.step
      (touches_setRegFld ..) (.step (touches_set_out ..) .refl)))))))))))))

theorem touches_execRefReturn (r : Nat) (s : State) :
    OutTouches [.pwr] s (execRefReturn r s) := by
  unfold execRefReturn
  exact .step (touches_guardPart ..) (.ite (.step (touches_onPwr ..) .refl) .refl)

theorem touches_execLinkLaneMarked (link : Nat) (lane : Nat) (s : State) :
    OutTouches [.out, .regs, .step, .links] s (execLinkLaneMarked link lane s) := by
  unfold execLinkLaneMarked
  exact .step (touches_guardPart ..) (.step (touches_markLane ..) .refl)

theorem touches_execKeyPhaseReport (link : Nat) (phase : Nat) (s : State) :
    OutTouches [.links] s (execKeyPhaseReport link phase s) := by
  unfold execKeyPhaseReport
  exact .step (touches_guardPart ..) (.step (touches_setLink ..) .refl)

theorem touches_execSecStatusRead (s : State) :
    OutTouches [.hostReply, .regs, .sec] s (execSecStatusRead s) := by
  unfold execSecStatusRead
  exact .next (.step (touches_secZero ..) (.step (touches_reply ..) .refl))

theorem touches_execSecCmdDone (s : State) :
    OutTouches [.out, .regs, .step, .links, .sec] s (execSecCmdDone s) := by
  unfold execSecCmdDone
  refine .next ?_
  split
  · exact .refl
  · dsimp only
    exact .ite (.step (touches_onSec _ _ fun _ _ _ => rfl) (.step (touches_setReg ..) (.step (touches_putBytes ..) .refl))) (.step
      (touches_raise ..) (.step (touches_onSec _ _ fun _ _ _ => rfl) (.step (touches_setReg ..) (.step (touches_putBytes ..) .refl))))

theorem touches_execLoadDone (s : State) :
    OutTouches [.out, .regs, .cores, .knots, .mem, .step, .job, .siteMax, .sitePend, .whips, .caps, .wMax, .wPend, .plan, .route, .hank, .links, .mirror, .rel, .load] s (execLoadDone s) := by
  unfold execLoadDone
  refine .next ?_
  split
  · exact .refl
  · dsimp only
    exact .ite (.step (touches_armTry ..) (.step (touches_loadEnd ..) (.step (touches_install ..) (.step (touches_set_load ..) .refl))))
      (.step (touches_armTry ..) (.step (touches_loadEnd ..) (.step (touches_set_load ..) .refl)))

end Sys2Proof.Machine
end

section
/-! PROOF. What every step keeps: the queue but for its front, both memories canonical (O58), every written fuse (O59). -/

-- One body at a time: elaborated side by side, the many bodies of this section exhaust the threads that the check allows.
set_option Elab.async false

namespace Sys2Proof.Machine
open Sys2Proof.Safety

/-- The fields that a command touches are among a list of its own. -/
theorem exists_touches_exec (i : Instr) (s : State) : ∃ F, OutTouches F s (exec i s) := by
  cases i with
  | ccNop => exact ⟨_, touches_execCcNop ..⟩
  | stepend => exact ⟨_, touches_execStepend ..⟩
  | addi => exact ⟨_, touches_execAddi ..⟩
  | ccAdd => exact ⟨_, touches_execCcAdd ..⟩
  | ccSub => exact ⟨_, touches_execCcSub ..⟩
  | ccMul => exact ⟨_, touches_execCcMul ..⟩
  | ccAnd => exact ⟨_, touches_execCcAnd ..⟩
  | ccOr => exact ⟨_, touches_execCcOr ..⟩
  | ccXor => exact ⟨_, touches_execCcXor ..⟩
  | shl => exact ⟨_, touches_execShl ..⟩
  | shr => exact ⟨_, touches_execShr ..⟩
  | sra => exact ⟨_, touches_execSra ..⟩
  | li => exact ⟨_, touches_execLi ..⟩
  | lih => exact ⟨_, touches_execLih ..⟩
  | ldc => exact ⟨_, touches_execLdc ..⟩
  | gets => exact ⟨_, touches_execGets ..⟩
  | beq => exact ⟨_, touches_execBeq ..⟩
  | bne => exact ⟨_, touches_execBne ..⟩
  | blt => exact ⟨_, touches_execBlt ..⟩
  | bltu => exact ⟨_, touches_execBltu ..⟩
  | ccLoop => exact ⟨_, touches_execCcLoop ..⟩
  | issue => exact ⟨_, touches_execIssue ..⟩
  | fence => exact ⟨_, touches_execFence ..⟩
  | vres => exact ⟨_, touches_execVres ..⟩
  | tie => exact ⟨_, touches_execTie ..⟩
  | untie => exact ⟨_, touches_execUntie ..⟩
  | wait => exact ⟨_, touches_execWait ..⟩
  | waitclr => exact ⟨_, touches_execWaitclr ..⟩
  | take => exact ⟨_, touches_execTake ..⟩
  | rtie => exact ⟨_, touches_execRtie ..⟩
  | runtie => exact ⟨_, touches_execRuntie ..⟩
  | remoteSend => exact ⟨_, touches_execRemoteSend ..⟩
  | remoteKnotOp => exact ⟨_, touches_execRemoteKnotOp ..⟩
  | knotTimeout => exact ⟨_, touches_execKnotTimeout ..⟩
  | hostNop => exact ⟨_, touches_execHostNop ..⟩
  | hostTie => exact ⟨_, touches_execHostTie ..⟩
  | hostUntie => exact ⟨_, touches_execHostUntie ..⟩
  | matmul => exact ⟨_, touches_execMatmul ..⟩
  | packed => exact ⟨_, touches_execPacked ..⟩
  | blockStep => exact ⟨_, touches_execBlockStep ..⟩
  | readOut => exact ⟨_, touches_execReadOut ..⟩
  | quantiserOperation => exact ⟨_, touches_execQuantiserOperation ..⟩
  | damageRecord => exact ⟨_, touches_execDamageRecord ..⟩
  | ecLayerBound => exact ⟨_, touches_execEcLayerBound ..⟩
  | residueInject => exact ⟨_, touches_execResidueInject ..⟩
  | ravelTestIndex => exact ⟨_, touches_execRavelTestIndex ..⟩
  | ravelTestInput => exact ⟨_, touches_execRavelTestInput ..⟩
  | ravelTestDone => exact ⟨_, touches_execRavelTestDone ..⟩
  | vlaunch => exact ⟨_, touches_execVlaunch ..⟩
  | launchComplete => exact ⟨_, touches_execLaunchComplete ..⟩
  | vecNop => exact ⟨_, touches_execVecNop ..⟩
  | strandEnd => exact ⟨_, touches_execStrandEnd ..⟩
  | br => exact ⟨_, touches_execBr ..⟩
  | brany => exact ⟨_, touches_execBrany ..⟩
  | lset => exact ⟨_, touches_execLset ..⟩
  | vecLoop => exact ⟨_, touches_execVecLoop ..⟩
  | vout => exact ⟨_, touches_execVout ..⟩
  | vld => exact ⟨_, touches_execVld ..⟩
  | vst => exact ⟨_, touches_execVst ..⟩
  | vstr => exact ⟨_, touches_execVstr ..⟩
  | vldq => exact ⟨_, touches_execVldq ..⟩
  | vstq => exact ⟨_, touches_execVstq ..⟩
  | vadd => exact ⟨_, touches_execVadd ..⟩
  | vsub => exact ⟨_, touches_execVsub ..⟩
  | vmul => exact ⟨_, touches_execVmul ..⟩
  | vfma => exact ⟨_, touches_execVfma ..⟩
  | vfms => exact ⟨_, touches_execVfms ..⟩
  | vmin => exact ⟨_, touches_execVmin ..⟩
  | vmax => exact ⟨_, touches_execVmax ..⟩
  | vabs => exact ⟨_, touches_execVabs ..⟩
  | vneg => exact ⟨_, touches_execVneg ..⟩
  | vmov => exact ⟨_, touches_execVmov ..⟩
  | vrcp => exact ⟨_, touches_execVrcp ..⟩
  | vdiv => exact ⟨_, touches_execVdiv ..⟩
  | vsqrt => exact ⟨_, touches_execVsqrt ..⟩
  | vrsq => exact ⟨_, touches_execVrsq ..⟩
  | vexp2 => exact ⟨_, touches_execVexp2 ..⟩
  | vexp => exact ⟨_, touches_execVexp ..⟩
  | vlog2 => exact ⟨_, touches_execVlog2 ..⟩
  | vlog => exact ⟨_, touches_execVlog ..⟩
  | vtanh => exact ⟨_, touches_execVtanh ..⟩
  | vsigm => exact ⟨_, touches_execVsigm ..⟩
  | verf => exact ⟨_, touches_execVerf ..⟩
  | vsin => exact ⟨_, touches_execVsin ..⟩
  | vcos => exact ⟨_, touches_execVcos ..⟩
  | vceq => exact ⟨_, touches_execVceq ..⟩
  | vclt => exact ⟨_, touches_execVclt ..⟩
  | vcle => exact ⟨_, touches_execVcle ..⟩
  | vcun => exact ⟨_, touches_execVcun ..⟩
  | vsel => exact ⟨_, touches_execVsel ..⟩
  | pand => exact ⟨_, touches_execPand ..⟩
  | por => exact ⟨_, touches_execPor ..⟩
  | pxor => exact ⟨_, touches_execPxor ..⟩
  | pnot => exact ⟨_, touches_execPnot ..⟩
  | vcvti => exact ⟨_, touches_execVcvti ..⟩
  | vcvtf => exact ⟨_, touches_execVcvtf ..⟩
  | vrbf => exact ⟨_, touches_execVrbf ..⟩
  | viadd => exact ⟨_, touches_execViadd ..⟩
  | visub => exact ⟨_, touches_execVisub ..⟩
  | vimul => exact ⟨_, touches_execVimul ..⟩
  | vand => exact ⟨_, touches_execVand ..⟩
  | vor => exact ⟨_, touches_execVor ..⟩
  | vxor => exact ⟨_, touches_execVxor ..⟩
  | vshl => exact ⟨_, touches_execVshl ..⟩
  | vshra => exact ⟨_, touches_execVshra ..⟩
  | vshrl => exact ⟨_, touches_execVshrl ..⟩
  | vimin => exact ⟨_, touches_execVimin ..⟩
  | vimax => exact ⟨_, touches_execVimax ..⟩
  | viclt => exact ⟨_, touches_execViclt ..⟩
  | vperm => exact ⟨_, touches_execVperm ..⟩
  | vblane => exact ⟨_, touches_execVblane ..⟩
  | viota => exact ⟨_, touches_execViota ..⟩
  | vrot => exact ⟨_, touches_execVrot ..⟩
  | rclr => exact ⟨_, touches_execRclr ..⟩
  | radd => exact ⟨_, touches_execRadd ..⟩
  | rmax => exact ⟨_, touches_execRmax ..⟩
  | rmin => exact ⟨_, touches_execRmin ..⟩
  | rarg => exact ⟨_, touches_execRarg ..⟩
  | rsoft => exact ⟨_, touches_execRsoft ..⟩
  | rread => exact ⟨_, touches_execRread ..⟩
  | rxport => exact ⟨_, touches_execRxport ..⟩
  | rimport => exact ⟨_, touches_execRimport ..⟩
  | vsmx => exact ⟨_, touches_execVsmx ..⟩
  | vgath => exact ⟨_, touches_execVgath ..⟩
  | vscat => exact ⟨_, touches_execVscat ..⟩
  | vscadd => exact ⟨_, touches_execVscadd ..⟩
  | copy => exact ⟨_, touches_execCopy ..⟩
  | dmaGather => exact ⟨_, touches_execDmaGather ..⟩
  | dmaScatterStore => exact ⟨_, touches_execDmaScatterStore ..⟩
  | dmaScatterAdd => exact ⟨_, touches_execDmaScatterAdd ..⟩
  | dmaComplete => exact ⟨_, touches_execDmaComplete ..⟩
  | peerWrite => exact ⟨_, touches_execPeerWrite ..⟩
  | hostHbmAccess => exact ⟨_, touches_execHostHbmAccess ..⟩
  | hostAccessTimeout => exact ⟨_, touches_execHostAccessTimeout ..⟩
  | normPass => exact ⟨_, touches_execNormPass ..⟩
  | clipNorm => exact ⟨_, touches_execClipNorm ..⟩
  | updatePass => exact ⟨_, touches_execUpdatePass ..⟩
  | mpEnd => exact ⟨_, touches_execMpEnd ..⟩
  | mpAdd => exact ⟨_, touches_execMpAdd ..⟩
  | mpSub => exact ⟨_, touches_execMpSub ..⟩
  | mpMul => exact ⟨_, touches_execMpMul ..⟩
  | mpFma => exact ⟨_, touches_execMpFma ..⟩
  | mpDiv => exact ⟨_, touches_execMpDiv ..⟩
  | mpSqrt => exact ⟨_, touches_execMpSqrt ..⟩
  | mpMin => exact ⟨_, touches_execMpMin ..⟩
  | mpMax => exact ⟨_, touches_execMpMax ..⟩
  | mpAbs => exact ⟨_, touches_execMpAbs ..⟩
  | mpNeg => exact ⟨_, touches_execMpNeg ..⟩
  | mpSign => exact ⟨_, touches_execMpSign ..⟩
  | mpSelneg => exact ⟨_, touches_execMpSelneg ..⟩
  | mpMov => exact ⟨_, touches_execMpMov ..⟩
  | schedTestCompute => exact ⟨_, touches_execSchedTestCompute ..⟩
  | schedTestCt => exact ⟨_, touches_execSchedTestCt ..⟩
  | schedTestDone => exact ⟨_, touches_execSchedTestDone ..⟩
  | bucketCompress => exact ⟨_, touches_execBucketCompress ..⟩
  | topkMsg => exact ⟨_, touches_execTopkMsg ..⟩
  | signMsg => exact ⟨_, touches_execSignMsg ..⟩
  | cancelMsg => exact ⟨_, touches_execCancelMsg ..⟩
  | finalMsg => exact ⟨_, touches_execFinalMsg ..⟩
  | cellMsg => exact ⟨_, touches_execCellMsg ..⟩
  | denseMsg => exact ⟨_, touches_execDenseMsg ..⟩
  | bucketMerge => exact ⟨_, touches_execBucketMerge ..⟩
  | load => exact ⟨_, touches_execLoad ..⟩
  | run => exact ⟨_, touches_execRun ..⟩
  | reissue => exact ⟨_, touches_execReissue ..⟩
  | stepLimit => exact ⟨_, touches_execStepLimit ..⟩
  | ready => exact ⟨_, touches_execReady ..⟩
  | tick => exact ⟨_, touches_execTick ..⟩
  | enterRunning => exact ⟨_, touches_execEnterRunning ..⟩
  | drainComplete => exact ⟨_, touches_execDrainComplete ..⟩
  | stepSummary => exact ⟨_, touches_execStepSummary ..⟩
  | drainTimeout => exact ⟨_, touches_execDrainTimeout ..⟩
  | commit => exact ⟨_, touches_execCommit ..⟩
  | maintenanceEnd => exact ⟨_, touches_execMaintenanceEnd ..⟩
  | abortStep => exact ⟨_, touches_execAbortStep ..⟩
  | quiesceCheck => exact ⟨_, touches_execQuiesceCheck ..⟩
  | reissueMessage => exact ⟨_, touches_execReissueMessage ..⟩
  | faultReport => exact ⟨_, touches_execFaultReport ..⟩
  | heartbeat => exact ⟨_, touches_execHeartbeat ..⟩
  | heartbeatTimer => exact ⟨_, touches_execHeartbeatTimer ..⟩
  | hankMemberLost => exact ⟨_, touches_execHankMemberLost ..⟩
  | hankManagerLost => exact ⟨_, touches_execHankManagerLost ..⟩
  | routeLoad => exact ⟨_, touches_execRouteLoad ..⟩
  | mirrorData => exact ⟨_, touches_execMirrorData ..⟩
  | mirrorRestore => exact ⟨_, touches_execMirrorRestore ..⟩
  | mirrorRebuild => exact ⟨_, touches_execMirrorRebuild ..⟩
  | restoreData => exact ⟨_, touches_execRestoreData ..⟩
  | save => exact ⟨_, touches_execSave ..⟩
  | restore => exact ⟨_, touches_execRestore ..⟩
  | tether => exact ⟨_, touches_execTether ..⟩
  | resetEscalated => exact ⟨_, touches_execResetEscalated ..⟩
  | resetDone => exact ⟨_, touches_execResetDone ..⟩
  | slotNow => exact ⟨_, touches_execSlotNow ..⟩
  | spareReq => exact ⟨_, touches_execSpareReq ..⟩
  | takeDump => exact ⟨_, touches_execTakeDump ..⟩
  | releaseDump => exact ⟨_, touches_execReleaseDump ..⟩
  | chafeTail => exact ⟨_, touches_execChafeTail ..⟩
  | journalAck => exact ⟨_, touches_execJournalAck ..⟩
  | journalResume => exact ⟨_, touches_execJournalResume ..⟩
  | journalSubmit => exact ⟨_, touches_execJournalSubmit ..⟩
  | migrationRequest => exact ⟨_, touches_execMigrationRequest ..⟩
  | retrain => exact ⟨_, touches_execRetrain ..⟩
  | migrationChunk => exact ⟨_, touches_execMigrationChunk ..⟩
  | patrolScrub => exact ⟨_, touches_execPatrolScrub ..⟩
  | refreshOverride => exact ⟨_, touches_execRefreshOverride ..⟩
  | create => exact ⟨_, touches_execCreate ..⟩
  | teardown => exact ⟨_, touches_execTeardown ..⟩
  | ctxDrainForced => exact ⟨_, touches_execCtxDrainForced ..⟩
  | ctxTeardownDone => exact ⟨_, touches_execCtxTeardownDone ..⟩
  | statusClear => exact ⟨_, touches_execStatusClear ..⟩
  | detailValidClear => exact ⟨_, touches_execDetailValidClear ..⟩
  | registerWrite => exact ⟨_, touches_execRegisterWrite ..⟩
  | laneCtrl => exact ⟨_, touches_execLaneCtrl ..⟩
  | voltBound => exact ⟨_, touches_execVoltBound ..⟩
  | clkBound => exact ⟨_, touches_execClkBound ..⟩
  | powerCap => exact ⟨_, touches_execPowerCap ..⟩
  | flit => exact ⟨_, touches_execFlit ..⟩
  | nak => exact ⟨_, touches_execNak ..⟩
  | ackTimeout => exact ⟨_, touches_execAckTimeout ..⟩
  | laneLockLoss => exact ⟨_, touches_execLaneLockLoss ..⟩
  | messageRelease => exact ⟨_, touches_execMessageRelease ..⟩
  | firmwareBoot => exact ⟨_, touches_execFirmwareBoot ..⟩
  | firmwareVerified => exact ⟨_, touches_execFirmwareVerified ..⟩
  | recoveryImage => exact ⟨_, touches_execRecoveryImage ..⟩
  | hbmReady => exact ⟨_, touches_execHbmReady ..⟩
  | pwrEnRise => exact ⟨_, touches_execPwrEnRise ..⟩
  | pwrEnFall => exact ⟨_, touches_execPwrEnFall ..⟩
  | resetNAssert => exact ⟨_, touches_execResetNAssert ..⟩
  | vinWarn => exact ⟨_, touches_execVinWarn ..⟩
  | vinFault => exact ⟨_, touches_execVinFault ..⟩
  | vinOvercurrent => exact ⟨_, touches_execVinOvercurrent ..⟩
  | phaseShed => exact ⟨_, touches_execPhaseShed ..⟩
  | thermalThrottle => exact ⟨_, touches_execThermalThrottle ..⟩
  | throttleRelease => exact ⟨_, touches_execThrottleRelease ..⟩
  | thermTrip => exact ⟨_, touches_execThermTrip ..⟩
  | voltageLoop => exact ⟨_, touches_execVoltageLoop ..⟩
  | refLost => exact ⟨_, touches_execRefLost ..⟩
  | refHoldoverExpiry => exact ⟨_, touches_execRefHoldoverExpiry ..⟩
  | alertStatusClear => exact ⟨_, touches_execAlertStatusClear ..⟩
  | clearFaults => exact ⟨_, touches_execClearFaults ..⟩
  | capability => exact ⟨_, touches_execCapability ..⟩
  | vinUvWarnLimit => exact ⟨_, touches_execVinUvWarnLimit ..⟩
  | statusWord => exact ⟨_, touches_execStatusWord ..⟩
  | statusInput => exact ⟨_, touches_execStatusInput ..⟩
  | statusTemperature => exact ⟨_, touches_execStatusTemperature ..⟩
  | readVin => exact ⟨_, touches_execReadVin ..⟩
  | readIin => exact ⟨_, touches_execReadIin ..⟩
  | readTemperature1 => exact ⟨_, touches_execReadTemperature1 ..⟩
  | readTemperature2 => exact ⟨_, touches_execReadTemperature2 ..⟩
  | readPin => exact ⟨_, touches_execReadPin ..⟩
  | mfrId => exact ⟨_, touches_execMfrId ..⟩
  | mfrModel => exact ⟨_, touches_execMfrModel ..⟩
  | getVersion => exact ⟨_, touches_execGetVersion ..⟩
  | getCapabilities => exact ⟨_, touches_execGetCapabilities ..⟩
  | negotiateAlgorithms => exact ⟨_, touches_execNegotiateAlgorithms ..⟩
  | getDigests => exact ⟨_, touches_execGetDigests ..⟩
  | getCertificate => exact ⟨_, touches_execGetCertificate ..⟩
  | challenge => exact ⟨_, touches_execChallenge ..⟩
  | getMeasurements => exact ⟨_, touches_execGetMeasurements ..⟩
  | ctxKeyGen => exact ⟨_, touches_execCtxKeyGen ..⟩
  | linkSecret => exact ⟨_, touches_execLinkSecret ..⟩
  | imageKey => exact ⟨_, touches_execImageKey ..⟩
  | policyWrite => exact ⟨_, touches_execPolicyWrite ..⟩
  | lifecycleAdvance => exact ⟨_, touches_execLifecycleAdvance ..⟩
  | debugChallenge => exact ⟨_, touches_execDebugChallenge ..⟩
  | debugUnlock => exact ⟨_, touches_execDebugUnlock ..⟩
  | spdmRelay => exact ⟨_, touches_execSpdmRelay ..⟩
  | randomBytes => exact ⟨_, touches_execRandomBytes ..⟩
  | secArgZeroing => exact ⟨_, touches_execSecArgZeroing ..⟩
  | trngFail => exact ⟨_, touches_execTrngFail ..⟩
  | trainingExchange => exact ⟨_, touches_execTrainingExchange ..⟩
  | refReturn => exact ⟨_, touches_execRefReturn ..⟩
  | linkLaneMarked => exact ⟨_, touches_execLinkLaneMarked ..⟩
  | keyPhaseReport => exact ⟨_, touches_execKeyPhaseReport ..⟩
  | secStatusRead => exact ⟨_, touches_execSecStatusRead ..⟩
  | secCmdDone => exact ⟨_, touches_execSecCmdDone ..⟩
  | loadDone => exact ⟨_, touches_execLoadDone ..⟩

theorem keeps_exec {i : Instr} {s t : State} (h : exec i s = .next t) : Keeps s t :=
  let ⟨_, k⟩ := exists_touches_exec i s
  (k.touches t h).keeps

theorem keeps_runAll {l : List Instr} {s t : State} (h : runAll l s = .next t) : Keeps s t := by
  induction l generalizing s with
  | nil =>
    cases h
    exact .refl _
  | cons i l ih =>
    unfold runAll at h
    split at h
    · rename_i u hu
      exact ((touches_acceptedGo ..).touches u hu).keeps.trans (ih h)
    · split at h
      · rename_i u hu
        exact (keeps_exec hu).trans (ih h)
      · rename_i hn
        exact absurd h (hn t)

theorem keeps_idle {s t : State} (h : s.idle = .next t) : Keeps s t := by
  have hw : Keeps s { s.tick.serveHeld.ctxPoll with waiting := [] } :=
    ((((touches_tick s).keeps.trans (touches_serveHeld _).keeps).trans (touches_ctxPoll _).keeps)).trans (touches_set_waiting _ []).keeps
  exact hw.trans (keeps_runAll h)

/-- A step keeps the memories canonical and the fuses, from the state without the command it takes. -/
theorem step_keeps {s t : State} (h : step s = .next t) : Keeps { s with pending := s.pending.tail } t := by
  unfold step at h
  split at h
  · rename_i hp
    have k := keeps_idle h
    exact ⟨by rw [k.pending, hp]; rfl, k.hbm, k.scratch, k.otp⟩
  · rename_i c rest hp
    simpa [hp] using keeps_exec h

/-- Settles O58: every function of the model keeps both memories canonical and the queue (`Keeps`), so a step takes its front and adds none. -/
theorem memoriesStayCanonical : Obligations.MemoriesStayCanonical := by
  unfold Obligations.MemoriesStayCanonical
  intro s t hw h
  have k := step_keeps h
  obtain ⟨hh, hs⟩ := hw
  exact ⟨⟨k.hbm hh, k.scratch hs⟩, k.pending⟩

/-- Settles O59: no function of the model changes a written fuse; a burn writes only where 0 stands. -/
theorem fusesNeverClear : Obligations.FusesNeverClear := by
  unfold Obligations.FusesNeverClear
  exact fun s t h => (step_keeps h).otp

end Sys2Proof.Machine
end

section
/-! SUPPORT. A field outside a function's list is as it was. -/

set_option Elab.async false -- elaborate in order: side threads each hold a stack of their own

namespace Sys2Proof.Machine

variable {F : List Field} {s t : State}

theorem Touches.clock_eq (k : Touches F s t) (h : Field.clock ∉ F := by decide) : t.clock = s.clock := k.same _ h
theorem Touches.free_eq (k : Touches F s t) (h : Field.free ∉ F := by decide) : t.free = s.free := k.same _ h
theorem Touches.out_eq (k : Touches F s t) (h : Field.out ∉ F := by decide) : t.out = s.out := k.same _ h
theorem Touches.hostReply_eq (k : Touches F s t) (h : Field.hostReply ∉ F := by decide) : t.hostReply = s.hostReply := k.same _ h
theorem Touches.regs_eq (k : Touches F s t) (h : Field.regs ∉ F := by decide) : t.regs = s.regs := k.same _ h
theorem Touches.cores_eq (k : Touches F s t) (h : Field.cores ∉ F := by decide) : t.cores = s.cores := k.same _ h
theorem Touches.knots_eq (k : Touches F s t) (h : Field.knots ∉ F := by decide) : t.knots = s.knots := k.same _ h
theorem Touches.ctxs_eq (k : Touches F s t) (h : Field.ctxs ∉ F := by decide) : t.ctxs = s.ctxs := k.same _ h
theorem Touches.hbm_eq (k : Touches F s t) (h : Field.hbm ∉ F := by decide) : t.hbm = s.hbm := k.same _ h
theorem Touches.scratch_eq (k : Touches F s t) (h : Field.scratch ∉ F := by decide) : t.scratch = s.scratch := k.same _ h
theorem Touches.poison_eq (k : Touches F s t) (h : Field.poison ∉ F := by decide) : t.poison = s.poison := k.same _ h
theorem Touches.mem_eq (k : Touches F s t) (h : Field.mem ∉ F := by decide) : t.mem = s.mem := k.same _ h
theorem Touches.step_eq (k : Touches F s t) (h : Field.step ∉ F := by decide) : t.step = s.step := k.same _ h
theorem Touches.job_eq (k : Touches F s t) (h : Field.job ∉ F := by decide) : t.job = s.job := k.same _ h
theorem Touches.siteMax_eq (k : Touches F s t) (h : Field.siteMax ∉ F := by decide) : t.siteMax = s.siteMax := k.same _ h
theorem Touches.sitePend_eq (k : Touches F s t) (h : Field.sitePend ∉ F := by decide) : t.sitePend = s.sitePend := k.same _ h
theorem Touches.clusterMap_eq (k : Touches F s t) (h : Field.clusterMap ∉ F := by decide) : t.clusterMap = s.clusterMap := k.same _ h
theorem Touches.whips_eq (k : Touches F s t) (h : Field.whips ∉ F := by decide) : t.whips = s.whips := k.same _ h
theorem Touches.caps_eq (k : Touches F s t) (h : Field.caps ∉ F := by decide) : t.caps = s.caps := k.same _ h
theorem Touches.wMax_eq (k : Touches F s t) (h : Field.wMax ∉ F := by decide) : t.wMax = s.wMax := k.same _ h
theorem Touches.wPend_eq (k : Touches F s t) (h : Field.wPend ∉ F := by decide) : t.wPend = s.wPend := k.same _ h
theorem Touches.plan_eq (k : Touches F s t) (h : Field.plan ∉ F := by decide) : t.plan = s.plan := k.same _ h
theorem Touches.route_eq (k : Touches F s t) (h : Field.route ∉ F := by decide) : t.route = s.route := k.same _ h
theorem Touches.hank_eq (k : Touches F s t) (h : Field.hank ∉ F := by decide) : t.hank = s.hank := k.same _ h
theorem Touches.links_eq (k : Touches F s t) (h : Field.links ∉ F := by decide) : t.links = s.links := k.same _ h
theorem Touches.sec_eq (k : Touches F s t) (h : Field.sec ∉ F := by decide) : t.sec = s.sec := k.same _ h
theorem Touches.journal_eq (k : Touches F s t) (h : Field.journal ∉ F := by decide) : t.journal = s.journal := k.same _ h
theorem Touches.mirror_eq (k : Touches F s t) (h : Field.mirror ∉ F := by decide) : t.mirror = s.mirror := k.same _ h
theorem Touches.rel_eq (k : Touches F s t) (h : Field.rel ∉ F := by decide) : t.rel = s.rel := k.same _ h
theorem Touches.pwr_eq (k : Touches F s t) (h : Field.pwr ∉ F := by decide) : t.pwr = s.pwr := k.same _ h
theorem Touches.load_eq (k : Touches F s t) (h : Field.load ∉ F := by decide) : t.load = s.load := k.same _ h
theorem Touches.hostOut_eq (k : Touches F s t) (h : Field.hostOut ∉ F := by decide) : t.hostOut = s.hostOut := k.same _ h
theorem Touches.i3c_eq (k : Touches F s t) (h : Field.i3c ∉ F := by decide) : t.i3c = s.i3c := k.same _ h
theorem Touches.waiting_eq (k : Touches F s t) (h : Field.waiting ∉ F := by decide) : t.waiting = s.waiting := k.same _ h
theorem Touches.stackReset_eq (k : Touches F s t) (h : Field.stackReset ∉ F := by decide) : t.stackReset = s.stackReset := k.same _ h

/-- A register file that is as it was reads as it was. -/
theorem Touches.reg_eq (k : Touches F s t) (id : RegId) (h : Field.regs ∉ F := by decide) : t.reg id = s.reg id := by
  rw [State.reg, k.regs_eq h, State.reg]

theorem Touches.core_eq (k : Touches F s t) (n : Nat) (h : Field.cores ∉ F := by decide) : t.core n = s.core n := by
  rw [State.core, k.cores_eq h, State.core]

end Sys2Proof.Machine
end

section
/-! PROOF. The lane-wise and predicate operations and the control instructions of the vector engine (07 R179–R186): O19, O20, O21. -/

set_option Elab.async false -- elaborate in order: side threads each hold a stack of their own

namespace Sys2Proof.Machine
open Sys2Proof.Safety Sys2Proof.Claims

variable {s : State} {n t cls op : Nat} {m : OpMsg} {w : W64}

theorem bump_onStrand_eq_strandUpd (s : State) (n t : Nat) (f : Strand → Strand) :
    (s.bump (coreR .INSN_TOTAL n) 1).onStrand n t f = strandUpd s n t f := rfl

/-- A change of the strand core alone, counted, then the next instruction. -/
theorem vecLocal_of_vecAt (h : VecAt s n t m w) (hcls : vCls w = cls) (hop : vOp w = op) (f : OpMsg → W64 → Strand → Strand) :
    vecLocal n t cls op s f = .next (strandUpd s n t fun x => strandNext (f m w x)) := by
  rw [vecLocal, vecRun_of_vecAt h hcls hop]
  rfl

/-- A command's meaning is a change of VD of its strand core under the guard. -/
def WritesLanes (r : (Nat → Nat → Instr) × Nat × Nat × (OpMsg → W64 → Strand → Nat → Nat → W32)) : Prop :=
  ∀ s n t, ∃ f, exec (r.1 n t) s = vecLocal n t r.2.1 r.2.2.1 s f ∧ ∀ m w x, f m w x = vdWritten x w (r.2.2.2 m w x t)

theorem writesLanes_vimin : WritesLanes (.vimin, 5, 0x11, laneAbc fun a b _ => if a.toInt < b.toInt then a else b) := fun s n t =>
  ⟨_, by
    change execVimin n t s = _
    simp only [execVimin, BitVec.slt, decide_eq_true_eq]
    rfl, fun _ _ _ => rfl⟩

theorem writesLanes_vimax : WritesLanes (.vimax, 5, 0x12, laneAbc fun a b _ => if a.toInt < b.toInt then b else a) := fun s n t =>
  ⟨_, by
    change execVimax n t s = _
    simp only [execVimax, BitVec.slt, decide_eq_true_eq]
    rfl, fun _ _ _ => rfl⟩

theorem writesLanes_vblane : WritesLanes (.vblane, 6, 0x01, fun _ w x _ _ => lane (x.reg (vVa w)) (w.toNat % 16)) := fun s n t =>
  ⟨_, by
    change execVblane n t s = _
    simp only [execVblane, fld, bits, Nat.shiftRight_zero]
    rfl, fun _ _ _ => rfl⟩

theorem writesLanes_viota : WritesLanes (.viota, 6, 0x02, fun _ w _ t l => BitVec.ofInt 32 ((l : Int) + 16 * (t : Int) + vImm w)) := fun s n t =>
  ⟨_, by
    change execViota n t s = _
    simp only [execViota, Int.natCast_add, Int.natCast_mul, Int.cast_ofNat_Int]
    rfl, fun _ _ _ => rfl⟩

/-- The other commands of the table are so by their definition. -/
theorem writesLanes_of_mem {r : (Nat → Nat → Instr) × Nat × Nat × (OpMsg → W64 → Strand → Nat → Nat → W32)} (hr : r ∈ laneOps) : WritesLanes r := by
  simp only [laneOps, List.mem_append, List.mem_cons, List.not_mem_nil, or_false] at hr
  obtain ((h | h | h | h | h | h | h | h | h | h) | (h | h | h | h | h | h | h | h | h | h | h | h | h)) |
    (h | h | h | h | h | h | h | h | h | h | hmin | hmax | h | hblane | hiota | h) := hr
  case inr.inr.inr.inr.inr.inr.inr.inr.inr.inr.inr.inl => exact hmin ▸ writesLanes_vimin
  case inr.inr.inr.inr.inr.inr.inr.inr.inr.inr.inr.inr.inl => exact hmax ▸ writesLanes_vimax
  case inr.inr.inr.inr.inr.inr.inr.inr.inr.inr.inr.inr.inr.inr.inl => exact hblane ▸ writesLanes_vblane
  case inr.inr.inr.inr.inr.inr.inr.inr.inr.inr.inr.inr.inr.inr.inr.inl => exact hiota ▸ writesLanes_viota
  all_goals subst h; exact fun s n t => ⟨_, by unfold exec; rfl, fun _ _ _ => rfl⟩

/-- Each shift is a lane operation; an amount of 32 or more gives the free value. -/
theorem exec_laneShift {r : (Nat → Nat → Instr) × Nat × (W32 → Nat → W32)} (hr : r ∈ laneShifts) (s : State) (n t : Nat) :
    exec (r.1 n t) s = vecShift n t r.2.1 s r.2.2 := by
  simp only [laneShifts, List.mem_cons, List.not_mem_nil, or_false] at hr
  obtain rfl | rfl | rfl := hr <;> unfold exec <;> rfl

/-- Settles O19: each command is a change of VD under the guard, by its definition; a step then counts it and passes on. -/
theorem vectorLanes : Obligations.VectorLanes := by
  unfold Obligations.VectorLanes
  refine ⟨fun r hr s n t m w h hcls hop => ?_, fun r hr s n t m w h hcls hop => ?_⟩
  · obtain ⟨f, hf, hv⟩ := writesLanes_of_mem hr s n t
    rw [hf, vecLocal_of_vecAt h hcls hop]
    simp only [hv]
  · rw [exec_laneShift hr, vecShift, vecLanes, vecLocal_of_vecAt h hcls hop]
    rfl

/- Tests and predicate operations (R183). -/

theorem nbit_eq_testBit (k l : Nat) : nbit k l = k.testBit l := by
  rw [nbit, bits, Nat.add_sub_cancel_left, Nat.testBit_eq_decide_div_mod_eq, Nat.shiftRight_eq_div_pow, Nat.pow_one]

theorem testBit_bitmap (l : List Nat) (k : Nat) : (bitmap l).testBit k = decide (k ∈ l) := by
  have go : ∀ (l : List Nat) (a : Nat), (l.foldl (fun a i => a ||| 1 <<< i) a).testBit k = (a.testBit k || decide (k ∈ l)) := by
    intro l
    induction l with
    | nil => simp
    | cons i l ih =>
      intro a
      rw [List.foldl_cons, ih, Nat.testBit_or, Nat.one_shiftLeft, Nat.testBit_two_pow, Bool.or_assoc]
      simp [eq_comm]
  simpa [bitmap] using go l 0

theorem nbit_bitmap_filter_range {k l : Nat} (h : l < k) (p : Nat → Bool) : nbit (bitmap ((List.range k).filter p)) l = p l := by
  rw [nbit_eq_testBit, testBit_bitmap]
  simp [h]

theorem Strand.pred_zero (x : Strand) : x.pred 0 = 0xFFFF := rfl

/-- A predicate write reaches one predicate, never p0 (R182). -/
theorem Strand.pred_putP_ne (x : Strand) (w : W64) (f : Nat → Bool) {d : Nat} (h : d ≠ vVd w % 8) : (x.putP w f).pred d = x.pred d := by
  unfold Strand.putP
  dsimp only
  split
  · rfl
  · simp [Strand.pred, sget_sset, h]

theorem Strand.nbit_pred_putP (x : Strand) (w : W64) (f : Nat → Bool) (h : vVd w % 8 ≠ 0) {l : Nat} (hl : l < 16) :
    nbit ((x.putP w f).pred (vVd w % 8)) l = if nbit (x.pred (vPg w)) l then f l else if vPz w then false else nbit (x.pred (vVd w % 8)) l := by
  unfold Strand.putP
  rw [if_neg h]
  simp only [Strand.pred, h, if_false, sget_sset, if_true, nbit_bitmap_filter_range hl, Strand.active]

theorem Strand.putP_v (x : Strand) (w : W64) (f : Nat → Bool) : (x.putP w f).v = x.v := by
  unfold Strand.putP
  dsimp only
  split <;> rfl

theorem Strand.putP_pc (x : Strand) (w : W64) (f : Nat → Bool) : (x.putP w f).pc = x.pc := by
  unfold Strand.putP
  dsimp only
  split <;> rfl

/-- What a counted change of a strand core leaves. -/
theorem strandUpd_strand (s : State) (n t : Nat) (f : Strand → Strand) : (strandUpd s n t f).strand n t = f (s.strand n t) := by
  simp [strandUpd, State.strand, sget_sset]

theorem strandUpd_regs (s : State) (n t : Nat) (f : Strand → Strand) : (strandUpd s n t f).regs = (s.bump (coreR .INSN_TOTAL n) 1).regs := rfl

/-- A command's meaning is a change of one predicate under the guard. -/
def WritesPred (r : (Nat → Nat → Instr) × Nat × Nat × (OpMsg → W64 → Strand → Nat → Bool)) : Prop :=
  ∀ s n t, ∃ f, exec (r.1 n t) s = vecLocal n t r.2.1 r.2.2.1 s f ∧ ∀ m w x, f m w x = x.putP w (r.2.2.2 m w x)

theorem writesPred_of_mem {r : (Nat → Nat → Instr) × Nat × Nat × (OpMsg → W64 → Strand → Nat → Bool)} (hr : r ∈ lanePreds) : WritesPred r := by
  simp only [lanePreds, List.mem_cons, List.not_mem_nil, or_false] at hr
  obtain h | h | h | h | h | h | h | h | h := hr <;> subst h <;> exact fun s n t => ⟨_, by unfold exec; rfl, fun _ _ _ => rfl⟩

/-- Settles O20: each command is one predicate write under the guard; a write to p0 is discarded. -/
theorem vectorPredicates : Obligations.VectorPredicates := by
  unfold Obligations.VectorPredicates
  intro r hr s n t m w h hcls hop x
  obtain ⟨f, hf, hp⟩ := writesPred_of_mem hr s n t
  have k := touches_strandUpd s n t fun x => strandNext (x.putP w (r.2.2.2 m w x))
  have he : exec (r.1 n t) s = .next (strandUpd s n t fun x => strandNext (x.putP w (r.2.2.2 m w x))) := by
    rw [hf, vecLocal_of_vecAt h hcls hop]
    simp only [hp]
  refine ⟨_, he, ?_⟩
  rw [strandUpd_strand]
  exact ⟨congrArg (fun p => (p + 1) % 8192) (Strand.putP_pc ..), x.putP_v .., rfl, fun hd l hl => x.nbit_pred_putP w _ hd hl,
    fun d hd => x.pred_putP_ne w _ hd, k.hbm_eq, k.scratch_eq, strandUpd_regs ..⟩

/- Control instructions (R179, R183, R185). -/

theorem Touches.strand_eq {F : List Field} {s u : State} (k : Touches F s u) (n t : Nat) (h : Field.cores ∉ F := by decide) :
    u.strand n t = s.strand n t := by
  rw [State.strand, k.core_eq n h, State.strand]

@[simp] theorem State.strand_onStrand (s : State) (n t : Nat) (f : Strand → Strand) : (s.onStrand n t f).strand n t = f (s.strand n t) := by
  simp [State.onStrand, State.onVec, State.onCore, State.strand, sget_sset]

/-- The launch that a strand core runs, with the strand core among those that ended it. -/
def Launch.endedBy (g t : Nat) (l : Launch) : Launch := if l.msg.tag = g then { l with ended := l.ended ++ [t] } else l

theorem endLaunch_of_launch {s : State} {n t g : Nat} (h : (s.strand n t).launch = some g) :
    s.endLaunch n t = (s.onVec n fun v => { v with queue := v.queue.map (Launch.endedBy g t) }).onStrand n t fun x => { x with launch := none } := by
  simp only [State.endLaunch, h]
  rfl

theorem strand_endLaunch {s : State} {n t g : Nat} (h : (s.strand n t).launch = some g) :
    (s.endLaunch n t).strand n t = { s.strand n t with launch := none } := by
  rw [endLaunch_of_launch h, State.strand_onStrand]
  simp [State.onVec, State.onCore, State.strand]

theorem queue_endLaunch {s : State} {n t g : Nat} (h : (s.strand n t).launch = some g) :
    ((s.endLaunch n t).core n).vec.queue = (s.core n).vec.queue.map (Launch.endedBy g t) := by
  rw [endLaunch_of_launch h]
  simp [State.onStrand, State.onVec, State.onCore]

/-- Where an illegal instruction stands at the pc, any command of the strand core's class ends its launch. -/
theorem vecRun_of_illegal {s : State} {n t : Nat} {w : W64} {g : Nat} {l : Launch} (hn : n < 384) (ht : t < 16) (hw : vIllegal w = true)
    (hinsn : (s.core n).vec.insn (s.strand n t).pc = w) (hg : (s.strand n t).launch = some g)
    (hl : (s.core n).vec.queue.find? (fun l => l.msg.tag = g) = some l) (cls op : Nat) (f : OpMsg → W64 → State → State) :
    vecRun n t cls op s f = .next ((s.bump (coreR .INSN_TOTAL n) 1).vecIllegal n t l.msg) := by
  simp [vecRun, guardPart, State.beginLaunch_of_launch hg, hn, ht, hg, hl, hinsn, hw]

/-- What an illegal instruction leaves (R186). -/
theorem vecIllegal_ends {s : State} {n t g : Nat} (m : OpMsg) (hg : (s.strand n t).launch = some g) :
    let u := s.vecIllegal n t m
    u.strand n t = { s.strand n t with launch := none } ∧ u.step.rejected = true ∧ bit (u.reg (rid .CORE_STATUS (.core n))) 8 = true := by
  intro u
  let raised := (s.raiseDetail (coreR .VEC_ERR_DETAIL n) (vecDetail 0x10 t (s.strand n t).pc m.idx) (.core n) 8 (s.ctxOf n)).markRejected
  have hs : raised.strand n t = s.strand n t := (Touches.step (touches_markRejected _) (touches_raiseDetail ..) :
    Touches [.out, .regs, .step, .links] s raised).strand_eq n t
  have hlaunch : (raised.strand n t).launch = some g := hs ▸ hg
  have k : Touches [.cores] raised u := touches_endLaunch ..
  refine ⟨?_, ?_, ?_⟩
  · exact (strand_endLaunch hlaunch).trans (by rw [hs])
  · rw [k.step_eq]
    rfl
  · rw [k.reg_eq]
    exact State.bit_status_raised _ (.core n) (by decide) _ _ _

theorem execVout_strand (h : VecAt s n t m w) (hcls : vCls w = 0) (hop : vOp w = 6) :
    ∃ u, exec (.vout n t) s = .next u ∧ u.strand n t = strandNext (s.strand n t) ∧
      (u.core n).cc.results = (s.core n).cc.results.map (fun r => if nbit ((s.strand n t).pred (vPg w)) 0 = true ∧ r.tag = m.tag then
        { r with words := sset r.words (fld w 2 0) (lane ((s.strand n t).reg (vVa w)) 0) } else r) ∧
      (nbit ((s.strand n t).pred (vPg w)) 0 = false → (u.core n).cc = (s.core n).cc) := by
  change ∃ u, execVout n t s = .next u ∧ _
  rw [execVout, vecRun_of_vecAt h hcls hop]
  refine ⟨_, rfl, ?_⟩
  simp only [Strand.active, State.bump_strand]
  cases nbit ((s.strand n t).pred (vPg w)) 0 <;>
    simp [State.onCore, State.onStrand, State.onVec, State.strand, sget_sset, Strand.adv, strandNext]

/-- Settles O21: each instruction is its strand-core change by definition; END and an illegal word end the launch. -/
theorem vectorControl : Obligations.VectorControl := by
  unfold Obligations.VectorControl
  refine ⟨fun s n t m w h hcls => ?_, fun s n t w g l hn ht hw hinsn hg hl => ?_⟩
  · intro x
    refine ⟨fun hop => ?_, fun hop => ?_, fun hop => ?_, fun hop => ?_, fun hop => ?_, fun hop => ?_, fun hop => ?_⟩
    · change execVecNop n t s = _
      rw [execVecNop, vecLocal_of_vecAt h hcls hop]
    · change execBr n t s = _
      rw [execBr, vecRun_of_vecAt h hcls hop]
      rfl
    · change execBrany n t s = _
      rw [execBrany, vecRun_of_vecAt h hcls hop, bump_onStrand_eq_strandUpd]
      simp only [Strand.branch, Strand.lanes, List.any_filter, Strand.active]
      rfl
    · change execLset n t s = _
      rw [execLset, vecLocal_of_vecAt h hcls hop]
      simp only [fld, bits, Nat.shiftRight_zero]
    · change execVecLoop n t s = _
      rw [execVecLoop, vecRun_of_vecAt h hcls hop, bump_onStrand_eq_strandUpd]
      simp only [Strand.branch, decide_eq_true_eq]
      rfl
    · obtain ⟨u, hu, hs, hr, hc⟩ := execVout_strand h hcls hop
      have k := (touches_execVout n t s).touches u hu
      refine ⟨u, hu, hs, k.hbm_eq, k.scratch_eq, fun r hr' htag hact => ?_, hc⟩
      rw [hr]
      exact List.mem_map.mpr ⟨r, hr', if_pos ⟨hact, htag⟩⟩
    · have hu : execStrandEnd n t s = .next ((s.bump (coreR .INSN_TOTAL n) 1).endLaunch n t) := by
        rw [execStrandEnd, vecRun_of_vecAt h hcls hop]
      obtain ⟨-, -, -, -, g, l, hg, hl, rfl⟩ := h
      have htag : l.msg.tag = g := by simpa using List.find?_some hl
      refine ⟨_, hu, (strand_endLaunch (by simpa using hg)).trans (by simp [x]), fun k hk hkt => ?_⟩
      rw [queue_endLaunch (by simpa using hg)] at hk
      obtain ⟨k', -, rfl⟩ := List.mem_map.mp hk
      unfold Launch.endedBy at hkt ⊢
      split at hkt <;> rename_i hk'
      · simp [hk']
      · exact absurd (hkt.trans htag) hk'
  · have hu : execVecNop n t s = .next ((s.bump (coreR .INSN_TOTAL n) 1).vecIllegal n t l.msg) := by
      rw [execVecNop, vecLocal, vecRun_of_illegal hn ht hw hinsn hg hl]
    have k := (touches_execVecNop n t s).touches _ hu
    obtain ⟨hs, hr, hb⟩ := vecIllegal_ends (s := s.bump (coreR .INSN_TOTAL n) 1) (t := t) l.msg (by simpa using hg)
    exact ⟨_, hu, by simpa using hs, hr, hb, k.hbm_eq, k.scratch_eq⟩

end Sys2Proof.Machine
end

section
/-! PROOF. Exact sums of the vector engine (07 R195): O24. -/

set_option Elab.async false -- elaborate in order: side threads each hold a stack of their own

namespace Sys2Proof.Machine
open Sys2Proof.Safety Sys2Proof.Claims

/- An exact sum does not depend on the order of its lanes (R195). -/

/-- One more term; a count beyond 2^42 sets NAN. -/
def XCell.countTerm (c : XCell) : XCell :=
  let c := { c with terms := c.terms + 1 }
  if 2 ^ 42 < c.terms then { c with nan := true, terms := c.terms % 2 ^ 48 } else c

theorem XCell.addVal_terms (c : XCell) (x : Fl) : (c.addVal x).terms = c.terms := by
  cases x with
  | inf n => cases n <;> rfl
  | nan => rfl
  | fin => rfl

theorem XCell.addLane_eq (c : XCell) (w : W32) : c.addLane w = (c.addVal (f32 w)).countTerm := by
  simp only [XCell.addLane, XCell.countTerm, XCell.addVal_terms]

theorem XCell.addVal_comm (c : XCell) (x y : Fl) : (c.addVal x).addVal y = (c.addVal y).addVal x := by
  have hsum (u v : BitVec 320) : c.sum + u + v = c.sum + v + u := by rw [BitVec.add_assoc, BitVec.add_comm u, ← BitVec.add_assoc]
  cases x with
  | nan => cases y with
    | inf b => cases b <;> rfl
    | _ => rfl
  | inf a => cases a <;> cases y with
    | inf b => cases b <;> rfl
    | _ => rfl
  | fin => cases y with
    | nan => rfl
    | inf b => cases b <;> rfl
    | fin => simp only [XCell.addVal, hsum]

/-- A value does not touch the count, nor the count the sum. -/
theorem XCell.addVal_countTerm (c : XCell) (x : Fl) : c.countTerm.addVal x = (c.addVal x).countTerm := by
  by_cases h : 2 ^ 42 < c.terms + 1
  · cases x with
    | inf n => cases n <;> simp only [XCell.addVal, XCell.countTerm, h, if_true, if_false, Bool.false_eq_true]
    | _ => simp only [XCell.addVal, XCell.countTerm, h, if_true]
  · cases x with
    | inf n => cases n <;> simp only [XCell.addVal, XCell.countTerm, h, if_true, if_false, Bool.false_eq_true]
    | _ => simp only [XCell.addVal, XCell.countTerm, h, if_false]

theorem XCell.addLane_comm (c : XCell) (a b : W32) : (c.addLane a).addLane b = (c.addLane b).addLane a := by
  simp only [XCell.addLane_eq, XCell.addVal_countTerm]
  rw [XCell.addVal_comm]

/-- Settles O24: adding a lane is adding its value and counting a term, and these commute. -/
theorem exactSumOrderFree : Obligations.ExactSumOrderFree := by
  unfold Obligations.ExactSumOrderFree
  exact fun c l l' h => h.foldl_eq' (fun _ _ _ _ d => XCell.addLane_comm ..) c

end Sys2Proof.Machine
end

section
/-! SUPPORT. What a read of core scratch returns after writes, and what writes leave unchanged. -/

set_option Elab.async false -- elaborate in order: side threads each hold a stack of their own

namespace Sys2Proof.Machine
open Sys2Proof.Safety

variable {s : State} {n a b k : Nat} {bs : List Byte}

theorem State.scrRead_eq (s : State) (n : Nat) (h : a < 2 ^ 21) (k : Nat) :
    s.scrRead n a k = (List.range k).map fun i => memGet s.scratch (scrAddr n a + i) := by
  simp only [State.scrRead, memRead, scratchSize, Nat.mod_eq_of_lt h, scrAddr]

theorem State.scrRead_length (s : State) (n a k : Nat) : (s.scrRead n a k).length = k := by
  simp [State.scrRead, memRead]

theorem State.wf_scrWrite (h : Memory.wf s.scratch = true) : Memory.wf (s.scrWrite n a bs).scratch = true := Memory.wf_memWrite _ _ h

theorem State.memGet_scrWrite (w : Memory.wf s.scratch = true) (h : a < 2 ^ 21) (hb : a + bs.length ≤ 2 ^ 21) (x : Nat) :
    memGet (s.scrWrite n a bs).scratch x =
      if scrAddr n a ≤ x ∧ x < scrAddr n a + bs.length then nth bs 0 (x - scrAddr n a) else memGet s.scratch x := by
  have htake : bs.take (scratchSize - a % scratchSize) = bs := List.take_of_length_le (by simp only [scratchSize, Nat.mod_eq_of_lt h]; omega)
  rw [State.scrWrite, htake, memGet_memWrite w]
  simp only [scratchSize, Nat.mod_eq_of_lt h, scrAddr]
  rfl

/-- A run of scratch bytes reads back. -/
theorem State.scrRead_scrWrite_same (w : Memory.wf s.scratch = true) (h : a < 2 ^ 21) (hb : a + bs.length ≤ 2 ^ 21) (hk : bs.length = k) :
    (s.scrWrite n a bs).scrRead n a k = bs := by
  rw [State.scrRead_eq _ _ h]
  refine List.ext_getElem (by simp [hk]) fun i h1 h2 => ?_
  rw [List.getElem_map, List.getElem_range, State.memGet_scrWrite w h hb, if_pos (by omega), Nat.add_sub_cancel_left, nth,
    List.getElem?_eq_getElem h2, Option.getD_some]

/-- A read that shares no byte with a write of the core is as it was. -/
theorem State.scrRead_scrWrite_disjoint (w : Memory.wf s.scratch = true) (h : a < 2 ^ 21) (hb : a + bs.length ≤ 2 ^ 21) (hlt : b < 2 ^ 21)
    (hd : b + k ≤ a ∨ a + bs.length ≤ b) : (s.scrWrite n a bs).scrRead n b k = s.scrRead n b k := by
  rw [State.scrRead_eq _ _ hlt, State.scrRead_eq _ _ hlt]
  refine List.map_congr_left fun i hi => ?_
  rw [List.mem_range] at hi
  rw [State.memGet_scrWrite w h hb, if_neg (by simp only [scrAddr]; omega)]

/-- Writes of one core, in order. -/
def State.scrWrites (s : State) (n : Nat) (ws : List (Nat × List Byte)) : State := ws.foldl (fun s p => s.scrWrite n p.1 p.2) s

/-- The write lies in the core's scratch. -/
def InScratch (p : Nat × List Byte) : Prop := p.1 < 2 ^ 21 ∧ p.1 + p.2.length ≤ 2 ^ 21

theorem State.wf_scrWrites (w : Memory.wf s.scratch = true) (ws : List (Nat × List Byte)) : Memory.wf (s.scrWrites n ws).scratch = true := by
  induction ws generalizing s with
  | nil => exact w
  | cons p ws ih => exact ih (wf_scrWrite w)

theorem State.scrWrites_append (s : State) (n : Nat) (ws vs : List (Nat × List Byte)) :
    s.scrWrites n (ws ++ vs) = (s.scrWrites n ws).scrWrites n vs := List.foldl_append

theorem touches_scrWrites (s : State) (n : Nat) (ws : List (Nat × List Byte)) : Touches [.scratch] s (s.scrWrites n ws) :=
  .foldl .refl fun _ _ => touches_scrWrite ..

/-- A byte outside every write is as it was. -/
theorem State.memGet_scrWrites_outside (w : Memory.wf s.scratch = true) {ws : List (Nat × List Byte)} (hin : ∀ p ∈ ws, InScratch p) {x : Nat}
    (hx : ∀ p ∈ ws, x < scrAddr n p.1 ∨ scrAddr n p.1 + p.2.length ≤ x) : memGet (s.scrWrites n ws).scratch x = memGet s.scratch x := by
  induction ws generalizing s with
  | nil => rfl
  | cons p ws ih =>
    obtain ⟨hp, hin⟩ := List.forall_mem_cons.mp hin
    obtain ⟨hpx, hx⟩ := List.forall_mem_cons.mp hx
    exact (ih (wf_scrWrite w) hin hx).trans (by rw [State.memGet_scrWrite w hp.1 hp.2, if_neg (by omega)])

/-- A write that no later one overlaps reads back. -/
theorem State.scrRead_scrWrites_last (w : Memory.wf s.scratch = true) {ws vs : List (Nat × List Byte)} (hv : ∀ p ∈ vs, InScratch p)
    (hp : InScratch (a, bs)) (hd : ∀ p ∈ vs, a + bs.length ≤ p.1 ∨ p.1 + p.2.length ≤ a) (hk : bs.length = k) :
    (s.scrWrites n (ws ++ (a, bs) :: vs)).scrRead n a k = bs := by
  rw [State.scrWrites_append]
  have hw := State.wf_scrWrites (n := n) w ws
  have same : ((((s.scrWrites n ws).scrWrite n a bs).scrWrites n vs)).scrRead n a k = ((s.scrWrites n ws).scrWrite n a bs).scrRead n a k := by
    rw [State.scrRead_eq _ _ hp.1, State.scrRead_eq _ _ hp.1]
    refine List.map_congr_left fun i hi => State.memGet_scrWrites_outside (wf_scrWrite hw) hv fun p hpv => ?_
    have := List.mem_range.mp hi
    have := hd p hpv
    simp only [scrAddr]
    omega
  exact same.trans (State.scrRead_scrWrite_same hw hp.1 hp.2 hk)

/-- Taking a lane out of the active ones, those after it are higher. -/
theorem Strand.lanes_split (x : Strand) (w : W64) {l : Nat} (hl : l < 16) (h : x.active w l = true) :
    ∃ A B, x.lanes w = A ++ l :: B ∧ ∀ j ∈ B, l < j ∧ j < 16 ∧ x.active w j = true := by
  have hmem : l ∈ x.lanes w := List.mem_filter.mpr ⟨List.mem_range.mpr hl, h⟩
  obtain ⟨A, B, e⟩ := List.append_of_mem hmem
  have hp : (x.lanes w).Pairwise (· < ·) := List.Pairwise.filter _ List.pairwise_lt_range
  rw [e, List.pairwise_append, List.pairwise_cons] at hp
  refine ⟨A, B, e, fun j hj => ⟨hp.2.1.1 j hj, ?_⟩⟩
  have : j ∈ x.lanes w := by rw [e]; exact List.mem_append_right _ (List.mem_cons_of_mem _ hj)
  simpa [Strand.lanes] using this

end Sys2Proof.Machine
end

section
/-! PROOF. Loads and stores of the vector engine (07 R187–R191): O22. -/

set_option Elab.async false -- elaborate in order: side threads each hold a stack of their own

namespace Sys2Proof.Machine
open Sys2Proof.Safety Sys2Proof.Claims

variable {s : State} {n t : Nat} {m : OpMsg} {w : W64} {c stalls : Nat}

/- Lanes of a cache line. -/

theorem cacheLine_lt {x : Strand} (h : cacheLine x w = some c) : c < 8192 := by
  unfold cacheLine at h
  dsimp only at h
  split at h
  · obtain rfl := Option.some.inj h
    omega
  · cases h

theorem cacheAddr_lt {x : Strand} (h : cacheLine x w = some c) {l : Nat} (hl : l < 16) : cacheAddr c + 4 * l + 4 ≤ 2 ^ 21 := by
  have := cacheLine_lt h
  simp only [cacheAddr]
  omega

theorem getElem?_chunks {α : Type} (k : Nat) (f : Nat) (l : List α) (i : Nat) (hk : 0 < k) (hf : l.length < f) (hi : k * i < l.length) :
    (chunks k f l)[i]? = some ((l.drop (k * i)).take k) := by
  induction f generalizing l i with
  | zero => omega
  | succ f ih =>
    have hne : l.isEmpty = false := by
      cases l with
      | nil => exact absurd hi (Nat.not_lt_zero _)
      | cons => rfl
    rw [chunks, hne]
    cases i with
    | zero => simp
    | succ i =>
      rw [if_neg Bool.false_ne_true, List.getElem?_cons_succ, ih (l.drop k) i (by rw [List.length_drop]; omega) (by rw [List.length_drop]; rw [Nat.mul_succ] at hi; omega),
        List.drop_drop, Nat.mul_succ, Nat.add_comm]

/-- A lane of a 64-byte line is its four bytes. -/
theorem lane_words32 (s : State) (n : Nat) {a l : Nat} (ha : a + 64 ≤ 2 ^ 21) (hl : l < 16) :
    lane (words32 (s.scrRead n a 64)) l = BitVec.ofNat 32 (s.scrNat n (a + 4 * l) 4) := by
  have hlen := s.scrRead_length n a 64
  rw [lane, nth, words32, List.getElem?_map, getElem?_chunks 4 _ _ l (by omega) (by omega) (by omega), Option.map_some, Option.getD_some, State.scrNat]
  congr 2
  rw [State.scrRead_eq _ _ (by omega), State.scrRead_eq _ _ (by omega)]
  refine List.ext_getElem (by simp; omega) fun i h1 h2 => ?_
  simp only [List.getElem_take, List.getElem_drop, List.getElem_map, List.getElem_range, scrAddr, Nat.add_assoc]

theorem Strand.putV_congr (x : Strand) (w : W64) {f g : Nat → W32} (h : ∀ l < 16, f l = g l) : x.putV w f = x.putV w g := by
  have : (List.range 16).map (fun l => if x.active w l then f l else if vPz w then 0 else lane (x.reg (vVd w)) l) =
      (List.range 16).map fun l => if x.active w l then g l else if vPz w then 0 else lane (x.reg (vVd w)) l :=
    List.map_congr_left fun l hl => by rw [h l (List.mem_range.mp hl)]
  rw [Strand.putV, this, Strand.putV]

theorem Strand.putV_eq_vdWritten (x : Strand) (w : W64) (f : Nat → W32) : x.putV w f = vdWritten x w f := rfl

/- Accesses that lie outside (R191). -/

theorem State.bit_vecOob (s : State) (n : Nat) (write : Bool) {k : Nat} (hk : k ≠ 0) : bit ((s.vecOob n write k).reg (coreR .CORE_STATUS n)) 9 = true := by
  rw [State.vecOob, if_neg hk]
  exact State.bit_status_raised _ (.core n) (by decide) _ _ _

theorem Strand.lanes_length_ne_zero {x : Strand} (h : ((List.range 16).any fun l => nbit (x.pred (vPg w)) l) = true) : min 1 (x.lanes w).length ≠ 0 := by
  obtain ⟨l, hl, hact⟩ := List.any_eq_true.mp h
  have : l ∈ x.lanes w := List.mem_filter.mpr ⟨hl, hact⟩
  have := List.length_pos_of_mem this
  omega

/-- A state in which the strand core's instruction was counted and stalls were counted. -/
theorem touches_counted (s : State) (n stalls : Nat) : Touches [.regs] s ((s.bump (coreR .INSN_TOTAL n) 1).ocStall n stalls) :=
  .step (touches_ocStall ..) (.step (touches_bump ..) .refl)

theorem State.slotLane_congr {s u : State} (h : u.scratch = s.scratch) (n : Nat) (T : TSlot) (raw : Bool) (e : Nat) :
    u.slotLane n T raw e = s.slotLane n T raw e := by
  simp only [State.slotLane, State.slotRaw, State.scrNat, State.scrRead, h]

/- Loads. -/

theorem execVld_line (h : VecAt s n t m w) (hcls : vCls w = 1) (hop : vOp w = 0) (hc : cacheLine (s.strand n t) w = some c) :
    ∃ u, exec (.vld n t stalls []) s = .next u ∧
      u.strand n t = strandNext (vdWritten (s.strand n t) w fun l => BitVec.ofNat 32 (s.scrNat n ((0x6000 + c) * 64 + 4 * l) 4)) ∧
      u.scratch = s.scratch ∧ u.hbm = s.hbm := by
  have k := touches_counted s n stalls
  change ∃ u, execVld n t stalls [] s = .next u ∧ _
  rw [execVld, vecRun_of_vecAt h hcls hop]
  simp only [State.bump_strand, hc, State.scrEventsAt_nil]
  refine ⟨_, rfl, ?_, k.scratch_eq, k.hbm_eq⟩
  rw [State.strand_onStrand, k.strand_eq, ← Strand.putV_eq_vdWritten]
  refine congrArg strandNext (Strand.putV_congr _ _ fun l hl => ?_)
  have hlt := cacheLine_lt hc
  rw [lane_words32 _ _ (by simp only [cacheAddr]; omega) hl]
  simp only [State.scrNat, State.scrRead, k.scratch_eq, cacheAddr]

theorem execVld_outside (h : VecAt s n t m w) (hcls : vCls w = 1) (hop : vOp w = 0) (hc : cacheLine (s.strand n t) w = none) :
    ∃ u, exec (.vld n t stalls []) s = .next u ∧ u.strand n t = strandNext (vdWritten (s.strand n t) w fun _ => 0) ∧ u.scratch = s.scratch ∧
      u.hbm = s.hbm ∧ (((List.range 16).any fun l => nbit ((s.strand n t).pred (vPg w)) l) = true → bit (u.reg (coreR .CORE_STATUS n)) 9 = true) := by
  change ∃ u, execVld n t stalls [] s = .next u ∧ _
  rw [execVld, vecRun_of_vecAt h hcls hop]
  simp only [State.bump_strand, hc]
  have k := Touches.step (F := [.out, .regs, .step, .links]) (touches_vecOob _ n false (min 1 ((s.strand n t).lanes w).length))
    (touches_counted s n stalls).mono
  refine ⟨_, rfl, ?_, k.scratch_eq, k.hbm_eq, fun ha => State.bit_vecOob _ _ _ (Strand.lanes_length_ne_zero ha)⟩
  rw [State.strand_onStrand, k.strand_eq]
  rfl

/- Stores. -/

/-- The four bytes that a store writes for lane l. -/
def storeLane (raw : Bool) (v : List W32) (c l : Nat) : Nat × List Byte :=
  (cacheAddr c + 4 * l, leBytes 4 (if raw then lane v l else tensorF32 (lane v l)).toNat)

theorem inScratch_storeLane {x : Strand} (hc : cacheLine x w = some c) (raw : Bool) (v : List W32) {l : Nat} (hl : l < 16) : InScratch (storeLane raw v c l) := by
  have := cacheAddr_lt hc hl
  simp only [InScratch, storeLane, leBytes_length]
  omega

theorem vecStore_line (raw : Bool) {op : Nat} (h : VecAt s n t m w) (hcls : vCls w = 1) (hop : vOp w = op)
    (hc : cacheLine (s.strand n t) w = some c) :
    vecStore n t op stalls raw s = .next ((((s.bump (coreR .INSN_TOTAL n) 1).ocStall n stalls).scrWrites n
      (((s.strand n t).lanes w).map (storeLane raw ((s.strand n t).reg (vVd w)) c))).onStrand n t Strand.adv) := by
  rw [vecStore, vecRun_of_vecAt h hcls hop]
  simp only [State.bump_strand, hc, State.scrWrites, List.foldl_map]
  rfl

theorem scrAddr_add (n a k : Nat) : scrAddr n (a + k) = scrAddr n a + k := (Nat.add_assoc ..).symm

theorem State.scrRead_onStrand (s : State) (n t : Nat) (f : Strand → Strand) (q a k : Nat) :
    (s.onStrand n t f).scrRead q a k = s.scrRead q a k := rfl

theorem leNat_leBytes_word (x : BitVec 32) : leNat (leBytes 4 x.toNat) = x.toNat :=
  leNat_leBytes_of_lt (show x.toNat < 256 ^ 4 from x.isLt)

theorem vecStore_writes (raw : Bool) {op : Nat} (h : VecAt s n t m w) (hcls : vCls w = 1) (hop : vOp w = op) (wf : Memory.wf s.scratch = true)
    (hc : cacheLine (s.strand n t) w = some c) :
    ∃ u, vecStore n t op stalls raw s = .next u ∧ u.strand n t = strandNext (s.strand n t) ∧ u.hbm = s.hbm ∧
      (∀ l, l < 16 → nbit ((s.strand n t).pred (vPg w)) l = true → u.scrNat n ((0x6000 + c) * 64 + 4 * l) 4 =
        (if raw then lane ((s.strand n t).reg (vVd w)) l else tensorF32 (lane ((s.strand n t).reg (vVd w)) l)).toNat) ∧
      (∀ a, (∀ l, l < 16 → nbit ((s.strand n t).pred (vPg w)) l = true →
          a < scrAddr n ((0x6000 + c) * 64 + 4 * l) ∨ scrAddr n ((0x6000 + c) * 64 + 4 * l + 4) ≤ a) →
        memGet u.scratch a = memGet s.scratch a) := by
  have k := Touches.step (F := [.regs, .scratch]) (touches_scrWrites _ n (((s.strand n t).lanes w).map (storeLane raw ((s.strand n t).reg (vVd w)) c)))
    (touches_counted s n stalls).mono
  have hwf : Memory.wf ((s.bump (coreR .INSN_TOTAL n) 1).ocStall n stalls).scratch = true := by rw [(touches_counted s n stalls).scratch_eq]; exact wf
  refine ⟨_, vecStore_line raw h hcls hop hc, ?_, k.hbm_eq, fun l hl hact => ?_, fun a ha => ?_⟩
  · rw [State.strand_onStrand, k.strand_eq]
    rfl
  · obtain ⟨A, B, e, hB⟩ := Strand.lanes_split _ w hl hact
    have hlast := State.scrRead_scrWrites_last (n := n) (k := 4) hwf (ws := A.map (storeLane raw ((s.strand n t).reg (vVd w)) c))
      (vs := B.map (storeLane raw ((s.strand n t).reg (vVd w)) c)) (a := (storeLane raw ((s.strand n t).reg (vVd w)) c l).1)
      (bs := (storeLane raw ((s.strand n t).reg (vVd w)) c l).2)
      (List.forall_mem_map.mpr fun j hj => inScratch_storeLane hc _ _ (hB j hj).2.1) (inScratch_storeLane hc _ _ hl)
      (List.forall_mem_map.mpr fun j hj => by
        have := (hB j hj).1
        simp only [storeLane, leBytes_length]
        omega) (leBytes_length ..)
    rw [e, List.map_append, List.map_cons]
    change leNat (State.scrRead _ n (storeLane raw ((s.strand n t).reg (vVd w)) c l).1 4) = _
    rw [State.scrRead_onStrand]
    refine (congrArg leNat hlast).trans ?_
    rw [storeLane, leNat_leBytes_word]
  · rw [← (touches_counted s n stalls).scratch_eq]
    refine State.memGet_scrWrites_outside hwf ?_ ?_ <;> refine List.forall_mem_map.mpr fun l hl => ?_
    · exact inScratch_storeLane hc _ _ (List.mem_range.mp (List.mem_filter.mp hl).1)
    · obtain ⟨hl, hact⟩ := List.mem_filter.mp hl
      rw [storeLane, leBytes_length, ← scrAddr_add, cacheAddr]
      exact ha l (List.mem_range.mp hl) hact

theorem vecStore_outside (raw : Bool) {op : Nat} (h : VecAt s n t m w) (hcls : vCls w = 1) (hop : vOp w = op) (hc : cacheLine (s.strand n t) w = none) :
    ∃ u, vecStore n t op stalls raw s = .next u ∧ u.strand n t = strandNext (s.strand n t) ∧ u.scratch = s.scratch ∧ u.hbm = s.hbm ∧
      (((List.range 16).any fun l => nbit ((s.strand n t).pred (vPg w)) l) = true → bit (u.reg (coreR .CORE_STATUS n)) 9 = true) := by
  rw [vecStore, vecRun_of_vecAt h hcls hop]
  simp only [State.bump_strand, hc]
  have k := Touches.step (F := [.out, .regs, .step, .links]) (touches_vecOob _ n true (min 1 ((s.strand n t).lanes w).length))
    (touches_counted s n stalls).mono
  refine ⟨_, rfl, ?_, k.scratch_eq, k.hbm_eq, fun ha => State.bit_vecOob _ _ _ (Strand.lanes_length_ne_zero ha)⟩
  rw [State.strand_onStrand, k.strand_eq]
  rfl

/- Blocks of tensor slots. -/

theorem execVldq_block {b scr oc : Nat} (h : VecAt s n t m w) (hcls : vCls w = 1) (hop : vOp w = 3)
    (hb : slotBlock (s.strand n t) w (m.tslot (vSlot w / 2)) = some b) :
    ∃ u, exec (.vldq n t scr oc []) s = .next u ∧
      u.strand n t = strandNext (vdWritten (s.strand n t) w fun l =>
        if 16 * b + l < (m.tslot (vSlot w / 2)).dim then s.slotLane n (m.tslot (vSlot w / 2)) false (16 * b + l)
        else BitVec.ofNat 32 (m.tslot (vSlot w / 2)).fill) ∧ u.scratch = s.scratch ∧ u.hbm = s.hbm := by
  change ∃ u, execVldq n t scr oc [] s = .next u ∧ _
  rw [execVldq, vecRun_of_vecAt h hcls hop]
  simp only [State.bump_strand, hb, State.scrEventsAt_nil]
  have k (l es) : Touches [.out, .regs, .step, .links] s
      (((s.bump (coreR .INSN_TOTAL n) 1).slotStall n l scr oc).slotTscale n (m.tslot (vSlot w / 2)) es) :=
    .step (touches_slotTscale ..) (.step (touches_slotStall ..) (.step (touches_bump ..) .refl))
  refine ⟨_, rfl, ?_, (k ..).scratch_eq, (k ..).hbm_eq⟩
  rw [State.strand_onStrand, (k ..).strand_eq]
  simp only [State.slotLane_congr (touches_bump s (coreR .INSN_TOTAL n) 1).scratch_eq]
  rfl

theorem execVldq_outside {scr oc : Nat} (h : VecAt s n t m w) (hcls : vCls w = 1) (hop : vOp w = 3)
    (hb : slotBlock (s.strand n t) w (m.tslot (vSlot w / 2)) = none) :
    ∃ u, exec (.vldq n t scr oc []) s = .next u ∧
      u.strand n t = strandNext (vdWritten (s.strand n t) w fun _ => BitVec.ofNat 32 (m.tslot (vSlot w / 2)).fill) ∧ u.scratch = s.scratch ∧ u.hbm = s.hbm ∧
      (((List.range 16).any fun l => nbit ((s.strand n t).pred (vPg w)) l) = true → bit (u.reg (coreR .CORE_STATUS n)) 9 = true) := by
  change ∃ u, execVldq n t scr oc [] s = .next u ∧ _
  rw [execVldq, vecRun_of_vecAt h hcls hop]
  simp only [State.bump_strand, hb]
  have k := Touches.step (F := [.out, .regs, .step, .links]) (touches_vecOob _ n false (min 1 ((s.strand n t).lanes w).length))
    (touches_bump s (coreR .INSN_TOTAL n) 1).mono
  refine ⟨_, rfl, ?_, k.scratch_eq, k.hbm_eq, fun ha => State.bit_vecOob _ _ _ (Strand.lanes_length_ne_zero ha)⟩
  rw [State.strand_onStrand, k.strand_eq]
  rfl

/-- The quantiser operation that VSTQ sends for block b (R190). -/
def State.vstqOp (s : State) (n t : Nat) (m : OpMsg) (w : W64) (b : Nat) : QOp :=
  let T := m.tslot (vSlot w / 2)
  let qi := 2 + 2 * (vSlot w % 2)
  { lo := m.w qi, hi := m.w (qi + 1), rows := vstqRows (fld ((s.core n).ladder (m.w qi) (m.w (qi + 1))) 7 0) b T.dim ((s.strand n t).srcB m w)
    dst := { hbm := false, core := n, elem := T.elem * 64, scale := T.scale * 64, bight := none, stride := 0 }
    tile := (m.w 14).toNat, epoch := fld (m.w 0) 41 34, accTrunc := 0, accSat := 0, plies := [], quad := 0
    signal := none, launch := some m.tag, guard := none, last := false }

theorem execVstq_block {b : Nat} (h : VecAt s n t m w) (hcls : vCls w = 1) (hop : vOp w = 4)
    (hb : slotBlock (s.strand n t) w (m.tslot (vSlot w / 2)) = some b) {port : List QOp} (hport : (s.core n).qnt.ports[1]? = some port) :
    ∃ u o, exec (.vstq n t stalls) s = .next u ∧ u.strand n t = strandNext (s.strand n t) ∧ (u.core n).qnt.ports[1]? = some (port ++ [o]) ∧
      o.lo = m.w (2 + 2 * (vSlot w % 2)) ∧ o.hi = m.w (3 + 2 * (vSlot w % 2)) ∧ o.tile = (m.w 14).toNat ∧
      o.epoch = fld (m.w 0) 41 34 ∧ o.launch = some m.tag ∧ u.scratch = s.scratch ∧ u.hbm = s.hbm := by
  have k := touches_counted s n stalls
  change ∃ u o, execVstq n t stalls s = .next u ∧ _
  rw [execVstq, vecRun_of_vecAt h hcls hop]
  simp only [State.bump_strand, hb]
  refine ⟨_, s.vstqOp n t m w b, rfl, ?_, ?_, rfl, ?_, rfl, rfl, rfl, k.scratch_eq, k.hbm_eq⟩
  · rw [State.strand_onStrand]
    simp only [State.strand, State.onQnt, State.onVec, State.onCore, State.core_setCore_same, k.core_eq]
    rfl
  · simp only [State.onStrand, State.onQnt, State.onVec, State.onCore, State.core_setCore_same, k.core_eq]
    rw [List.getElem?_modify, hport]
    rfl
  · rw [show 3 + 2 * (vSlot w % 2) = 2 + 2 * (vSlot w % 2) + 1 by omega]
    rfl

theorem execVstq_outside (h : VecAt s n t m w) (hcls : vCls w = 1) (hop : vOp w = 4) (hb : slotBlock (s.strand n t) w (m.tslot (vSlot w / 2)) = none) :
    ∃ u, exec (.vstq n t stalls) s = .next u ∧ u.strand n t = strandNext (s.strand n t) ∧ (u.core n).qnt = (s.core n).qnt ∧
      u.scratch = s.scratch ∧ u.hbm = s.hbm ∧ bit (u.reg (coreR .CORE_STATUS n)) 9 = true := by
  change ∃ u, execVstq n t stalls s = .next u ∧ _
  rw [execVstq, vecRun_of_vecAt h hcls hop]
  simp only [State.bump_strand, hb]
  have k := Touches.step (F := [.out, .regs, .step, .links]) (touches_vecOob _ n true 1) (touches_counted s n stalls).mono
  refine ⟨_, rfl, ?_, ?_, k.scratch_eq, k.hbm_eq, State.bit_vecOob _ _ _ Nat.one_ne_zero⟩
  · rw [State.strand_onStrand, k.strand_eq]
    rfl
  · simp only [State.onStrand, State.onVec, State.onCore, State.core_setCore_same, k.core_eq]

/-- Settles O22: one lemma per instruction, inside its line or slot and outside it. -/
theorem vectorMemory : Obligations.VectorMemory := by
  unfold Obligations.VectorMemory
  intro s n t m w stalls h hcls wf x some1
  refine ⟨fun c hc => ⟨fun hop => execVld_line h hcls hop hc, fun raw hop => ?_⟩, fun hc => ⟨fun hop => execVld_outside h hcls hop hc, ?_⟩,
    fun b scr oc hb => ⟨fun hop => execVldq_block h hcls hop hb, fun hop port hport => execVstq_block h hcls hop hb hport⟩,
    fun hb => ⟨fun scr oc hop => execVldq_outside h hcls hop hb, fun hop => execVstq_outside h hcls hop hb⟩⟩
  · cases raw with
    | false => exact vecStore_writes false h hcls hop wf hc
    | true => exact vecStore_writes true h hcls hop wf hc
  · rintro i (⟨hop, rfl⟩ | ⟨hop, rfl⟩)
    · exact vecStore_outside false h hcls hop hc
    · exact vecStore_outside true h hcls hop hc

end Sys2Proof.Machine
end

section
/-! SUPPORT. Fields of words bit by bit, and which registers an operation may write. -/
set_option Elab.async false -- elaborate in order: side threads each hold a stack of their own

namespace Sys2Proof.Machine

/- Fields of words. -/

theorem testBit_bits (k hi lo i : Nat) : (bits k hi lo).testBit i = (decide (i < hi + 1 - lo) && k.testBit (lo + i)) := by
  rw [bits, Nat.testBit_mod_two_pow, Nat.testBit_shiftRight]

theorem setFld_toNat {hi lo : Nat} (h : lo ≤ hi) (hhi : hi < 64) (x : W64) (v : Nat) :
    (setFld x hi lo v).toNat = 2 ^ (hi + 1) * (x.toNat / 2 ^ (hi + 1)) + (2 ^ lo * (v % 2 ^ (hi + 1 - lo)) + x.toNat % 2 ^ lo) := by
  have hpow : 2 ^ (hi + 1) = 2 ^ lo * 2 ^ (hi + 1 - lo) := by rw [← Nat.pow_add]; congr 1; omega
  have hx := Nat.mod_add_div x.toNat (2 ^ lo)
  have hq := Nat.mod_add_div (x.toNat / 2 ^ lo) (2 ^ (hi + 1 - lo))
  rw [Nat.div_div_eq_div_mul, ← hpow] at hq
  have hv := Nat.mod_lt v (Nat.two_pow_pos (hi + 1 - lo))
  have hr := Nat.mod_lt x.toNat (Nat.two_pow_pos lo)
  have hsplit : x.toNat = 2 ^ (hi + 1) * (x.toNat / 2 ^ (hi + 1)) + bits x.toNat hi lo * 2 ^ lo + x.toNat % 2 ^ lo := by
    rw [Nat.mul_comm (bits ..), bits, Nat.shiftRight_eq_div_pow]
    conv => lhs; rw [← hx, ← hq]
    rw [hpow, Nat.mul_add, Nat.mul_assoc]
    omega
  have hlow : 2 ^ lo * (v % 2 ^ (hi + 1 - lo)) + x.toNat % 2 ^ lo < 2 ^ (hi + 1) := by
    rw [hpow]
    calc _ < 2 ^ lo * (v % 2 ^ (hi + 1 - lo) + 1) := by rw [Nat.mul_add, Nat.mul_one]; omega
      _ ≤ _ := Nat.mul_le_mul_left _ hv
  have htop : 2 ^ (hi + 1) * (x.toNat / 2 ^ (hi + 1)) + 2 ^ (hi + 1) ≤ 2 ^ 64 := by
    have hd : x.toNat / 2 ^ (hi + 1) < 2 ^ (64 - (hi + 1)) :=
      Nat.div_lt_of_lt_mul (by rw [← Nat.pow_add, Nat.add_sub_cancel' (by omega)]; exact x.isLt)
    have : 2 ^ 64 = 2 ^ (hi + 1) * 2 ^ (64 - (hi + 1)) := by rw [← Nat.pow_add]; congr 1; omega
    rw [this, ← Nat.mul_succ]
    exact Nat.mul_le_mul_left _ hd
  rw [setFld, BitVec.toNat_ofNat, Nat.mod_eq_of_lt] <;> rw [Nat.mul_comm (v % _)] <;> omega

/-- A field written: its bits are the value's, and the others stay. -/
theorem testBit_setFld {hi lo : Nat} (h : lo ≤ hi) (hhi : hi < 64) (x : W64) (v i : Nat) :
    (setFld x hi lo v).toNat.testBit i = if lo ≤ i ∧ i ≤ hi then v.testBit (i - lo) else x.toNat.testBit i := by
  have hpow : 2 ^ (hi + 1) = 2 ^ lo * 2 ^ (hi + 1 - lo) := by rw [← Nat.pow_add]; congr 1; omega
  have hr := Nat.mod_lt x.toNat (Nat.two_pow_pos lo)
  have hlow : 2 ^ lo * (v % 2 ^ (hi + 1 - lo)) + x.toNat % 2 ^ lo < 2 ^ (hi + 1) := by
    rw [hpow]
    calc _ < 2 ^ lo * (v % 2 ^ (hi + 1 - lo) + 1) := by rw [Nat.mul_add, Nat.mul_one]; omega
      _ ≤ _ := Nat.mul_le_mul_left _ (Nat.mod_lt v (Nat.two_pow_pos _))
  rw [setFld_toNat h hhi, Nat.testBit_two_pow_mul_add _ hlow, Nat.testBit_two_pow_mul_add _ hr, Nat.testBit_mod_two_pow, Nat.testBit_mod_two_pow,
    Nat.testBit_div_two_pow]
  by_cases h1 : i < lo
  · rw [if_pos (by omega), if_pos h1, if_neg (by omega), decide_eq_true h1, Bool.true_and]
  · by_cases h2 : i < hi + 1
    · rw [if_pos h2, if_neg h1, if_pos (by omega), decide_eq_true (by omega), Bool.true_and]
    · rw [if_neg h2, if_neg (by omega), Nat.sub_add_cancel (by omega)]

theorem bit_eq_testBit (x : W64) (i : Nat) : bit x i = x.toNat.testBit i := nbit_eq_testBit ..

theorem fld_setFld_same {hi lo : Nat} (h : lo ≤ hi) (hhi : hi < 64) (x : W64) (v : Nat) : fld (setFld x hi lo v) hi lo = v % 2 ^ (hi + 1 - lo) := by
  refine Nat.eq_of_testBit_eq fun i => ?_
  rw [fld, testBit_bits, testBit_setFld h hhi, Nat.testBit_mod_two_pow]
  by_cases hi' : i < hi + 1 - lo
  · rw [if_pos (by omega), Nat.add_sub_cancel_left]
  · simp [hi']

theorem fld_setFld_disjoint {hi lo hi' lo' : Nat} (h : lo ≤ hi) (hhi : hi < 64) (hd : hi' < lo ∨ hi < lo') (x : W64) (v : Nat) :
    fld (setFld x hi lo v) hi' lo' = fld x hi' lo' := by
  refine Nat.eq_of_testBit_eq fun i => ?_
  rw [fld, fld, testBit_bits, testBit_bits, testBit_setFld h hhi]
  by_cases hi : i < hi' + 1 - lo'
  · rw [if_neg (by omega)]
  · simp [hi]

theorem bit_setFld {hi lo i : Nat} (h : lo ≤ hi) (hhi : hi < 64) (x : W64) (v : Nat) :
    bit (setFld x hi lo v) i = if lo ≤ i ∧ i ≤ hi then v.testBit (i - lo) else bit x i := by
  rw [bit_eq_testBit, bit_eq_testBit, testBit_setFld h hhi]

theorem bit_setFld_disjoint {hi lo i : Nat} (h : lo ≤ hi) (hhi : hi < 64) (hi' : i < lo ∨ hi < i) (x : W64) (v : Nat) :
    bit (setFld x hi lo v) i = bit x i := by
  rw [bit_setFld h hhi, if_neg (by omega)]

theorem bit_setFld_one {i : Nat} (hi : i < 64) (x : W64) : bit (setFld x i i 1) i = true := by
  rw [bit_setFld (Nat.le_refl i) hi, if_pos (by omega), Nat.sub_self]; rfl

theorem bit_setFld_zero {i : Nat} (hi : i < 64) (x : W64) : bit (setFld x i i 0) i = false := by
  rw [bit_setFld (Nat.le_refl i) hi, if_pos (by omega), Nat.zero_testBit]

/-- A word is its bits. -/
theorem W64.ext_bit {x y : W64} (h : ∀ i < 64, bit x i = bit y i) : x = y := by
  refine BitVec.eq_of_getLsbD_eq fun i hi => ?_
  have := h i hi
  rwa [bit_eq_testBit, bit_eq_testBit] at this

@[simp] theorem State.reg_setRegFld_same (s : State) (i : RegId) (hi lo v : Nat) : (s.setRegFld i hi lo v).reg i = setFld (s.reg i) hi lo v :=
  State.reg_setReg_same ..

theorem State.reg_setRegFld_ne (s : State) (i j : RegId) (hi lo v : Nat) (h : j ≠ i) : (s.setRegFld i hi lo v).reg j = s.reg j :=
  State.reg_setReg_ne _ _ _ _ h

/- Register footprints. -/

/-- Only registers whose names are in L may differ. -/
structure RegsWithin (L : List RegName) (s t : State) : Prop where
  reg_eq : ∀ i : RegId, i.name ∉ L → t.reg i = s.reg i

section

variable {L M : List RegName} {s t u : State}

theorem RegsWithin.refl : RegsWithin L s s := ⟨fun _ _ => rfl⟩

theorem RegsWithin.step (k : RegsWithin M t u) (h : RegsWithin L s t) (hM : M ⊆ L := by decide) : RegsWithin L s u :=
  ⟨fun i hi => (k.reg_eq i fun hm => hi (hM hm)).trans (h.reg_eq i hi)⟩

theorem RegsWithin.mono (k : RegsWithin M s t) (hM : M ⊆ L := by decide) : RegsWithin L s t := k.step .refl hM

theorem RegsWithin.ite {c : Prop} [Decidable c] (h : RegsWithin L s t) (k : RegsWithin L s u) : RegsWithin L s (if c then t else u) := by
  split <;> assumption

theorem RegsWithin.foldl {α : Type} {f : State → α → State} {l : List α} (h : RegsWithin L s t) (hf : ∀ t a, RegsWithin L t (f t a)) :
    RegsWithin L s (l.foldl f t) := by
  induction l generalizing t with
  | nil => exact h
  | cons a l ih => exact ih ((hf t a).step h (List.Subset.refl L))

/-- A function that does not touch the register file. -/
theorem Touches.regs {F : List Field} (k : Touches F t u) (h : RegsWithin L s t) (hF : Field.regs ∉ F := by decide) : RegsWithin L s u :=
  ⟨fun i hi => (k.reg_eq i hF).trans (h.reg_eq i hi)⟩

/-- The leaf blocks of the cause hierarchy. -/
def leaves : List Leaf := [.core, .cluster, .dieCtl, .whip, .knot, .stack, .link, .mod]

theorem Leaf.mem_leaves (l : Leaf) : l ∈ leaves := by cases l <;> decide

theorem RegsWithin.bitsStay (k : RegsWithin L s t) (q : Part) (h : ∀ l ∈ leaves, l.status ∉ L := by decide) : BitsStay (statusOf q) s t :=
  .of_reg_eq (k.reg_eq _ (h _ (Leaf.mem_leaves _)))

end

section

variable (s : State) (n : RegName) (p : Part) (i : Nat)

theorem regsWithin_setReg (v : W64) : RegsWithin [n] s (s.setReg (rid n p i) v) :=
  ⟨fun j hj => State.reg_setReg_ne _ _ _ _ fun e => hj (by simp [e, rid])⟩

theorem regsWithin_setRegFld (hi lo v : Nat) : RegsWithin [n] s (s.setRegFld (rid n p i) hi lo v) := regsWithin_setReg ..

theorem regsWithin_bump (k : Nat) : RegsWithin [n] s (s.bump (rid n p i) k) :=
  ⟨fun j hj => State.reg_bump_ne _ _ _ _ fun e => hj (by simp [e, rid])⟩

theorem regsWithin_detail (v : W64) : RegsWithin [n] s (s.detail (rid n p i) v) := by
  unfold State.detail
  exact .ite .refl (regsWithin_setReg ..)

end

theorem Sent.regsWithin {s t : State} (h : Sent s t) : RegsWithin [.FLIT_TX_TOTAL] s t := ⟨fun i hi => h.reg i (by simpa using hi)⟩

theorem regsWithin_send (s : State) (m : OutMsg) : RegsWithin [.FLIT_TX_TOTAL] s (s.send m) := (sent_send s m).regsWithin

/-- The registers that raising any cause may write. -/
def causeNames : List RegName :=
  (leaves.map Leaf.status ++ leaves.map Leaf.count) ++ [.CHAFE, .CHAFE_HEAD, .CHAFE_OVF_TOTAL, .FLIT_TX_TOTAL]

theorem name_mem_causeNames {p : Part} {b : Nat} {i : RegId} (h : causeReg p b i) : i.name ∈ causeNames := by
  have hs (l : Leaf) : l.status ∈ causeNames := by cases l <;> decide
  have hc (l : Leaf) : l.count ∈ causeNames := by cases l <;> decide
  rcases h with rfl | rfl | h | h | h | h | h | h
  · exact hs _
  · exact hc _
  all_goals rw [h]; decide

theorem Raised.regsWithin {p : Part} {b : Nat} {s t : State} (h : Raised p b s t) : RegsWithin causeNames s t :=
  ⟨fun i hi => h.reg i fun hc => hi (name_mem_causeNames hc)⟩

theorem regsWithin_raise (s : State) (p : Part) (b ctx : Nat) (det : W64) : RegsWithin causeNames s (s.raise p b ctx det) :=
  (raised_raise ..).regsWithin

theorem regsWithin_fault (s : State) (d : Nat) (ws : List W64) : RegsWithin causeNames s (s.fault d ws) := (raised_fault (.dieCtl 0) 0 ..).regsWithin

theorem regsWithin_raiseFor (s : State) (p : Part) (b : Nat) (ctxs : List Nat) : RegsWithin causeNames s (s.raiseFor p b ctxs) := by
  unfold State.raiseFor
  split
  · exact (raised_raiseWith ..).regsWithin
  · exact .foldl (raised_raiseWith ..).regsWithin fun s _ => regsWithin_fault ..

end Sys2Proof.Machine
end

section
/-! SUPPORT and PROOFS. The step cycle: what entering HELD and ARMED does, and the writes of the step controller (10 R270–R277). -/
set_option Elab.async false -- elaborate in order: side threads each hold a stack of their own

namespace Sys2Proof.Machine

open Sys2Proof.Claims

/- Registers that the moves between HELD and ARMED write. -/

theorem regsWithin_trainLink (s : State) (h : Nat) : RegsWithin [.LINK_STATUS] s (s.trainLink h) := by
  unfold State.trainLink
  exact .ite .refl ((regsWithin_setRegFld ..).step ((touches_setLink ..).regs <| ((touches_dropForwarded ..).regs .refl)))

theorem regsWithin_heldLinks (s : State) : RegsWithin [.LINK_STATUS] s s.heldLinks := by
  unfold State.heldLinks
  exact .foldl .refl fun t h => .ite (regsWithin_trainLink ..) .refl

/-- Entering HELD raises STEP_HELD and retrains links. -/
theorem regsWithin_enterHeld (s : State) : RegsWithin (.LINK_STATUS :: causeNames) s s.enterHeld := by
  unfold State.enterHeld
  exact (regsWithin_heldLinks ..).step <| (regsWithin_raise ..).step <| (touches_onStep ..).regs <| ((touches_unready ..).regs .refl)

theorem regsWithin_castDown (s : State) (m : Nat → OutMsg) : RegsWithin [.FLIT_TX_TOTAL] s (s.castDown m) := by
  unfold State.castDown
  exact .ite .refl (.ite ((regsWithin_send ..).step (regsWithin_send ..)) (regsWithin_send ..))

theorem regsWithin_readyPoll (s : State) : RegsWithin [.FLIT_TX_TOTAL] s s.readyPoll := by
  unfold State.readyPoll
  refine .ite .refl ?_
  dsimp only
  exact .ite ((touches_onStep ..).regs ((regsWithin_castDown ..).step ((touches_onHank ..).regs .refl)))
    ((regsWithin_send ..).step ((touches_onHank ..).regs .refl))

theorem regsWithin_registerReady (s : State) (m : Nat) : RegsWithin [.FLIT_TX_TOTAL] s (s.registerReady m) :=
  (regsWithin_readyPoll ..).step ((touches_onHank ..).regs .refl)

theorem regsWithin_feedPoll (s : State) : RegsWithin [.FLIT_TX_TOTAL] s s.feedPoll := by
  unfold State.feedPoll
  refine .ite .refl ?_
  dsimp only
  exact .ite ((regsWithin_registerReady ..).step ((touches_onStep ..).regs .refl)) ((regsWithin_send ..).step ((touches_onStep ..).regs .refl))

/-- The registers that entering ARMED writes. -/
def armedNames : List RegName := [.TETHER_STATUS, .SCHED_ETA, .REFRESH_CTRL, .REFRESH_HELD_TOTAL]

theorem regsWithin_enterArmed (s : State) : RegsWithin armedNames s s.enterArmed := by
  unfold State.enterArmed
  dsimp only
  refine (touches_set_whips ..).regs <| (touches_capsFresh ..).regs ?_
  refine .step (M := armedNames) (.foldl .refl fun t st => ?_) <| .foldl (.foldl ((touches_onStep ..).regs .refl) fun t n => ?_) fun t st => .foldl .refl fun t p => ?_
  · dsimp only
    exact .ite ((regsWithin_setRegFld ..).step (regsWithin_setRegFld ..).mono)
      ((regsWithin_bump ..).step ((regsWithin_setRegFld ..).step (regsWithin_setRegFld ..).mono))
  · exact (regsWithin_setReg ..).mono
  · exact (regsWithin_setReg ..).mono

/-- The registers that an exit from HELD or a sample writes. -/
def armNames : List RegName := armedNames ++ [.LINK_STATUS, .KEYSEL_STATUS] ++ causeNames

theorem regsWithin_armGo (s : State) : RegsWithin armNames s s.armGo := by
  unfold State.armGo
  dsimp only
  exact .ite ((regsWithin_enterHeld ..).step <| (touches_holdReady ..).regs <| (touches_onStep ..).regs (regsWithin_enterArmed ..).mono)
    ((regsWithin_feedPoll ..).step (regsWithin_enterArmed ..).mono)

theorem regsWithin_keyRebuild (s : State) : RegsWithin (.KEYSEL_STATUS :: causeNames) s s.keyRebuild.1 := by
  unfold State.keyRebuild
  dsimp only
  split
  · dsimp only
    exact (regsWithin_raise ..).step (regsWithin_setReg ..).mono
  · dsimp only
    exact (regsWithin_setRegFld ..).step ((touches_set_mem ..).regs .refl)

theorem regsWithin_arm (s : State) : RegsWithin armNames s s.arm := by
  unfold State.arm
  dsimp only
  exact .ite (regsWithin_keyRebuild ..).mono ((regsWithin_armGo ..).step (regsWithin_keyRebuild ..).mono)

theorem regsWithin_armTry (s : State) : RegsWithin armNames s s.armTry := by
  unfold State.armTry
  exact .ite (regsWithin_arm ..) .refl

/- What these moves do to the step controller. -/

theorem State.step_raise (s : State) (p : Part) (b ctx : Nat) (det : W64) : ∃ f, (s.raise p b ctx det).step = { s.step with fault := f } := by
  rcases (raised_raise s p b ctx det).step with e | e
  · exact ⟨s.step.fault, e⟩
  · exact ⟨true, e⟩

theorem State.step_enterHeld (s : State) : ∃ f, s.enterHeld.step = { s.step with state := .held, tick := none, aborting := false, fault := f } := by
  obtain ⟨f, e⟩ := State.step_raise (s.unready.onStep fun c => { c with state := .held, tick := none, aborting := false }) .module 3 0 0
  exact ⟨f, (touches_heldLinks ..).step_eq.trans e⟩

theorem State.state_enterHeld (s : State) : s.enterHeld.step.state = .held := by
  obtain ⟨f, e⟩ := s.step_enterHeld
  rw [e]

theorem State.attempt_enterHeld (s : State) : s.enterHeld.step.attempt = s.step.attempt := by
  obtain ⟨f, e⟩ := s.step_enterHeld
  rw [e]

/-- A step controller that has noted or sent a READY. -/
structure Polled (s t : State) : Prop where
  step : ∃ r k, t.step = { s.step with readySent := r, tick := k }

theorem Polled.of_step_eq {s t : State} (h : t.step = s.step) : Polled s t := ⟨s.step.readySent, s.step.tick, h⟩

theorem Polled.trans {s t u : State} (h : Polled s t) (k : Polled t u) : Polled s u := by
  obtain ⟨r, i, e⟩ := h.step
  obtain ⟨r', i', e'⟩ := k.step
  exact ⟨r', i', by rw [e', e]⟩

theorem polled_tick (s : State) (k : Option Nat) : Polled s (s.onStep fun c => { c with tick := k }) := ⟨s.step.readySent, k, rfl⟩

theorem polled_ready (s : State) (r : Bool) : Polled s (s.onStep fun c => { c with readySent := r }) := ⟨r, s.step.tick, rfl⟩

theorem polled_readyPoll (s : State) : Polled s s.readyPoll := by
  unfold State.readyPoll
  dsimp only
  split
  · exact .of_step_eq rfl
  · split
    · refine .trans (.of_step_eq ?_) (polled_tick ..)
      rw [(touches_castDown ..).step_eq]
      rfl
    · exact .of_step_eq (touches_send ..).step_eq

theorem polled_registerReady (s : State) (m : Nat) : Polled s (s.registerReady m) := by
  unfold State.registerReady
  exact .trans (.of_step_eq (touches_onHank ..).step_eq) (polled_readyPoll _)

theorem polled_feedPoll (s : State) : Polled s s.feedPoll := by
  unfold State.feedPoll
  dsimp only
  split
  · exact .of_step_eq rfl
  · refine .trans (polled_ready s true) ?_
    split
    · exact polled_registerReady ..
    · exact .of_step_eq (touches_send ..).step_eq

/-- The step controller in ARMED (R270). -/
def StepCtl.armed (c : StepCtl) (clock : Nat) : StepCtl :=
  { c with state := .armed, armedAt := clock, fault := false, slack := false, rejected := false, veto := false, tnr := 0
           readySent := false, summarySent := false, mirrorSent := false, mirrorOut := 0, tick := none, aborting := false, maint := false }

theorem State.step_enterArmed (s : State) : s.enterArmed.step = s.step.armed s.clock := by
  unfold State.enterArmed
  dsimp only
  rw [(touches_capsFresh _).step_eq, (touches_refreshArm _).step_eq, (touches_schedAll _).step_eq,
    (Touches.foldl .refl fun t n => touches_setReg t (coreR .TETHER_STATUS n) 0).step_eq]
  rfl

/-- Entry into ARMED with no hold to obey: the controller is armed, and READY may have been noted. -/
theorem State.step_armGo (s : State) (h : s.step.holdTick = none) :
    ∃ r k, s.armGo.step = { s.step.armed s.clock with readySent := r, tick := k } := by
  unfold State.armGo
  dsimp only
  rw [if_neg (by rw [s.step_enterArmed, StepCtl.armed, h]; simp)]
  obtain ⟨r, k, e⟩ := (polled_feedPoll s.enterArmed).step
  exact ⟨r, k, by rw [e, s.step_enterArmed]⟩

theorem State.step_keyRebuild (s : State) (h : s.keyRebuild.2 = true) : s.keyRebuild.1.step = s.step := by
  revert h
  unfold State.keyRebuild
  dsimp only
  split
  · exact fun h => nomatch h
  · exact fun _ => rfl

theorem State.canRun_run {s : State} (h : s.canRun = true) : bit (s.reg (modR .STEP_CTRL)) 0 = true := by
  simp only [State.canRun, Bool.and_eq_true] at h
  exact h.1.1.1.1.1.1.1

/-- With RUN clear the module stays in HELD. -/
theorem State.armTry_of_off {s : State} (h : bit (s.reg (modR .STEP_CTRL)) 0 = false) : s.armTry = s := by
  refine if_neg fun h' => ?_
  rw [State.canRun_run (by simp only [Bool.and_eq_true] at h'; exact h'.2)] at h
  exact nomatch h

theorem State.armTry_of_not_held {s : State} (h : s.step.state ≠ .held) : s.armTry = s := by
  simp [State.armTry, State.isHeld, h]

/- Settling the writes. -/

theorem run_off_armed {s : State} (h : s.step.state = .armed) (ha : s.step.aborting = false) :
    ∃ t, exec (.run false) s = .next t ∧ t.step.state = .held ∧ bit (t.reg (modR .STEP_CTRL)) 0 = false ∧ t.hbm = s.hbm ∧ t.scratch = s.scratch ∧
      t.step.attempt = s.step.attempt := by
  have k := touches_enterHeld (s.setRegFld (modR .STEP_CTRL) 0 0 0)
  refine ⟨(s.setRegFld (modR .STEP_CTRL) 0 0 0).enterHeld, ?_, State.state_enterHeld _, ?_, k.hbm_eq, k.scratch_eq, State.attempt_enterHeld _⟩
  · change execRun false s = _
    simp [execRun, State.runWrite, b01, h, ha]
  · rw [(regsWithin_enterHeld _).reg_eq _ (by decide), State.reg_setRegFld_same, bit_setFld_zero (by decide)]

theorem run_on_held {s : State} (h : s.step.state = .held) (hf : s.step.faultHeld = false) (hl : s.load = none)
    (hrun : (s.setRegFld (modR .STEP_CTRL) 0 0 1).canRun = true) (hkey : (s.setRegFld (modR .STEP_CTRL) 0 0 1).keyRebuild.2 = true) (hhold : s.step.holdTick = none) :
    ∃ t, exec (.run true) s = .next t ∧ t.step.state = .armed ∧ t.step.fault = false ∧ t.step.attempt = s.step.attempt ∧ t.hbm = s.hbm := by
  have hstep := (s.setRegFld (modR .STEP_CTRL) 0 0 1).step_keyRebuild hkey
  have hgo : (s.setRegFld (modR .STEP_CTRL) 0 0 1).arm = (s.setRegFld (modR .STEP_CTRL) 0 0 1).keyRebuild.1.armGo := by simp [State.arm, hkey]
  refine ⟨(s.setRegFld (modR .STEP_CTRL) 0 0 1).arm, ?_, ?_⟩
  · change execRun true s = _
    simp [execRun, State.runWrite, b01, State.armTry, State.isHeld, h, hf, hl, hrun]
  · obtain ⟨r, k, e⟩ := (s.setRegFld (modR .STEP_CTRL) 0 0 1).keyRebuild.1.step_armGo (by rw [hstep]; exact hhold)
    rw [hgo, e, hstep]
    exact ⟨rfl, rfl, rfl, ((touches_armGo ..).hbm_eq).trans (touches_keyRebuild (s.setRegFld (modR .STEP_CTRL) 0 0 1)).hbm_eq⟩

/-- A re-issue in a resting module: ATTEMPT rises and FAULT_HELD clears (R277). -/
theorem State.reissueApply_of_resting {s : State} (h : bit (s.reg (modR .STEP_CTRL)) 0 = false) :
    s.reissueApply = (s.onStep fun c => { c with attempt := c.attempt + 1, faultHeld := false }).hankClear := State.armTry_of_off h

theorem reissue_resting {s : State} (hf : s.step.faultHeld = true) (ha : s.step.attempt < 65535) (hr : resting s) :
    ∃ t, exec .reissue s = .next t ∧ t.step.attempt = s.step.attempt + 1 ∧ t.step.faultHeld = false ∧ t.step.state = .held ∧
      t.reg (modR .LOGLINE) = s.reg (modR .LOGLINE) := by
  obtain ⟨hheld, hoff⟩ := hr
  have hk : ∃ u, s.reissueWrite = u.reissueApply ∧ u.step = s.step ∧ RegsWithin [.FLIT_TX_TOTAL] s u := by
    rw [State.reissueWrite, if_neg (by simp [hf]; omega)]
    dsimp only
    split
    · exact ⟨_, rfl, (touches_castDown ..).step_eq, (touches_onHank ..).regs (regsWithin_castDown ..)⟩
    · exact ⟨_, rfl, rfl, .refl⟩
  obtain ⟨u, he, hu, hregs⟩ := hk
  rw [State.reissueApply_of_resting (by rw [hregs.reg_eq _ (by decide)]; exact hoff)] at he
  refine ⟨_, congrArg Host.Outcome.next he, ?_⟩
  simp only [State.hankClear, State.onStep, State.onHank, hu]
  exact ⟨trivial, trivial, hheld, hregs.reg_eq _ (by decide)⟩

/-- Settles O37. -/
theorem stepControls : Obligations.StepControls := by
  intro s
  refine ⟨run_off_armed, fun h => ?_, fun h => ?_, run_on_held, fun v h => ?_, fun h => ?_, reissue_resting⟩
  · change execRun false s = _
    simp [execRun, State.runWrite, b01, h]
  · change execRun true s = _
    rw [execRun, State.runWrite, if_pos rfl, State.armTry_of_not_held (by exact h)]
    rfl
  · exact congrArg Host.Outcome.next (State.armTry_of_not_held (by exact h))
  · change execReissue s = _
    rw [execReissue, State.reissueWrite, if_pos (by simpa using h)]

end Sys2Proof.Machine
end

section
/-! PROOFS. Loads of images and route sections (10 R262, R263; 13 R361). -/
set_option Elab.async false -- elaborate in order: side threads each hold a stack of their own

namespace Sys2Proof.Machine

open Sys2Proof.Claims

theorem regsWithin_setLinkState (s : State) (h v : Nat) : RegsWithin [.LINK_STATUS] s (s.setLinkState h v) := regsWithin_setRegFld ..

theorem regsWithin_loadLink (s : State) (h : Nat) (ws : List W64) (newJob : Bool) :
    RegsWithin [.LINK_STATUS, .LANE_CTRL, .ENC_STATUS] s (s.loadLink h ws newJob) := by
  unfold State.loadLink
  have h2 (a b : Nat) : RegsWithin [.LINK_STATUS, .LANE_CTRL, .ENC_STATUS] s
      (((s.setLink h { s.link h with words := ws }).setRegFld (linkR .LANE_CTRL h) 1 0 a).setRegFld (linkR .LANE_CTRL h) 3 2 b) :=
    (regsWithin_setRegFld ..).step <| (regsWithin_setRegFld ..).step ((touches_setLink ..).regs .refl)
  dsimp only
  refine .ite ((regsWithin_setLinkState ..).step <| (touches_setLink ..).regs <| (touches_dropForwarded ..).regs ?_)
    (.ite ?_ ((regsWithin_trainLink ..).step ?_))
  all_goals exact (regsWithin_setRegFld ..).step (.ite ((regsWithin_setRegFld ..).step (h2 ..)) (h2 ..))

/-- The registers that a good image writes, beside LOGLINE, IMAGE_MEAS and the totals that it clears. -/
def installNames : List RegName := [.REG, .KEEP_RING, .KNOT_TIMEOUT, .REL_STATUS, .MBOX_COMMIT, .LINK_STATUS, .LANE_CTRL, .ENC_STATUS]

theorem regsWithin_loadMemory (s : State) (b : List Byte) : RegsWithin [.REG] s (s.loadMemory b) := by
  unfold State.loadMemory
  exact .foldl ((touches_set_mem ..).regs .refl) fun t i => (regsWithin_setRegFld ..).step ((touches_settleTokens ..).regs .refl)

theorem regsWithin_loadCore (s : State) (l : List ImgSec) (n : Nat) : RegsWithin [.KEEP_RING] s (s.loadCore l n) := by
  unfold State.loadCore
  exact .foldl ((touches_setCore ..).regs .refl) fun t k => regsWithin_setReg ..

theorem regsWithin_loadKnots (s : State) (l : List ImgSec) (d : Nat) : RegsWithin [.KNOT_TIMEOUT] s (s.loadKnots l d) := by
  unfold State.loadKnots
  exact .foldl ((touches_setKnot ..).regs .refl) fun t k => regsWithin_setReg ..

theorem regsWithin_clearFailed (s : State) (d : Nat) (f : Nat × Nat → Bool) : RegsWithin [.REL_STATUS] s (s.clearFailed d f) :=
  (regsWithin_setRegFld ..).step ((touches_onRel ..).regs .refl)

theorem regsWithin_loadMboxes (s : State) (start : Nat) : RegsWithin [.MBOX_COMMIT] s (s.loadMboxes start) := by
  unfold State.loadMboxes
  exact .foldl .refl fun t p => regsWithin_setReg ..

theorem regsWithin_loadLinks (s : State) (l : List ImgSec) (newJob : Bool) : RegsWithin [.LINK_STATUS, .LANE_CTRL, .ENC_STATUS] s (s.loadLinks l newJob) := by
  unfold State.loadLinks
  exact .foldl .refl fun t h => regsWithin_loadLink ..

theorem regsWithin_putWords (s : State) (n : RegName) (ws : List W64) : RegsWithin [n] s (s.putWords n ws) := by
  unfold State.putWords
  exact .foldl .refl fun t p => regsWithin_setReg ..

theorem State.reg_clearTotals (s : State) (i : RegId) (h : imageTotal i.name = false) : s.clearTotals.reg i = s.reg i := by
  simp only [State.reg, State.clearTotals]
  congr 1
  generalize s.regs = l
  induction l with
  | nil => rfl
  | cons p l ih =>
    obtain ⟨k, v⟩ := p
    rw [List.filter_cons]
    split
    · simp only [regLook, ih]
    · next hk =>
      have : k ≠ i := by rintro rfl; simp [h] at hk
      rw [ih, regLook, if_neg this]

/-- What a good image puts in force in the step controller (R263). -/
structure Installed (s : State) (j : LoadJob) (t : State) : Prop where
  job : t.job = jobOf (secBytes j.secs 1 0xFFFF)
  plan : t.plan = planOf (secBytes j.secs 2 0xFFFF)
  step : t.step = { s.step with attempt := 0, faultHeld := false, imageValid := true, ran := false, holdTick := none, fault := false }
  ctrl : t.reg (modR .STEP_CTRL) = s.reg (modR .STEP_CTRL)

theorem Installed.of_touches {s t u : State} {j : LoadJob} {F : List Field} (h : Installed s j t) (k : Touches F t u) (r : RegsWithin installNames t u)
    (hF : .job ∉ F ∧ .plan ∉ F ∧ .step ∉ F := by decide) : Installed s j u where
  job := (k.job_eq hF.1).trans h.job
  plan := (k.plan_eq hF.2.1).trans h.plan
  step := (k.step_eq hF.2.2).trans h.step
  ctrl := (r.reg_eq _ (by decide)).trans h.ctrl

theorem installed_install (s : State) (j : LoadJob) : Installed s j (s.install j) := by
  unfold State.install
  extract_lets l jb job start newJob route s1 s2 s3 s4 s5 s6 s7 s8 s9 s10
  have h5 : Installed s j s5 := by
    refine ⟨(touches_putWords ..).job_eq, (touches_putWords ..).plan_eq, (touches_putWords ..).step_eq, ?_⟩
    rw [(regsWithin_putWords ..).reg_eq _ (by decide)]
    exact (State.reg_setReg_ne _ _ _ _ (by decide)).trans (State.reg_clearTotals s _ (by decide))
  have h6 : Installed s j s6 := h5.of_touches (touches_loadMemory ..) (regsWithin_loadMemory ..).mono
  have h7 : Installed s j s7 := by
    simp only [s7]
    exact h6.of_touches (F := [.regs, .cores]) (.foldl .refl fun t n => touches_loadCore ..) (.foldl .refl fun t n => (regsWithin_loadCore ..).mono)
  have h8 : Installed s j s8 := h7.of_touches (F := [.regs, .knots]) (.step (touches_loadKnots ..) (touches_loadKnots ..).mono)
    ((regsWithin_loadKnots ..).step (regsWithin_loadKnots ..).mono)
  have h9 : Installed s j s9 := by
    simp only [s9]
    exact h8.of_touches (touches_set_whips_caps ..) ((touches_set_whips_caps ..).regs .refl)
  have h10 : Installed s j s10 := h9.of_touches (F := [.regs, .rel]) (.foldl .refl fun t d => (touches_clearFailed ..).mono)
    (.foldl .refl fun t d => (regsWithin_clearFailed ..).mono)
  exact h10.of_touches (F := [.regs, .links]) (.step (touches_loadLinks ..) (touches_loadMboxes ..).mono)
    ((regsWithin_loadLinks ..).step (regsWithin_loadMboxes ..).mono)

/- The end of a load. -/

theorem State.status_loadEnd (s : State) (code sec : Nat) : (s.loadEnd code sec).reg (modR .IMG_LOAD_STATUS) = w64 (code + sec * 2 ^ 32) := by
  unfold State.loadEnd
  dsimp only
  split
  · exact State.reg_setReg_same ..
  · rw [(regsWithin_raise ..).reg_eq _ (by decide), State.reg_setReg_same]

theorem State.ctrl_loadEnd (s : State) (code sec : Nat) : (s.loadEnd code sec).reg (modR .STEP_CTRL) = setFld (s.reg (modR .STEP_CTRL)) 1 1 0 := by
  have h : ((s.setRegFld (modR .STEP_CTRL) 1 1 0).setReg (modR .IMG_LOAD_STATUS) (w64 (code + sec * 2 ^ 32))).reg (modR .STEP_CTRL) = _ :=
    (State.reg_setReg_ne _ _ _ _ (by decide)).trans (State.reg_setRegFld_same ..)
  unfold State.loadEnd
  dsimp only
  split
  · exact h
  · rw [(regsWithin_raise ..).reg_eq _ (by decide), h]

/-- A load that ends leaves RUN as it was, so that a module with RUN clear stays HELD. -/
theorem State.armTry_loadEnd {s : State} (h : bit (s.reg (modR .STEP_CTRL)) 0 = false) (code sec : Nat) : (s.loadEnd code sec).armTry = s.loadEnd code sec :=
  State.armTry_of_off (by rw [State.ctrl_loadEnd, bit_setFld_disjoint (by decide) (by decide) (by decide), h])

theorem load_refused {s : State} (hl : s.load = none) (h : s.step.state ≠ .held) :
    ∃ t, exec .load s = .next t ∧ t.reg (modR .IMG_LOAD_STATUS) = w64 8 ∧ bit (t.reg (modR .STEP_CTRL)) 1 = false ∧ t.load = none ∧ t.job = s.job ∧
      t.cores = s.cores ∧ bit (t.reg (modR .MODC_STATUS)) 1 = true := by
  have k := touches_loadEnd s 8 0
  refine ⟨s.loadEnd 8 0, ?_, s.status_loadEnd 8 0, ?_, k.load_eq.trans hl, k.job_eq, k.cores_eq, ?_⟩
  · change execLoad s = _
    simp [execLoad, State.loadWrite, hl, State.isHeld, h]
  · rw [State.ctrl_loadEnd, bit_setFld_zero (by decide)]
  · rw [State.loadEnd, if_neg (by decide), if_neg (by decide)]
    exact State.bit_status_raised _ .module (by decide) ..

theorem load_accepted {s : State} (hl : s.load = none) (h : s.step.state = .held) :
    ∃ t, exec .load s = .next t ∧ bit (t.reg (modR .STEP_CTRL)) 1 = true ∧ t.load = some (s.judge (fld (s.reg (modR .IMAGE_BASE)) 47 0)) ∧ t.job = s.job ∧
      t.cores = s.cores ∧ t.hbm = s.hbm := by
  have hw : exec .load s = .next { (s.setRegFld (modR .STEP_CTRL) 1 1 1) with load := some (s.judge (fld (s.reg (modR .IMAGE_BASE)) 47 0)) } := by
    change execLoad s = _
    rw [execLoad, State.loadWrite, if_neg (by simp [hl]), if_neg (by simp [State.isHeld, h])]
  have hreg : (s.setRegFld (modR .STEP_CTRL) 1 1 1).reg (modR .STEP_CTRL) = setFld (s.reg (modR .STEP_CTRL)) 1 1 1 := State.reg_setRegFld_same ..
  exact ⟨_, hw, (congrArg (bit · 1) hreg).trans (bit_setFld_one (by decide) _), rfl, rfl, rfl, rfl⟩

theorem loadDone_bad {s : State} {j : LoadJob} (hl : s.load = some j) (hc : j.code ≠ 0) (hr : resting s) :
    ∃ t, exec .loadDone s = .next t ∧ t.reg (modR .IMG_LOAD_STATUS) = w64 (j.code + j.section_ * 2 ^ 32) ∧ bit (t.reg (modR .STEP_CTRL)) 1 = false ∧
      t.load = none ∧ t.job = s.job ∧ t.plan = s.plan ∧ t.cores = s.cores := by
  have k := touches_loadEnd { s with load := none } j.code j.section_
  refine ⟨_, ?_, State.status_loadEnd _ j.code j.section_, ?_, k.load_eq, k.job_eq, k.plan_eq, k.cores_eq⟩
  · change execLoadDone s = _
    simp only [execLoadDone, hl, if_neg hc]
    exact congrArg _ (State.armTry_loadEnd (s := { s with load := none }) hr.2 ..)
  · rw [State.ctrl_loadEnd, bit_setFld_zero (by decide)]

theorem loadDone_good {s : State} {j : LoadJob} (hl : s.load = some j) (hc : j.code = 0) (hr : resting s) :
    ∃ t, exec .loadDone s = .next t ∧ t.load = none ∧ t.job = jobOf (secBytes j.secs 1 0xFFFF) ∧ t.plan = planOf (secBytes j.secs 2 0xFFFF) ∧
      t.step.attempt = 0 ∧ t.step.imageValid = true ∧ t.step.faultHeld = false ∧ t.reg (modR .IMG_LOAD_STATUS) = 0 ∧ t.hbm = s.hbm := by
  have h := installed_install { s with load := none } j
  have ki := touches_install { s with load := none } j
  have k : Touches [.regs] (State.install { s with load := none } j) ((State.install { s with load := none } j).loadEnd 0 0) :=
    .step (touches_setReg ..) (touches_setRegFld ..)
  refine ⟨(State.install { s with load := none } j).loadEnd 0 0, ?_, k.load_eq.trans ki.load_eq, k.job_eq.trans h.job, k.plan_eq.trans h.plan, ?_, ?_, ?_,
    State.status_loadEnd _ 0 0, k.hbm_eq.trans ki.hbm_eq⟩
  · change execLoadDone s = _
    simp only [execLoadDone, hl, if_pos hc]
    exact congrArg _ (State.armTry_loadEnd (by rw [h.ctrl]; exact hr.2) ..)
  all_goals rw [k.step_eq, h.step]

/-- Settles O38. -/
theorem loads : Obligations.Loads := by
  intro s
  refine ⟨fun h => ?_, load_refused, load_accepted, fun h => ?_, fun j hl hc _ hr => loadDone_bad hl hc hr, fun j => loadDone_good, fun v hv => ?_, fun v hv h => ?_⟩
  · change execLoad s = _
    rw [execLoad, State.loadWrite, if_pos h]
  · change execLoadDone s = _
    rw [execLoadDone, h]
  · change execRouteLoad v s = _
    simp [execRouteLoad, State.routeCtrl, hv]
  · change execRouteLoad v s = _
    simp [execRouteLoad, State.routeCtrl, State.routeLoad, hv, State.isHeld, h]

end Sys2Proof.Machine
end

section
/-! SUPPORT. Operations that only mark: the step controller keeps its course, and STATUS bits that are set stay set. Among them everything that the knot stores do for remote operations, which also leaves the cores alone while no core waits at the store (11 R289, R293, R294). -/
set_option Elab.async false -- elaborate in order: side threads each hold a stack of their own

namespace Sys2Proof.Machine

/-- The step controller but for what a step record notes of its step (10 R278). -/
def StepCtl.course (c : StepCtl) : StepCtl := { c with fault := false, slack := false, rejected := false, veto := false, tnr := 0 }

/-- The controller keeps its course, no register outside L changes, and no STATUS bit is cleared. -/
structure Marks (L : List RegName) (s t : State) : Prop where
  course : t.step.course = s.step.course
  regs : RegsWithin L s t
  bits : ∀ q, BitsStay (statusOf q) s t

section

variable {L M : List RegName} {s t u : State}

theorem Marks.refl : Marks L s s := ⟨rfl, .refl, fun _ => .refl ..⟩

theorem Marks.step (k : Marks M t u) (h : Marks L s t) (hM : M ⊆ L := by decide) : Marks L s u :=
  ⟨k.course.trans h.course, k.regs.step h.regs hM, fun q => (h.bits q).trans (k.bits q)⟩

theorem Marks.mono (k : Marks M s t) (hM : M ⊆ L := by decide) : Marks L s t := k.step .refl hM

theorem Marks.ite {c : Prop} [Decidable c] (h : Marks L s t) (k : Marks L s u) : Marks L s (if c then t else u) := by
  split <;> assumption

theorem Marks.foldl {α : Type} {f : State → α → State} {l : List α} (h : Marks L s t) (hf : ∀ t a, Marks L t (f t a)) : Marks L s (l.foldl f t) := by
  induction l generalizing t with
  | nil => exact h
  | cons a l ih => exact ih ((hf t a).step h (List.Subset.refl L))

theorem Marks.state (k : Marks L s t) : t.step.state = s.step.state :=
  show t.step.course.state = s.step.course.state from congrArg _ k.course
theorem Marks.attempt (k : Marks L s t) : t.step.attempt = s.step.attempt :=
  show t.step.course.attempt = s.step.course.attempt from congrArg _ k.course
theorem Marks.aborting (k : Marks L s t) : t.step.aborting = s.step.aborting :=
  show t.step.course.aborting = s.step.course.aborting from congrArg _ k.course
theorem Marks.reg_eq (k : Marks L s t) (i : RegId) (h : i.name ∉ L := by decide) : t.reg i = s.reg i := k.regs.reg_eq i h

/-- Registers other than STATUS written, with the controller as it is. -/
theorem RegsWithin.marks (k : RegsWithin L s t) (e : t.step = s.step) (h : ∀ l ∈ leaves, l.status ∉ L := by decide) : Marks L s t :=
  ⟨by rw [e], k, fun q => k.bitsStay q h⟩

/-- Neither registers nor the controller touched. -/
theorem Touches.marks {F : List Field} (k : Touches F t u) (h : Marks L s t) (hr : Field.regs ∉ F := by decide) (hs : Field.step ∉ F := by decide) : Marks L s u :=
  ⟨(congrArg StepCtl.course (k.step_eq hs)).trans h.course, k.regs h.regs hr, fun q => (h.bits q).trans (.of_reg_eq (k.reg_eq _ hr))⟩

end

section

variable (s : State)

theorem marks_setReg (n : RegName) (p : Part) (i : Nat) (v : W64) (h : ∀ l ∈ leaves, l.status ∉ [n] := by decide) : Marks [n] s (s.setReg (rid n p i) v) :=
  (regsWithin_setReg ..).marks rfl h

theorem marks_setRegFld (n : RegName) (p : Part) (i hi lo v : Nat) (h : ∀ l ∈ leaves, l.status ∉ [n] := by decide) :
    Marks [n] s (s.setRegFld (rid n p i) hi lo v) := (regsWithin_setRegFld ..).marks rfl h

theorem marks_bump (n : RegName) (p : Part) (i k : Nat) (h : ∀ l ∈ leaves, l.status ∉ [n] := by decide) : Marks [n] s (s.bump (rid n p i) k) :=
  (regsWithin_bump ..).marks (touches_bump ..).step_eq h

theorem marks_detail (n : RegName) (p : Part) (i : Nat) (v : W64) (h : ∀ l ∈ leaves, l.status ∉ [n] := by decide) : Marks [n] s (s.detail (rid n p i) v) :=
  (regsWithin_detail ..).marks (touches_detail ..).step_eq h

theorem marks_send (m : OutMsg) : Marks [.FLIT_TX_TOTAL] s (s.send m) := (regsWithin_send ..).marks (touches_send ..).step_eq

theorem Raised.marks {p : Part} {b : Nat} {s t : State} (h : Raised p b s t) (hb : ∀ q, BitsStay (statusOf q) s t) : Marks causeNames s t :=
  ⟨h.step.elim (congrArg _) fun e => by rw [e]; rfl, h.regsWithin, hb⟩

theorem marks_raiseWith (p : Part) (b ctx : Nat) (det : W64) (f : Bool) : Marks causeNames s (s.raiseWith p b ctx det f) :=
  (raised_raiseWith ..).marks fun _ => bitsStay_raiseWith ..

theorem marks_raise (p : Part) (b ctx : Nat) (det : W64) : Marks causeNames s (s.raise p b ctx det) := marks_raiseWith ..

theorem marks_fault (d : Nat) (ws : List W64) : Marks causeNames s (s.fault d ws) := (raised_fault (.dieCtl 0) 0 ..).marks fun _ => bitsStay_fault ..

theorem marks_raiseFor (p : Part) (b : Nat) (ctxs : List Nat) : Marks causeNames s (s.raiseFor p b ctxs) := by
  unfold State.raiseFor
  split
  · exact marks_raiseWith ..
  · exact .foldl (marks_raiseWith ..) fun s _ => marks_fault ..

theorem marks_timingNr (m : Nat) : Marks causeNames s (s.timingNr m) := by
  unfold State.timingNr
  exact .foldl ⟨rfl, ⟨fun _ _ => rfl⟩, fun _ => bitsStay_step ..⟩ fun t _ => marks_raise ..

theorem marks_tnrNow (m : Nat) : Marks causeNames s (s.tnrNow m) := .ite (marks_timingNr ..) .refl

end

/- Remote operations at a knot store. -/

/-- No core's operation is pending at die d's store. -/
def NoCoreWaits (s : State) (d : Nat) : Prop := ∀ p ∈ (s.knot d).pend, ∀ n, p.src ≠ .core n

/-- The registers that a knot store writes. -/
def storeNames : List RegName :=
  [.KNOT_ERR_DETAIL, .TIE_TOTAL, .TAKE_TOTAL, .BARRIER_STALL_TOTAL, .REDUNDANT_TIE_TOTAL, .REDUNDANT_UNTIE_TOTAL, .REMOTE_STALE_TOTAL, .REMOTE_RECV_TOTAL] ++ causeNames

/-- What die d's store does for operations that no core has pending. -/
structure Served (d : Nat) (s t : State) : Prop where
  marks : Marks storeNames s t
  cores : NoCoreWaits s d → t.cores = s.cores
  calm : ∀ e, NoCoreWaits s d → NoCoreWaits s e → NoCoreWaits t e

section

variable {d : Nat} {s t u : State}

theorem Served.refl : Served d s s := ⟨.refl, fun _ => rfl, fun _ _ h => h⟩

theorem Served.trans (k : Served d t u) (h : Served d s t) : Served d s u where
  marks := k.marks.step h.marks
  cores hc := (k.cores (h.calm d hc hc)).trans (h.cores hc)
  calm e hd he := k.calm e (h.calm d hd hd) (h.calm e hd he)

theorem Served.ite {c : Prop} [Decidable c] (h : Served d s t) (k : Served d s u) : Served d s (if c then t else u) := by
  split <;> assumption

theorem Served.foldl {α : Type} {f : State → α → State} {l : List α} (h : Served d s t) (hf : ∀ t a, Served d t (f t a)) : Served d s (l.foldl f t) := by
  induction l generalizing t with
  | nil => exact h
  | cons a l ih => exact ih ((hf t a).trans h)

/-- Marks that touch neither cores nor stores. -/
theorem Marks.served {L : List RegName} {F : List Field} (m : Marks L s t) (k : Touches F s t) (hL : L ⊆ storeNames := by decide)
    (hF : Field.cores ∉ F ∧ Field.knots ∉ F := by decide) : Served d s t where
  marks := m.mono hL
  cores _ := k.cores_eq hF.1
  calm e _ he := by rwa [NoCoreWaits, State.knot, k.knots_eq hF.2]

theorem served_bump (n : RegName) (p : Part) (i k : Nat) (h : ∀ l ∈ leaves, l.status ∉ [n] := by decide) (hn : [n] ⊆ storeNames := by decide) :
    Served d s (s.bump (rid n p i) k) := (marks_bump s n p i k h).served (touches_bump ..) hn

/-- A store written, with no core's operation new in its list. -/
theorem served_setKnot {k : KnotStore} (h : ∀ p ∈ k.pend, (∀ n, p.src ≠ .core n) ∨ p ∈ (s.knot d).pend) : Served d s (s.setKnot d k) where
  marks := (touches_setKnot ..).marks .refl
  cores _ := rfl
  calm e hd he := by
    rw [NoCoreWaits, State.knot_setKnot]
    split
    · exact fun p hp => (h p hp).elim id (hd p)
    · exact he

/-- Outside the list of pending operations. -/
theorem served_setKnot_pend {k : KnotStore} (h : k.pend = (s.knot d).pend) : Served d s (s.setKnot d k) := served_setKnot fun _ hp => .inr (h ▸ hp)

theorem served_dropPend (p : KnotPend) : Served d s (s.dropPend d p) := served_setKnot fun _ hp => .inr (List.mem_of_mem_erase hp)

theorem served_putKnot (phys : Nat) (tied : Bool) (c : Option Nat) : Served d s (s.putKnot d phys tied c) := served_setKnot_pend rfl

theorem served_addPend {p : KnotPend} (h : ∀ n, p.src ≠ .core n) : Served d s (s.addPend d p) :=
  served_setKnot fun _ hq => (List.mem_append.mp hq).elim .inr fun hq => .inl (List.mem_singleton.mp hq ▸ h)

theorem served_releaseSrc {p : KnotPend} (h : ∀ n, p.src ≠ .core n) : Served d s (s.releaseSrc p) := by
  unfold State.releaseSrc
  split
  · next n hp => exact absurd hp (h n)
  · exact ((touches_onCap ..).marks .refl : Marks [] s _).served (touches_onCap ..)
  · exact .refl

/-- It is enough to look at a store where no core waits, if the marks hold anyway. -/
theorem Served.of_calm (m : Marks storeNames s t) (h : NoCoreWaits s d → Served d s t) : Served d s t where
  marks := m
  cores hc := (h hc).cores hc
  calm e hd := (h hd).calm e hd

theorem marks_releaseSrc (p : KnotPend) : Marks storeNames s (s.releaseSrc p) := (touches_releaseSrc ..).marks .refl

theorem served_releaseWaits (phys : Nat) : Served d s (s.releaseWaits d phys) := by
  refine .of_calm ((touches_releaseWaits ..).marks .refl) fun hc => ?_
  have go (l : List KnotPend) (hl : ∀ p ∈ l, ∀ n, p.src ≠ .core n) (t : State) (h : Served d s t) :
      Served d s (l.foldl (fun s p => (s.dropPend d p).releaseSrc p) t) := by
    induction l generalizing t with
    | nil => exact h
    | cons p l ih =>
      exact ih (fun q hq => hl q (List.mem_cons_of_mem p hq)) _
        ((served_releaseSrc (hl p List.mem_cons_self)).trans ((served_dropPend p).trans h))
  exact go _ (fun p hp => hc p (List.mem_filter.mp hp).1) _ .refl

theorem mem_of_firstPend {l : List KnotPend} {p : KnotPend} (h : firstPend l = some p) : p ∈ l := by
  have go (l : List KnotPend) (b : Option KnotPend) (h : l.foldl (fun best p => match best with
      | none => some p
      | some b => if p.src.rank < b.src.rank then some p else some b) b = some p) : b = some p ∨ p ∈ l := by
    induction l generalizing b with
    | nil => exact .inl h
    | cons q l ih =>
      rcases ih _ h with hb | hp
      · cases b with
        | none => exact .inr (by simp_all)
        | some b =>
          dsimp only at hb
          split at hb
          · exact .inr (by simp_all)
          · exact .inl hb
      · exact .inr (List.mem_cons_of_mem q hp)
  simpa using go l none h

theorem served_settle (n phys : Nat) : Served d s (State.settle n s d phys) := by
  induction n generalizing s with
  | zero => exact .refl
  | succ n ih =>
    have hw : Served d s (s.releaseWaits d phys) := served_releaseWaits phys
    unfold State.settle
    dsimp only
    split
    · split
      · exact hw
      · next p hp =>
        have hp := (List.mem_filter.mp (mem_of_firstPend hp)).1
        refine ih.trans (.trans ?_ hw)
        have hdrop (c : Option Nat) : Served d (s.releaseWaits d phys) (((s.releaseWaits d phys).dropPend d p).putKnot d phys false c) :=
          (served_putKnot ..).trans (served_dropPend p)
        have hput (c : Option Nat) (b : Prop) [Decidable b] : Served d (s.releaseWaits d phys) (if b then ((((s.releaseWaits d phys).dropPend d p).putKnot d phys false c).bump (knotR .TAKE_TOTAL d) 1) else (((s.releaseWaits d phys).dropPend d p).putKnot d phys false c)) :=
          .ite ((served_bump ..).trans (hdrop c)) (hdrop c)
        exact .of_calm ((marks_releaseSrc p).step (hput ..).marks) fun hc => (served_releaseSrc (hc p hp)).trans (hput ..)
    · split
      · exact hw
      · next p hp =>
        have hp := (List.mem_filter.mp (mem_of_firstPend hp)).1
        refine ih.trans (.trans ?_ hw)
        have hput (c : Option Nat) : Served d (s.releaseWaits d phys) ((((s.releaseWaits d phys).dropPend d p).putKnot d phys true c).bump (knotR .TIE_TOTAL d) 1) :=
          (served_bump ..).trans ((served_putKnot ..).trans (served_dropPend p))
        exact .of_calm ((marks_releaseSrc p).step (hput _).marks) fun hc => (served_releaseSrc (hc p hp)).trans (hput _)

theorem served_settleAll (phys : Nat) : Served d s (s.settleAll d phys) := served_settle ..

theorem served_knotDo {src : KSrc} (h : ∀ n, src ≠ .core n) (c k : Nat) (op : KOp) : Served d s (s.knotDo d c k src op).1 := by
  have hadd (o : KOp) (k p : Nat) : Served d s (s.addPend d { src := src, op := o, ctx := c, knot := k, phys := p }) := served_addPend h
  unfold State.knotDo
  extract_lets e ph unit barrier changes pend
  clear_value barrier
  split
  · exact .refl
  · split
    · exact .refl
    · cases op with
      | tie =>
        dsimp only
        split
        · dsimp only
          exact (served_settleAll ..).trans ((served_bump ..).trans (served_putKnot ..))
        · split
          · dsimp only
            exact (served_bump ..).trans (hadd ..)
          · dsimp only
            exact served_bump ..
      | untie =>
        dsimp only
        split
        · dsimp only
          exact (served_settleAll ..).trans (served_putKnot ..)
        · split
          · dsimp only
            exact (served_bump ..).trans (hadd ..)
          · dsimp only
            exact served_bump ..
      | wait =>
        dsimp only
        split
        · exact .refl
        · exact hadd ..
      | waitclr =>
        dsimp only
        split
        · exact hadd ..
        · exact .refl
      | take =>
        dsimp only
        split
        · dsimp only
          exact (served_settleAll ..).trans ((served_bump ..).trans (served_putKnot ..))
        · exact hadd ..

theorem served_knotError (b code ctx core knot idx : Nat) (f : Bool) : Served d s (s.knotError d b code ctx core knot idx f) := by
  unfold State.knotError
  exact ((marks_raiseWith ..).served (touches_raiseWith ..)).trans ((marks_detail ..).served (touches_detail ..))

theorem served_knotAct {src : KSrc} (h : ∀ n, src ≠ .core n) (c k : Nat) (op : KOp) : Served d s (s.knotAct d c k src op) := by
  unfold State.knotAct
  dsimp only
  split
  · exact (served_knotError ..).trans (served_knotDo h ..)
  · exact (served_knotError ..).trans (served_knotDo h ..)
  · exact served_knotDo h ..

theorem served_flushBehind (n : Nat) : Served d s (State.flushBehind n s d) := by
  induction n generalizing s with
  | zero => exact .refl
  | succ n ih =>
    unfold State.flushBehind
    dsimp only
    split
    · exact .refl
    · exact ih.trans ((served_knotAct (fun _ => KSrc.noConfusion) ..).trans (served_setKnot_pend rfl))

theorem served_flush : Served d s (s.flush d) := served_flushBehind _

theorem served_remoteApply (o : RemoteOp) : Served d s (s.remoteApply d o) := by
  unfold State.remoteApply
  exact .ite (served_setKnot_pend rfl) (served_knotAct (fun _ => KSrc.noConfusion) ..)

theorem served_remoteArrive (o : RemoteOp) : Served d s (s.remoteArrive d o).1 := by
  unfold State.remoteArrive
  dsimp only
  split
  · dsimp only
    exact (served_bump ..).trans (served_bump ..)
  · split
    · dsimp only
      exact ((marks_raise ..).served (touches_raise ..)).trans ((served_bump ..).trans (served_bump ..))
    · split
      · dsimp only
        exact served_flush.trans ((served_remoteApply o).trans (served_bump ..))
      · split
        · dsimp only
          exact .trans (t := s.bump (knotR .REMOTE_RECV_TOTAL d) 1) (served_setKnot_pend rfl) (served_bump ..)
        · exact .refl

theorem served_remoteMsg (o : RemoteOp) : Served d s (s.remoteMsg d o) := by
  unfold State.remoteMsg
  exact .ite (served_remoteArrive o) (served_setKnot_pend rfl)

theorem served_queuedOp (o : RemoteOp) : Served d s (s.queuedOp d o) := by
  unfold State.queuedOp
  dsimp only
  exact .ite (served_bump ..) (.ite (((marks_raise ..).served (touches_raise ..)).trans (served_bump ..))
    (.ite (served_flush.trans (served_remoteApply o)) (served_setKnot_pend rfl)))

/-- The queue of remote operations is gone through as a step is entered (R294). -/
theorem served_applyRemoteQueue : Served d s (s.applyRemoteQueue d) := by
  unfold State.applyRemoteQueue State.doorOpen
  exact .foldl (.trans (served_setKnot_pend rfl) (.foldl (served_setKnot_pend rfl) fun t o => served_queuedOp o)) fun t o => served_remoteMsg o

end

end Sys2Proof.Machine
end

section
/-! PROOFS. READY, the tick and the start of a step (10 R270, R271; 13 R355). -/
set_option Elab.async false -- elaborate in order: side threads each hold a stack of their own

namespace Sys2Proof.Machine

open Sys2Proof.Claims

/- RUNNING. -/

theorem ControlCore.start_start (c : ControlCore) : c.start.start = c.start := rfl

/-- Every listed control core starts anew, whichever else is listed. -/
theorem cc_foldl_start (l : List Nat) (s : State) (n : Nat) :
    ((l.foldl (fun s n => s.onCore n Core.start) s).core n).cc = if n ∈ l then (s.core n).cc.start else (s.core n).cc := by
  induction l generalizing s with
  | nil => simp
  | cons m l ih =>
    rw [List.foldl_cons, ih, State.core_onCore]
    by_cases h : n = m
    · subst h
      simp [Core.start, ControlCore.start_start]
    · simp [h]

theorem noCoreWaits_clearStepKnots (s : State) (d : Nat) : NoCoreWaits (s.clearStepKnots d) d := by
  intro p hp n
  rw [State.clearStepKnots, State.knot_setKnot_same] at hp
  have hsrc := (List.mem_filter.mp hp).2
  rw [of_decide_eq_true hsrc]
  exact KSrc.noConfusion

theorem noCoreWaits_clearStepKnots_other {s : State} {d e : Nat} (h : NoCoreWaits s e) (hne : e ≠ d) : NoCoreWaits (s.clearStepKnots d) e := by
  rwa [NoCoreWaits, State.clearStepKnots, State.knot_setKnot, if_neg hne]

theorem NoCoreWaits.of_knots {s t : State} {d : Nat} (h : NoCoreWaits s d) (e : t.knots = s.knots) : NoCoreWaits t d := by
  rwa [NoCoreWaits, State.knot, e]

theorem sent_payCredits (s : State) : Sent s s.payCredits := by
  unfold State.payCredits
  refine foldl_rel Sent.refl Sent.trans _ (fun s h => ?_) _ s
  dsimp only
  split
  · exact .refl s
  · exact (sent_setLink ..).trans (sent_giveCredits ..)

theorem Touches.usedCores_eq {F : List Field} {s t : State} (k : Touches F s t) (hj : Field.job ∉ F := by decide) (hc : Field.ctxs ∉ F := by decide) :
    t.usedCores = s.usedCores := by
  simp only [State.usedCores, State.live, State.ctx, State.ctxOf, k.job_eq hj, k.ctxs_eq hc]
  rfl

/-- The controller enters RUNNING. -/
def runningNow (s : State) : State := s.onStep fun c => { c with state := .running, runAt := s.clock, tick := none }

/-- Entry into RUNNING with a used core: the controller runs, and the control cores of the used cores start anew. -/
structure Started (s t : State) : Prop where
  marks : Marks storeNames (runningNow s) t
  cc : ∀ n, (t.core n).cc = if n ∈ s.usedCores then (s.core n).cc.start else (s.core n).cc

theorem State.started_enterRunning {s : State} (h : s.usedCores ≠ []) : Started s s.enterRunning := by
  unfold State.enterRunning
  extract_lets s1 s2 mem s3 s4 s5 s6
  have t3 : Touches [.knots, .sitePend, .wPend, .mirror, .mem] s1 s3 :=
    .step (touches_set_mem_sitePend_wPend_mirror ..) (.step (touches_clearStepKnots ..) (touches_clearStepKnots ..).mono)
  have t4 : Touches [.cores] s3 s4 := .foldl .refl fun t n => touches_onCore ..
  have hu3 : s3.usedCores = s.usedCores := t3.usedCores_eq
  have wait (e : Nat) (he : e = 0 ∨ e = 1) : NoCoreWaits s5 e := by
    have h2 : NoCoreWaits s2 e := by
      rcases he with rfl | rfl
      · exact noCoreWaits_clearStepKnots_other (noCoreWaits_clearStepKnots s1 0) (by decide)
      · exact noCoreWaits_clearStepKnots (s1.clearStepKnots 0) 1
    exact h2.of_knots ((touches_timingNr ..).knots_eq.trans (t4.knots_eq.trans rfl))
  have k0 : Served 0 s5 (s5.applyRemoteQueue 0) := served_applyRemoteQueue
  have k1 : Served 1 (s5.applyRemoteQueue 0) ((s5.applyRemoteQueue 0).applyRemoteQueue 1) := served_applyRemoteQueue
  have wait1 := k0.calm 1 (wait 0 (.inl rfl)) (wait 1 (.inr rfl))
  have kp : Touches [.out, .regs, .links] ((s5.applyRemoteQueue 0).applyRemoteQueue 1) s6 := touches_payCredits ..
  have hcores : s6.cores = s4.cores :=
    kp.cores_eq.trans <| (k1.cores wait1).trans <| (k0.cores (wait 0 (.inl rfl))).trans (touches_timingNr ..).cores_eq
  have hu6 : s6.usedCores = s.usedCores := by
    have k6 : Touches [.out, .regs, .cores, .knots, .step, .caps, .links] s3 s6 :=
      kp.step (.step (touches_applyRemoteQueue ..) (.step (touches_applyRemoteQueue ..) (.step (touches_timingNr ..) t4.mono)))
    exact k6.usedCores_eq.trans hu3
  rw [if_neg (by simp [hu6, h])]
  refine ⟨?_, fun n => ?_⟩
  · have m3 : Marks storeNames (runningNow s) s4 := t4.marks (t3.marks .refl)
    have m5 : Marks storeNames (runningNow s) s5 := (marks_timingNr ..).step m3
    have m6 : Marks [.FLIT_TX_TOTAL] ((s5.applyRemoteQueue 0).applyRemoteQueue 1) s6 := (sent_payCredits _).regsWithin.marks (sent_payCredits _).step
    exact m6.step (k1.marks.step (k0.marks.step m5))
  · have h4 : (s4.core n).cc = _ := cc_foldl_start s3.usedCores s3 n
    have h3 : s3.core n = s.core n := t3.core_eq n
    rw [State.core, hcores, ← State.core, h4, hu3, h3]

theorem Started.state {s t : State} (h : Started s t) : t.step.state = .running := h.marks.state

/- READY and the tick. -/

theorem State.readyPoll_of_missing {s : State} (h : ∃ x ∈ s.reporters, x ∉ s.hank.ready) : s.readyPoll = s := by
  obtain ⟨x, hx, hr⟩ := h
  refine if_pos ?_
  have : s.reporters.all s.hank.ready.contains = false := by
    simp only [List.all_eq_false]
    exact ⟨x, hx, by simpa using hr⟩
  simp [this]

theorem exec_tick_eq (st a : Nat) (hold : Bool) (e : Nat) {link : Nat} (res : Nat) {s : State} (hl : link < 40) (hrole : s.job.role = 0) (hsb : s.route.standby = false)
    (hnow : s.now st a = true) (harmed : s.step.state = .armed) (hab : s.step.aborting = false) :
    exec (.tick st a hold e link res) s = .next (if hold then s.holdReady.enterHeld
      else if !s.step.readySent then s
      else if s.route.tickDelay ≤ e + (s.reg (linkR .LINK_LATENCY link)).toNat / 1000 then s.tickLate.enterRunning
      else s.onStep fun c => { c with tick := some (e + (s.reg (linkR .LINK_LATENCY link)).toNat / 1000) }) := by
  have hcast (m : Nat → OutMsg) : s.castDown m = s := by simp [State.castDown, hrole]
  change execTick st a hold e link res s = _
  rw [execTick, guardPart, if_pos (by simpa using hl)]
  simp only [State.isRoot, hrole, hsb, hcast, hnow, harmed, hab]
  rfl

theorem marks_tickLate (s : State) : Marks (.TICK_LATE_TOTAL :: causeNames) s s.tickLate :=
  (marks_timingNr ..).step ((marks_raise ..).step (marks_bump ..).mono)

theorem late_tick {s : State} (h : s.usedCores ≠ []) :
    s.tickLate.enterRunning.step.state = .running ∧ s.tickLate.enterRunning.reg (modR .TICK_LATE_TOTAL) = satAdd (s.reg (modR .TICK_LATE_TOTAL)) 1 ∧
      bit (s.tickLate.enterRunning.reg (modR .MODC_STATUS)) 6 = true := by
  have k : Touches [.out, .regs, .step, .links] s s.tickLate := .step (touches_timingNr ..) (.step (touches_raise ..) (touches_bump ..).mono)
  have hu : s.tickLate.usedCores = s.usedCores := k.usedCores_eq
  have hs := State.started_enterRunning (s := s.tickLate) (by rwa [hu])
  refine ⟨hs.state, ?_, ?_⟩
  · rw [hs.marks.reg_eq _ (by decide)]
    change s.tickLate.reg _ = _
    rw [State.tickLate, (marks_timingNr ..).reg_eq _ (by decide), (marks_raise ..).reg_eq _ (by decide), State.reg_bump]
    rfl
  · refine (hs.marks.bits .module).bit 6 (?_ : bit (s.tickLate.reg (modR .MODC_STATUS)) 6 = true)
    exact ((marks_timingNr ..).bits .module).bit 6 (State.bit_status_raised _ .module (by decide) ..)

/-- Settles O39. -/
theorem tickStartsStep : Obligations.TickStartsStep := by
  intro s
  refine ⟨fun m st a h => ?_, fun m st a hm hnow hr hnew hmore => ?_, fun st a hold e link res hl hrole hsb => ?_, fun h => ?_, fun harmed htick hab hu => ?_⟩
  · change execReady m st a s = _
    rw [execReady, if_neg (by simpa [not_and] using fun h1 h2 => by simpa [h1, h2] using h)]
  · change execReady m st a s = _
    rw [execReady, if_pos (by simp [hm, hnow, hr]), State.registerReady, State.readyPoll_of_missing]
    · simp [State.onHank, hnew]
    · obtain ⟨x, hx, hne, hxr⟩ := hmore
      exact ⟨x, hx, by simp [State.onHank, hnew, hne, hxr]⟩
  · intro late hnow harmed hab
    have htick := exec_tick_eq st a hold e res hl hrole hsb hnow harmed hab
    refine ⟨fun hh => ?_, fun hh hsent hlate => ?_, fun hh hsent hlate hu => ?_⟩
    · have k := (touches_enterHeld s.holdReady).step (F := [.out, .regs, .step, .hank, .links]) (touches_holdReady s).mono
      exact ⟨_, htick.trans (by rw [if_pos hh]), State.state_enterHeld _, k.hbm_eq, k.scratch_eq⟩
    · rw [htick, hh, hsent]
      exact congrArg _ (if_neg (Nat.not_le.mpr hlate))
    · refine ⟨_, htick, ?_⟩
      rw [if_neg (by simp [hh]), if_neg (by simp [hsent]), if_pos hlate]
      exact late_tick hu
  · change execEnterRunning s = _
    rw [execEnterRunning, if_neg]
    rintro ⟨h1, h2, h3⟩
    rcases h with h | h | h <;> simp_all
  · have hs := State.started_enterRunning hu
    have k := touches_enterRunning s
    refine ⟨_, ?_, hs.state, k.hbm_eq, k.scratch_eq, fun n hn _ => ?_⟩
    · change execEnterRunning s = _
      rw [execEnterRunning, if_pos ⟨harmed, htick, by simp [hab]⟩]
    · rw [hs.cc, if_pos hn]
      exact ⟨rfl, rfl, rfl, rfl⟩

end Sys2Proof.Machine
end

section
/-! SUPPORT. A maintenance slot only marks: it leaves the controller's course, LOGLINE and MAINT_TOTAL alone (10 R276; 16 R415, R416). -/
set_option Elab.async false -- elaborate in order: side threads each hold a stack of their own

namespace Sys2Proof.Machine

variable (s : State)

/-- The registers that the work of a slot writes, beside MAINT_TOTAL. -/
def slotNames : List RegName :=
  [.ALERT_STATUS, .LANE_CTRL, .LINK_STATUS, .SCR_BANK_SPARE, .REL_STATUS, .PHASE_STATUS, .ENC_STATUS, .KEY_HOLD_TOTAL, .LAY_MIG, .REPAIR_CTRL, .CLK_BOUND, .CLK_HELD_TOTAL] ++ causeNames

theorem marks_chafe (d : Nat) (ws : List W64) : Marks causeNames s (s.chafe d ws) := (raised_chafe (.dieCtl 0) 0 ..).marks fun q => bitsStay_chafe s q d ws

theorem marks_trainLink (h : Nat) : Marks [.LINK_STATUS] s (s.trainLink h) := (regsWithin_trainLink ..).marks (touches_trainLink ..).step_eq

theorem marks_onRel (d : Nat) (f : DieRel → DieRel) : Marks [] s (s.onRel d f) := (touches_onRel ..).marks .refl

/- Repairs. -/

theorem marks_applyRepair (d : Nat) (r : Repair) : Marks slotNames s (s.applyRepair d r) := by
  unfold State.applyRepair
  split
  · exact (marks_setRegFld ..).step ((touches_setMap ..).marks .refl)
  · exact (marks_setRegFld ..).step ((touches_setMap ..).marks .refl)
  · exact .ite ((marks_setRegFld ..).step (marks_setRegFld ..).mono) ((marks_setRegFld ..).step (marks_setRegFld ..).mono)
  · exact (touches_onRel ..).marks .refl
  · exact (touches_failChannel ..).marks .refl
  · exact (marks_setRegFld ..).step ((marks_setRegFld ..).step (marks_setRegFld ..).mono)
  · exact (touches_set_mem ..).marks .refl
  · exact (marks_setRegFld ..).step (marks_setRegFld ..).mono
  · exact .refl

theorem marks_commitRepair (d : Nat) (r : Repair) : Marks slotNames s (s.commitRepair d r) := by
  unfold State.commitRepair
  exact (marks_onRel ..).step ((marks_chafe ..).step (marks_applyRepair ..))

theorem marks_clearFailed (d : Nat) (f : Nat × Nat → Bool) : Marks [.REL_STATUS] s (s.clearFailed d f) :=
  (regsWithin_clearFailed ..).marks (touches_clearFailed ..).step_eq

theorem marks_bringSpare (d : Nat) (m : Mark) : Marks slotNames s (s.bringSpare d m) := by
  unfold State.bringSpare
  split
  · exact .foldl ((marks_clearFailed ..).step (marks_commitRepair ..)) fun t k => (touches_wipeScratch ..).marks .refl
  · exact (touches_wipeScratch ..).marks (marks_commitRepair ..)
  · exact marks_commitRepair ..
  · exact marks_commitRepair ..
  · exact marks_commitRepair ..

theorem marks_slotSpares (d : Nat) : Marks slotNames s (s.slotSpares d) := by
  unfold State.slotSpares
  exact .foldl (marks_onRel ..).mono fun t k => .foldl .refl fun t m => marks_bringSpare ..

theorem marks_otpPairs (d : Nat) (v : W64) (l : List Nat) : Marks causeNames s (s.otpPairs d v l).1 := by
  induction l generalizing s with
  | nil =>
    unfold State.otpPairs
    dsimp only
    exact marks_raise ..
  | cons i l ih =>
    unfold State.otpPairs
    dsimp only
    split
    · exact (ih _).step ((marks_raise ..).step ((touches_burn ..).marks .refl))
    · split
      · exact (touches_burn ..).marks ((touches_burn ..).marks .refl)
      · exact (ih _).step ((marks_raise ..).step ((touches_burn ..).marks ((touches_burn ..).marks .refl)))

theorem marks_journalPut (e : List Byte) : Marks causeNames s (s.journalPut e) := by
  unfold State.journalPut
  dsimp only
  split
  · exact (marks_raise ..).step ((touches_set_journal ..).marks .refl)
  · exact .ite ((touches_set_journal ..).marks .refl) ((marks_raise ..).step ((touches_set_journal ..).marks .refl))

theorem marks_journalEntry (kind origin : Nat) (vol fresh : Bool) (at_ : Nat × Nat) (body : List Byte) :
    Marks causeNames s (s.journalEntry kind origin vol fresh at_ body) := by
  unfold State.journalEntry
  exact (marks_journalPut ..).step ((touches_set_journal ..).marks .refl)

theorem marks_journalFresh : Marks causeNames s s.journalFresh := (marks_journalEntry ..).step ((touches_set_journal ..).marks .refl)

theorem marks_journalEmit (kind origin : Nat) (vol : Bool) (at_ : Nat × Nat) (body : List Byte) : Marks causeNames s (s.journalEmit kind origin vol at_ body) :=
  (marks_journalEntry ..).step (.ite .refl (marks_journalFresh ..))

theorem marks_recordRepairs (d : Nat) : Marks causeNames s (s.recordRepairs d) := by
  unfold State.recordRepairs
  refine .foldl (marks_onRel ..).mono fun t r => (marks_journalEmit ..).step (.ite (marks_otpPairs ..) ((marks_onRel ..).step (marks_otpPairs ..)))

theorem marks_slotUcie (f : SlotFacts) : Marks slotNames s (s.slotUcie f) := .foldl .refl fun _ _ => marks_commitRepair ..

/- Links and memory. -/

theorem marks_slotPhase (h : Nat) : Marks slotNames s (s.slotPhase h) := by
  unfold State.slotPhase
  exact .ite .refl (.ite ((touches_setLink ..).marks (marks_setRegFld ..).mono) (marks_bump ..).mono)

theorem marks_slotLink (h : Nat) : Marks slotNames s (s.slotLink h) := by
  have mark (t : State) (l : Nat) : Marks slotNames t
      (if fld (t.laneReg h) 13 11 = l then (t.setRegFld (linkR .LANE_CTRL h) (14 + l) (14 + l) 1).setRegFld (linkR .LANE_CTRL h) 13 11 7
        else if fld (t.laneReg h) 13 11 < 5 then t.commitRepair (h / 20) { kind := 6, unit := h, old := l, new := fld (t.laneReg h) 13 11 }
        else t.setLink h { t.link h with lower := true }) :=
    .ite ((marks_setRegFld ..).step (marks_setRegFld ..).mono) (.ite (marks_commitRepair ..) ((touches_setLink ..).marks .refl))
  unfold State.slotLink
  dsimp only
  refine .ite .refl (.ite ((marks_setRegFld _ .LINK_STATUS ..).step ?_) (.ite ((marks_trainLink ..).step ?_) ?_)) <;>
    exact (marks_setRegFld ..).step (.foldl .refl mark)

theorem marks_slotLinks : Marks slotNames s s.slotLinks := .foldl .refl fun t h => (marks_slotLink ..).step (marks_slotPhase ..)

theorem marks_samplePhy (f : SlotFacts) : Marks causeNames s (s.samplePhy f) := by
  unfold State.samplePhy
  exact .foldl ((touches_set_mem ..).marks .refl) fun t c => marks_raise ..

theorem marks_migComplete (st : Nat) : Marks slotNames s (s.migComplete st) := by
  unfold State.migComplete
  exact (marks_raise ..).step ((marks_setRegFld ..).step ((marks_setReg ..).step ((touches_set_mem ..).marks .refl)))

theorem marks_slotHbm (f : SlotFacts) : Marks slotNames s (s.slotHbm f) := by
  unfold State.slotHbm
  dsimp only
  refine .foldl (.foldl ((touches_set_mem ..).marks .refl) fun t c => (marks_raise ..).step (marks_raise ..).mono) fun t st => ?_
  have done (c : Bool) (r : Repair) : Marks slotNames t (if c then (t.migComplete st).commitRepair (stackDie st) r else t) :=
    .ite ((marks_commitRepair ..).step (marks_migComplete ..)) .refl
  split
  · exact .ite (done ..) ((touches_set_mem ..).marks ((marks_setReg ..).step (done ..)))
  · exact done ..

theorem marks_slotClock (scheduled : Bool) : Marks slotNames s (s.slotClock scheduled) := by
  unfold State.slotClock
  dsimp only
  exact .ite .refl (.ite ((marks_bump ..).step ((marks_raise ..).step ((marks_setRegFld ..).step (marks_setRegFld ..).mono)))
    ((marks_setRegFld ..).step (marks_setRegFld ..).mono))

/- Wear. -/

theorem marks_alert (b : Nat) : Marks [.ALERT_STATUS] s (s.alert b) := marks_setReg ..

/-- The registers that a warning writes. -/
def warnNames : List RegName := .ALERT_STATUS :: causeNames

theorem marks_spareExhausted (d : Nat) : Marks warnNames s (s.spareExhausted d) := by
  unfold State.spareExhausted
  exact (marks_alert ..).step (marks_raise ..).mono

theorem marks_markCluster (d l : Nat) : Marks warnNames s (s.markCluster d l) := .ite .refl (.ite (marks_spareExhausted ..) (marks_onRel ..).mono)

theorem marks_markCore (d l k : Nat) : Marks warnNames s (s.markCore d l k) := by
  unfold State.markCore
  exact .ite .refl (.ite (marks_markCluster ..) (marks_onRel ..).mono)

theorem marks_markBank (d l part : Nat) : Marks warnNames s (s.markBank d l part) := by
  unfold State.markBank
  exact .ite .refl (.ite (marks_spareExhausted ..) (marks_onRel ..).mono)

theorem marks_wear (d : Nat) (critical : Bool) {mark : State → State} (h : ∀ t, Marks warnNames t (mark t)) : Marks warnNames s (s.wear d critical mark) := by
  unfold State.wear
  exact .ite (marks_raise ..).mono (.ite ((h _).step ((marks_raise ..).step (marks_raise ..).mono)) ((marks_raise ..).step (marks_raise ..).mono))

theorem marks_sampleWear (f : SlotFacts) : Marks warnNames s (s.sampleWear f) := by
  unfold State.sampleWear
  refine .foldl (.foldl .refl fun t r => .ite .refl (marks_wear _ _ _ fun u => .ite (marks_markCluster ..) (marks_markCore ..))) fun t d => ?_
  exact .foldl (marks_onRel ..).mono fun t p => .ite .refl (marks_wear _ _ _ fun u => marks_markBank ..)

/- The slot. -/

/-- The controller in MAINTENANCE, the slot counted. -/
def slotBegun (scheduled : Bool) : State := (s.onStep fun c => { c with state := .maintenance, unscheduled := !scheduled }).bump (modR .MAINT_TOTAL) 1

theorem marks_slot (f : SlotFacts) (scheduled : Bool) : Marks slotNames (slotBegun s scheduled) (s.slot f scheduled) := by
  unfold State.slot
  extract_lets s1 s2 s3 s4 s5 s6 s7 s8 mem pwr s9
  have m2 : Marks slotNames s1 s2 := (marks_samplePhy ..).mono
  have m3 : Marks slotNames s1 s3 :=
    .ite ((marks_slotSpares ..).step ((marks_slotSpares ..).step ((marks_recordRepairs ..).step ((marks_recordRepairs ..).step m2)))) m2
  have m4 : Marks slotNames s1 s4 := .ite ((marks_slotUcie ..).step m3) m3
  have m5 : Marks slotNames s1 s5 := .ite ((marks_slotLinks ..).step m4) m4
  have m6 : Marks slotNames s1 s6 := .ite ((marks_slotHbm ..).step m5) m5
  have m7 : Marks slotNames s1 s7 := .ite ((marks_slotClock ..).step m6) m6
  have m8 : Marks slotNames s1 s8 := (touches_lanePeriod ..).marks ((marks_sampleWear ..).step m7)
  have m9 : Marks slotNames s1 s9 := (touches_set_mem_pwr ..).marks m8
  exact .ite ((marks_setRegFld ..).step m9) m9

theorem State.state_slot (f : SlotFacts) (scheduled : Bool) : (s.slot f scheduled).step.state = .maintenance := by
  rw [(marks_slot s f scheduled).state, slotBegun, (touches_bump ..).step_eq]
  rfl

theorem State.attempt_slot (f : SlotFacts) (scheduled : Bool) : (s.slot f scheduled).step.attempt = s.step.attempt := by
  rw [(marks_slot s f scheduled).attempt, slotBegun, (touches_bump ..).step_eq]
  rfl

theorem State.maintTotal_slot (f : SlotFacts) (scheduled : Bool) : (s.slot f scheduled).reg (modR .MAINT_TOTAL) = satAdd (s.reg (modR .MAINT_TOTAL)) 1 := by
  rw [(marks_slot s f scheduled).reg_eq _ (by decide), slotBegun, State.reg_bump]
  rfl

theorem State.logline_slot (f : SlotFacts) (scheduled : Bool) : (s.slot f scheduled).reg (modR .LOGLINE) = s.reg (modR .LOGLINE) := by
  rw [(marks_slot s f scheduled).reg_eq _ (by decide), slotBegun, State.reg_bump_ne _ _ _ _ (by decide)]
  rfl

end Sys2Proof.Machine
end

section
/-! PROOFS. DRAINING and its summaries, COMMIT, maintenance slots (10 R272–R276; 13 R358). -/
set_option Elab.async false -- elaborate in order: side threads each hold a stack of their own

namespace Sys2Proof.Machine

/- Messages that may wait. -/

theorem State.arrive_of_waiting {s : State} {i : Instr} (f : State → Option State) (h : (s.waiting.any fun j => doorOf j = doorOf i) = true) :
    s.arrive i f = { s with waiting := s.waiting ++ [i] } := if_pos h

theorem State.arrive_of_free {s : State} {i : Instr} {f : State → Option State} {t : State} (h : (s.waiting.any fun j => doorOf j = doorOf i) = false)
    (hf : f s = some t) : s.arrive i f = t := by
  rw [State.arrive, if_neg (by simp [h]), hf, Option.getD_some]

/- DRAINING. -/

/-- The registers that a rejection on a ply writes. -/
def rejectNames : List RegName := [.PLY_REJECT_TOTAL, .PLY_ERR_DETAIL] ++ causeNames

theorem marks_markRejected (s : State) : Marks [] s s.markRejected := ⟨rfl, ⟨fun _ _ => rfl⟩, fun _ => .of_reg_eq rfl⟩

theorem marks_plyReject (s : State) (core p code word idx : Nat) : Marks rejectNames s (s.plyReject core p code word idx) := by
  unfold State.plyReject State.raiseDetail
  exact (marks_markRejected ..).step ((marks_raise ..).step ((marks_detail ..).step (marks_bump ..).mono))

theorem marks_dropHeld (s : State) (n : Nat) : Marks rejectNames s (s.dropHeld n) := by
  unfold State.dropHeld
  exact (touches_onCore ..).marks (.foldl .refl fun t h => marks_plyReject ..)

theorem State.castDown_of_member {s : State} (h : s.job.role = 0) (m : Nat → OutMsg) : s.castDown m = s := if_pos (by simp [h])

/-- The sums that the used cores still hold are dropped. -/
def sumsDropped (s : State) : State := s.usedCores.foldl State.dropHeld s

theorem marks_sumsDropped (s : State) : Marks rejectNames s (sumsDropped s) := .foldl .refl marks_dropHeld

theorem touches_sumsDropped (s : State) : Touches [.out, .regs, .cores, .step, .links] s (sumsDropped s) :=
  .foldl .refl fun t n => (touches_dropHeld ..).mono

theorem State.drained_draining {s : State} (h : s.drained = true) : s.step.state = .draining := by
  simp only [State.drained, Bool.and_eq_true, decide_eq_true_eq] at h
  exact h.1.1.1.1

theorem drainComplete_sends {s : State} (acks : Nat) (hd : s.drained = true) (hs : s.step.summarySent = false) (hm : s.step.mirrorSent = true)
    (hmgr : s.isManager = false) :
    ∃ t, exec (.drainComplete acks) s = .next t ∧ t.step.mirrorOut = s.step.mirrorOut - acks ∧
      t.step.summarySent = decide (s.step.mirrorOut ≤ acks) ∧ t.step.state = .draining ∧ t.hbm = s.hbm ∧ t.scratch = s.scratch := by
  have m := marks_sumsDropped s
  have k := touches_sumsDropped s
  have hout : (sumsDropped s).step.mirrorOut = s.step.mirrorOut := show (sumsDropped s).step.course.mirrorOut = s.step.course.mirrorOut from congrArg _ m.course
  have hsent : (sumsDropped s).step.mirrorSent = true :=
    (show (sumsDropped s).step.course.mirrorSent = s.step.course.mirrorSent from congrArg _ m.course).trans hm
  have hsum : (sumsDropped s).step.summarySent = false :=
    (show (sumsDropped s).step.course.summarySent = s.step.course.summarySent from congrArg _ m.course).trans hs
  have hstate : (sumsDropped s).step.state = .draining := m.state.trans (State.drained_draining hd)
  have hexec : exec (.drainComplete acks) s = .next (if s.step.mirrorOut - acks = 0 then ((sumsDropped s).onStep fun c => { c with mirrorOut := s.step.mirrorOut - acks }).sendSummary
      else (sumsDropped s).onStep fun c => { c with mirrorOut := s.step.mirrorOut - acks }) := by
    change execDrainComplete acks s = _
    rw [execDrainComplete, if_neg (by simp [hd, hs])]
    simp only [show s.usedCores.foldl State.dropHeld s = sumsDropped s from rfl, hsent, hout]
    rfl
  refine ⟨_, hexec, ?_⟩
  split
  · next h0 =>
    have hmgr' : (sumsDropped s).isManager = false := by rw [← hmgr, State.isManager, State.isManager, k.job_eq]
    have ks (m : OutMsg) : Touches [.out, .regs, .links] _ (State.send ((sumsDropped s).onStep fun c => { c with mirrorOut := s.step.mirrorOut - acks, summarySent := true }) m) :=
      touches_send ..
    have hsend : ∃ m, State.sendSummary ((sumsDropped s).onStep fun c => { c with mirrorOut := s.step.mirrorOut - acks }) =
        State.send ((sumsDropped s).onStep fun c => { c with mirrorOut := s.step.mirrorOut - acks, summarySent := true }) m :=
      ⟨_, if_neg (by rw [Bool.not_eq_true]; exact hmgr')⟩
    obtain ⟨m, hsend⟩ := hsend
    rw [hsend, (ks m).step_eq, (ks m).hbm_eq, (ks m).scratch_eq]
    exact ⟨rfl, (decide_eq_true (by omega)).symm, hstate, k.hbm_eq, k.scratch_eq⟩
  · next h0 => exact ⟨rfl, hsum.trans (decide_eq_false (by omega)).symm, hstate, k.hbm_eq, k.scratch_eq⟩

theorem drainTimeout_faults {s : State} (h : s.step.state = .draining) (ha : s.step.aborting = false) :
    ∃ t, exec .drainTimeout s = .next t ∧ t.step.fault = true ∧ bit (t.reg (modR .MODC_STATUS)) 5 = true ∧ t.hbm = s.hbm ∧ t.scratch = s.scratch := by
  refine ⟨s.raise .module 5, ?_, State.raiseWith_fault_flag .., State.bit_status_raised s .module (by decide) .., (touches_raise ..).hbm_eq, (touches_raise ..).scratch_eq⟩
  change execDrainTimeout s = _
  rw [execDrainTimeout, if_pos ⟨h, by simp [ha]⟩]

theorem stepSummary_gathers {s : State} {m st a : Nat} (u : Summary) (hmgr : s.isManager = true) (hnow : s.now st a = true) (hin : s.inStep = true)
    (hnew : m ∉ s.hank.sums) (hr : m ∈ s.reporters) (hmore : ∃ x ∈ s.reporters, x ≠ m ∧ x ∉ s.hank.sums) :
    exec (.stepSummary m st a u) s = .next (s.onHank fun h => { h with
      sums := m :: h.sums, total := some (match h.total with | none => u | some c => addSummary c u) }) := by
  change execStepSummary m st a u s = _
  rw [execStepSummary, if_pos (by simp [hmgr, hnow, hin]), State.registerSummary, if_neg (by simp [hnew, hr])]
  dsimp only
  rw [if_pos]
  · rfl
  · obtain ⟨x, hx, hne, hxs⟩ := hmore
    have hmiss : s.reporters.all (m :: s.hank.sums).contains = false := by
      rw [List.all_eq_false]
      exact ⟨x, hx, by simp [hne, hxs]⟩
    exact congrArg (!·) hmiss

/- The moves at a sample. -/

theorem State.armGo_course (s : State) : (s.armGo.step.state = .held ∨ s.armGo.step.state = .armed) ∧ s.armGo.step.attempt = s.step.attempt := by
  unfold State.armGo
  dsimp only
  split
  · refine ⟨.inl (State.state_enterHeld _), ?_⟩
    have hk (u : State) : ((u.onStep fun c => { c with holdTick := none }).holdReady).step.attempt = u.step.attempt := rfl
    rw [State.attempt_enterHeld, hk, s.step_enterArmed]
    rfl
  · obtain ⟨r, k, e⟩ := (polled_feedPoll s.enterArmed).step
    rw [e, s.step_enterArmed]
    exact ⟨.inr rfl, rfl⟩

theorem State.sample_course (s : State) : (s.sample.step.state = .held ∨ s.sample.step.state = .armed) ∧ s.sample.step.attempt = s.step.attempt := by
  unfold State.sample
  split
  · exact s.armGo_course
  · have h : s.enterHeld.step.state = .held ∧ s.enterHeld.step.attempt = s.step.attempt := ⟨s.state_enterHeld, s.attempt_enterHeld⟩
    dsimp only
    split
    · rw [(touches_castDown ..).step_eq, (touches_holdReady ..).step_eq]
      exact ⟨.inl h.1, h.2⟩
    · exact ⟨.inl h.1, h.2⟩

theorem regsWithin_sample (s : State) : RegsWithin armNames s s.sample := by
  unfold State.sample
  refine .ite (regsWithin_armGo ..) ?_
  exact .ite ((regsWithin_castDown ..).step ((touches_holdReady ..).regs (regsWithin_enterHeld ..).mono)) (regsWithin_enterHeld ..).mono

/- COMMIT. -/

/-- The state at the end of COMMITTING, before the slot or the sample that follows. -/
structure Committed (s t : State) : Prop where
  attempt : t.step.attempt = 0
  logline : t.reg (modR .LOGLINE) = w64 (s.logline + 1)

theorem State.commitStep_eq (s : State) (m : Summary) (f : SlotFacts) :
    ∃ u, Committed s u ∧ s.commitStep m f = if s.slotDue then u.slot f true else u.sample := by
  unfold State.commitStep
  extract_lets step due s1 s2 s3 s4 s5 s6 s7 s8 s9
  refine ⟨s9, ⟨?_, ?_⟩, rfl⟩
  · have : s9.step = s8.step := (touches_hankClear ..).step_eq.trans (touches_bump ..).step_eq
    rw [this]
    simp only [s8, State.onStep]
  · exact (State.reg_bump_ne _ _ _ _ (by decide)).trans (State.reg_setReg_same ..)

theorem committed_commitStep (s : State) (m : Summary) (f : SlotFacts) :
    Committed s (s.commitStep m f) ∧
      ((s.commitStep m f).step.state = .armed ∨ (s.commitStep m f).step.state = .held ∨ (s.commitStep m f).step.state = .maintenance) ∧
      ((s.commitStep m f).step.state = .maintenance → s.slotDue = true) := by
  obtain ⟨u, hu, e⟩ := s.commitStep_eq m f
  rw [e]
  split
  · next hdue => exact ⟨⟨(u.attempt_slot ..).trans hu.attempt, (u.logline_slot ..).trans hu.logline⟩, .inr (.inr (u.state_slot ..)), fun _ => hdue⟩
  · obtain ⟨hstate, hatt⟩ := u.sample_course
    refine ⟨⟨hatt.trans hu.attempt, ((regsWithin_sample u).reg_eq _ (by decide)).trans hu.logline⟩, ?_, fun h => ?_⟩
    · rcases hstate with h | h
      · exact .inr (.inl h)
      · exact .inl h
    · rcases hstate with h' | h' <;> rw [h'] at h <;> exact nomatch h

section

variable {s : State} {st a : Nat} (u : Summary) (k : Nat) (f : SlotFacts)

theorem exec_commit_free {t : State} (hfree : (s.waiting.any fun j => doorOf j = some 8) = false) (h : s.commitTake st a u k f = some t) :
    exec (.commit st a u k f) s = .next t := congrArg Host.Outcome.next (State.arrive_of_free hfree h)

theorem State.commitTake_of_not_ready (hrole : s.job.role = 0)
    (h : s.now st a = false ∨ s.step.state ≠ .draining ∨ s.step.aborting = true ∨ s.step.summarySent = false) : s.commitTake st a u k f = some s := by
  have hr : (s.now st a && decide (s.step.state = .draining) && !s.step.aborting && s.step.summarySent) = false := by
    rcases h with h | h | h | h <;> simp [h]
  have hroot : s.isRoot = false := by simp [State.isRoot, hrole]
  simp [State.commitTake, hr, hroot, State.castDown_of_member hrole]

theorem State.commitHeld_of_free {vetoed : Nat → Bool} (h : ∀ b, b < 8 → s.capCommitHeld b vetoed = false) :
    ((List.range 8).any fun b => s.capCommitHeld b vetoed) = false := by
  rw [List.any_eq_false]
  exact fun b hb => by simp [h b (List.mem_range.mp hb)]

theorem State.commitTake_of_member (hrole : s.job.role = 0) (hnow : s.now st a = true) (hst : s.step.state = .draining) (hab : s.step.aborting = false)
    (hsent : s.step.summarySent = true) (hcap : ∀ b, b < 8 → s.capCommitHeld b u.vetoes.contains = false) :
    s.commitTake st a u k f = some ((s.noteK k).commitStep u f) := by
  have hroot : s.isRoot = false := by simp [State.isRoot, hrole]
  simp [State.commitTake, hnow, hst, hab, hsent, hroot, State.castDown_of_member hrole, State.commitHeld_of_free hcap]

theorem State.commitTake_of_root (hrole : s.job.role = 2) (hnow : s.now st a = true) (hst : s.step.state = .draining) (hab : s.step.aborting = false)
    (hsent : s.step.summarySent = true) (hdec : s.hank.decided = true)
    (hcap : ∀ b, b < 8 → s.capCommitHeld b (s.hank.total.getD u).vetoes.contains = false) :
    s.commitTake st a u k f = some (s.commitStep (s.hank.total.getD u) f) := by
  have hroot : s.isRoot = true := by simp [State.isRoot, hrole]
  simp [State.commitTake, hnow, hst, hab, hsent, hroot, hdec, State.commitHeld_of_free hcap]

theorem State.logline_noteK : (s.noteK k).logline = s.logline := by
  unfold State.noteK
  split <;> rfl

theorem State.slotDue_noteK : (s.noteK k).slotDue = s.slotDue := by
  unfold State.noteK
  split <;> rfl

end

/- Slots. -/

theorem slotNow_opens {s : State} (f : SlotFacts) (h : s.step.state = .held) (hl : s.load = none) :
    ∃ t, exec (.slotNow f) s = .next t ∧ t.step.state = .maintenance ∧ t.step.unscheduled = true ∧
      t.reg (modR .MAINT_TOTAL) = satAdd (s.reg (modR .MAINT_TOTAL)) 1 := by
  refine ⟨s.slot f false, ?_, s.state_slot .., ?_, s.maintTotal_slot ..⟩
  · change execSlotNow f s = _
    simp [execSlotNow, State.slotNow, State.isHeld, h, hl]
  · have hc : (s.slot f false).step.unscheduled = (slotBegun s false).step.unscheduled :=
      show (s.slot f false).step.course.unscheduled = (slotBegun s false).step.course.unscheduled from congrArg _ (marks_slot s f false).course
    rw [hc, slotBegun, (touches_bump ..).step_eq]
    rfl

/-- The channels in retraining are as they were. -/
structure SameRetraining (s t : State) : Prop where
  mem : t.mem.retraining = s.mem.retraining

theorem SameRetraining.refl (s : State) : SameRetraining s s := ⟨rfl⟩

theorem SameRetraining.trans {s t u : State} (h : SameRetraining s t) (k : SameRetraining t u) : SameRetraining s u := ⟨k.mem.trans h.mem⟩

theorem Touches.sameRetraining {F : List Field} {s t : State} (k : Touches F s t) (h : Field.mem ∉ F := by decide) : SameRetraining s t := ⟨by rw [k.mem_eq h]⟩

theorem sameRetraining_takeTokens (s : State) (st p n : Nat) : SameRetraining s (s.takeTokens st p n) := by
  unfold State.takeTokens
  extract_lets rate have_ now w mem s1
  exact .trans (t := s1) ⟨rfl⟩ (touches_bump ..).sameRetraining

theorem sameRetraining_hbmWrite (s : State) (a : Nat) (bs : List Byte) : SameRetraining s (s.hbmWrite a bs) := by
  have unit (s : State) (a : Nat) (bs : List Byte) : SameRetraining s (s.hbmWriteUnit a bs) := by
    unfold State.hbmWriteUnit
    dsimp only
    split
    · exact (touches_unitStore ..).sameRetraining
    · split
      · exact (touches_unitStore ..).sameRetraining
      · split
        · exact .trans (touches_unitStore ..).sameRetraining ⟨rfl⟩
        · exact .trans (touches_unitStore ..).sameRetraining ⟨rfl⟩
  have go (l : List (Nat × Nat)) : ∀ (s : State) (bs : List Byte), SameRetraining s (s.hbmWriteGo l bs) := by
    induction l with
    | nil => exact fun s _ => .refl s
    | cons p l ih => exact fun s bs => (unit ..).trans (ih ..)
  exact go ..

theorem sameRetraining_charge (s : State) (p : Nat) (write : Bool) (a n : Nat) : SameRetraining s (s.charge p write a n) := by
  unfold State.charge
  refine foldl_rel SameRetraining.refl SameRetraining.trans _ (fun s r => ?_) _ s
  unfold State.chargeBurst
  refine foldl_rel SameRetraining.refl SameRetraining.trans _ (fun s c => ?_) _ s
  exact .trans (touches_bump ..).sameRetraining (sameRetraining_takeTokens ..)

theorem sameRetraining_hostPoison (s : State) (a n : Nat) : SameRetraining s (s.hostPoison a n) := (touches_hostPoison ..).sameRetraining

theorem sameRetraining_hostHbm (s : State) (a : HostAccess) : SameRetraining s (s.hostHbm a) := by
  unfold State.hostHbm
  split
  · dsimp only
    split
    · exact (touches_decodeError ..).sameRetraining
    · exact .trans (touches_decodeError ..).sameRetraining ⟨rfl⟩
  · split
    · refine .trans (foldl_rel SameRetraining.refl SameRetraining.trans _ (fun s p => ?_) _ s) (.trans (sameRetraining_charge ..) (sameRetraining_hbmWrite ..))
      exact sameRetraining_hostPoison ..
    · exact .trans (sameRetraining_hostPoison ..) (.trans (sameRetraining_charge ..) ⟨rfl⟩)

theorem sameRetraining_serveHeld (s : State) : SameRetraining s s.serveHeld := by
  unfold State.serveHeld
  split
  · exact .refl s
  · refine .trans (t := { s with hostOut := [] }) ⟨rfl⟩ (foldl_rel SameRetraining.refl SameRetraining.trans _ (fun s a => ?_) _ _)
    split
    · exact ⟨rfl⟩
    · exact sameRetraining_hostHbm ..

theorem sameRetraining_armTry (s : State) : SameRetraining s s.armTry := by
  have hkey : SameRetraining s s.keyRebuild.1 := by
    unfold State.keyRebuild
    dsimp only
    split
    · dsimp only
      exact .trans (touches_setReg ..).sameRetraining (touches_raise ..).sameRetraining
    · exact ⟨rfl⟩
  unfold State.armTry State.arm
  dsimp only
  split
  · split
    · exact hkey
    · exact hkey.trans (touches_armGo ..).sameRetraining
  · exact .refl s

theorem State.armTry_state {s : State} (h : s.step.state = .held) : s.armTry.step.state = .held ∨ s.armTry.step.state = .armed := by
  unfold State.armTry State.arm
  dsimp only
  split
  · split
    · refine .inl (Eq.trans ?_ h)
      unfold State.keyRebuild
      dsimp only
      split
      · dsimp only
        exact ((marks_raise ..).step (L := .KEYSEL_STATUS :: causeNames) (marks_setReg ..).mono).state
      · rfl
    · exact (State.armGo_course _).1
  · exact .inl h

/-- The end of a slot, before the step that follows: retraining is over and held accesses are served. -/
def slotOver (s : State) : State :=
  let s := (List.range 8).foldl (fun s st => s.setRegFld (stackR .REPAIR_CTRL st) 10 10 0) s
  ({ s with mem := { s.mem with retraining := [] } }).serveHeld

theorem exec_maintenanceEnd_eq {s : State} (h : s.step.state = .maintenance) :
    exec .maintenanceEnd s = .next (if (slotOver s).step.unscheduled then (slotOver s).enterHeld.armTry else (slotOver s).sample) := by
  change execMaintenanceEnd s = _
  rw [execMaintenanceEnd, if_neg (by simp [h])]
  rfl

theorem maintenanceEnd_leaves {s : State} (h : s.step.state = .maintenance) :
    ∃ t, exec .maintenanceEnd s = .next t ∧ (t.step.state = .held ∨ t.step.state = .armed) ∧ t.mem.retraining = [] := by
  refine ⟨_, exec_maintenanceEnd_eq h, ?_⟩
  have h2 : (slotOver s).mem.retraining = [] := (sameRetraining_serveHeld _).mem
  generalize slotOver s = u at h2
  split
  · have hheld : SameRetraining u u.enterHeld := (touches_enterHeld u).sameRetraining
    exact ⟨State.armTry_state u.state_enterHeld, (sameRetraining_armTry _).mem.trans (hheld.mem.trans h2)⟩
  · exact ⟨u.sample_course.1, (touches_sample u).sameRetraining.mem.trans h2⟩

/-- Settles O40. -/
theorem drainsCommitsAndSlots : Obligations.DrainsCommitsAndSlots := by
  intro s
  refine ⟨fun acks h => ?_, fun acks => drainComplete_sends acks, fun h => ?_, drainTimeout_faults, fun m st a u h => ?_, fun m st a u => stepSummary_gathers u,
    fun st a u k f h => ?_, fun st a u k f hrole hfree h => ?_, fun st a u k f hrole hfree hnow hst hab hsent hcap => ?_,
    fun st a u k f hrole hfree hnow hst hab hsent hdec hcap => ?_, fun f h => ?_, fun f => slotNow_opens f, fun h => ?_, maintenanceEnd_leaves⟩
  · change execDrainComplete acks s = _
    rw [execDrainComplete, if_pos (by simpa using h)]
  · change execDrainTimeout s = _
    rw [execDrainTimeout, if_neg]
    rintro ⟨h1, h2⟩
    rcases h with h | h <;> simp_all
  · change execStepSummary m st a u s = _
    rw [execStepSummary]
    rcases h with h | h | h | h
    · simp [h]
    · simp [h]
    · simp [h]
    · simp [State.registerSummary, h]
  · exact congrArg Host.Outcome.next (State.arrive_of_waiting _ h)
  · exact exec_commit_free u k f hfree (State.commitTake_of_not_ready u k f hrole h)
  · have hc := committed_commitStep (s.noteK k) u f
    rw [State.slotDue_noteK] at hc
    obtain ⟨⟨hatt, hlog⟩, hstate, hdue⟩ := hc
    rw [State.logline_noteK] at hlog
    exact ⟨_, exec_commit_free u k f hfree (State.commitTake_of_member u k f hrole hnow hst hab hsent hcap), hatt, hlog, hstate,
      fun h => of_decide_eq_true (hdue h)⟩
  · obtain ⟨⟨hatt, hlog⟩, hstate, _⟩ := committed_commitStep s (s.hank.total.getD u) f
    exact ⟨_, exec_commit_free u k f hfree (State.commitTake_of_root u k f hrole hnow hst hab hsent hdec hcap), hatt, hlog, hstate⟩
  · change execSlotNow f s = _
    rw [execSlotNow, State.slotNow, if_neg]
    rcases h with h | h
    · simp [State.isHeld, h]
    · simp [Option.isNone_iff_eq_none, Option.isSome_iff_ne_none.mp h]
  · change execMaintenanceEnd s = _
    rw [execMaintenanceEnd, if_pos h]

end Sys2Proof.Machine
end

section
/-! PROOFS. ABORT and re-issue, fault reports, heartbeats and losses (10 R277; 13 R358, R359; 16 R409). -/
set_option Elab.async false -- elaborate in order: side threads each hold a stack of their own

namespace Sys2Proof.Machine

open Sys2Proof.Claims

/- ABORT. -/

theorem core_foldl_onCore_mem {f : Core → Core} {l : List Nat} {n : Nat} (h : n ∈ l) (s : State) :
    ∃ c, (l.foldl (fun s n => s.onCore n f) s).core n = f c := by
  induction l generalizing s with
  | nil => exact absurd h (List.not_mem_nil)
  | cons m l ih =>
    rw [List.foldl_cons]
    by_cases hl : n ∈ l
    · exact ih hl _
    · obtain rfl : n = m := by simpa [hl] using h
      refine ⟨s.core n, ?_⟩
      have keep (l : List Nat) (hl : n ∉ l) (t : State) : (l.foldl (fun s n => s.onCore n f) t).core n = t.core n := by
        induction l generalizing t with
        | nil => rfl
        | cons k l ih =>
          rw [List.foldl_cons, ih (fun h => hl (List.mem_cons_of_mem k h)), State.core_onCore, if_neg (by rintro rfl; exact hl List.mem_cons_self)]
      rw [keep l hl, State.core_onCore_same]

theorem State.core_startAbort {s : State} {n : Nat} (h : n ∈ s.job.used) : ∃ c, s.startAbort.core n = Core.abort c := by
  obtain ⟨c, hc⟩ := core_foldl_onCore_mem (f := Core.abort) h (s.onStep fun c => { c with aborting := true, tick := none })
  exact ⟨c, hc⟩

/-- What ABORT leaves: the abort noted, memory and registers as they were. -/
structure Aborted (s t : State) : Prop where
  step : t.step = { s.step with aborting := true, tick := none }
  touches : Touches [.cores, .knots, .step, .caps, .whips, .mirror] s t

theorem State.aborted_startAbort (s : State) : Aborted s s.startAbort := by
  unfold State.startAbort
  extract_lets s1 s2 s3
  have k2 : Touches [.cores] s1 s2 := .foldl .refl fun t n => touches_onCore ..
  have k3 : Touches [.cores, .knots] s1 s3 := .step (touches_abortKnots ..) (.step (touches_abortKnots ..) k2.mono)
  have k1 : Touches [.step] s s1 := touches_onStep ..
  exact ⟨k3.step_eq, .step (touches_set_whips_caps_mirror ..) (k3.step k1.mono)⟩

theorem abortStep_stops {s : State} {st a : Nat} (hrole : s.job.role = 0) (hnow : s.now st a = true) (hin : s.inStep = true) :
    ∃ t, exec (.abortStep st a) s = .next t ∧ t.step.aborting = true ∧ t.hbm = s.hbm ∧ t.scratch = s.scratch ∧ t.regs = s.regs ∧
      ∀ n ∈ s.job.used, n < 384 → (t.core n).cc.mode = .idle ∧ (t.core n).cc.inFlight = [] ∧ (t.core n).vec.queue = [] ∧ (t.core n).dma = [] := by
  obtain ⟨hstep, k⟩ := s.aborted_startAbort
  refine ⟨s.startAbort, ?_, by rw [hstep], k.hbm_eq, k.scratch_eq, k.regs_eq, fun n hn _ => ?_⟩
  · change execAbortStep st a s = _
    simp [execAbortStep, State.isRoot, hrole, State.castDown_of_member hrole, hnow, hin]
  · obtain ⟨c, hc⟩ := State.core_startAbort hn
    rw [hc]
    exact ⟨rfl, rfl, rfl, rfl⟩

theorem regsWithin_stepRecord (s : State) (committed : Bool) : RegsWithin [.STEP_REC, .STEP_REC_HEAD, .TIMING_NR_TOTAL] s (s.stepRecord committed) := by
  have put (t : State) (h i : Nat) (v : W64) : RegsWithin [.STEP_REC] t (t.setReg (modR .STEP_REC (4 * h + i)) v) := regsWithin_setReg ..
  unfold State.stepRecord
  extract_lets c run armed drain h w1 p s1 s2
  have h1 : RegsWithin [.STEP_REC] s s1 := (put ..).step ((put ..).step ((put ..).step (put ..)))
  have h2 : RegsWithin [.STEP_REC, .STEP_REC_HEAD, .TIMING_NR_TOTAL] s s2 := (regsWithin_setReg _ .STEP_REC_HEAD ..).step h1.mono
  exact .ite h2 ((regsWithin_bump _ .TIMING_NR_TOTAL ..).step h2)

/-- The step in progress is recorded as not committed, and FAULT_HELD set (R277). -/
def discarded (s : State) : State := ((s.stepRecord false).bump (modR .FAULT_STEP_TOTAL) 1).onStep fun c => { c with faultHeld := true }

theorem quiesceCheck_holds {s : State} (h : s.step.aborting = true) :
    ∃ t, exec (.quiesceCheck []) s = .next t ∧ t.step.state = .held ∧ t.step.faultHeld = true ∧ t.step.aborting = false ∧
      t.reg (modR .FAULT_STEP_TOTAL) = satAdd (s.reg (modR .FAULT_STEP_TOTAL)) 1 ∧ t.reg (modR .LOGLINE) = s.reg (modR .LOGLINE) ∧ t.hbm = s.hbm := by
  have hexec : exec (.quiesceCheck []) s = .next (discarded s).enterHeld := by
    change execQuiesceCheck [] s = _
    rw [execQuiesceCheck, if_neg (by simp [h])]
    rfl
  obtain ⟨f, e⟩ := State.step_enterHeld (discarded s)
  have r := regsWithin_enterHeld (discarded s)
  have r0 := regsWithin_stepRecord s false
  refine ⟨_, hexec, by rw [e], by rw [e]; rfl, by rw [e], ?_, ?_, ?_⟩
  · rw [r.reg_eq _ (by decide)]
    change ((s.stepRecord false).bump _ 1).reg _ = _
    rw [State.reg_bump, r0.reg_eq _ (by decide)]
    rfl
  · rw [r.reg_eq _ (by decide)]
    exact (State.reg_bump_ne _ _ _ _ (by decide)).trans (r0.reg_eq _ (by decide))
  · exact (touches_enterHeld ..).hbm_eq.trans ((touches_bump ..).hbm_eq.trans (touches_stepRecord ..).hbm_eq)

/-- Settles O41. -/
theorem stepAborts : Obligations.StepAborts := by
  intro s
  refine ⟨fun st a hrole h => ?_, fun st a => abortStep_stops, fun l h => ?_, quiesceCheck_holds, fun st a hrole h => ?_, fun st a hrole hst ha hf hr => ?_⟩
  · change execAbortStep st a s = _
    have : (s.now st a && s.inStep) = false := by rcases h with h | h <;> simp [h]
    simp [execAbortStep, State.isRoot, hrole, State.castDown_of_member hrole, this]
  · change execQuiesceCheck l s = _
    rw [execQuiesceCheck, if_pos (by simp [h])]
  · change execReissueMessage st a s = _
    rw [execReissueMessage, State.castDown_of_member hrole]
    refine congrArg _ (if_neg ?_)
    rintro ⟨h1, h2, h3⟩
    rcases h with h | h | h <;> simp_all
  · refine ⟨(s.onStep fun c => { c with attempt := c.attempt + 1, faultHeld := false }).hankClear, ?_, ha.symm, rfl, hr.1, rfl⟩
    change execReissueMessage st a s = _
    rw [execReissueMessage, State.castDown_of_member hrole, if_pos ⟨hst, ha, hf⟩, State.reissueApply_of_resting hr.2]

/- Fault reports. -/

/-- The root aborts a step in progress that it has not decided on. -/
theorem State.rootAbort_of_inStep {s : State} (hin : s.inStep = true) (hd : s.hank.decided = false) :
    ∃ u, s.rootAbort = u.startAbort ∧ u.step = s.step ∧ Touches [.out, .regs, .links] s u ∧ RegsWithin [.FLIT_TX_TOTAL] s u :=
  ⟨_, if_neg (by simp [hin, hd]), (touches_castDown ..).step_eq, touches_castDown .., regsWithin_castDown ..⟩

/-- What rootAbort leaves, whether it aborts or not. -/
theorem State.rootAbort_kept (s : State) : s.rootAbort.step.fault = s.step.fault ∧ s.rootAbort.hank = s.hank ∧ RegsWithin [.FLIT_TX_TOTAL] s s.rootAbort := by
  unfold State.rootAbort
  split
  · exact ⟨rfl, rfl, .refl⟩
  · obtain ⟨hstep, k⟩ := State.aborted_startAbort (s.castDown fun r => .abort r s.logline s.step.attempt)
    refine ⟨?_, k.hank_eq.trans (touches_castDown ..).hank_eq, k.regs (regsWithin_castDown ..)⟩
    rw [hstep, (touches_castDown ..).step_eq]

theorem faultReport_aborts {s : State} {m x : Nat} {en : List W64} (hrole : s.job.role = 2) (hm : m ≠ s.job.member) (hl : reportLost en = some x)
    (hin : s.inStep = true) (hd : s.hank.decided = false) :
    ∃ t, exec (.faultReport m en) s = .next t ∧ t.step.aborting = true ∧ x ∈ t.hank.lost ∧ t.hbm = s.hbm ∧ t.scratch = s.scratch := by
  obtain ⟨u, hu, hstep, k, -⟩ := State.rootAbort_of_inStep (s := s.onHank fun h => { h with lost := if h.lost.contains x then h.lost else x :: h.lost }) hin hd
  obtain ⟨habort, ka⟩ := u.aborted_startAbort
  refine ⟨u.startAbort, ?_, by rw [habort], ?_, ka.hbm_eq.trans k.hbm_eq, ka.scratch_eq.trans k.scratch_eq⟩
  · change execFaultReport m en s = _
    rw [← hu]
    simp [execFaultReport, State.isRoot, hrole, hm, hl]
  · rw [ka.hank_eq, k.hank_eq]
    simp only [State.onHank]
    split
    · next h => simpa using h
    · exact List.mem_cons_self

/- Heartbeats. -/

theorem sget_foldl_sset_of_notMem {l : List Nat} {x : Nat} (h : x ∉ l) (m : SMap Nat) :
    sget (l.foldl (fun m x => sset m x (sget m 0 x + 1)) m) 0 x = sget m 0 x := by
  induction l generalizing m with
  | nil => rfl
  | cons y l ih =>
    rw [List.foldl_cons, ih (fun hx => h (List.mem_cons_of_mem y hx)), sget_sset, if_neg (by rintro rfl; exact h List.mem_cons_self)]

theorem sget_foldl_sset_of_mem {l : List Nat} {x : Nat} (hn : l.Nodup) (h : x ∈ l) (m : SMap Nat) :
    sget (l.foldl (fun m x => sset m x (sget m 0 x + 1)) m) 0 x = sget m 0 x + 1 := by
  induction l generalizing m with
  | nil => exact absurd h List.not_mem_nil
  | cons y l ih =>
    obtain ⟨hy, hn⟩ := List.nodup_cons.mp hn
    rw [List.foldl_cons]
    rcases List.mem_cons.mp h with rfl | hx
    · rw [sget_foldl_sset_of_notMem hy, sget_sset, if_pos rfl]
    · rw [ih hn hx, sget_sset, if_neg (by rintro rfl; exact hy hx)]

theorem heartbeatTimer_counts {s : State} (h : s.inJob = true) : ∃ t, exec .heartbeatTimer s = .next t ∧ t.hbm = s.hbm ∧ t.step = s.step ∧ t.hank.lost = s.hank.lost ∧
    (∀ x, x ∉ s.watched → sget t.hank.misses 0 x = sget s.hank.misses 0 x) ∧
    (s.watched.Nodup → ∀ x ∈ s.watched, sget t.hank.misses 0 x = sget s.hank.misses 0 x + 1) := by
  have hk : ∃ u, exec .heartbeatTimer s = .next (u.onHank fun h => { h with misses := u.watched.foldl (fun m x => sset m x (sget m 0 x + 1)) h.misses }) ∧
      Touches [.out, .regs, .links] s u := by
    change ∃ u, execHeartbeatTimer s = _ ∧ _
    rw [execHeartbeatTimer, if_neg (by simp [h])]
    have k1 : Touches [.out, .regs, .links] s (if s.isRoot then s else s.send (.beat s.route.mgrRoute (some s.upward) s.beatK s.route.standby)) :=
      .ite .refl (touches_send ..).mono
    exact ⟨_, rfl, .ite (.step (touches_send ..) k1) k1⟩
  obtain ⟨u, hu, k⟩ := hk
  have hw : u.watched = s.watched := by
    simp only [State.watched, State.inJob, State.isManager, State.hankMembers, State.peerMgrs, State.isRoot, k.job_eq, k.route_eq]
    rfl
  refine ⟨_, hu, k.hbm_eq, k.step_eq, show u.hank.lost = s.hank.lost by rw [k.hank_eq], fun x hx => ?_, fun hn x hx => ?_⟩ <;> simp only [State.onHank, k.hank_eq, hw]
  · exact sget_foldl_sset_of_notMem hx _
  · exact sget_foldl_sset_of_mem hn hx _

/-- The loss of module m is noted as a fault (13 R359). -/
structure LossNoted (m : Nat) (s : State) : Prop where
  lost : m ∈ s.hank.lost
  fault : s.step.fault = true
  cause : bit (s.reg (modR .MODC_STATUS)) 7 = true

/-- It stays noted while the root aborts, or while the report leaves. -/
theorem lossNoted_sent {u : State} {m : Nat} {o : Out} (h : LossNoted m u) (ho : o = .next u.rootAbort ∨ ∃ x, o = .next (u.send x)) :
    ∃ t, o = .next t ∧ m ∈ t.hank.lost ∧ t.step.fault = true ∧ bit (t.reg (modR .MODC_STATUS)) 7 = true := by
  rcases ho with rfl | ⟨x, rfl⟩
  · obtain ⟨ka, kh, kr⟩ := u.rootAbort_kept
    exact ⟨_, rfl, kh ▸ h.lost, ka.trans h.fault, by rw [kr.reg_eq _ (by decide)]; exact h.cause⟩
  · exact ⟨_, rfl, by rw [(touches_send ..).hank_eq]; exact h.lost, by rw [(touches_send ..).step_eq]; exact h.fault,
      by rw [(regsWithin_send ..).reg_eq _ (by decide)]; exact h.cause⟩

theorem hankMemberLost_reports {s : State} {m : Nat} (hm : s.isManager = true) (hs : s.silent m = true) (hl : m ∉ s.hank.lost) :
    ∃ t, exec (.hankMemberLost m) s = .next t ∧ m ∈ t.hank.lost ∧ t.step.fault = true ∧ bit (t.reg (modR .MODC_STATUS)) 7 = true := by
  have hfault : (s.raise .module 7).step.fault = true := State.raiseWith_fault_flag ..
  have hbit : bit ((s.raise .module 7).reg (modR .MODC_STATUS)) 7 = true := State.bit_status_raised s .module (by decide) ..
  refine lossNoted_sent (u := (s.raise .module 7).onHank fun h => { h with lost := m :: h.lost }) ⟨List.mem_cons_self, hfault, hbit⟩ ?_
  change execHankMemberLost m s = _ ∨ ∃ o, execHankMemberLost m s = _
  rw [execHankMemberLost, if_neg (by simp [hm, hs, hl])]
  dsimp only
  split
  · exact .inl rfl
  · exact .inr ⟨_, rfl⟩

/-- A cause that is no fault leaves the step controller as it is. -/
theorem State.step_raiseWith_of_not_fault (s : State) (p : Part) (b ctx : Nat) (det : W64) : (s.raiseWith p b ctx det false).step = s.step := by
  unfold State.raiseWith
  extract_lets t g src ws
  rw [if_neg Bool.false_ne_true]
  clear_value ws g
  cases g <;> first | exact (touches_chafe ..).step_eq.trans (touches_setCause ..).step_eq | exact (touches_setCause ..).step_eq

theorem hankManagerLost_raises {s : State} (hm : s.isManager = false) (hs : s.silent s.route.manager = true) :
    ∃ t, exec .hankManagerLost s = .next t ∧ bit (t.reg (modR .MODC_STATUS)) 8 = true ∧ t.hank = s.hank ∧ t.step = s.step := by
  refine ⟨s.raise .module 8, ?_, State.bit_status_raised s .module (by decide) .., (raised_raise ..).body.hank, ?_⟩
  · change execHankManagerLost s = _
    rw [execHankManagerLost, if_pos (by simp [hm, hs])]
  · exact State.step_raiseWith_of_not_fault ..

/-- Settles O42. -/
theorem heartbeatsAndLosses : Obligations.HeartbeatsAndLosses := by
  intro s
  refine ⟨fun m en h => ?_, fun m en h => ?_, fun m en hrole hl hw => ?_, fun m en x => faultReport_aborts, fun h => ?_, heartbeatTimer_counts, fun m k sb h => ?_,
    fun m k sb h => ?_, fun m h => ?_, fun m => hankMemberLost_reports, fun h => ?_, hankManagerLost_raises⟩
  · change execFaultReport m en s = _
    rw [execFaultReport, if_pos h]
  · change execFaultReport m en s = _
    simp [execFaultReport, State.isRoot, h]
  · change execFaultReport m en s = _
    have hn : ¬ (fld (nth en 0 1) 47 0 = s.logline % 2 ^ 48 ∧ fld (nth en 0 1) 63 48 = s.step.attempt) := by
      rintro ⟨h1, h2⟩
      rcases hw with hw | hw <;> contradiction
    rw [execFaultReport, if_neg (by simp [hrole]), if_neg (by simp [State.isRoot, hrole])]
    simp only [hl, ite_self]
    exact congrArg _ (if_neg (by simpa using hn))
  · change execHeartbeatTimer s = _
    rw [execHeartbeatTimer, if_pos (by simp [h])]
  · change execHeartbeat m k sb s = _
    rw [execHeartbeat, if_pos (by simp [h])]
  · change execHeartbeat m k sb s = _
    rw [execHeartbeat, if_neg (by simp [h])]
    cases sb <;> rfl
  · change execHankMemberLost m s = _
    rw [execHankMemberLost, if_pos]
    rcases h with h | h | h <;> simp [h]
  · change execHankManagerLost s = _
    rw [execHankManagerLost, if_neg]
    rcases h with h | h <;> simp [h]

end Sys2Proof.Machine
end

section
/-! SUPPORT. Cause registers and first-event details: what a plain write does field by field, and what the chafe log leaves of the COUNT registers. Settles O48. -/
set_option Elab.async false -- elaborate in order: side threads each hold a stack of their own

namespace Sys2Proof.Machine

open Host

/- A plain write, bit by bit (00 R11). -/

theorem bit_or (x y : W64) (b : Nat) : bit (x ||| y) b = (bit x b || bit y b) := by
  simp only [bit_eq_testBit, BitVec.toNat_or, Nat.testBit_or]

theorem bit_and (x y : W64) (b : Nat) : bit (x &&& y) b = (bit x b && bit y b) := by
  simp only [bit_eq_testBit, BitVec.toNat_and, Nat.testBit_and]

theorem bit_not (x : W64) {b : Nat} (h : b < 64) : bit (~~~x) b = !bit x b := by
  simp only [bit_eq_testBit, BitVec.testBit_toNat, BitVec.getLsbD_not, decide_eq_true h, Bool.true_and]

theorem bit_w64 (k : Nat) {b : Nat} (h : b < 64) : bit (w64 k) b = k.testBit b := by
  rw [bit_eq_testBit, w64, BitVec.toNat_ofNat, Nat.testBit_mod_two_pow, decide_eq_true h, Bool.true_and]

/-- The mask of a field has its bits set. -/
theorem testBit_fieldMask (hi lo b : Nat) : (2 ^ (hi + 1) - 2 ^ lo).testBit b = (decide (lo ≤ b) && decide (b ≤ hi)) := by
  rcases Nat.lt_or_ge hi lo with h | h
  · rw [Nat.sub_eq_zero_of_le (Nat.pow_le_pow_right (by omega) (by omega)), Nat.zero_testBit]
    rw [eq_comm, Bool.and_eq_false_iff, decide_eq_false_iff_not, decide_eq_false_iff_not]
    omega
  · have hmask : 2 ^ (hi + 1) - 2 ^ lo = 2 ^ lo * (2 ^ (hi + 1 - lo) - 1) + 0 := by
      rw [Nat.mul_sub, ← Nat.pow_add, show lo + (hi + 1 - lo) = hi + 1 by omega, Nat.mul_one]
      rfl
    rw [hmask, Nat.testBit_two_pow_mul_add _ (Nat.two_pow_pos _), Nat.zero_testBit]
    by_cases hb : b < lo
    · rw [if_pos hb, decide_eq_false (by omega), Bool.false_and]
    · rw [if_neg hb, Nat.testBit_two_pow_sub_one, decide_eq_true (by omega : lo ≤ b), Bool.true_and]
      exact decide_eq_decide.2 (by omega)

/-- What a field's write leaves in a bit, by its access code. -/
def RegField.bitAfter (f : RegField) (old new : Bool) (b : Nat) : Bool :=
  if f.lo ≤ b ∧ b ≤ f.hi then
    match f.acc with
    | .rw => new
    | .w1c => old && !new
    | .w1s => old || new
    | .ro => old
    | .wo => old
  else old

theorem RegField.bit_write (f : RegField) (old v : W64) {b : Nat} (h : b < 64) : bit (f.write old v) b = f.bitAfter (bit old b) (bit v b) b := by
  have hm : bit (w64 (2 ^ (f.hi + 1) - 2 ^ f.lo)) b = (decide (f.lo ≤ b) && decide (b ≤ f.hi)) := by rw [bit_w64 _ h, testBit_fieldMask]
  unfold RegField.write RegField.bitAfter
  by_cases hin : f.lo ≤ b ∧ b ≤ f.hi
  · rw [decide_eq_true hin.1, decide_eq_true hin.2, Bool.and_self] at hm
    rw [if_pos hin]
    cases hacc : f.acc <;> simp [bit_or, bit_and, bit_not _ h, hm]
  · have hout : bit (w64 (2 ^ (f.hi + 1) - 2 ^ f.lo)) b = false := by rw [hm]; simpa using hin
    rw [if_neg hin]
    cases hacc : f.acc <;> simp [bit_or, bit_and, bit_not _ h, hout]

/-- A write to a register all of whose fields are W1C clears the bits written with one. -/
theorem bit_writes_w1c (v : W64) {b : Nat} (h : b < 64) : ∀ (fs : List RegField) (w : W64), (∀ f ∈ fs, f.acc = .w1c) →
    bit (fs.foldl (fun w f => f.write w v) w) b = (bit w b && !(bit v b && fs.any fun f => f.lo ≤ b && b ≤ f.hi))
  | [], w, _ => by simp
  | f :: fs, w, hall => by
    rw [List.foldl_cons, bit_writes_w1c v h fs _ fun g hg => hall g (List.mem_cons_of_mem _ hg), f.bit_write w v h, RegField.bitAfter,
      hall f List.mem_cons_self, List.any_cons]
    by_cases hin : f.lo ≤ b ∧ b ≤ f.hi
    · rw [if_pos hin, decide_eq_true hin.1, decide_eq_true hin.2]
      cases bit w b <;> cases bit v b <;> simp
    · have hout : (decide (f.lo ≤ b) && decide (b ≤ f.hi)) = false := by simpa using hin
      rw [if_neg hin, hout, Bool.false_or]

/-- A write to a register all of whose fields are RO leaves it. -/
theorem writes_ro (v : W64) : ∀ (fs : List RegField) (w : W64), (∀ f ∈ fs, f.acc = .ro) → fs.foldl (fun w f => f.write w v) w = w
  | [], _, _ => rfl
  | f :: fs, w, hall => by
    rw [List.foldl_cons, RegField.write, hall f List.mem_cons_self]
    exact writes_ro v fs w fun g hg => hall g (List.mem_cons_of_mem _ hg)

theorem State.reg_plainWrite (s : State) (id : RegId) (v : W64) :
    (s.plainWrite id v).reg id = (regDef id.name).fields.foldl (fun w f => f.write w v) (s.reg id) := State.reg_setReg_same ..

theorem State.reg_plainWrite_ne (s : State) {id j : RegId} (v : W64) (h : j ≠ id) : (s.plainWrite id v).reg j = s.reg j := State.reg_setReg_ne _ _ _ _ h

/- The STATUS and detail registers of the tables. -/

theorem isStatus_iff {n : RegName} : isStatus n = true ↔ ∃ l : Leaf, n = l.status := by
  constructor
  · intro h
    unfold isStatus at h
    split at h
    · exact ⟨.core, rfl⟩
    · exact ⟨.cluster, rfl⟩
    · exact ⟨.dieCtl, rfl⟩
    · exact ⟨.whip, rfl⟩
    · exact ⟨.knot, rfl⟩
    · exact ⟨.stack, rfl⟩
    · exact ⟨.link, rfl⟩
    · exact ⟨.mod, rfl⟩
    · cases h
  · rintro ⟨l, rfl⟩
    cases l <;> rfl

theorem Leaf.status_fields (l : Leaf) : (regDef l.status).fields = [⟨31, 0, .w1c⟩] := by cases l <;> rfl

/-- A detail register holds VALID, W1C, and fields that are RO (15 R483). -/
theorem isDetail.fields {n : RegName} (h : isDetail n = true) :
    ∃ fs, (regDef n).fields = ⟨63, 63, .w1c⟩ :: fs ∧ ∀ f ∈ fs, f.acc = .ro := by
  unfold isDetail at h
  split at h
  case h_11 => cases h
  all_goals exact ⟨_, rfl, by decide⟩

/- What the chafe log and a report leave of the cause registers. -/

/-- The registers of the chafe log and of a report's flits, and the STATUS that takes CHAFE_FULL. -/
def logNames : List RegName := [.CHAFE, .CHAFE_HEAD, .CHAFE_OVF_TOTAL, .FLIT_TX_TOTAL, .DIECTL_STATUS]

/-- A register that neither the chafe log nor a fault report writes. -/
def unlogged (i : RegId) : Prop := i.name ∉ logNames ∧ (i.name = .DIECTL_COUNT → i.idx ≠ 0)

theorem not_unlogged (n : RegName) (p : Part) (k : Nat) (h : n ∈ logNames := by decide) : ¬ unlogged (rid n p k) := fun hu => hu.1 h

/-- A COUNT register other than CHAFE_FULL's is none of the log's. -/
theorem unlogged_count {p : Part} {b : Nat} (h : leafOf p ≠ .dieCtl ∨ b ≠ 0) : unlogged (rid (leafOf p).count p b) := by
  refine ⟨?_, ?_⟩
  · change (leafOf p).count ∉ logNames
    cases leafOf p <;> decide
  · intro hname
    rcases h with h | h
    · exact absurd hname (by revert h; change _ → (leafOf p).count ≠ _; cases leafOf p <;> decide)
    · exact h

/-- Every register that is none of the log's stays. -/
structure Unlogged (s t : State) : Prop where
  reg : ∀ i, unlogged i → t.reg i = s.reg i

theorem Unlogged.refl (s : State) : Unlogged s s := ⟨fun _ _ => rfl⟩

theorem Unlogged.trans {s t u : State} (h : Unlogged s t) (k : Unlogged t u) : Unlogged s u := ⟨fun i hi => (k.reg i hi).trans (h.reg i hi)⟩

theorem unlogged_setReg (s : State) {i : RegId} (v : W64) (h : ¬ unlogged i) : Unlogged s (s.setReg i v) :=
  ⟨fun j hj => State.reg_setReg_ne _ _ _ _ (by rintro rfl; exact h hj)⟩

theorem unlogged_bump (s : State) {i : RegId} (k : Nat) (h : ¬ unlogged i) : Unlogged s (s.bump i k) := by
  unfold State.bump
  split
  · exact .refl _
  · exact unlogged_setReg s _ h

/-- CHAFE_FULL, which the log itself raises. -/
theorem unlogged_chafeFull (s : State) (d : Nat) : Unlogged s (s.setCause (.dieCtl d) 0) :=
  (unlogged_setReg s (i := rid .DIECTL_STATUS (.dieCtl d)) _ (not_unlogged _ _ _)).trans (unlogged_bump _ _ fun h => h.2 rfl rfl)

theorem unlogged_chafe (s : State) (d : Nat) (ws : List W64) : Unlogged s (s.chafe d ws) := by
  have hhead : ¬ unlogged (rid .CHAFE_HEAD (.dieCtl d)) := not_unlogged _ _ _
  unfold State.chafe
  extract_lets hid s1 i s2 s3
  split
  · have h1 : Unlogged s s1 := unlogged_bump _ _ (not_unlogged _ _ _)
    split
    · exact h1
    · exact h1.trans ((unlogged_setReg s1 _ hhead).trans (unlogged_chafeFull ..))
  · have h2 : Unlogged s s2 := foldl_rel Unlogged.refl Unlogged.trans _ (fun t a => unlogged_setReg _ _ (not_unlogged _ _ _)) _ s
    have h3 : Unlogged s s3 := h2.trans (unlogged_setReg _ _ hhead)
    split
    · exact h3.trans (unlogged_setReg _ _ hhead)
    · exact h3

theorem unlogged_fault (s : State) (d : Nat) (ws : List W64) : Unlogged s (s.fault d ws) := by
  refine ⟨fun i hi => ?_⟩
  rw [State.fault, (sent_send ..).reg i fun e => hi.1 (by rw [e]; decide)]
  exact (unlogged_chafe s d ws).reg i hi

/-- Beyond its own STATUS bit and COUNT, a raised cause writes only the log's registers. -/
theorem unlogged_raiseWith (s : State) (p : Part) (b ctx : Nat) (det : W64) (f : Bool) : Unlogged (s.setCause p b) (s.raiseWith p b ctx det f) := by
  unfold State.raiseWith
  extract_lets s1 g src ws
  split
  · exact unlogged_fault ..
  · clear_value ws g
    cases g
    case reliability => exact unlogged_chafe ..
    case security => exact unlogged_chafe ..
    case powerThermal => exact unlogged_chafe ..
    all_goals exact .refl _

theorem State.reg_count_setCause (s : State) (p : Part) (b : Nat) :
    (s.setCause p b).reg (rid (leafOf p).count p b) = satAdd (s.reg (rid (leafOf p).count p b)) 1 := by
  have hne : rid (leafOf p).count p b ≠ rid (leafOf p).status p := fun e => leaf_count_ne_status _ _ (congrArg RegId.name e)
  unfold State.setCause
  extract_lets l t
  rw [State.reg_bump, if_neg (by decide)]
  exact congrArg (satAdd · 1) (State.reg_setReg_ne _ _ _ _ hne)

theorem State.reg_count_setCause_ne (s : State) (p : Part) {b c : Nat} (h : c ≠ b) :
    (s.setCause p b).reg (rid (leafOf p).count p c) = s.reg (rid (leafOf p).count p c) := by
  have hne : rid (leafOf p).count p c ≠ rid (leafOf p).status p := fun e => leaf_count_ne_status _ _ (congrArg RegId.name e)
  unfold State.setCause
  extract_lets l t
  rw [State.reg_bump_ne _ _ _ _ fun e => h (congrArg RegId.idx e)]
  exact State.reg_setReg_ne _ _ _ _ hne

/-- An occurrence adds one to the cause's COUNT (15 R384). -/
theorem State.reg_count_raise (s : State) {p : Part} {b : Nat} (h : leafOf p ≠ .dieCtl ∨ b ≠ 0) (ctx : Nat) (det : W64) :
    (s.raise p b ctx det).reg (rid (leafOf p).count p b) = satAdd (s.reg (rid (leafOf p).count p b)) 1 :=
  ((unlogged_raiseWith s p b ctx det _).reg _ (unlogged_count h)).trans (s.reg_count_setCause p b)

/-- An occurrence of one cause leaves the COUNT of another. -/
theorem State.reg_count_raise_ne (s : State) {p : Part} {b c : Nat} (h : leafOf p ≠ .dieCtl ∨ c ≠ 0) (hne : c ≠ b) (ctx : Nat) (det : W64) :
    (s.raise p b ctx det).reg (rid (leafOf p).count p c) = s.reg (rid (leafOf p).count p c) :=
  ((unlogged_raiseWith s p b ctx det _).reg _ (unlogged_count h)).trans (s.reg_count_setCause_ne p hne)

/-- Causes raised one after another. -/
def State.raises (s : State) (p : Part) (l : List Nat) : State := l.foldl (fun s b => s.raise p b) s

theorem State.raises_cons (s : State) (p : Part) (b : Nat) (l : List Nat) : s.raises p (b :: l) = (s.raise p b).raises p l := rfl

/-- Causes raised leave the COUNT of a cause that is not among them. -/
theorem State.reg_count_raises_of_notMem {p : Part} {c : Nat} (h : leafOf p ≠ .dieCtl ∨ c ≠ 0) (l : List Nat) (s : State) (hc : c ∉ l) :
    (s.raises p l).reg (rid (leafOf p).count p c) = s.reg (rid (leafOf p).count p c) := by
  induction l generalizing s with
  | nil => rfl
  | cons b l ih =>
    rw [State.raises_cons, ih _ (List.not_mem_of_not_mem_cons hc)]
    exact s.reg_count_raise_ne h (List.ne_of_not_mem_cons hc) ..

/-- Causes raised once each: the COUNT of each has one more. -/
theorem State.reg_count_raises {p : Part} {c : Nat} (h : leafOf p ≠ .dieCtl ∨ c ≠ 0) (l : List Nat) (s : State) (hnd : l.Nodup) (hc : c ∈ l) :
    (s.raises p l).reg (rid (leafOf p).count p c) = satAdd (s.reg (rid (leafOf p).count p c)) 1 := by
  induction l generalizing s with
  | nil => cases hc
  | cons b l ih =>
    obtain ⟨hb, hl⟩ := List.nodup_cons.1 hnd
    rw [State.raises_cons]
    by_cases he : c = b
    · subst he
      rw [State.reg_count_raises_of_notMem h l _ hb]
      exact s.reg_count_raise h ..
    · rw [ih _ hl ((List.mem_cons.1 hc).resolve_left he), s.reg_count_raise_ne h he]

/-- Causes raised: the STATUS bit of each reads 1. -/
theorem State.bit_status_raises (p : Part) {c : Nat} (hc64 : c < 64) (l : List Nat) (s : State) (hc : c ∈ l) :
    bit ((s.raises p l).reg (statusOf p)) c = true := by
  induction l generalizing s with
  | nil => cases hc
  | cons b l ih =>
    rw [State.raises_cons]
    rcases List.mem_cons.1 hc with rfl | hc
    · have hstay := foldl_rel (BitsStay.refl (statusOf p)) BitsStay.trans _ (fun t b => bitsStay_raise t p p b 0 0) l (s.raise p c)
      exact hstay.bit c (s.bit_status_raised p hc64 ..)
    · exact ih _ hc

theorem causesMet_nodup (p : Part) (m : W64) : (causesMet p m).Nodup := (List.nodup_range.filter _).filter _

theorem lt_of_mem_causesMet {p : Part} {m : W64} {b : Nat} (h : b ∈ causesMet p m) : b < 64 :=
  List.mem_range.1 (List.mem_filter.1 (List.mem_filter.1 h).1).1

theorem causesMet_zero (p : Part) : causesMet p 0 = [] := by
  have : bitsSet 64 (0 : W64).toNat = [] := by decide
  rw [causesMet, this]
  rfl

/-- A register of a kind, written where its part answers. -/
theorem kindWrite_of_answers {kind : RegName → Bool} {a : Nat} {id : RegId} (v : W64) (act : State → RegId → State) {s : State}
    (hat : regAt a = some id) (hkind : kind id.name = true) (hs : s.silentAt a = false) : kindWrite kind a v act s = .next (act s id) := by
  rw [kindWrite, hat]
  simp only [hkind, hs, guardPart, if_true, Bool.false_eq_true, if_false]

/-- A register of a kind, written where nothing answers: the access is held. -/
theorem kindWrite_of_silent {kind : RegName → Bool} {a : Nat} {id : RegId} (v : W64) (act : State → RegId → State) {s : State}
    (hat : regAt a = some id) (hkind : kind id.name = true) (hs : s.silentAt a = true) :
    kindWrite kind a v act s = .next (s.hold { write := true, addr := a, size := 8, data := v.toNat }) := by
  rw [kindWrite, hat]
  simp only [hkind, hs, guardPart, if_true]

/-- STATUS_CLEAR where its part answers: the write, then the causes that occur in its cycle. -/
theorem exec_statusClear_of_answers {a : Nat} {id : RegId} (v met : W64) {s : State} (hat : regAt a = some id) (hstatus : isStatus id.name = true)
    (hs : s.silentAt a = false) : exec (.statusClear a v met) s = .next (s.statusClear id v met) :=
  kindWrite_of_answers v (fun s id => s.statusClear id v met) hat hstatus hs

/-- DETAIL_VALID_CLEAR where its part answers. -/
theorem exec_detailValidClear_of_answers {a : Nat} {id : RegId} (v met : W64) {s : State} (hat : regAt a = some id) (hdetail : isDetail id.name = true)
    (hs : s.silentAt a = false) : exec (.detailValidClear a v met) s = .next (if bit met 63 then s.detail id met else s.plainWrite id v) :=
  kindWrite_of_answers v (fun s id => if bit met 63 then s.detail id met else s.plainWrite id v) hat hdetail hs

theorem State.statusClear_of_none_met (s : State) (id : RegId) (v : W64) : s.statusClear id v 0 = s.plainWrite id v := by
  have hv : v &&& ~~~(w64 (bitmap [])) = v := by
    change v &&& ~~~(0#64) = v
    rw [BitVec.not_zero, BitVec.and_allOnes]
  rw [State.statusClear, causesMet_zero]
  simp only [List.foldl_nil, hv]

/-- Settles O48: STATUS by its W1C field, COUNT by the causes raised once each, details by VALID. -/
theorem causesAndDetails : Obligations.CausesAndDetails := by
  unfold Obligations.CausesAndDetails
  intro s
  refine ⟨fun p b ctx det hb hp => ⟨s.bit_status_raised p hb .., s.reg_count_raise hp ..⟩, ?clear, ?met, ?event, ?silent, ?valid, ?record⟩
  case clear =>
    intro a v id hat hstatus hs
    obtain ⟨l, hl⟩ := isStatus_iff.1 hstatus
    refine ⟨(regDef id.name).fields.foldl (fun w f => f.write w v) (s.reg id), ?_, fun b hb => bit_writes_w1c v hb _ _ ?_⟩
    · rw [exec_statusClear_of_answers v 0 hat hstatus hs, s.statusClear_of_none_met, State.plainWrite]
    · rw [hl, l.status_fields]
      decide
  case met =>
    intro a v met id hat hstatus hs
    refine ⟨_, exec_statusClear_of_answers v met hat hstatus hs, fun b hb hlog => ⟨State.bit_status_raises _ (lt_of_mem_causesMet hb) _ _ hb, ?_⟩⟩
    obtain ⟨l, hl⟩ := isStatus_iff.1 hstatus
    refine (State.reg_count_raises hlog _ _ (causesMet_nodup ..) hb).trans ?_
    rw [State.reg_plainWrite_ne]
    exact fun e => leaf_count_ne_status _ l ((congrArg RegId.name e).trans hl)
  case event =>
    intro a v met id hat hdetail hs hvalid
    rw [exec_detailValidClear_of_answers v met hat hdetail hs, if_pos hvalid]
  case silent => exact fun a v met id hat hstatus hs => kindWrite_of_silent v (fun s id => s.statusClear id v met) hat hstatus hs
  case valid =>
    intro a v id hat hdetail hs
    obtain ⟨fs, hfs, hro⟩ := isDetail.fields hdetail
    have hx : (regDef id.name).fields.foldl (fun w f => f.write w v) (s.reg id) = RegField.write ⟨63, 63, .w1c⟩ (s.reg id) v := by
      rw [hfs, List.foldl_cons, writes_ro v fs _ hro]
    have hbit : ∀ b < 64, bit (RegField.write ⟨63, 63, .w1c⟩ (s.reg id) v) b = if 63 ≤ b ∧ b ≤ 63 then bit (s.reg id) b && !bit v b else bit (s.reg id) b :=
      fun b hb => RegField.bit_write _ _ _ hb
    refine ⟨RegField.write ⟨63, 63, .w1c⟩ (s.reg id) v, ?_, fun hv => ?_, fun hv => ?_, fun b hb => ?_⟩
    · rw [exec_detailValidClear_of_answers v 0 hat hdetail hs, if_neg (by decide), State.plainWrite, hx]
    · rw [hbit 63 (by decide), if_pos (by decide), hv, Bool.not_true, Bool.and_false]
    · refine W64.ext_bit fun b hb => ?_
      rw [hbit b hb]
      split
      · rw [show b = 63 by omega, hv, Bool.not_false, Bool.and_true]
      · rfl
    · rw [hbit b (by omega), if_neg (by omega)]
  case record =>
    refine fun id v => ⟨fun h => if_pos h, fun h => ?_⟩
    rw [State.detail, if_neg (by rw [h]; decide), State.reg_setReg_same]

end Sys2Proof.Machine
end

section
/-! Host accesses to registers and scratch (15 R381, R389; 00 R8–R12): where an access goes, what a decode error records, and which registers take a plain write. Settles O47. -/
set_option Elab.async false -- elaborate in order: side threads each hold a stack of their own

namespace Sys2Proof.Machine

open Host

/- Where an access goes. -/

theorem exec_registerWrite_of_silent {s : State} {a : HostAccess} (hlo : 2 ^ 39 ≤ a.addr) (hhi : a.addr < 2 ^ 48) (hs : s.silentAt a.addr = true) :
    exec (.registerWrite a []) s = .next (s.hold a) := by
  change execRegisterWrite a [] s = _
  rw [execRegisterWrite, decide_eq_true hlo, decide_eq_true hhi, if_pos hs]
  rfl

theorem exec_registerWrite_of_scratch {s : State} {a : HostAccess} (hscr : 2 ^ 40 ≤ a.addr ∧ a.addr < 0x020000000000) (hs : s.silentAt a.addr = false) :
    exec (.registerWrite a []) s = .next (s.scratchAccess a []) := by
  change execRegisterWrite a [] s = _
  rw [execRegisterWrite, decide_eq_true (by omega : 2 ^ 39 ≤ a.addr), decide_eq_true (by omega : a.addr < 2 ^ 48), if_neg (by rw [hs]; decide),
    if_pos ⟨hscr.2, hscr.1⟩]
  rfl

theorem exec_registerWrite_of_not_scratch {s : State} {a : HostAccess} (hlo : 2 ^ 39 ≤ a.addr) (hhi : a.addr < 2 ^ 48)
    (hscr : ¬ (2 ^ 40 ≤ a.addr ∧ a.addr < 0x020000000000)) (hs : s.silentAt a.addr = false) :
    exec (.registerWrite a []) s = .next (s.regAccess a) := by
  change execRegisterWrite a [] s = _
  rw [execRegisterWrite, decide_eq_true hlo, decide_eq_true hhi, if_neg (by rw [hs]; decide), if_neg fun h => hscr ⟨h.2, h.1⟩]
  rfl

theorem State.regAccess_of_none (s : State) {a : HostAccess} (h : regAt a.addr = none) :
    s.regAccess a = if a.write then s.decodeError a.write a.addr else (s.decodeError a.write a.addr).reply 0 := by
  rw [State.regAccess, h, ite_self]

theorem State.regAccess_of_reg (s : State) {a : HostAccess} {id : RegId} (hsize : a.size = 8) (halign : a.addr % 8 = 0) (h : regAt a.addr = some id) :
    s.regAccess a = if a.write then s.regWrite id (w64 a.data) a.addr else s.regRead id := by
  rw [State.regAccess, if_pos ⟨hsize, halign⟩, h]

/- What a decode error records. -/

/-- A decode error is the first-event detail and the cause: the detail register holds what the detail left. -/
theorem State.reg_decodeError_detail (s : State) (write : Bool) (addr : Nat) :
    (s.decodeError write addr).reg (modR .MOD_DECODE_DETAIL) =
      (s.detail (modR .MOD_DECODE_DETAIL) (w64 (addr % 2 ^ 48 + b01 write * 2 ^ 62))).reg (modR .MOD_DECODE_DETAIL) := by
  rw [State.decodeError_eq_setCause, State.reg_setCause_ne _ _ _ _ (by decide) (by decide)]

/-- The outcome of an access that reaches no register or no scratch byte: DECODE_ERROR with the first address kept, and a read answered with 0 (15 R389, 00 R8). -/
def State.discarded (s : State) (a : HostAccess) : State :=
  if a.write then s.decodeError a.write a.addr else (s.decodeError a.write a.addr).reply 0

/-- A discarded access in terms of the decode error's registers. -/
theorem State.discarded_eq_regs (s : State) (a : HostAccess) :
    s.discarded a = { s with regs := (s.decodeError a.write a.addr).regs, hostReply := s.hostReply ++ (if a.write then [] else [0]) } := by
  unfold State.discarded
  split
  · rw [s.decodeError_eq_regs, List.append_nil]
  · rw [s.decodeError_eq_regs]
    rfl

theorem State.reg_discarded (s : State) (a : HostAccess) (i : RegId) : (s.discarded a).reg i = (s.decodeError a.write a.addr).reg i := by
  rw [s.discarded_eq_regs]
  rfl

theorem State.bit_discarded (s : State) (a : HostAccess) : bit ((s.discarded a).reg (modR .MODC_STATUS)) 0 = true := by
  rw [s.reg_discarded]
  exact s.bit_status_decodeError ..

/- Registers that take a plain write. -/

theorem Leaf.enable_fields (l : Leaf) : ∀ f ∈ (regDef l.enable).fields, f.acc = .rw := by cases l <;> decide

theorem State.coreRegWrite_enable (s : State) {id : RegId} {l : Leaf} (h : id.name = l.enable) (n : Nat) (v : W64) (addr : Nat) :
    s.coreRegWrite id n v addr = s.plainWrite id v := by
  unfold State.coreRegWrite
  rw [h]
  cases l <;> rfl

theorem State.dieRegWrite_enable (s : State) {id : RegId} {l : Leaf} (h : id.name = l.enable) (d : Nat) (v : W64) :
    s.dieRegWrite id d v = s.plainWrite id v := by
  unfold State.dieRegWrite
  rw [h]
  cases l <;> rfl

theorem State.stackRegWrite_enable (s : State) {id : RegId} {l : Leaf} (h : id.name = l.enable) (st : Nat) (v : W64) (addr : Nat) :
    s.stackRegWrite id st v addr = s.plainWrite id v := by
  unfold State.stackRegWrite
  rw [h]
  cases l <;> rfl

theorem State.modRegWrite_enable (s : State) {id : RegId} {l : Leaf} (h : id.name = l.enable) (v : W64) (addr : Nat) :
    s.modRegWrite id v addr = s.plainWrite id v := by
  unfold State.modRegWrite
  rw [h]
  cases l <;> rfl

theorem Leaf.enable_ne (l : Leaf) : l.enable ∉ [.RESIDUE_INJECT, .KNOT_HOST_OP, .LANE_CTRL] := by cases l <;> decide

/-- An ENABLE register takes a plain write, whatever its part (15 R384). -/
theorem State.regWrite_enable (s : State) {id : RegId} {l : Leaf} (h : id.name = l.enable) (v : W64) (addr : Nat) :
    s.regWrite id v addr = s.plainWrite id v := by
  have hne : ∀ n ∈ [RegName.RESIDUE_INJECT, .KNOT_HOST_OP, .LANE_CTRL], id.name ≠ n := fun n hn e => l.enable_ne (h ▸ e ▸ hn)
  unfold State.regWrite
  cases id.part with
  | core n => exact s.coreRegWrite_enable h ..
  | ply n p => exact if_neg (hne _ (by decide))
  | dieCtl d => exact s.dieRegWrite_enable h ..
  | knotStore d => exact if_neg (hne _ (by decide))
  | stack st => exact s.stackRegWrite_enable h ..
  | link k => exact if_neg (hne _ (by decide))
  | module => exact s.modRegWrite_enable h ..
  | cluster d c => rfl
  | whip d => rfl
  | fabric d => rfl

/-- A write to a register all of whose fields are RW takes the value in their bits. -/
theorem bit_writes_rw (v : W64) {b : Nat} (h : b < 64) (fs : List RegField) (w : W64) (hall : ∀ f ∈ fs, f.acc = .rw) :
    bit (fs.foldl (fun w f => f.write w v) w) b = if fs.any (fun f => f.acc = .rw && f.lo ≤ b && b ≤ f.hi) then bit v b else bit w b := by
  induction fs generalizing w with
  | nil => rfl
  | cons f fs ih =>
    have hrw := hall f List.mem_cons_self
    rw [List.foldl_cons, ih _ fun g hg => hall g (List.mem_cons_of_mem _ hg), f.bit_write w v h, RegField.bitAfter, hrw, List.any_cons, hrw,
      decide_eq_true rfl, Bool.true_and]
    by_cases hin : f.lo ≤ b ∧ b ≤ f.hi
    · rw [if_pos hin, ite_self, decide_eq_true hin.1, decide_eq_true hin.2, Bool.and_self, Bool.true_or, if_pos rfl]
    · have hout : (decide (f.lo ≤ b) && decide (b ≤ f.hi)) = false := by simpa using hin
      rw [if_neg hin, hout, Bool.false_or]

theorem State.scrEventsAt_of_no_ecc (s : State) (core : Nat) (lines : List Nat) : s.scrEventsAt core lines [] = s := rfl

/-- Settles O47: the access is held, or goes to scratch or a register; each answers by its rule. -/
theorem hostAccesses : Obligations.HostAccesses := by
  unfold Obligations.HostAccesses
  intro s a hlo hhi
  refine ⟨fun hs => exec_registerWrite_of_silent hlo hhi hs, fun hs => ?_⟩
  intro scr n o
  have hreg (hscr : ¬ scr) : exec (.registerWrite a []) s = .next (s.regAccess a) := exec_registerWrite_of_not_scratch hlo hhi hscr hs
  have hscrex (hscr : scr) : exec (.registerWrite a []) s = .next (s.scratchAccess a []) := exec_registerWrite_of_scratch hscr hs
  have hin (hn : n < 384) (ho : o + a.size ≤ 2 ^ 21) : ¬ (384 ≤ n ∨ scratchSize < o + a.size) := by rw [scratchSize]; omega
  refine ⟨fun hscr hat => ?hole, fun id hscr hsize halign hat hread hname => ?read, fun id hscr hsize halign hat hwrite henable => ?enable,
    fun hscr hn ho hwrite => ?put, fun hscr hn ho hread hstate => ?get, fun hscr hn ho hread hstate => ?busy, fun hscr hout => ?outside⟩
  case hole =>
    refine ⟨s.discarded a, (hreg hscr).trans (congrArg Outcome.next (s.regAccess_of_none hat)), s.bit_discarded a, ?_, ?_, ?_, ?_⟩
    · rw [s.discarded_eq_regs]
    · intro hvalid
      rw [s.reg_discarded, s.reg_decodeError_detail, State.detail, if_pos hvalid]
    · intro hvalid
      rw [s.reg_discarded, s.reg_decodeError_detail, State.detail, if_neg (by rw [hvalid]; decide), State.reg_setReg_same]
    · rw [s.discarded_eq_regs]
      exact ⟨rfl, rfl, rfl⟩
  case read =>
    rw [hreg hscr, s.regAccess_of_reg hsize halign hat, if_neg (by rw [hread]; decide), State.regRead, if_neg hname]
  case enable =>
    obtain ⟨l, hl⟩ := henable
    refine ⟨?_, fun b hb => ?_⟩
    · rw [hreg hscr, s.regAccess_of_reg hsize halign hat, if_pos hwrite, s.regWrite_enable hl]
    · rw [s.reg_plainWrite]
      exact bit_writes_rw _ hb _ _ (hl ▸ l.enable_fields)
  case put =>
    rw [hscrex hscr, State.scratchAccess, if_neg (hin hn ho), if_pos hwrite]
  case get =>
    rw [hscrex hscr, State.scratchAccess, if_neg (hin hn ho), if_neg (by rw [hread]; decide), State.scrEventsAt_of_no_ecc]
    exact congrArg Outcome.next (if_neg hstate)
  case busy =>
    rw [hscrex hscr, State.scratchAccess, if_neg (hin hn ho), if_neg (by rw [hread]; decide), State.scrEventsAt_of_no_ecc]
    exact congrArg Outcome.next (if_pos hstate)
  case outside =>
    refine ⟨s.discarded a, ?_, s.bit_discarded a, ?_, ?_⟩
    · rw [hscrex hscr, State.scratchAccess, if_pos (hout.imp_right fun h => by rwa [scratchSize])]
      rfl
    · rw [s.discarded_eq_regs]
    · rw [s.discarded_eq_regs]

end Sys2Proof.Machine
end

section
/-! Bounds on voltage, clock and power, the voltage loop and the issue throttle (18 R466, R467, R471, R482). Settles O52. -/
set_option Elab.async false -- elaborate in order: side threads each hold a stack of their own

namespace Sys2Proof.Machine

open Host

/- Lists of one value per die. -/

theorem nth_set_same {α : Type} {l : List α} {i : Nat} (h : i < l.length) (d v : α) : nth (l.set i v) d i = v := by
  rw [nth, List.getElem?_set_self h]
  rfl

theorem nth_set_ne {α : Type} (l : List α) {i j : Nat} (h : i ≠ j) (d v : α) : nth (l.set i v) d j = nth l d j := by
  rw [nth, nth, List.getElem?_set_ne h]

/- The issue throttle. -/

/-- A throttle reason is set in the die's list, whatever it raises. -/
theorem State.pwr_throttle (s : State) (d b : Nat) :
    (s.throttle d b).pwr = { s.pwr with thr := s.pwr.thr.set d (nth s.pwr.thr 0 d ||| 2 ^ b) } := by
  unfold State.throttle
  extract_lets old t
  split
  · rfl
  · rw [(touches_override ..).pwr_eq, (touches_alert ..).pwr_eq, (touches_raise ..).pwr_eq]
    rfl

theorem State.pwr_unthrottle (s : State) (d b : Nat) :
    (s.unthrottle d b).pwr = { s.pwr with thr := s.pwr.thr.set d (nth s.pwr.thr 0 d - (nth s.pwr.thr 0 d &&& 2 ^ b)) } := rfl

theorem marks_override (s : State) : Marks causeNames s s.override := marks_tnrNow ..

theorem marks_throttle (s : State) (d b : Nat) : Marks warnNames s (s.throttle d b) := by
  unfold State.throttle
  extract_lets old t
  have ht : Marks warnNames s t := (touches_onPwr ..).marks .refl
  exact .ite ht ((marks_override ..).step ((marks_alert ..).step ((marks_raise ..).step ht)))

theorem or_two_pow_ne_zero (k b : Nat) : k ||| 2 ^ b ≠ 0 := fun h => by
  have hbit : (k ||| 2 ^ b).testBit b = true := by rw [Nat.testBit_or, Nat.testBit_two_pow_self, Bool.or_true]
  rw [h, Nat.zero_testBit] at hbit
  cases hbit

/- A refused bound. -/

theorem isHeld_eq_true {s : State} : s.isHeld = true ↔ s.step.state = .held := decide_eq_true_iff

/-- A refused write of a bound is a decode error: the bound's register stays, and the power state. -/
theorem State.refused_bound (s : State) (addr : Nat) {n : RegName} {i : Nat} (h : n ∉ [.MODC_STATUS, .MODC_COUNT, .MOD_DECODE_DETAIL]) :
    (s.decodeError true addr).reg (modR n i) = s.reg (modR n i) ∧ (s.decodeError true addr).pwr = s.pwr ∧
      bit ((s.decodeError true addr).reg (modR .MODC_STATUS)) 0 = true := by
  have hne (m : RegName) (j : Nat) (hm : m ∈ [RegName.MODC_STATUS, .MODC_COUNT, .MOD_DECODE_DETAIL]) : modR n i ≠ modR m j :=
    fun e => h (by rw [show n = m from congrArg RegId.name e]; exact hm)
  refine ⟨s.reg_decodeError_ne _ _ _ (hne _ _ (by decide)) (hne _ _ (by decide)) (hne _ _ (by decide)), ?_, s.bit_status_decodeError ..⟩
  rw [s.decodeError_eq_regs]

/- Software bounds. -/

theorem State.clkBound_of_ok {s : State} {v : W64} (h : s.step.state = .held ∧ 8 ≤ fld v 7 0 ∧ fld v 15 8 ≤ 15 ∧ fld v 7 0 ≤ fld v 15 8) :
    s.clkBound v = (s.setRegFld (modR .CLK_BOUND) 15 8 (fld v 15 8)).setRegFld (modR .CLK_BOUND) 7 0 (fld v 7 0) := by
  obtain ⟨hheld, hfloor, hceil, horder⟩ := h
  unfold State.clkBound
  extract_lets f c
  rw [if_neg (by rw [isHeld_eq_true.2 hheld]; simp; omega)]

theorem State.clkBound_of_not_ok {s : State} {v : W64} (h : ¬ (s.step.state = .held ∧ 8 ≤ fld v 7 0 ∧ fld v 15 8 ≤ 15 ∧ fld v 7 0 ≤ fld v 15 8)) :
    s.clkBound v = s.decodeError true 0x026000000020 := by
  unfold State.clkBound
  extract_lets f c
  rw [← isHeld_eq_true] at h
  rw [if_pos (by simp only [Bool.not_eq_true']; cases hh : s.isHeld <;> simp [hh] at h ⊢; omega)]

theorem State.powerCap_of_ok {s : State} {v : W64} (h : s.step.state = .held ∧ 900 ≤ fld v 11 0 ∧ fld v 11 0 ≤ 2600) :
    s.powerCap v = s.setRegFld (modR .POWER_CAP) 11 0 (fld v 11 0) := by
  obtain ⟨hheld, hlo, hhi⟩ := h
  unfold State.powerCap
  extract_lets w
  rw [if_neg (by rw [isHeld_eq_true.2 hheld]; simp; omega)]

theorem State.powerCap_of_not_ok {s : State} {v : W64} (h : ¬ (s.step.state = .held ∧ 900 ≤ fld v 11 0 ∧ fld v 11 0 ≤ 2600)) :
    s.powerCap v = s.decodeError true 0x026000000028 := by
  unfold State.powerCap
  extract_lets w
  rw [← isHeld_eq_true] at h
  rw [if_pos (by simp only [Bool.not_eq_true']; cases hh : s.isHeld <;> simp [hh] at h ⊢; omega)]

/-- VCORE brought within new bounds. -/
def clamp (lo hi v : Nat) : Nat := max lo (min hi v)

theorem State.voltBound_of_ok {s : State} {d : Nat} {v : W64}
    (h : s.step.state = .held ∧ 600 ≤ fld v 15 0 ∧ fld v 31 16 ≤ 850 ∧ fld v 15 0 ≤ fld v 31 16) :
    s.voltBound d v =
      (((s.onPwr fun p => { p with vcore := p.vcore.set d (clamp (2 * fld v 15 0) (2 * fld v 31 16) (nth s.pwr.vcore 0 d)) }).setRegFld (modR .VOLT_BOUND d)
        31 16 (fld v 31 16)).setRegFld (modR .VOLT_BOUND d) 15 0 (fld v 15 0)).setRegFld (modR .VOLT_BOUND d) 47 32
          (clamp (2 * fld v 15 0) (2 * fld v 31 16) (nth s.pwr.vcore 0 d) / 2) := by
  obtain ⟨hheld, hfloor, hceil, horder⟩ := h
  unfold State.voltBound
  extract_lets f c
  rw [if_neg (by rw [isHeld_eq_true.2 hheld]; simp; omega)]
  rfl

theorem State.voltBound_of_not_ok {s : State} {d : Nat} {v : W64}
    (h : ¬ (s.step.state = .held ∧ 600 ≤ fld v 15 0 ∧ fld v 31 16 ≤ 850 ∧ fld v 15 0 ≤ fld v 31 16)) :
    s.voltBound d v = s.decodeError true (0x026000000010 + 8 * d) := by
  unfold State.voltBound
  extract_lets f c
  rw [← isHeld_eq_true] at h
  rw [if_pos (by simp only [Bool.not_eq_true']; cases hh : s.isHeld <;> simp [hh] at h ⊢; omega)]

/- The voltage loop. -/

/-- The voltage that a margin asks for: one step of 2.5 mV toward 10 %. -/
def wanted (m v : Nat) : Nat := if m < 100 then v + 5 else if 100 < m then v - 5 else v

/-- The voltage loop up to the throttle: VCORE, its telltale bits, and the cause where a bound newly holds it. -/
def State.vcoreStep (s : State) (d : Nat) (v' : Nat) (held : Bool) : State :=
  let s1 := ((s.onPwr fun p => { p with vcore := p.vcore.set d v' }).setRegFld (modR .VOLT_BOUND d) 47 32 (v' / 2)).setRegFld (modR .VOLT_BOUND d) 48 48 (b01 held)
  let s2 := if held then s1.bump (modR .VOLT_HELD_US_TOTAL) 10 else s1
  if held && !bit (s.reg (modR .VOLT_BOUND d)) 48 then s2.raise (.dieCtl d) 13 else s2

theorem exec_voltageLoop {s : State} {d m : Nat} (hd : d < 2) (hgood : s.pwr.pwrGood = true) :
    exec (.voltageLoop d m) s =
      let lo := 2 * fld (s.reg (modR .VOLT_BOUND d)) 15 0
      let hi := 2 * fld (s.reg (modR .VOLT_BOUND d)) 31 16
      let want := wanted m (nth s.pwr.vcore 0 d)
      let t := s.vcoreStep d (clamp lo hi want) (decide (want ≠ clamp lo hi want))
      .next (if m < 30 ∧ clamp lo hi want = hi then t.throttle d 2 else t.unthrottle d 2) := by
  change execVoltageLoop d m s = _
  rw [execVoltageLoop, decide_eq_true hd, hgood]
  rfl

theorem State.pwr_vcoreStep (s : State) (d v' : Nat) (held : Bool) :
    (s.vcoreStep d v' held).pwr = { s.pwr with vcore := s.pwr.vcore.set d v' } := by
  unfold State.vcoreStep
  extract_lets s1 s2
  have h1 : s1.pwr = { s.pwr with vcore := s.pwr.vcore.set d v' } := rfl
  have h2 : s2.pwr = { s.pwr with vcore := s.pwr.vcore.set d v' } := by
    simp only [s2]
    split
    · rw [(touches_bump ..).pwr_eq, h1]
    · exact h1
  split
  · rw [(touches_raise ..).pwr_eq, h2]
  · exact h2

theorem State.bit_held_vcoreStep (s : State) (d v' : Nat) (held : Bool) :
    bit ((s.vcoreStep d v' held).reg (modR .VOLT_BOUND d)) 48 = held := by
  unfold State.vcoreStep
  extract_lets s1 s2
  have h1 : bit (s1.reg (modR .VOLT_BOUND d)) 48 = held := by
    rw [State.reg_setRegFld_same]
    cases held
    · exact bit_setFld_zero (by decide) _
    · exact bit_setFld_one (by decide) _
  have h2 : s2.reg (modR .VOLT_BOUND d) = s1.reg (modR .VOLT_BOUND d) := by
    simp only [s2]
    split
    · exact (regsWithin_bump ..).reg_eq _ (show RegName.VOLT_BOUND ∉ [RegName.VOLT_HELD_US_TOTAL] by decide)
    · rfl
  split
  · rw [(regsWithin_raise ..).reg_eq _ (show RegName.VOLT_BOUND ∉ causeNames by decide), h2, h1]
  · rw [h2, h1]

theorem decide_ne_clamp {lo hi : Nat} (h : lo ≤ hi) (w : Nat) : decide (w ≠ clamp lo hi w) = decide (w < lo ∨ hi < w) := by
  rw [decide_eq_decide, clamp]
  omega

/-- Settles O52: each accepted bound is its register's fields; the loop's step is the clamp. -/
theorem boundsAndLoops : Obligations.BoundsAndLoops := by
  unfold Obligations.BoundsAndLoops
  intro s
  refine ⟨fun v => ⟨fun hok => congrArg Outcome.next (State.clkBound_of_ok hok), fun hbad => ?clk⟩,
    fun v => ⟨fun hok => congrArg Outcome.next (State.powerCap_of_ok hok), fun hbad => ?cap⟩,
    fun d v hd => ⟨fun hok hlen => ?volt, fun hbad => ?voltBad⟩, fun d m hd hgood => ?off, fun d m hd hgood hlen hthr => ?loop⟩
  case clk =>
    obtain ⟨hreg, -, hbit⟩ := s.refused_bound 0x026000000020 (n := .CLK_BOUND) (i := 0) (by decide)
    exact ⟨_, congrArg Outcome.next (State.clkBound_of_not_ok hbad), hreg, hbit⟩
  case cap =>
    obtain ⟨hreg, -, hbit⟩ := s.refused_bound 0x026000000028 (n := .POWER_CAP) (i := 0) (by decide)
    exact ⟨_, congrArg Outcome.next (State.powerCap_of_not_ok hbad), hreg, hbit⟩
  case volt =>
    have hexec : exec (.voltBound d v) s = .next (s.voltBound d v) := by
      change execVoltBound d v s = _
      rw [execVoltBound, decide_eq_true hd]
      rfl
    obtain ⟨hheld, hfloor, hceil, horder⟩ := hok
    refine ⟨_, hexec, ?_⟩
    rw [State.voltBound_of_ok ⟨hheld, hfloor, hceil, horder⟩]
    have hclamp : 2 * fld v 15 0 ≤ clamp (2 * fld v 15 0) (2 * fld v 31 16) (nth s.pwr.vcore 0 d) ∧
        clamp (2 * fld v 15 0) (2 * fld v 31 16) (nth s.pwr.vcore 0 d) ≤ 2 * fld v 31 16 := by
      unfold clamp
      omega
    generalize clamp (2 * fld v 15 0) (2 * fld v 31 16) (nth s.pwr.vcore 0 d) = w at hclamp
    have hvcore : nth (s.pwr.vcore.set d w) 0 d = w := nth_set_same (by omega) ..
    have hf := fld_lt v (hi := 15) (lo := 0)
    have hc := fld_lt v (hi := 31) (lo := 16)
    refine ⟨?_, ?_, hvcore.symm ▸ hclamp.1, hvcore.symm ▸ hclamp.2⟩
    · rw [State.reg_setRegFld_same, fld_setFld_disjoint (by decide) (by decide) (by decide), State.reg_setRegFld_same,
        fld_setFld_same (by decide) (by decide), Nat.mod_eq_of_lt (by omega)]
    · rw [State.reg_setRegFld_same, fld_setFld_disjoint (by decide) (by decide) (by decide), State.reg_setRegFld_same,
        fld_setFld_disjoint (by decide) (by decide) (by decide), State.reg_setRegFld_same, fld_setFld_same (by decide) (by decide), Nat.mod_eq_of_lt (by omega)]
  case voltBad =>
    have hexec : exec (.voltBound d v) s = .next (s.voltBound d v) := by
      change execVoltBound d v s = _
      rw [execVoltBound, decide_eq_true hd]
      rfl
    refine ⟨_, hexec, ?_⟩
    rw [State.voltBound_of_not_ok hbad]
    exact s.refused_bound _ (by decide)
  case off =>
    change execVoltageLoop d m s = _
    rw [execVoltageLoop, decide_eq_true hd, hgood]
    rfl
  case loop =>
    intro lo hi v want hb
    let t := s.vcoreStep d (clamp lo hi want) (decide (want ≠ clamp lo hi want))
    have hexec : exec (.voltageLoop d m) s = .next (if m < 30 ∧ clamp lo hi want = hi then t.throttle d 2 else t.unthrottle d 2) :=
      exec_voltageLoop hd hgood
    have hpwr : t.pwr = { s.pwr with vcore := s.pwr.vcore.set d (clamp lo hi want) } := s.pwr_vcoreStep ..
    have hbit : bit (t.reg (modR .VOLT_BOUND d)) 48 = decide (want < lo ∨ hi < want) := (s.bit_held_vcoreStep ..).trans (decide_ne_clamp hb want)
    have hclamp : clamp lo hi want = if want < lo then lo else if hi < want then hi else want := by
      unfold clamp
      split
      · omega
      · split <;> omega
    have hvcore : nth t.pwr.vcore 0 d = clamp lo hi want := by rw [hpwr]; exact nth_set_same (by omega) ..
    have hthr' (x : Nat) : nth (t.pwr.thr.set d x) 0 d = x := nth_set_same (by rw [hpwr]; exact hthr.symm ▸ hd) ..
    refine ⟨_, hexec, ?_⟩
    split
    case isTrue htop =>
      refine ⟨?_, ?_, fun _ _ => ?_, fun _ hm => absurd htop.1 (by omega)⟩
      · rw [t.pwr_throttle, ← hclamp]
        exact hvcore
      · rw [(marks_throttle ..).reg_eq _ (show RegName.VOLT_BOUND ∉ warnNames by decide), hbit]
      · rw [t.pwr_throttle]
        change nth (t.pwr.thr.set d _) 0 d ≠ 0
        rw [hthr']
        exact or_two_pow_ne_zero _ _
    case isFalse htop =>
      refine ⟨hvcore.trans hclamp, hbit, fun hm hw => absurd ⟨hm, ?_⟩ htop, fun hold _ => ?_⟩
      rotate_left
      · unfold clamp
        omega
      · refine (hthr' _).trans ?_
        rw [hpwr]
        change nth s.pwr.thr 0 d - (nth s.pwr.thr 0 d &&& 4) = nth s.pwr.thr 0 d % 4
        have hsmall : ∀ k < 8, k - (k &&& 4) = k % 4 := by decide
        exact hsmall _ (by omega)

end Sys2Proof.Machine
end

section
/-! PMBus over I3C and ALERT_STATUS (18 R477, R478). Settles O54. -/
set_option Elab.async false -- elaborate in order: side threads each hold a stack of their own

namespace Sys2Proof.Machine

open Host Sys2Proof.Claims

/- ALERT_STATUS. -/

/-- Bits taken away from a byte. -/
theorem testBit_sub_and (x y : W64) (b : Nat) : (x.toNat - (x.toNat &&& y.toNat)).testBit b = (x.toNat.testBit b && !y.toNat.testBit b) := by
  have hdisj : (x &&& y) &&& (x &&& ~~~y) = 0#64 := by
    ext i
    simp only [BitVec.getElem_and, BitVec.getElem_not, BitVec.getElem_zero]
    cases x[i] <;> cases y[i] <;> rfl
  have hsum := BitVec.toNat_add_of_and_eq_zero hdisj
  have hor : (x &&& y) + (x &&& ~~~y) = x := by
    rw [BitVec.add_eq_or_of_and_eq_zero _ _ hdisj]
    ext i
    simp only [BitVec.getElem_or, BitVec.getElem_and, BitVec.getElem_not]
    cases x[i] <;> simp
  rw [hor, BitVec.toNat_and] at hsum
  have hrest : x.toNat - (x.toNat &&& y.toNat) = (x &&& ~~~y).toNat := by omega
  rw [hrest]
  rcases Nat.lt_or_ge b 64 with hb | hb
  · simp only [BitVec.testBit_toNat, BitVec.getLsbD_and, BitVec.getLsbD_not, decide_eq_true hb, Bool.true_and]
  · simp only [BitVec.testBit_toNat, BitVec.getLsbD_of_ge _ _ hb, Bool.false_and]

/-- A one written to ALERT_STATUS clears its bit unless its condition holds (R478). -/
theorem State.bit_alertClear (s : State) (v : Nat) {b : Nat} (hb : b < 8) :
    bit ((s.alertClear v).reg (modR .ALERT_STATUS)) b = (bit (s.reg (modR .ALERT_STATUS)) b && (!v.testBit b || nbit s.alertCond b)) := by
  have ha : (fld (s.reg (modR .ALERT_STATUS)) 7 0).testBit b = bit (s.reg (modR .ALERT_STATUS)) b := by
    rw [fld, testBit_bits, bit_eq_testBit, decide_eq_true (by omega), Bool.true_and, Nat.zero_add]
  have hword (k : Nat) (hk : k < 2 ^ 64) : k = (w64 k).toNat := (BitVec.toNat_ofNat ..).trans (Nat.mod_eq_of_lt hk) |>.symm
  unfold State.alertClear
  extract_lets a
  have hlt : a < 2 ^ 64 := Nat.lt_of_lt_of_le (fld_lt ..) (by decide)
  have hmask : v % 256 < 2 ^ 64 := Nat.lt_trans (Nat.mod_lt v (show 256 > 0 by decide)) (by decide)
  have hsub : (a - (a &&& v % 256)).testBit b = (a.testBit b && !(v % 256).testBit b) := by
    rw [hword a hlt, hword (v % 256) hmask]
    exact testBit_sub_and ..
  have hv : (v % 256).testBit b = v.testBit b := by
    rw [show 256 = 2 ^ 8 from rfl, Nat.testBit_mod_two_pow, decide_eq_true hb, Bool.true_and]
  rw [State.reg_setReg_same, bit_w64 _ (by omega), Nat.testBit_or, hsub, hv, Nat.testBit_and, ha, nbit_eq_testBit]
  cases bit (s.reg (modR .ALERT_STATUS)) b <;> rfl

/- LINEAR11. -/

/-- The mantissa of a value in thousandths under an exponent, from −16. -/
def mantissa (milli e : Nat) : Nat :=
  if e ≤ 16 then (milli * 2 ^ (16 - e) + 500) / 1000 else (milli + 500 * 2 ^ (e - 16)) / (1000 * 2 ^ (e - 16))

theorem mantissa_le_of_top {milli : Nat} (h : milli < 1000 * 1023 * 2 ^ 15) : mantissa milli 31 ≤ 1023 := by
  rw [mantissa, if_neg (by decide)]
  omega

/-- A value below the format's range has a word whose mantissa fits its exponent. -/
theorem linear11_eq {milli : Nat} (h : milli < 1000 * 1023 * 2 ^ 15) :
    ∃ e < 32, mantissa milli e ≤ 1023 ∧ linear11 milli = (e + 16) % 32 * 2 ^ 11 + mantissa milli e := by
  have hex : ((List.range 32).find? fun e => mantissa milli e ≤ 1023).isSome := by
    rw [List.find?_isSome]
    exact ⟨31, by decide, decide_eq_true (mantissa_le_of_top h)⟩
  obtain ⟨e, he⟩ := Option.isSome_iff_exists.1 hex
  have hfit : mantissa milli e ≤ 1023 := by simpa using List.find?_some he
  have hlt : e < 32 := List.mem_range.1 (List.mem_of_find?_eq_some he)
  refine ⟨e, hlt, hfit, ?_⟩
  have hword : linear11 milli = toTwos 5 ((((((List.range 32).find? fun e => mantissa milli e ≤ 1023).getD 31 : Nat)) : Int) - 16) * 2 ^ 11 +
      min (mantissa milli (((List.range 32).find? fun e => mantissa milli e ≤ 1023).getD 31)) 1023 := rfl
  rw [hword, he, Option.getD_some, Nat.min_eq_left hfit]
  have htwos : toTwos 5 ((e : Int) - 16) = (e + 16) % 32 := by
    unfold toTwos
    omega
  rw [htwos]

/-- The mantissa is the value rounded to the nearest: at most half a step off, for an exponent up to 0 … -/
theorem mantissa_near_fraction {milli e : Nat} (h : e ≤ 16) :
    2 * (mantissa milli e * 1000) ≤ 2 * (milli * 2 ^ (16 - e)) + 1000 ∧ 2 * (milli * 2 ^ (16 - e)) ≤ 2 * (mantissa milli e * 1000) + 1000 := by
  rw [mantissa, if_pos h]
  omega

/-- … and above 0. -/
theorem mantissa_near_multiple {milli e : Nat} (h : 16 < e) :
    2 * (mantissa milli e * 1000 * 2 ^ (e - 16)) ≤ 2 * milli + 1000 * 2 ^ (e - 16) ∧
      2 * milli ≤ 2 * (mantissa milli e * 1000 * 2 ^ (e - 16)) + 1000 * 2 ^ (e - 16) := by
  rw [mantissa, if_neg (by omega)]
  have hp := Nat.two_pow_pos (e - 16)
  generalize 2 ^ (e - 16) = p at hp
  have hdiv := Nat.div_add_mod (milli + 500 * p) (1000 * p)
  have hmod := Nat.mod_lt (milli + 500 * p) (show 0 < 1000 * p by omega)
  generalize (milli + 500 * p) / (1000 * p) = q at hdiv
  have hq : 1000 * p * q = q * 1000 * p := by rw [Nat.mul_comm, Nat.mul_assoc]
  rw [hq] at hdiv
  omega

/- Reads. -/

theorem exec_of_mem_pmbusReads {s : State} {r : Instr × List Byte} (h : r ∈ pmbusReads s) : exec r.1 s = .next (s.i3cReply r.2) := by
  simp only [pmbusReads, List.mem_cons, List.not_mem_nil, or_false] at h
  rcases h with rfl | rfl | rfl | rfl | rfl | rfl | rfl | rfl | rfl | rfl | rfl | rfl <;> rfl

/-- Settles O54: the reads from their rules, the accuracy from the mantissa's rounding, the alerts bit by bit. -/
theorem pmbusAndAlerts : Obligations.PmbusAndAlerts := by
  unfold Obligations.PmbusAndAlerts
  intro s
  refine ⟨fun r hr => exec_of_mem_pmbusReads hr, fun milli hmilli => ?_, fun v => ⟨rfl, fun b hb => ?_⟩, rfl⟩
  · intro w e y
    obtain ⟨x, hx, hfit, hw⟩ := linear11_eq hmilli
    have he : e = (x + 16) % 32 := by
      change linear11 milli / 2 ^ 11 = _
      omega
    have hy : y = mantissa milli x := by
      change linear11 milli % 2 ^ 11 = _
      omega
    refine ⟨by change linear11 milli < _; omega, hy ▸ hfit, fun hneg => ?_, fun hpos => ?_⟩
    · rw [hy, show 32 - e = 16 - x by omega]
      exact mantissa_near_fraction (by omega)
    · rw [hy, show e = x - 16 by omega]
      rcases Nat.lt_or_ge 16 x with hgt | hle
      · exact mantissa_near_multiple hgt
      · obtain rfl : x = 16 := by omega
        have := mantissa_near_fraction (milli := milli) (Nat.le_refl 16)
        omega
  · rw [s.bit_alertClear _ hb, bit_eq_testBit v, fld, testBit_bits, decide_eq_true (by omega), Bool.true_and, Nat.zero_add]

end Sys2Proof.Machine
end

section
/-! Loss of power, reset, boot, supply and temperature conditions (16 R416, 17 R434–R438, 18 R462–R480). Settles O53. -/
set_option Elab.async false -- elaborate in order: side threads each hold a stack of their own

namespace Sys2Proof.Machine

open Host

/- Warnings: what they set and what they leave. -/

/-- Bits of ALERT_STATUS and of every STATUS stay set, and both memories stay. -/
structure Warns (s t : State) : Prop where
  alertBits : BitsStay (modR .ALERT_STATUS) s t
  bits : ∀ q, BitsStay (statusOf q) s t
  hbm : t.hbm = s.hbm
  scratch : t.scratch = s.scratch

theorem Warns.refl (s : State) : Warns s s := ⟨.refl .., fun _ => .refl .., rfl, rfl⟩

theorem Warns.trans {s t u : State} (h : Warns s t) (k : Warns t u) : Warns s u :=
  ⟨h.alertBits.trans k.alertBits, fun q => (h.bits q).trans (k.bits q), k.hbm.trans h.hbm, k.scratch.trans h.scratch⟩

section

variable (s : State)

theorem warns_raise (p : Part) (b : Nat) : Warns s (s.raise p b) :=
  ⟨.of_reg_eq ((regsWithin_raise ..).reg_eq _ (by decide)), fun q => bitsStay_raise .., (touches_raise ..).hbm_eq, (touches_raise ..).scratch_eq⟩

theorem bitsStay_alert {b : Nat} (hb : b < 64) : BitsStay (modR .ALERT_STATUS) s (s.alert b) := by
  refine ⟨fun k hk => ?_⟩
  rw [State.alert, State.reg_setRegFld_same, bit_setFld (Nat.le_refl b) hb]
  split
  · rename_i hkb
    rw [show k - b = 0 by omega]
    rfl
  · exact hk

theorem warns_alert {b : Nat} (hb : b < 64) : Warns s (s.alert b) := ⟨bitsStay_alert _ hb, (marks_alert s b).bits, rfl, rfl⟩

theorem State.bit_alert {b : Nat} (hb : b < 64) : bit ((s.alert b).reg (modR .ALERT_STATUS)) b = true := by
  rw [State.alert, State.reg_setRegFld_same]
  exact bit_setFld_one hb _

theorem warns_override : Warns s s.override :=
  ⟨.of_reg_eq ((marks_override ..).reg_eq _ (by decide)), (marks_override s).bits, (touches_override ..).hbm_eq, (touches_override ..).scratch_eq⟩

theorem warns_onPwr (f : Power → Power) : Warns s (s.onPwr f) := ⟨.of_reg_eq rfl, fun _ => .of_reg_eq rfl, rfl, rfl⟩

theorem warns_onRel (d : Nat) (f : DieRel → DieRel) : Warns s (s.onRel d f) := ⟨.of_reg_eq rfl, fun _ => .of_reg_eq rfl, rfl, rfl⟩

theorem warns_setReg (n : RegName) (p : Part) (i : Nat) (v : W64) (h : n ≠ .ALERT_STATUS := by decide) (hl : ∀ l ∈ leaves, l.status ∉ [n] := by decide) :
    Warns s (s.setReg (rid n p i) v) :=
  ⟨.of_reg_eq (State.reg_setReg_ne _ _ _ _ fun e => h (congrArg RegId.name e).symm), (marks_setReg s n p i v hl).bits, rfl, rfl⟩

theorem warns_bump (n : RegName) (p : Part) (i k : Nat) (h : n ≠ .ALERT_STATUS := by decide) (hl : ∀ l ∈ leaves, l.status ∉ [n] := by decide) :
    Warns s (s.bump (rid n p i) k) := by
  unfold State.bump
  split
  · exact .refl s
  · exact warns_setReg s n p i _ h hl

theorem warns_throttle (d b : Nat) : Warns s (s.throttle d b) := by
  unfold State.throttle
  extract_lets old t
  have ht : Warns s t := warns_onPwr ..
  split
  · exact ht
  · exact ht.trans ((warns_raise ..).trans ((warns_alert _ (by decide)).trans (warns_override _)))

theorem warns_spareExhausted (d : Nat) : Warns s (s.spareExhausted d) := (warns_raise ..).trans (warns_alert _ (by decide))

end

/-- A condition's alert and the die controller's cause are set, and memory stays. -/
structure Warned (s t : State) (b c d : Nat) : Prop where
  alert : bit (t.reg (modR .ALERT_STATUS)) b = true
  cause : bit (t.reg (dieR .DIECTL_STATUS d)) c = true
  hbm : t.hbm = s.hbm
  scratch : t.scratch = s.scratch

theorem Warned.trans {s t u : State} {b c d : Nat} (h : Warned s t b c d) (k : Warns t u) : Warned s u b c d :=
  ⟨k.alertBits.bit b h.alert, (k.bits (.dieCtl d)).bit c h.cause, k.hbm.trans h.hbm, k.scratch.trans h.scratch⟩

theorem Warned.after {s t u : State} {b c d : Nat} (k : Warned t u b c d) (h : Warns s t) : Warned s u b c d :=
  ⟨k.alert, k.cause, k.hbm.trans h.hbm, k.scratch.trans h.scratch⟩

/-- A cause raised and its alert. -/
theorem warned_raise_alert {s t : State} (h : Warns s t) (d : Nat) {b c : Nat} (hb : b < 64) (hc : c < 64) : Warned s ((t.raise (.dieCtl d) c).alert b) b c d := by
  refine ⟨State.bit_alert _ hb, ?_, ?_, ?_⟩
  · exact ((warns_alert _ hb).bits (.dieCtl d)).bit c (t.bit_status_raised (.dieCtl d) hc ..)
  · exact ((warns_raise ..).trans (warns_alert _ hb)).hbm.trans h.hbm
  · exact ((warns_raise ..).trans (warns_alert _ hb)).scratch.trans h.scratch

/- Loss of power. -/

/-- All is lost but OTP and flash (R462, R473, R479). -/
structure PowerLost (s t : State) : Prop where
  regs : t.regs = []
  hbm : t.hbm = []
  scratch : t.scratch = []
  cores : t.cores = []
  job : t.job = {}
  pwrGood : t.pwr.pwrGood = false
  otp : t.sec.otp = s.sec.otp
  flash : t.sec.flash = s.sec.flash

theorem State.powerLost_powerOff (s : State) (en latched tripN : Bool) : PowerLost s (s.powerOff en latched tripN) := by
  constructor <;> rfl

theorem PowerLost.of_sec {s t u : State} (h : PowerLost t u) (hsec : t.sec = s.sec) : PowerLost s u :=
  { h with otp := h.otp.trans (by rw [hsec]), flash := h.flash.trans (by rw [hsec]) }

/- Reset. -/

theorem regLook_filter (l : List (RegId × W64)) (keep : RegId → Bool) (i : RegId) :
    regLook (l.filter fun p => keep p.1) i = if keep i then regLook l i else none := by
  induction l with
  | nil => rw [List.filter_nil, regLook, ite_self]
  | cons p l ih =>
    obtain ⟨k, v⟩ := p
    rw [List.filter_cons]
    by_cases hk : k = i
    · subst hk
      by_cases hkeep : keep k = true
      · simp only [hkeep, if_true, regLook]
      · rw [if_neg hkeep, ih, if_neg hkeep, if_neg hkeep]
    · have hrest : regLook ((k, v) :: l) i = regLook l i := if_neg hk
      split
      · exact (if_neg hk).trans (ih.trans (by rw [hrest]))
      · rw [ih, hrest]

theorem State.reg_moduleReset (s : State) (r : Bool) (i : RegId) :
    (s.moduleReset r).reg i = if keptByReset i then s.reg i else regReset i.name := by
  change (regLook (s.regs.filter fun p => keptByReset p.1) i).getD (regReset i.name) = _
  rw [regLook_filter]
  split <;> rfl

/-- A map's values changed one by one. -/
theorem sget_map {α β : Type} (f : α → β) (m : SMap α) (d : α) (k : Nat) : sget (m.map fun p => (p.1, f p.2)) (f d) k = f (sget m d k) := by
  induction m with
  | nil => rfl
  | cons p m ih =>
    simp only [List.map_cons, sget, ih]
    split <;> rfl

theorem State.core_moduleReset (s : State) (r : Bool) (n : Nat) : (s.moduleReset r).core n = { ec := { layers := (s.core n).ec.layers } } :=
  sget_map (fun c : Core => ({ ec := { layers := c.ec.layers } } : Core)) s.cores {} n

theorem State.dieRel_moduleReset (s : State) (r : Bool) (d : Nat) : (s.moduleReset r).dieRel d = (s.dieRel d).afterReset :=
  sget_map DieRel.afterReset s.rel {} d

/- Phases. -/

theorem popc_le_of_one_bit {v w p : Nat} (n : Nat) (h : ∀ i, i ≠ p → w.testBit i = v.testBit i) : popc n w ≤ popc n v + 1 := by
  induction n generalizing v w p with
  | zero => exact Nat.zero_le _
  | succ n ih =>
    have hhalf (x i : Nat) : (x / 2).testBit i = x.testBit (i + 1) := (Nat.testBit_succ x i).symm
    simp only [popc]
    rcases Nat.eq_zero_or_pos p with rfl | hp
    · have heq : w / 2 = v / 2 := Nat.eq_of_testBit_eq fun i => by rw [hhalf, hhalf, h _ (by omega)]
      rw [heq]
      omega
    · have hlow : w % 2 = v % 2 := by
        have h0 := h 0 (by omega)
        rw [Nat.testBit_zero, Nat.testBit_zero, decide_eq_decide] at h0
        omega
      have := ih (v := v / 2) (w := w / 2) (p := p - 1) fun i hi => by rw [hhalf, hhalf, h _ (by omega)]
      omega

/-- One more phase out of use leaves at most one usable phase fewer. -/
theorem State.phasesUsable_of_phase {s t : State} {p : Nat} (h : t.reg (modR .PHASE_STATUS) = setFld (s.reg (modR .PHASE_STATUS)) p p 1) (hp : p < 28) :
    s.phasesUsable ≤ t.phasesUsable + 1 := by
  have hpop : popc 28 (fld (t.reg (modR .PHASE_STATUS)) 27 0) ≤ popc 28 (fld (s.reg (modR .PHASE_STATUS)) 27 0) + 1 := by
    refine popc_le_of_one_bit 28 (p := p) fun i hi => ?_
    rw [fld, fld, testBit_bits, testBit_bits, h, testBit_setFld (Nat.le_refl p) (by omega), if_neg (by omega)]
  unfold State.phasesUsable
  omega

/-- A phase shed, up to what its count makes due: marked, counted, logged with its alert, a safety action (R464). -/
def State.shed (s : State) (p : Nat) : State :=
  ((((s.setRegFld (modR .PHASE_STATUS) p p 1).bump (modR .PHASE_SHED_TOTAL) 1).raise (.dieCtl 0) 10).alert 2).override

/-- What a phase shed makes due: shutdown, a power cap, or a spare at the next slot (R464). -/
def State.shedDue (t : State) (p : Nat) : State :=
  if t.phasesUsable < 20 then t.powerOff t.pwr.pwrEn true true
  else if t.phasesUsable < 24 then (t.onPwr fun x => { x with capLimit := t.phasesUsable * 2600 / 24 }).spareExhausted 0
  else if (t.dieRel 0).marks.countP (fun m => m.kind = 0x0B) < fld (t.reg (modR .PHASE_STATUS)) 63 60 then
    t.onRel 0 fun x => { x with marks := x.marks ++ [⟨0x0B, 0, p⟩] }
  else t

theorem exec_phaseShed {s : State} {p : Nat} (hp : p < 28) :
    exec (.phaseShed p) s = .next (if !s.pwr.pwrGood || bit (s.reg (modR .PHASE_STATUS)) p then s else (s.shed p).shedDue p) := by
  change execPhaseShed p s = _
  unfold execPhaseShed
  rw [decide_eq_true hp, guardPart, if_pos rfl]
  rfl

theorem State.reg_shed (s : State) (p : Nat) :
    (s.shed p).reg (modR .PHASE_STATUS) = setFld (s.reg (modR .PHASE_STATUS)) p p 1 ∧
      (s.shed p).reg (modR .PHASE_SHED_TOTAL) = satAdd (s.reg (modR .PHASE_SHED_TOTAL)) 1 := by
  have hrest (i : RegId) (h : i.name ∉ warnNames) :
      (s.shed p).reg i = ((s.setRegFld (modR .PHASE_STATUS) p p 1).bump (modR .PHASE_SHED_TOTAL) 1).reg i := by
    have hm : Marks warnNames ((s.setRegFld (modR .PHASE_STATUS) p p 1).bump (modR .PHASE_SHED_TOTAL) 1) (s.shed p) :=
      (marks_override ..).step ((marks_alert ..).step (marks_raise ..).mono)
    exact hm.reg_eq i h
  constructor
  · rw [hrest _ (by decide), State.reg_bump_ne _ _ _ _ (by decide), State.reg_setRegFld_same]
  · rw [hrest _ (by decide), State.reg_bump, if_neg (by decide), State.reg_setRegFld_ne _ _ _ _ _ _ (by decide)]

theorem State.warned_shed (s : State) (p : Nat) : Warned s (s.shed p) 2 10 0 :=
  (warned_raise_alert ((warns_setReg s .PHASE_STATUS .module 0 _).trans (warns_bump ..)) 0 (by decide) (by decide)).trans (warns_override _)

theorem State.warns_shedDue (t : State) (p : Nat) (h : 20 ≤ t.phasesUsable) : Warns t (t.shedDue p) := by
  unfold State.shedDue
  rw [if_neg (by omega)]
  split
  · exact (warns_onPwr ..).trans (warns_spareExhausted ..)
  · split
    · exact warns_onRel ..
    · exact .refl t

theorem State.reg_shedDue (t : State) (p : Nat) (h : 20 ≤ t.phasesUsable) :
    (t.shedDue p).reg (modR .PHASE_STATUS) = t.reg (modR .PHASE_STATUS) ∧ (t.shedDue p).reg (modR .PHASE_SHED_TOTAL) = t.reg (modR .PHASE_SHED_TOTAL) := by
  have hm : Marks warnNames t (t.shedDue p) := by
    unfold State.shedDue
    rw [if_neg (by omega)]
    exact .ite ((marks_spareExhausted ..).step ((touches_onPwr ..).marks .refl)) (.ite (marks_onRel ..).mono .refl)
  exact ⟨hm.reg_eq _ (by decide), hm.reg_eq _ (by decide)⟩

/- Throttle reasons. -/

theorem nbit_or_two_pow (k b : Nat) : nbit (k ||| 2 ^ b) b = true := by
  rw [nbit_eq_testBit, Nat.testBit_or, Nat.testBit_two_pow_self, Bool.or_true]

theorem nbit_sub_and_one (k : Nat) : nbit (k - (k &&& 2 ^ 0)) 0 = false := by
  rw [Nat.pow_zero, Nat.and_one_is_mod, nbit_eq_testBit, Nat.testBit_zero, decide_eq_false_iff_not]
  omega

/- The commands. -/

theorem exec_vinWarn {s : State} {mv : Nat} (hgood : s.pwr.pwrGood = true) : exec (.vinWarn mv) s = .next (
    if decide (mv < 33500) || decide (39500 < mv) then
      ((s.onPwr fun p => { p with vin := mv, cond := b01 (decide (mv < 33500) || decide (39500 < mv)) }).raise (.dieCtl 0) 8).alert 0
    else s.onPwr fun p => { p with vin := mv, cond := b01 (decide (mv < 33500) || decide (39500 < mv)) }) := by
  change execVinWarn mv s = _
  unfold execVinWarn
  extract_lets bad t
  have ht : t.pwr.pwrGood = true := hgood
  rw [ht, Bool.and_true]

/-- A sample of the input voltage. -/
def State.vinSample (s : State) (mv : Nat) : State := s.onPwr fun p => { p with vin := mv }

/-- A sample of the input current. -/
def State.iinSample (s : State) (ma : Nat) : State := s.onPwr fun p => { p with iin := ma }

theorem exec_vinFault {s : State} {mv : Nat} (hgood : s.pwr.pwrGood = true) : exec (.vinFault mv) s = .next (
    if decide (mv < 32000) || decide (41000 < mv) then (((s.vinSample mv).raise (.dieCtl 0) 9).alert 1).powerOff (s.vinSample mv).pwr.pwrEn true true
    else s.vinSample mv) := by
  change execVinFault mv s = _
  unfold execVinFault
  extract_lets t
  have ht : t.pwr.pwrGood = true := hgood
  rw [ht, Bool.true_and]
  rfl

theorem exec_vinOvercurrent {s : State} {ma : Nat} (hgood : s.pwr.pwrGood = true) : exec (.vinOvercurrent ma) s = .next (
    if 80000 < ma then (((((s.iinSample ma).throttle 0 1).throttle 1 1).raise (.dieCtl 0) 8).alert 0)
    else ((s.iinSample ma).unthrottle 0 1).unthrottle 1 1) := by
  change execVinOvercurrent ma s = _
  unfold execVinOvercurrent
  extract_lets t
  have ht : t.pwr.pwrGood = true := hgood
  rw [ht, Bool.true_and]
  simp only [decide_eq_true_eq]
  rfl

/-- A sample of a compute die's temperature. -/
def State.dieSample (s : State) (d temp : Nat) : State := s.onPwr fun p => { p with dieTemp := p.dieTemp.set d temp }

theorem exec_thermalThrottle {s : State} {d temp : Nat} (hd : d < 2) (hgood : s.pwr.pwrGood = true) (ht : 95 ≤ temp) :
    exec (.thermalThrottle d temp) s = .next ((s.dieSample d temp).throttle d 0) := by
  change execThermalThrottle d temp s = _
  unfold execThermalThrottle
  rw [decide_eq_true hd, guardPart, if_pos rfl]
  extract_lets t
  have hg : t.pwr.pwrGood = true := hgood
  rw [hg, decide_eq_true ht, Bool.and_self, if_pos rfl]
  rfl

theorem exec_throttleRelease {s : State} {d temp : Nat} (hd : d < 2) (ht : temp ≤ 92) :
    exec (.throttleRelease d temp) s = .next ((s.dieSample d temp).unthrottle d 0) := by
  change execThrottleRelease d temp s = _
  unfold execThrottleRelease
  rw [decide_eq_true hd, guardPart, if_pos rfl]
  extract_lets t
  rw [if_pos ht]
  rfl

/-- An excursion newly throttles a die: its alert and cause. -/
theorem State.warned_throttle (s : State) (d b : Nat) (h : nth s.pwr.thr 0 d = 0) : Warned s (s.throttle d b) 4 11 d := by
  unfold State.throttle
  extract_lets old t
  rw [if_neg (Classical.not_not.2 h)]
  exact (warned_raise_alert (warns_onPwr ..) d (by decide) (by decide)).trans (warns_override _)

theorem exec_thermTrip {s : State} {p temp : Nat} (hp : p < 4) : exec (.thermTrip p temp) s = .next (
    if s.pwr.pwrGood && decide (105 ≤ temp) then s.powerOff s.pwr.pwrEn true false
    else s.onPwr fun x =>
      if p < 2 then { x with dieTemp := x.dieTemp.set p temp } else if p = 2 then { x with baseTemp := temp } else { x with hostTemp := temp }) := by
  change execThermTrip p temp s = _
  rw [execThermTrip, decide_eq_true hp, guardPart, if_pos rfl]

theorem exec_refLost {s : State} {r : Nat} (hr : r < 2) : exec (.refLost r) s = .next (
    if s.pwr.refLost.contains r then s else ((s.onPwr fun p => { p with refLost := p.refLost ++ [r] }).raise (.dieCtl r) 12).alert 5) := by
  change execRefLost r s = _
  rw [execRefLost, decide_eq_true hr, guardPart, if_pos rfl]

theorem exec_refReturn {s : State} {r : Nat} (hr : r < 2) : exec (.refReturn r) s = .next (
    if s.pwr.refLost.contains r then s.onPwr fun p => { p with refLost := p.refLost.filter (· ≠ r), refRelock := true } else s) := by
  change execRefReturn r s = _
  rw [execRefReturn, decide_eq_true hr, guardPart, if_pos rfl]

/-- Settles O53: each event by its command's equation, its warnings by what a raised cause and an alert leave. -/
theorem supplyAndReset : Obligations.SupplyAndReset := by
  unfold Obligations.SupplyAndReset
  intro s lost same alert
  have halert {i : Instr} {t : State} {b c d : Nat} (hi : exec i s = .next t) (h : Warned s t b c d) : alert i b c d := ⟨t, hi, h.alert, h.cause, h.hbm, h.scratch⟩
  have hlost {t : State} (h : PowerLost s t) : lost t := ⟨h.regs, h.hbm, h.scratch, h.cores, h.job, h.pwrGood, h.otp, h.flash⟩
  have hoff (en latched tripN : Bool) : lost (s.powerOff en latched tripN) := hlost (s.powerLost_powerOff ..)
  refine ⟨fun hen => ?on, fun hen => ?off, fun hn => ?inReset, fun hn => ?reset, fun hboot => ?noBoot, fun hgood hn href => ?boot, fun hb => ?notBooting,
    fun hb => ⟨fun hok => ?verified, fun hlife hcheck => ?bad⟩, fun bytes => ⟨fun hm => ?noRecovery, fun hm => ?recovery⟩, fun hr => ?noHbm, fun hm hr hout => ?hbm,
    fun mv hgood => ⟨fun hmv => ?warn, fun hlo hhi => ?warnEnd, fun hmv => ?fault, fun hlo hhi => ?noFault⟩,
    fun ma hgood hlen => ⟨fun hma => ?current, fun hma => ?underCurrent⟩, fun p hp => ⟨fun hbit => ?shedBefore, fun hgood hbit hphases => ?shed⟩,
    fun d temp hd hlen hgood => ⟨fun ht => ?hot, fun ht hthr => ?hotAlert, fun ht => ?cool⟩, fun p temp hp => ⟨fun hgood ht => ?trip, fun ht => ?noTrip⟩,
    fun r hr => ⟨fun hm => ?refBefore, fun hm => ?ref⟩, fun hn => ?noHoldover, fun hne hin => ?holdover⟩
  case on =>
    have hfall : exec .pwrEnFall s = .next (s.powerOff false false true) := congrArg Outcome.next (if_pos hen)
    exact ⟨congrArg Outcome.next (if_pos hen), _, hfall, hoff .., rfl⟩
  case off =>
    have hne : ¬ s.pwr.pwrEn = true := by rw [hen]; decide
    have hrise : exec .pwrEnRise s = .next { s with clock := 0, pwr := { s.pwr with pwrEn := true, pwrGood := true, latched := false, tripN := true }, sec := { s.sec with lifecycle := s.sec.lifeOtp } } :=
      congrArg Outcome.next (if_neg hne)
    exact ⟨congrArg Outcome.next (if_neg hne), _, hrise, rfl, rfl, rfl, rfl⟩
  case inReset => exact congrArg Outcome.next (if_neg (by rw [hn]; decide))
  case reset =>
    have hexec : exec .resetNAssert s = .next (s.moduleReset s.pwr.inReset) := congrArg Outcome.next (if_pos hn)
    refine ⟨_, hexec, rfl, rfl, rfl, rfl, s.core_moduleReset _, fun d => ?_, fun d i => ?_, fun n b => ⟨?_, ?_⟩⟩
    · rw [s.dieRel_moduleReset]
      exact ⟨rfl, rfl, rfl⟩
    · exact (s.reg_moduleReset ..).trans (if_pos rfl)
    · have hclear : keptByReset (coreR .CORE_STATUS n) = false := rfl
      rw [s.reg_moduleReset, hclear]
      rfl
    · exact (s.reg_moduleReset ..).trans (if_pos rfl)
  case noBoot =>
    refine congrArg Outcome.next (if_pos ?_)
    rcases hboot with h | h <;> rw [h]
    · rfl
    · rw [Bool.or_true, Bool.true_or]
  case boot =>
    have hexec : exec .firmwareBoot s = .next { s with
        pwr := { s.pwr with resetN := true, inReset := false }, sec := { s.sec with booting := decide (s.sec.lifecycle ≠ 4), mode := 0, stage := 0 } } := by
      refine congrArg Outcome.next (if_neg ?_)
      rw [hgood, hn, href]
      simp
    exact ⟨_, hexec, rfl, rfl, rfl⟩
  case notBooting => exact congrArg Outcome.next (if_pos (by rw [hb]; rfl))
  case verified =>
    have hexec : exec .firmwareVerified s = .next s.fwRelease := by
      refine congrArg Outcome.next ((if_neg (by rw [hb]; decide)).trans (if_pos ?_))
      rcases hok with h | h <;> rw [h]
      · exact if_pos rfl
      · exact ite_self _
    exact ⟨_, hexec, rfl, rfl, rfl⟩
  case bad =>
    have hexec : exec .firmwareVerified s = .next
        ({ s with sec := { s.sec with booting := false, mode := 2, stage := if s.sec.lifecycle = 0 then 0 else s.sec.fwCheck } }.alert 7) :=
      congrArg Outcome.next ((if_neg (by rw [hb]; decide)).trans (if_neg (by rw [if_neg hlife]; exact hcheck)))
    exact ⟨_, hexec, rfl, rfl, if_neg hlife, State.bit_alert _ (by decide)⟩
  case noRecovery => exact congrArg Outcome.next (if_pos hm)
  case recovery => exact congrArg Outcome.next (if_neg (Classical.not_not.2 hm))
  case noHbm =>
    refine congrArg Outcome.next (if_pos ?_)
    rcases hr with h | h <;> simp [h]
  case hbm =>
    have hexec : exec .hbmReady s = .next ({ s with hbm := [], poison := [], mem := { s.mem with pages := [] }, pwr := { s.pwr with hbmReady := true } }).serveHeld :=
      congrArg Outcome.next (if_neg (by rw [hm, hr]; decide))
    rw [State.serveHeld_of_nil (by exact hout)] at hexec
    exact ⟨_, hexec, rfl, rfl, rfl, rfl⟩
  case warn =>
    have hbad : (decide (mv < 33500) || decide (39500 < mv)) = true := by simpa using hmv
    exact halert ((exec_vinWarn hgood).trans (congrArg Outcome.next (if_pos hbad))) (warned_raise_alert (warns_onPwr ..) 0 (by decide) (by decide))
  case warnEnd =>
    have hin : (decide (mv < 33500) || decide (39500 < mv)) = false := by simp; omega
    rw [exec_vinWarn hgood, hin]
    rfl
  case fault =>
    have hbad : (decide (mv < 32000) || decide (41000 < mv)) = true := by simpa using hmv
    refine ⟨_, (exec_vinFault hgood).trans (congrArg Outcome.next (if_pos hbad)), hlost ((State.powerLost_powerOff ..).of_sec ?_), rfl⟩
    rw [(touches_alert ..).sec_eq, (touches_raise ..).sec_eq]
    rfl
  case noFault =>
    have hin : (decide (mv < 32000) || decide (41000 < mv)) = false := by simp; omega
    rw [exec_vinFault hgood, hin]
    rfl
  case current =>
    have hexec := (exec_vinOvercurrent hgood).trans (congrArg Outcome.next (if_pos hma))
    have hsample : Warns s (((s.iinSample ma).throttle 0 1).throttle 1 1) := (warns_onPwr ..).trans ((warns_throttle ..).trans (warns_throttle ..))
    refine ⟨halert hexec (warned_raise_alert hsample 0 (by decide) (by decide)), _, hexec, ?_⟩
    rw [(touches_alert ..).pwr_eq, (touches_raise ..).pwr_eq, State.pwr_throttle, State.pwr_throttle]
    change nth (((s.pwr.thr.set 0 _).set 1 _)) 0 0 ≠ 0 ∧ nth (((s.pwr.thr.set 0 _).set 1 _)) 0 1 ≠ 0
    rw [nth_set_ne _ (by decide), nth_set_same (by omega), nth_set_same (by rw [List.length_set]; omega)]
    exact ⟨or_two_pow_ne_zero _ _, or_two_pow_ne_zero _ _⟩
  case underCurrent =>
    exact ⟨_, (exec_vinOvercurrent hgood).trans (congrArg Outcome.next (if_neg (by omega))), rfl, rfl⟩
  case shedBefore => exact (exec_phaseShed hp).trans (congrArg Outcome.next (if_pos (by rw [hbit, Bool.or_true])))
  case shed =>
    have hexec := (exec_phaseShed hp).trans (congrArg Outcome.next (if_neg (by rw [hgood, hbit]; decide)))
    obtain ⟨hstatus, htotal⟩ := s.reg_shed p
    have husable := State.phasesUsable_of_phase hstatus hp
    have hdue := (s.shed p).warns_shedDue p (by omega)
    obtain ⟨hs, ht⟩ := (s.shed p).reg_shedDue p (by omega)
    refine ⟨halert hexec ((s.warned_shed p).trans hdue), _, hexec, ?_, ?_⟩
    · rw [hs, hstatus]
      exact bit_setFld_one (by omega) _
    · rw [ht, htotal]
  case hot =>
    refine ⟨_, exec_thermalThrottle hd hgood ht, ?_, (touches_throttle ..).hbm_eq.trans rfl⟩
    rw [State.pwr_throttle]
    change nbit (nth (s.pwr.thr.set d _) 0 d) 0 = true
    rw [nth_set_same (by omega)]
    exact nbit_or_two_pow ..
  case hotAlert => exact halert (exec_thermalThrottle hd hgood ht) (((s.dieSample d temp).warned_throttle d 0 hthr).after (warns_onPwr ..))
  case cool =>
    refine ⟨_, exec_throttleRelease hd ht, ?_, rfl⟩
    change nbit (nth (s.pwr.thr.set d _) 0 d) 0 = false
    rw [nth_set_same (by omega)]
    exact nbit_sub_and_one ..
  case trip => exact ⟨_, (exec_thermTrip hp).trans (congrArg Outcome.next (if_pos (by simp [hgood, ht]))), hoff .., rfl, rfl⟩
  case noTrip =>
    refine ⟨_, (exec_thermTrip hp).trans (congrArg Outcome.next (if_neg (by simp; omega))), rfl, rfl, ?_⟩
    change (if p < 2 then _ else if p = 2 then _ else _ : Power).pwrGood = _
    split
    · rfl
    · split <;> rfl
  case refBefore =>
    have hmem : s.pwr.refLost.contains r = true := List.contains_iff_mem.2 hm
    refine ⟨(exec_refLost hr).trans (congrArg Outcome.next (if_pos hmem)), _, (exec_refReturn hr).trans (congrArg Outcome.next (if_pos hmem)), ?_, rfl⟩
    change r ∉ s.pwr.refLost.filter (· ≠ r)
    simp
  case ref =>
    have hmem : ¬ s.pwr.refLost.contains r = true := fun h => hm (List.contains_iff_mem.1 h)
    exact ⟨(exec_refReturn hr).trans (congrArg Outcome.next (if_neg hmem)),
      halert ((exec_refLost hr).trans (congrArg Outcome.next (if_neg hmem))) (warned_raise_alert (warns_onPwr ..) r (by decide) (by decide))⟩
  case noHoldover =>
    refine congrArg Outcome.next (if_pos ?_)
    rcases hn with h | h <;> simp [h]
  case holdover =>
    have hexec : exec .refHoldoverExpiry s = .next (((s.moduleReset true).onPwr fun p => { p with resetN := s.pwr.resetN }).alert 5) := by
      refine congrArg Outcome.next (if_neg ?_)
      simp [hin, hne]
    exact ⟨_, hexec, rfl, rfl, s.core_moduleReset true, State.bit_alert _ (by decide)⟩

end Sys2Proof.Machine
end

section
/-! SUPPORT. What sending keeps of the links (13 R343–R349): the receiving side of every link, and the replay buffer of a link that is not up. Which registers the work of a link writes. -/
set_option Elab.async false -- elaborate in order: side threads each hold a stack of their own

namespace Sys2Proof.Machine

/-- A link's state but for what its sending side keeps. -/
def LinkSt.received (l : LinkSt) : LinkSt := { l with queues := [], credits := [], turn := false, txSeq := 0, replay := [], sent := 0, owed := 0 }

/-- Only the sending sides of links may differ, and the replay buffers only of links that are up. -/
structure SentOnly (s t : State) : Prop where
  received : ∀ h, (t.link h).received = (s.link h).received
  replay : ∀ h, s.linkUp h = false → (t.link h).replay = (s.link h).replay
  up : ∀ h, t.linkState h = s.linkState h

section

variable {s t u : State}

theorem SentOnly.refl (s : State) : SentOnly s s := ⟨fun _ => rfl, fun _ _ => rfl, fun _ => rfl⟩

theorem SentOnly.trans (h : SentOnly s t) (k : SentOnly t u) : SentOnly s u :=
  ⟨fun i => (k.received i).trans (h.received i), fun i hi => (k.replay i (by rw [State.linkUp, h.up]; exact hi)).trans (h.replay i hi),
    fun i => (k.up i).trans (h.up i)⟩

theorem SentOnly.inbox (h : SentOnly s t) (i : Nat) : (t.link i).inbox = (s.link i).inbox := show (t.link i).received.inbox = (s.link i).received.inbox from congrArg _ (h.received i)

theorem SentOnly.rxSeq (h : SentOnly s t) (i : Nat) : (t.link i).rxSeq = (s.link i).rxSeq := show (t.link i).received.rxSeq = (s.link i).received.rxSeq from congrArg _ (h.received i)

/-- Links as they were, and LINK_STATUS. -/
theorem SentOnly.of_links (hl : t.links = s.links) (hr : ∀ h, t.reg (linkR .LINK_STATUS h) = s.reg (linkR .LINK_STATUS h)) : SentOnly s t :=
  ⟨fun h => by simp only [State.link, hl], fun h _ => by simp only [State.link, hl], fun h => by simp only [State.linkState, hr]⟩

end

section

variable (s : State)

/-- A link's sending side updated; its replay buffer only where the link is up. -/
theorem sentOnly_setLink (h : Nat) (l : LinkSt) (hr : l.received = (s.link h).received) (hp : s.linkUp h = true ∨ l.replay = (s.link h).replay) :
    SentOnly s (s.setLink h l) := by
  refine ⟨fun i => ?_, fun i hi => ?_, fun _ => rfl⟩ <;> rw [State.link_setLink] <;> split
  · rename_i e
    rw [hr, e]
  · rfl
  · rename_i e
    subst e
    exact hp.resolve_left (by rw [hi]; decide)
  · rfl

theorem sentOnly_wireFlit (h head : Nat) (data : List Byte) : SentOnly s (s.wireFlit h head data).1 := by
  have hset : SentOnly s (s.setLink h { s.link h with sent := (s.link h).sent + 1 }) := sentOnly_setLink s h _ rfl (.inr rfl)
  refine hset.trans (.of_links ?_ fun i => ?_)
  · exact (touches_bump ..).links_eq
  · exact State.reg_bump_ne _ _ _ _ fun e => by cases congrArg RegId.name e

theorem sentOnly_sendControl (h : Nat) (nak : Bool) (a b : Nat) : SentOnly s (s.sendControl h nak a b) := by
  unfold State.sendControl
  split
  · exact sentOnly_wireFlit ..
  · exact .refl s

theorem sentOnly_giveCredits (h vc n : Nat) : SentOnly s (s.giveCredits h vc n) := by
  unfold State.giveCredits
  split
  · exact sentOnly_setLink s h _ rfl (.inr rfl)
  · extract_lets t
    have ht : SentOnly s t := by
      simp only [t]
      split
      · exact sentOnly_sendControl ..
      · exact .refl s
    split
    · exact ht.trans (sentOnly_sendControl ..)
    · exact ht

theorem sentOnly_sendData (h vc : Nat) (hup : s.linkUp h = true) : SentOnly s (s.sendData h vc) := by
  unfold State.sendData
  extract_lets l
  split
  · exact .refl s
  · extract_lets f l1 seq r l2 s1
    have h1 : SentOnly s (s.setLink h l1) := sentOnly_setLink s h l1 rfl (.inl hup)
    have h2 : SentOnly s r.1 := h1.trans (sentOnly_wireFlit ..)
    have hup2 : r.1.linkUp h = true := by rw [State.linkUp, h2.up]; exact hup
    have h3 : SentOnly s s1 := h2.trans (sentOnly_setLink r.1 h _ rfl (.inl hup2))
    split
    · exact h3.trans (sentOnly_giveCredits ..)
    · exact h3

theorem sentOnly_pumpGo (n h : Nat) : SentOnly s (State.pumpGo n s h) := by
  induction n generalizing s with
  | zero => exact .refl s
  | succ n ih =>
    unfold State.pumpGo
    extract_lets l
    split
    · exact .refl s
    · rename_i hgo
      split
      · exact .refl s
      · refine (sentOnly_sendData s h _ ?_).trans (ih _)
        refine Classical.byContradiction fun hdown => ?_
        exact hgo (by rw [eq_false_of_ne_true hdown]; rfl)

theorem sentOnly_pump (h : Nat) : SentOnly s (s.pump h) := sentOnly_pumpGo ..

theorem sentOnly_enqueue (h vc : Nat) (m : TxMsg) : SentOnly s (s.enqueue h vc m) := by
  unfold State.enqueue
  extract_lets l
  exact (sentOnly_setLink s h { l with queues := l.queues.set vc (nth l.queues [] vc ++ [m]) } rfl (.inr rfl)).trans (sentOnly_pump ..)

theorem sentOnly_sendBodies (set : Nat) (dest : Option Nat) (vc ctx : Nat) (bodies : List (List Byte)) : SentOnly s (s.sendBodies set dest vc ctx bodies) := by
  unfold State.sendBodies
  refine foldl_rel SentOnly.refl SentOnly.trans _ (fun s e => ?_) _ s
  dsimp only
  split
  · exact .refl s
  · exact foldl_rel SentOnly.refl SentOnly.trans _ (fun s b => sentOnly_enqueue ..) _ s

theorem sentOnly_out (l : List OutMsg) : SentOnly s { s with out := l } := .of_links rfl fun _ => rfl

theorem sentOnly_send (m : OutMsg) : SentOnly s (s.send m) := by
  unfold State.send
  extract_lets t
  have ht : SentOnly s t := sentOnly_out ..
  split
  · exact ht
  · exact ht.trans (sentOnly_sendBodies ..)

theorem sentOnly_chafe (d : Nat) (ws : List W64) : SentOnly s (s.chafe d ws) :=
  .of_links (touches_chafe ..).links_eq fun _ => (marks_chafe s d ws).reg_eq _ (show RegName.LINK_STATUS ∉ causeNames by decide)

theorem sentOnly_step (c : StepCtl) : SentOnly s { s with step := c } := .of_links rfl fun _ => rfl

theorem sentOnly_fault (d : Nat) (ws : List W64) : SentOnly s (s.fault d ws) := by
  unfold State.fault
  extract_lets t
  exact ((sentOnly_chafe s d ws).trans (sentOnly_step t _)).trans (sentOnly_send ..)

theorem sentOnly_setCause (p : Part) (b : Nat) : SentOnly s (s.setCause p b) := by
  refine .of_links ((touches_bump ..).links_eq) fun h => (raised_setCause p b s).reg _ fun hc => ?_
  exact absurd (name_mem_causeNames hc) (show RegName.LINK_STATUS ∉ causeNames by decide)

theorem sentOnly_raiseWith (p : Part) (b ctx : Nat) (det : W64) (f : Bool) : SentOnly s (s.raiseWith p b ctx det f) := by
  unfold State.raiseWith
  extract_lets t g src ws
  have ht : SentOnly s t := sentOnly_setCause ..
  split
  · exact ht.trans (sentOnly_fault ..)
  · clear_value ws g
    cases g
    case reliability => exact ht.trans (sentOnly_chafe ..)
    case security => exact ht.trans (sentOnly_chafe ..)
    case powerThermal => exact ht.trans (sentOnly_chafe ..)
    all_goals exact ht

theorem sentOnly_raise (p : Part) (b ctx : Nat) (det : W64) : SentOnly s (s.raise p b ctx det) := sentOnly_raiseWith ..

theorem sentOnly_raiseFor (p : Part) (b : Nat) (ctxs : List Nat) : SentOnly s (s.raiseFor p b ctxs) := by
  unfold State.raiseFor
  split
  · exact sentOnly_raiseWith ..
  · exact (sentOnly_raiseWith ..).trans (foldl_rel SentOnly.refl SentOnly.trans _ (fun s c => sentOnly_fault ..) _ _)

theorem sentOnly_timingNr (m : Nat) : SentOnly s (s.timingNr m) := by
  unfold State.timingNr
  exact (sentOnly_step s _).trans <| foldl_rel SentOnly.refl SentOnly.trans _ (fun s _ => sentOnly_raise ..) _ _

theorem sentOnly_tnrNow (m : Nat) : SentOnly s (s.tnrNow m) := by
  unfold State.tnrNow
  split
  · exact sentOnly_timingNr ..
  · exact .refl s

theorem sentOnly_bump (n : RegName) (p : Part) (i k : Nat) (h : n ≠ .LINK_STATUS := by decide) : SentOnly s (s.bump (rid n p i) k) :=
  .of_links (touches_bump ..).links_eq fun _ => State.reg_bump_ne _ _ _ _ fun e => h (congrArg RegId.name e).symm

theorem sentOnly_setReg (n : RegName) (p : Part) (i : Nat) (v : W64) (h : n ≠ .LINK_STATUS := by decide) : SentOnly s (s.setReg (rid n p i) v) :=
  .of_links rfl fun _ => State.reg_setReg_ne _ _ _ _ fun e => h (congrArg RegId.name e).symm

end

/- Registers. -/

section

variable (s : State)

theorem regsWithin_pump (h : Nat) : RegsWithin [.FLIT_TX_TOTAL] s (s.pump h) := (sent_pumpGo ..).regsWithin

theorem regsWithin_markLane (h l : Nat) : RegsWithin (.LANE_CTRL :: causeNames) s (s.markLane h l) := by
  unfold State.markLane
  exact .ite .refl ((regsWithin_raise ..).step (regsWithin_setRegFld ..).mono)

theorem marks_markLane (h l : Nat) : Marks (.LANE_CTRL :: causeNames) s (s.markLane h l) := by
  unfold State.markLane
  exact .ite .refl ((marks_raise ..).step (marks_setRegFld ..).mono)

theorem marks_setLink (h : Nat) (l : LinkSt) : Marks [] s (s.setLink h l) := (touches_setLink ..).marks .refl

theorem marks_setLinkState (h v : Nat) : Marks [.LINK_STATUS] s (s.setLinkState h v) := marks_setRegFld ..

theorem marks_linkDown (h : Nat) : Marks (.LINK_STATUS :: .DOWN_TOTAL :: causeNames) s (s.linkDown h) := by
  unfold State.linkDown
  extract_lets t x u v
  have ht : Marks [.LINK_STATUS] s t := (touches_dropForwarded ..).marks .refl
  have hu : Marks [.LINK_STATUS] s u := (marks_setLinkState ..).step ((marks_setLink ..).step ht)
  have hv : Marks (.LINK_STATUS :: .DOWN_TOTAL :: causeNames) s v := (marks_raiseFor ..).step ((marks_bump ..).step hu.mono)
  exact .ite ((marks_trainLink ..).step hv) hv

theorem marks_pump (h : Nat) : Marks [.FLIT_TX_TOTAL] s (s.pump h) := (regsWithin_pump ..).marks (touches_pump ..).step_eq

theorem State.linkState_setLinkState {v : Nat} (h : Nat) (hv : v < 8) : (s.setLinkState h v).linkState h = v := by
  rw [State.linkState, State.setLinkState, State.reg_setRegFld_same, fld_setFld_same (by decide) (by decide), Nat.mod_eq_of_lt (by omega)]

end

theorem State.linkState_of_marks {L : List RegName} {s t : State} (k : Marks L s t) (h : Nat) (hL : RegName.LINK_STATUS ∉ L := by decide) :
    t.linkState h = s.linkState h := by rw [State.linkState, State.linkState, k.reg_eq _ hL]

theorem State.laneReg_of_marks {L : List RegName} {s t : State} (k : Marks L s t) (h : Nat) (hL : RegName.LANE_CTRL ∉ L := by decide) :
    t.laneReg h = s.laneReg h := k.reg_eq _ hL

theorem Marks.isHeld {L : List RegName} {s t : State} (k : Marks L s t) : t.isHeld = s.isHeld := by rw [State.isHeld, State.isHeld, k.state]

theorem Marks.entered {L : List RegName} {s t : State} (k : Marks L s t) : t.entered = s.entered := by
  simp only [State.entered, k.state, k.aborting]

end Sys2Proof.Machine
end

section
/-! Lanes, training outcomes and key phases of a Hawser link (13 R338–R341, R363; 17 R456). Settles O50. -/
set_option Elab.async false -- elaborate in order: side threads each hold a stack of their own

namespace Sys2Proof.Machine

open Host

/- A link goes down outside HELD (R342). -/

/-- A link that goes down, before its cause is raised. -/
def State.downed (s : State) (h : Nat) : State :=
  (((s.dropForwarded h).setLink h { ((s.dropForwarded h).link h).fresh with retrain := true }).setLinkState h 0).bump (linkR .DOWN_TOTAL h) 1

theorem marks_downed (s : State) (h : Nat) : Marks [.LINK_STATUS, .DOWN_TOTAL] s (s.downed h) := by
  have ht : Marks [.LINK_STATUS] s (s.dropForwarded h) := (touches_dropForwarded ..).marks .refl
  exact (marks_bump ..).step ((marks_setLinkState ..).step ((marks_setLink ..).step ht)).mono

/-- Outside HELD it stays down: its cause is raised for the contexts that use it. -/
theorem State.linkDown_of_not_held {s : State} (h : Nat) (hs : s.step.state ≠ .held) :
    ∃ ctxs, s.linkDown h = (s.downed h).raiseFor (.link h) 0 ctxs := by
  unfold State.linkDown
  extract_lets t x u v
  refine ⟨u.linkCtxs h, if_neg fun hheld => hs ?_⟩
  have hv : Marks (.LINK_STATUS :: .DOWN_TOTAL :: causeNames) s v := (marks_raiseFor ..).step (marks_downed s h).mono
  exact hv.state ▸ isHeld_eq_true.1 hheld

theorem State.linkState_downed (s : State) (h : Nat) : (s.downed h).linkState h = 0 := by
  have hbump := State.linkState_of_marks (marks_bump (((s.dropForwarded h).setLink h { ((s.dropForwarded h).link h).fresh with retrain := true }).setLinkState h 0)
    .DOWN_TOTAL (.link h) 0 1) h
  exact hbump.trans (State.linkState_setLinkState _ h (by decide))

theorem State.replay_downed (s : State) (h : Nat) : ((s.downed h).link h).replay = [] := by
  have hlinks : (s.downed h).links = ((s.dropForwarded h).setLink h { ((s.dropForwarded h).link h).fresh with retrain := true }).links :=
    (touches_bump ..).links_eq
  rw [State.link, hlinks]
  change (State.link ((s.dropForwarded h).setLink h _) h).replay = []
  rw [State.link_setLink, if_pos rfl]
  rfl

theorem State.reg_downed (s : State) (h : Nat) : (s.downed h).reg (linkR .DOWN_TOTAL h) = satAdd (s.reg (linkR .DOWN_TOTAL h)) 1 := by
  rw [State.downed, State.reg_bump, if_neg (by decide)]
  have ht : Marks [.LINK_STATUS] s (s.dropForwarded h) := (touches_dropForwarded ..).marks .refl
  have hu := (marks_setLinkState ((s.dropForwarded h).setLink h { ((s.dropForwarded h).link h).fresh with retrain := true }) h 0).step ((marks_setLink ..).step ht)
  exact congrArg (satAdd · 1) (hu.reg_eq _ (show RegName.DOWN_TOTAL ∉ [RegName.LINK_STATUS] by decide))

/-- A link down outside HELD: its state, its buffers, its total and its cause. -/
structure WentDown (s t : State) (h : Nat) : Prop where
  state : t.linkState h = 0
  replay : (t.link h).replay = []
  total : t.reg (linkR .DOWN_TOTAL h) = satAdd (s.reg (linkR .DOWN_TOTAL h)) 1
  cause : bit (t.reg (linkR .LINKC_STATUS h)) 0 = true

theorem State.wentDown_linkDown {s : State} (h : Nat) (hs : s.step.state ≠ .held) : WentDown s (s.linkDown h) h := by
  obtain ⟨ctxs, hdown⟩ := State.linkDown_of_not_held h hs
  have hsent := sentOnly_raiseFor (s.downed h) (.link h) 0 ctxs
  have hup : (s.downed h).linkUp h = false := by rw [State.linkUp, s.linkState_downed]; rfl
  rw [hdown]
  refine ⟨(hsent.up h).trans (s.linkState_downed h), (hsent.replay h hup).trans (s.replay_downed h), ?_, State.bit_status_raiseFor _ (.link h) (by decide) ctxs⟩
  rw [(marks_raiseFor ..).reg_eq _ (show RegName.DOWN_TOTAL ∉ causeNames by decide), s.reg_downed]

/- Lanes (R341). -/

theorem linkR_ne {n m : RegName} {h i j : Nat} (k : n ≠ m) : linkR n h i ≠ linkR m h j := fun e => k (congrArg RegId.name e)

theorem State.linkOn_of_links {s t : State} (h : Nat) (k : t.links = s.links) : t.linkOn h = s.linkOn h := by
  simp only [State.linkOn, State.linkSec, State.link, k]

/-- Training begins where the link is enabled and not disabled (R338). -/
theorem State.linkState_trainLink (s : State) (h : Nat) : (s.trainLink h).linkState h = if s.linkOn h = true ∧ s.linkState h ≠ 3 then 1 else s.linkState h := by
  unfold State.trainLink
  by_cases hon : s.linkOn h = true
  · by_cases h3 : s.linkState h = 3
    · rw [if_pos (by rw [hon, h3]; rfl), if_neg (fun k => k.2 h3)]
    · rw [if_neg (by rw [hon]; simp [h3]), if_pos ⟨hon, h3⟩]
      exact State.linkState_setLinkState _ h (by decide)
  · rw [if_pos (by rw [eq_false_of_ne_true hon]; rfl), if_neg fun k => hon k.1]

theorem State.laneReg_setRegFld_lane (s : State) (h hi lo v : Nat) : (s.setRegFld (linkR .LANE_CTRL h) hi lo v).laneReg h = setFld (s.laneReg h) hi lo v :=
  State.reg_setRegFld_same ..

/-- The cause of a marked lane is logged nowhere and is no fault: the links stay. -/
theorem State.links_raise_marked (s : State) (h : Nat) : (s.raise (.link h) 4).links = s.links := by
  have hcause : s.raise (.link h) 4 = s.setCause (.link h) 4 := rfl
  rw [hcause]
  exact (touches_bump ..).links_eq

/-- A lane newly marked. -/
theorem State.markLane_of_unmarked {s : State} {h l : Nat} (k : ¬ (bit (s.laneReg h) (19 + l) = true ∨ bit (s.laneReg h) (14 + l) = true)) :
    s.markLane h l = (s.setRegFld (linkR .LANE_CTRL h) (19 + l) (19 + l) 1).raise (.link h) 4 := by
  rw [State.markLane, if_neg (by rw [Bool.or_eq_true]; exact k)]

theorem State.markLane_of_marked {s : State} {h l : Nat} (k : bit (s.laneReg h) (19 + l) = true ∨ bit (s.laneReg h) (14 + l) = true) : s.markLane h l = s := by
  rw [State.markLane, if_pos (by rw [Bool.or_eq_true]; exact k)]

/-- Marking a lane leaves which lanes carry traffic: it writes the lane's mark alone. -/
theorem State.laneActive_markLane (s : State) (h : Nat) {l : Nat} (hl : l < 5) : (s.markLane h l).laneActive h l = s.laneActive h l := by
  by_cases k : bit (s.laneReg h) (19 + l) = true ∨ bit (s.laneReg h) (14 + l) = true
  · rw [State.markLane_of_marked k]
  · have hreg : (s.markLane h l).laneReg h = setFld (s.laneReg h) (19 + l) (19 + l) 1 := by
      rw [State.markLane_of_unmarked k, State.laneReg_of_marks (marks_raise ..), State.laneReg_setRegFld_lane]
    rw [State.laneActive, State.laneActive, hreg, fld_setFld_disjoint (Nat.le_refl _) (by omega) (by omega), bit_setFld_disjoint (Nat.le_refl _) (by omega) (by omega)]

/- Training (R338, R339). -/

/-- All five lanes lock: none is marked. -/
theorem State.lockLanes_all (s : State) (h : Nat) : s.lockLanes h 31 = s.setReg (linkR .LANE_STATUS h) (w64 31) := rfl

theorem State.lanesLocked_all (s : State) (h : Nat) : s.lanesLocked h 31 = true := by
  have hall : ∀ l ∈ List.range 5, nbit 31 l = true := by decide
  exact List.all_eq_true.2 fun l hl => by rw [hall l hl]; rfl

/-- What this end sends and notes of the far end. -/
def State.trainNoted (s : State) (h : Nat) (m : TrainMsg) (out : OutMsg) : State :=
  (({ s with out := s.out ++ [out] }).setRegFld (linkR .LINK_STATUS h) 36 22 m.slot).setRegFld (linkR .LINK_STATUS h) 42 37 m.peerLink

theorem marks_trainNoted (s : State) (h : Nat) (m : TrainMsg) (out : OutMsg) : Marks [.LINK_STATUS] s (s.trainNoted h m out) := by
  have hout : Marks [.LINK_STATUS] s { s with out := s.out ++ [out] } := ⟨rfl, ⟨fun _ _ => rfl⟩, fun _ => .of_reg_eq rfl⟩
  exact (marks_setRegFld ..).step ((marks_setRegFld ..).step hout)

/-- A link that settles: rate, telltale, latency, session, buffers; then it is up. -/
def State.settled (s : State) (h : Nat) (m : TrainMsg) (rate : Nat) (held : Bool) (w : W64) : State :=
  let s := (s.setRegFld (linkR .LANE_CTRL h) 9 8 rate).setRegFld (linkR .LANE_CTRL h) 10 10 (b01 held)
  let s := s.setReg (linkR .LINK_LATENCY h) (w64 (m.latency % 2 ^ 32))
  let s := s.setReg (linkR .ENC_STATUS h) (setFld (setFld (s.reg (linkR .ENC_STATUS h)) 63 32 m.session) 0 0 (fld w 8 8))
  let s := (s.setRegFld (linkR .LINK_STATUS h) 17 17 (fld w 8 8)).setLink h { (s.link h).fresh with lower := false }
  s.setLinkState h 2

/-- The rate and its telltale, of a link that settled. -/
theorem State.laneReg_settled (s : State) (h : Nat) (m : TrainMsg) (rate : Nat) (held : Bool) (w : W64) :
    (s.settled h m rate held w).laneReg h = setFld (setFld (s.laneReg h) 9 8 rate) 10 10 (b01 held) := by
  unfold State.settled
  extract_lets s1 s2 s3 x s4
  have h2 : Marks [.LINK_LATENCY] s1 s2 := marks_setReg ..
  have h3 : Marks [.ENC_STATUS] s2 s3 := marks_setReg ..
  have h4 : Marks [.LINK_STATUS] s3 s4 := (marks_setLink ..).step (marks_setRegFld ..)
  have h5 := marks_setLinkState s4 h 2
  rw [State.laneReg_of_marks h5, State.laneReg_of_marks h4, State.laneReg_of_marks h3, State.laneReg_of_marks h2]
  simp only [s1]
  rw [State.laneReg_setRegFld_lane, State.laneReg_setRegFld_lane]

/-- An exchange in training, the identities as the image has them, every lane locked, and no rate held back for want of lanes. -/
theorem exec_trainingExchange_of_locked {s : State} {h : Nat} {m : TrainMsg} (hh : h < 40) (htrain : s.linkState h = 1) (hjob : m.jobId = s.job.jobId)
    (hslot : m.slot = fld (s.linkSec h) 23 9) (hpeer : m.peerLink = fld (s.linkSec h) 29 24) (hlanes : m.lanes = 31) (husable : 4 ≤ s.lanesUsable h)
    (hlower : (s.link h).lower = false) : ∃ out, exec (.trainingExchange h m) s = .next (
      let t := (s.trainNoted h m out).setReg (linkR .LANE_STATUS h) (w64 31)
      match settleRate (fld (s.laneReg h) 1 0) (fld (s.laneReg h) 3 2) m.support m with
      | none => (t.setLinkState h 0).raise (.link h) 2
      | some (rate, held) =>
        let u := t.settled h m rate held (s.linkSec h)
        let v := if u.linkRouted h && decide (rate < fld (s.laneReg h) 3 2) then u.tnrNow 4 else u
        (if held then v.raise (.link h) 3 else v).pump h) := by
  change ∃ out, execTrainingExchange h m s = _
  unfold execTrainingExchange
  rw [decide_eq_true hh, guardPart, if_pos rfl, if_neg (Classical.not_not.2 htrain)]
  extract_lets w floor ceil cur support s1 s2 s3
  have hsupport : support = m.support := if_neg (by rw [hlower]; decide)
  have hmarks : Marks [.LINK_STATUS] s s2 := marks_trainNoted s h m _
  have hlock : s3 = s2.setReg (linkR .LANE_STATUS h) (w64 31) := by
    simp only [s3]
    rw [hlanes, State.lockLanes_all]
  have hlane : s3.laneReg h = s.laneReg h := by
    have hstatus : Marks [.LANE_STATUS] s2 (s2.setReg (linkR .LANE_STATUS h) (w64 31)) := marks_setReg ..
    rw [hlock, State.laneReg_of_marks hstatus, State.laneReg_of_marks hmarks]
  have husable' : ¬ s3.lanesUsable h < 4 := by
    rw [State.lanesUsable, hlane]
    exact Nat.not_lt.2 husable
  have hsame : ¬ (m.jobId ≠ s2.job.jobId ∨ m.slot ≠ fld w 23 9 ∨ m.peerLink ≠ fld w 29 24) :=
    fun hne => hne.elim (fun e => e hjob) fun hne => hne.elim (fun e => e hslot) fun e => e hpeer
  rw [if_neg hsame, if_neg husable', hlanes, State.lanesLocked_all, if_neg (by decide), hsupport, hlock]
  exact ⟨_, rfl⟩

/-- The identity of the far end is another than the image's: the link ends down, miscabled. -/
theorem exec_trainingExchange_of_miscabled {s : State} {h : Nat} {m : TrainMsg} (hh : h < 40) (htrain : s.linkState h = 1)
    (hne : m.jobId ≠ s.job.jobId ∨ m.slot ≠ fld (s.linkSec h) 23 9 ∨ m.peerLink ≠ fld (s.linkSec h) 29 24) :
    ∃ out, exec (.trainingExchange h m) s = .next (((s.trainNoted h m out).setLinkState h 0).raise (.link h) 1) := by
  change ∃ out, execTrainingExchange h m s = _
  unfold execTrainingExchange
  rw [decide_eq_true hh, guardPart, if_pos rfl, if_neg (Classical.not_not.2 htrain)]
  extract_lets w floor ceil cur support s1 s2
  exact ⟨_, congrArg Outcome.next (if_pos hne)⟩

/-- A link taken down in training, with its cause. -/
theorem State.down_with_cause (s : State) (h : Nat) {b : Nat} (hb : b < 64) :
    ((s.setLinkState h 0).raise (.link h) b).linkState h = 0 ∧ bit (((s.setLinkState h 0).raise (.link h) b).reg (linkR .LINKC_STATUS h)) b = true :=
  ⟨(State.linkState_of_marks (marks_raise ..) h).trans (State.linkState_setLinkState _ h (by decide)), State.bit_status_raised _ (.link h) hb ..⟩

/-- What follows a link that settled writes none of its lane and status fields. -/
theorem marks_settledRest (u : State) (h : Nat) (c held : Bool) :
    Marks causeNames u ((if held then (if c then u.tnrNow 4 else u).raise (.link h) 3 else if c then u.tnrNow 4 else u).pump h) := by
  have hv : Marks causeNames u (if c then u.tnrNow 4 else u) := .ite (marks_tnrNow ..) .refl
  exact (marks_pump ..).step (.ite ((marks_raise ..).step hv) hv)

theorem exec_laneCtrl {s : State} {h : Nat} (hh : h < 40) (v : W64) : exec (.laneCtrl h v) s = .next (s.laneCtrl h v) := by
  change execLaneCtrl h v s = _
  rw [execLaneCtrl, decide_eq_true hh, guardPart, if_pos rfl]

theorem exec_linkLaneMarked {s : State} {h l : Nat} (hh : h < 40) (hl : l < 5) : exec (.linkLaneMarked h l) s = .next (s.markLane h l) := by
  change execLinkLaneMarked h l s = _
  rw [execLinkLaneMarked, decide_eq_true hh, decide_eq_true hl, guardPart, if_pos (by decide)]

/-- A lock lost: the lane's status bit clears and it is marked. -/
def State.lockLost (s : State) (h l : Nat) : State := (s.setRegFld (linkR .LANE_STATUS h) l l 0).markLane h l

theorem exec_laneLockLoss {s : State} {h l : Nat} (hh : h < 40) (hl : l < 5) : exec (.laneLockLoss h l) s = .next (
    if (s.lockLost h l).entered && (s.lockLost h l).linkUp h && (s.lockLost h l).laneActive h l then (s.lockLost h l).linkDown h else s.lockLost h l) := by
  change execLaneLockLoss h l s = _
  rw [execLaneLockLoss, decide_eq_true hh, decide_eq_true hl, guardPart, if_pos (by decide)]
  rfl

theorem marks_lockLost (s : State) (h l : Nat) : Marks (.LANE_STATUS :: .LANE_CTRL :: causeNames) s (s.lockLost h l) := by
  have hset : Marks [.LANE_STATUS] s (s.setRegFld (linkR .LANE_STATUS h) l l 0) := marks_setRegFld ..
  exact (marks_markLane ..).step hset.mono

theorem State.bit_lockLost (s : State) (h : Nat) {l : Nat} (hl : l < 5) : bit ((s.lockLost h l).reg (linkR .LANE_STATUS h)) l = false := by
  rw [State.lockLost, (marks_markLane ..).reg_eq _ (show RegName.LANE_STATUS ∉ .LANE_CTRL :: causeNames by decide), State.reg_setRegFld_same]
  exact bit_setFld_zero (by omega) _

theorem State.laneActive_lockLost (s : State) (h : Nat) {l : Nat} (hl : l < 5) : (s.lockLost h l).laneActive h l = s.laneActive h l := by
  have hset : Marks [.LANE_STATUS] s (s.setRegFld (linkR .LANE_STATUS h) l l 0) := marks_setRegFld ..
  rw [State.lockLost, State.laneActive_markLane _ h hl, State.laneActive, State.laneActive, State.laneReg_of_marks hset]

/-- Settles O50: bounds by their fields, lanes by the mark, the outcomes of a training by its stages. -/
theorem linkTraining : Obligations.LinkTraining := by
  unfold Obligations.LinkTraining
  intro s h hh
  refine ⟨fun v => ?refused, fun v => ?accepted, fun l hl => ⟨fun hm => ?markedBefore, fun hm => ?marked⟩, fun l hl => ?lost, fun p => ?phase, fun m hm => ?notTraining,
    fun m htrain hne => ?miscabled, fun m htrain hjob hslot hpeer hlanes husable hlower => ?settle⟩
  case refused =>
    intro keep hbad
    have hrefuse : s.laneCtrl h v = s.decodeError true (0x024000000000 + h * 0x10000) := by
      refine if_pos (hbad.imp (fun k => ?_) id)
      rw [Bool.not_eq_true', Bool.eq_false_iff]
      exact fun hheld => k (isHeld_eq_true.1 hheld)
    refine ⟨_, (exec_laneCtrl hh v).trans (congrArg Outcome.next hrefuse), ?_, ?_, s.bit_status_decodeError ..⟩
    · refine s.reg_decodeError_ne _ _ _ ?_ ?_ ?_ <;> exact fun e => by cases congrArg RegId.name e
    · rw [s.decodeError_eq_regs]
  case accepted =>
    intro keep hheld hle
    have haccept : s.laneCtrl h v = ((s.setRegFld (linkR .LANE_CTRL h) 1 0 (keep 1 0)).setRegFld (linkR .LANE_CTRL h) 3 2 (keep 3 2)).trainLink h := by
      refine if_neg fun hbad => hbad.elim (fun k => ?_) fun k => absurd hle (Nat.not_le.2 k)
      rw [isHeld_eq_true.2 hheld] at k
      cases k
    have hkeep (hi lo : Nat) : keep hi lo < 2 ^ (hi + 1 - lo) := by
      change (if _ then fld _ _ _ else fld _ _ _) < _
      split <;> exact fld_lt ..
    have hfields : Marks [.LANE_CTRL] s ((s.setRegFld (linkR .LANE_CTRL h) 1 0 (keep 1 0)).setRegFld (linkR .LANE_CTRL h) 3 2 (keep 3 2)) :=
      (marks_setRegFld ..).step (marks_setRegFld ..)
    have hreg : (((s.setRegFld (linkR .LANE_CTRL h) 1 0 (keep 1 0)).setRegFld (linkR .LANE_CTRL h) 3 2 (keep 3 2)).trainLink h).reg (linkR .LANE_CTRL h) =
        setFld (setFld (s.laneReg h) 1 0 (keep 1 0)) 3 2 (keep 3 2) := by
      rw [(regsWithin_trainLink ..).reg_eq _ (show RegName.LANE_CTRL ∉ [RegName.LINK_STATUS] by decide), State.reg_setRegFld_same, State.reg_setRegFld_same]
      rfl
    refine ⟨_, (exec_laneCtrl hh v).trans (congrArg Outcome.next haccept), ?_, ?_, ?_⟩
    · rw [hreg, fld_setFld_disjoint (by decide) (by decide) (by decide), fld_setFld_same (by decide) (by decide), Nat.mod_eq_of_lt (hkeep 1 0)]
    · rw [hreg, fld_setFld_same (by decide) (by decide), Nat.mod_eq_of_lt (hkeep 3 2)]
    · rw [State.linkState_trainLink, State.linkState_of_marks hfields]
      rfl
  case markedBefore => exact (exec_linkLaneMarked hh hl).trans (congrArg Outcome.next (State.markLane_of_marked hm))
  case marked =>
    refine ⟨_, (exec_linkLaneMarked hh hl).trans (congrArg Outcome.next (State.markLane_of_unmarked hm)), ?_, State.bit_status_raised _ (.link h) (by decide) .., ?_⟩
    · rw [State.laneReg_of_marks (marks_raise ..), State.laneReg_setRegFld_lane]
      exact bit_setFld_one (by omega) _
    · rw [State.links_raise_marked]
      rfl
  case lost =>
    have hmarks := marks_lockLost s h l
    have hbit := s.bit_lockLost h hl
    have hstate : (s.lockLost h l).linkState h = s.linkState h := State.linkState_of_marks hmarks h
    refine ⟨_, exec_laneLockLoss hh hl, ?_, fun hout => ?_, fun hin hup hactive => ?_⟩
    · split
      · rw [(marks_linkDown ..).reg_eq _ (show RegName.LANE_STATUS ∉ .LINK_STATUS :: .DOWN_TOTAL :: causeNames by decide), hbit]
      · exact hbit
    · rw [hmarks.entered, hout, Bool.false_and, Bool.false_and, if_neg (by decide), hstate]
    · have hnot : (s.lockLost h l).step.state ≠ .held := by
        rw [hmarks.state]
        intro e
        rw [State.entered, e] at hin
        cases hin
      rw [hmarks.entered, hin, State.linkUp, hstate, hup, s.laneActive_lockLost h hl, hactive, if_pos (by decide)]
      have hdown := State.wentDown_linkDown h hnot
      exact ⟨hdown.state, hdown.cause⟩
  case phase =>
    change execKeyPhaseReport h p s = _
    rw [execKeyPhaseReport, decide_eq_true hh, guardPart, if_pos rfl]
  case notTraining =>
    change execTrainingExchange h m s = _
    rw [execTrainingExchange, decide_eq_true hh, guardPart, if_pos rfl, if_pos hm]
  case miscabled =>
    obtain ⟨out, hexec⟩ := exec_trainingExchange_of_miscabled hh htrain hne
    exact ⟨_, hexec, State.down_with_cause _ h (by decide)⟩
  case settle =>
    intro r
    obtain ⟨out, hexec⟩ := exec_trainingExchange_of_locked hh htrain hjob hslot hpeer hlanes husable hlower
    refine ⟨fun hnone => ?_, fun rate held hsome hrate => ?_⟩
    · rw [show settleRate _ _ _ _ = none from hnone] at hexec
      exact ⟨_, hexec, State.down_with_cause _ h (by decide)⟩
    · rw [show settleRate _ _ _ _ = some (rate, held) from hsome] at hexec
      refine ⟨_, hexec, ?_⟩
      have hrest := marks_settledRest (((s.trainNoted h m out).setReg (linkR .LANE_STATUS h) (w64 31)).settled h m rate held (s.linkSec h)) h
        ((((s.trainNoted h m out).setReg (linkR .LANE_STATUS h) (w64 31)).settled h m rate held (s.linkSec h)).linkRouted h &&
          decide (rate < fld (s.laneReg h) 3 2)) held
      refine ⟨(State.linkState_of_marks hrest h).trans (State.linkState_setLinkState _ h (by decide)), ?_, ?_⟩
      · rw [State.laneReg_of_marks hrest, State.laneReg_settled, fld_setFld_disjoint (by decide) (by decide) (by decide),
          fld_setFld_same (by decide) (by decide)]
        exact Nat.mod_eq_of_lt hrate
      · rw [State.laneReg_of_marks hrest, State.laneReg_settled]
        cases held
        · exact bit_setFld_zero (by decide) _
        · exact bit_setFld_one (by decide) _

end Sys2Proof.Machine
end

section
/-! Flits, acknowledgements, replay and release on a Hawser link (13 R342–R352). Settles O51. -/
set_option Elab.async false -- elaborate in order: side threads each hold a stack of their own

namespace Sys2Proof.Machine

open Host

/- Arrival. -/

/-- A flit that comes in on a link, with no corrected symbols: stalls for credits and the flit are counted. -/
def State.flitIn (s : State) (h stalls : Nat) : State := (s.bump (linkR .CREDIT_STALL_TOTAL h) stalls).bump (linkR .FLIT_RX_TOTAL h) 1

theorem sentOnly_flitIn (s : State) (h stalls : Nat) : SentOnly s (s.flitIn h stalls) := (sentOnly_bump ..).trans (sentOnly_bump ..)

theorem linkUp_iff {s : State} {h : Nat} : s.linkUp h = true ↔ s.linkState h = 2 := decide_eq_true_iff

/-- A flit on a link that is up: counted, then refused, or taken by its kind. -/
theorem exec_flit {s : State} {h : Nat} (hh : h < 40) (hup : s.linkState h = 2) (b : List Byte) (bad : Bool) (stalls : Nat) :
    exec (.flit h b { fecBad := bad, lanes := [], stalls := stalls }) s = .next (
      let s := s.flitIn h stalls
      if bad then (s.bump (linkR .FEC_UNCORR_TOTAL h) 1).refuseFlit h
      else if b.length ≠ 256 ∨ crc32 (b.take 252) ≠ leNat (b.drop 252) then (s.bump (linkR .CRC_ERR_TOTAL h) 1).refuseFlit h
      else
        let head := leNat (b.take 8)
        let pay := (b.drop 8).take 244
        let kind := bits head 29 28
        if kind = 0 ∨ kind = 3 then (s.flitHeader h head).pump h else
        let plain := if s.linkEnc h then s.openFlit h head (b.take 8) pay else some ((s.link h).rcvd, pay)
        match plain with
        | none => s.tagFailure h kind (bits head 11 0)
        | some (n, data) =>
          let s := s.setLink h { s.link h with rcvd := max (s.link h).rcvd (n + 1) }
          let s := s.flitHeader h head
          (if kind = 1 then s.dataFlit h head data else s).pump h) := by
  change execFlit h b _ s = _
  rw [execFlit, decide_eq_true hh, guardPart, if_pos rfl, linkUp_iff.2 hup, if_neg (by decide)]
  rfl

theorem sentOnly_refuseFlit (s : State) (h : Nat) : SentOnly s (s.refuseFlit h) := sentOnly_sendControl ..

theorem regsWithin_refuseFlit (s : State) (h : Nat) : RegsWithin [.FLIT_TX_TOTAL] s (s.refuseFlit h) := (sent_sendControl ..).regsWithin

/-- A refused flit counts once in the total of its reason, and moves no SEQ. -/
theorem State.refused_flit (s : State) (h : Nat) (n : RegName) (hn : n ≠ .LINK_STATUS ∧ n ∉ [.FLIT_TX_TOTAL]) :
    (((s.bump (linkR n h) 1).refuseFlit h).link h).rxSeq = (s.link h).rxSeq ∧
      ((s.bump (linkR n h) 1).refuseFlit h).reg (linkR n h) = satAdd (s.reg (linkR n h)) 1 := by
  refine ⟨((sentOnly_bump s n (.link h) 0 1 hn.1).trans (sentOnly_refuseFlit ..)).rxSeq h, ?_⟩
  rw [(regsWithin_refuseFlit ..).reg_eq _ (show n ∉ _ from hn.2), State.reg_bump, if_neg (by decide)]

theorem State.reg_refused_flit_ne (s : State) (h : Nat) {n m : RegName} (hm : m ∉ [n, .FLIT_TX_TOTAL]) :
    ((s.bump (linkR n h) 1).refuseFlit h).reg (linkR m h) = s.reg (linkR m h) := by
  have hb : RegsWithin [n] s (s.bump (linkR n h) 1) := regsWithin_bump ..
  exact ((regsWithin_refuseFlit ..).step (L := [n, .FLIT_TX_TOTAL]) (hb.mono (by simp)) (by simp)).reg_eq _ hm

/-- A flit that comes in counts in FLIT_RX_TOTAL, and in no other total but the stalls'. -/
theorem State.reg_flitIn (s : State) (h stalls : Nat) :
    (s.flitIn h stalls).reg (linkR .FLIT_RX_TOTAL h) = satAdd (s.reg (linkR .FLIT_RX_TOTAL h)) 1 := by
  rw [State.flitIn, State.reg_bump, if_neg (by decide), State.reg_bump_ne _ _ _ _ (linkR_ne (by decide))]

theorem State.reg_flitIn_ne (s : State) (h stalls : Nat) {n : RegName} (hn : n ∉ [.CREDIT_STALL_TOTAL, .FLIT_RX_TOTAL]) :
    (s.flitIn h stalls).reg (linkR n h) = s.reg (linkR n h) := by
  have h1 : RegsWithin [.CREDIT_STALL_TOTAL, .FLIT_RX_TOTAL] s (s.flitIn h stalls) :=
    (regsWithin_bump _ .FLIT_RX_TOTAL (.link h) 0 1).step (regsWithin_bump s .CREDIT_STALL_TOTAL (.link h) 0 stalls).mono
  exact h1.reg_eq _ hn

/- What the handling of an accepted flit leaves of SEQ. -/

/-- Every link awaits the SEQ that it did. -/
structure RxKept (s t : State) : Prop where
  rxSeq : ∀ h, (t.link h).rxSeq = (s.link h).rxSeq

theorem RxKept.refl (s : State) : RxKept s s := ⟨fun _ => rfl⟩

theorem RxKept.trans {s t u : State} (h : RxKept s t) (k : RxKept t u) : RxKept s u := ⟨fun i => (k.rxSeq i).trans (h.rxSeq i)⟩

theorem SentOnly.rxKept {s t : State} (h : SentOnly s t) : RxKept s t := ⟨h.rxSeq⟩

section

variable (s : State)

theorem rxKept_setLink (h : Nat) (l : LinkSt) (hl : l.rxSeq = (s.link h).rxSeq) : RxKept s (s.setLink h l) := by
  refine ⟨fun i => ?_⟩
  rw [State.link_setLink]
  split
  · rename_i e
    rw [hl, e]
  · rfl

theorem rxKept_linkAck (h ack : Nat) : RxKept s (s.linkAck h ack) := by
  unfold State.linkAck
  extract_lets l r
  split
  · exact .refl s
  · exact rxKept_setLink s h { l with replay := r, retries := 0 } rfl

theorem rxKept_deliver (h : Nat) (m : RxMsg) : RxKept s (s.deliver h m) := by
  unfold State.deliver
  split
  · exact (sentOnly_giveCredits ..).rxKept
  · exact rxKept_setLink s h _ rfl

theorem rxKept_forward (h g vc : Nat) (first last : Bool) (data : List Byte) : RxKept s (s.forward h g vc first last data) := by
  unfold State.forward
  extract_lets l t m q join
  have ht : RxKept s t := rxKept_setLink s h _ rfl
  split
  · exact ht.trans (sentOnly_enqueue ..).rxKept
  · exact ht.trans ((rxKept_setLink t g { q with queues := q.queues.set vc ((nth q.queues [] vc).map join) } rfl).trans (sentOnly_pump ..).rxKept)

theorem rxKept_misroute (h vc : Nat) : RxKept s (s.misroute h vc) :=
  ((sentOnly_bump s .MISROUTE_TOTAL (.link h) 0 1).trans ((sentOnly_raise ..).trans (sentOnly_giveCredits ..))).rxKept

theorem rxKept_firstFlit (h vc : Nat) (last : Bool) (data : List Byte) : RxKept s (s.firstFlit h vc last data) := by
  unfold State.firstFlit
  extract_lets w0 w1 hop port m
  split
  · split
    · exact rxKept_misroute ..
    · split
      · exact rxKept_deliver ..
      · exact rxKept_setLink s h _ rfl
  · split
    · exact rxKept_misroute ..
    · exact rxKept_forward ..

theorem rxKept_nextFlit (h vc : Nat) (last : Bool) (data : List Byte) : RxKept s (s.nextFlit h vc last data) := by
  unfold State.nextFlit
  extract_lets l
  split
  · extract_lets m
    split
    · exact (rxKept_setLink s h { l with part := sdel l.part vc } rfl).trans (rxKept_deliver ..)
    · exact rxKept_setLink s h { l with part := sset l.part vc m } rfl
  · exact rxKept_forward ..
  · exact (sentOnly_giveCredits ..).rxKept

/-- A good header without NAK: acknowledgement and credits. -/
theorem rxKept_flitHeader (h : Nat) {head : Nat} (hnak : nbit head 25 = false) : RxKept s (s.flitHeader h head) := by
  unfold State.flitHeader
  extract_lets l vc t
  have ht : RxKept s t := rxKept_setLink s h _ rfl
  simp only [hnak, Bool.false_eq_true, if_false]
  split
  · exact ht.trans (rxKept_linkAck ..)
  · exact ht

/-- A data flit of the awaited SEQ moves it by one; any other is refused (R344). -/
theorem State.rxSeq_dataFlit (h head : Nat) (data : List Byte) :
    ((s.dataFlit h head data).link h).rxSeq = if bits head 11 0 = (s.link h).rxSeq then ((s.link h).rxSeq + 1) % 4096 else (s.link h).rxSeq := by
  unfold State.dataFlit
  extract_lets l t vc u
  by_cases hseq : bits head 11 0 = l.rxSeq
  · rw [if_neg (Classical.not_not.2 hseq), if_pos hseq, (sentOnly_sendControl ..).rxSeq h]
    have hu : RxKept t u := by
      simp only [u]
      split
      · exact rxKept_firstFlit ..
      · exact rxKept_nextFlit ..
    rw [hu.rxSeq]
    change ((s.setLink h _).link h).rxSeq = _
    rw [State.link_setLink, if_pos rfl]
  · rw [if_pos hseq, if_neg hseq, (sentOnly_refuseFlit ..).rxSeq h]

end

/- Replay (R344, R342). -/

theorem State.linkAck_of_none_freed {s : State} {h a : Nat} (hk : ackReplay (s.link h).replay a = (s.link h).replay) : s.linkAck h a = s := by
  unfold State.linkAck
  extract_lets l r
  rw [if_pos (by rw [show r = l.replay from hk])]

/-- A NAK with flits outstanding: they go again, are counted, and LINK_RETRY is raised. -/
def State.retried (s : State) (h : Nat) : State :=
  let l := s.link h
  let s := s.setLink h { l with retries := l.retries + 1 }
  let s := { s with out := s.out ++ l.replay.map (OutMsg.flit h) }
  let s := ((s.bump (linkR .RETRY_TOTAL h) 1).bump (linkR .FLIT_TX_TOTAL h) l.replay.length).raise (.link h) 5
  if s.linkRouted h then s.tnrNow 2 else s

theorem exec_nak {s : State} {h a : Nat} (hh : h < 40) (hup : s.linkState h = 2) (hk : ackReplay (s.link h).replay (a % 4096) = (s.link h).replay)
    (hne : (s.link h).replay ≠ []) :
    exec (.nak h a) s = .next ((if 16 ≤ (s.link h).retries + 1 then (s.retried h).linkDown h else s.retried h).pump h) := by
  have hnak : s.linkNak h (a % 4096) = if 16 ≤ (s.link h).retries + 1 then (s.retried h).linkDown h else s.retried h := by
    unfold State.linkNak
    rw [State.linkAck_of_none_freed hk]
    extract_lets l s1 s2 s3 s4
    refine if_neg ?_
    rw [linkUp_iff.2 hup, Bool.not_true, Bool.false_or, List.isEmpty_iff]
    exact hne
  change execNak h a s = _
  rw [execNak, decide_eq_true hh, guardPart, if_pos rfl, hnak]

theorem marks_retried (s : State) (h : Nat) : Marks (.RETRY_TOTAL :: causeNames) s (s.retried h) := by
  unfold State.retried
  extract_lets l s1 s2 s3
  have h1 : Marks [] s s1 := marks_setLink ..
  have hout : Marks [] s1 s2 := ⟨rfl, ⟨fun _ _ => rfl⟩, fun _ => .of_reg_eq rfl⟩
  have h2 : Marks [] s s2 := hout.step h1
  have h3 : Marks (.RETRY_TOTAL :: causeNames) s s3 := (marks_raise ..).step ((marks_bump ..).step ((marks_bump ..).step h2.mono))
  exact .ite ((marks_tnrNow ..).step h3) h3

theorem State.reg_retried (s : State) (h : Nat) :
    (s.retried h).reg (linkR .RETRY_TOTAL h) = satAdd (s.reg (linkR .RETRY_TOTAL h)) 1 ∧ bit ((s.retried h).reg (linkR .LINKC_STATUS h)) 5 = true := by
  unfold State.retried
  extract_lets l s1 s2 s3
  have hrest : Marks causeNames s3 (if s3.linkRouted h then s3.tnrNow 2 else s3) := .ite (marks_tnrNow ..) .refl
  refine ⟨?_, (hrest.bits (.link h)).bit 5 (State.bit_status_raised _ (.link h) (by decide) ..)⟩
  rw [hrest.reg_eq _ (show RegName.RETRY_TOTAL ∉ causeNames by decide)]
  simp only [s3]
  rw [(marks_raise ..).reg_eq _ (show RegName.RETRY_TOTAL ∉ causeNames by decide), State.reg_bump_ne _ _ _ _ (linkR_ne (by decide)), State.reg_bump, if_neg (by decide)]
  rfl

theorem State.pump_of_down {s : State} {h : Nat} (hdown : s.linkState h ≠ 2) : s.pump h = s := by
  unfold State.pump
  have hup : s.linkUp h = false := by rw [State.linkUp, decide_eq_false hdown]
  cases (((s.link h).queues.map fun q => (q.map fun m => m.bytes.length / s.flitCap h + 1).sum).sum) with
  | zero => rfl
  | succ n =>
    rw [State.pumpGo]
    exact if_pos (by rw [hup]; rfl)

/- Release (R351). -/

/-- A message taken from the receive buffer, its credits returned. -/
def State.released (s : State) (h i : Nat) (m : RxMsg) : State :=
  (s.setLink h { s.link h with inbox := (s.link h).inbox.eraseIdx i }).giveCredits h m.vc m.flits

theorem State.inbox_released (s : State) (h i : Nat) (m : RxMsg) : ((s.released h i m).link h).inbox = (s.link h).inbox.eraseIdx i := by
  rw [State.released, (sentOnly_giveCredits ..).inbox, State.link_setLink, if_pos rfl]

theorem State.reg_released (s : State) (h i : Nat) (m : RxMsg) : (s.released h i m).reg (linkR .LATE_RELEASE_TOTAL h) = s.reg (linkR .LATE_RELEASE_TOTAL h) :=
  (sent_giveCredits ..).reg _ (show RegName.LATE_RELEASE_TOTAL ≠ .FLIT_TX_TOTAL by decide)

/-- A late release: counted, and noted in the step's timing reasons. -/
def State.releasedLate (s : State) (h i : Nat) (m : RxMsg) : State :=
  let t := (s.released h i m).bump (linkR .LATE_RELEASE_TOTAL h) 1
  if nbit t.step.tnr 1 then t else t.tnrNow 1

theorem State.releasedLate_inbox (s : State) (h i : Nat) (m : RxMsg) :
    ((s.releasedLate h i m).link h).inbox = (s.link h).inbox.eraseIdx i ∧
      (s.releasedLate h i m).reg (linkR .LATE_RELEASE_TOTAL h) = satAdd (s.reg (linkR .LATE_RELEASE_TOTAL h)) 1 := by
  have htotal : ((s.released h i m).bump (linkR .LATE_RELEASE_TOTAL h) 1).reg (linkR .LATE_RELEASE_TOTAL h) = satAdd (s.reg (linkR .LATE_RELEASE_TOTAL h)) 1 := by
    rw [State.reg_bump, if_neg (by decide), s.reg_released]
  have hinbox : (((s.released h i m).bump (linkR .LATE_RELEASE_TOTAL h) 1).link h).inbox = (s.link h).inbox.eraseIdx i := by
    exact (SentOnly.inbox (sentOnly_bump (s.released h i m) .LATE_RELEASE_TOTAL (.link h) 0 1) h).trans (s.inbox_released h i m)
  unfold State.releasedLate
  extract_lets t
  split
  · exact ⟨hinbox, htotal⟩
  · rw [(sentOnly_tnrNow ..).inbox, (marks_tnrNow ..).reg_eq _ (show RegName.LATE_RELEASE_TOTAL ∉ causeNames by decide)]
    exact ⟨hinbox, htotal⟩

theorem exec_messageRelease {s : State} {h i : Nat} {m : RxMsg} (hh : h < 40) (hm : (s.link h).inbox[i]? = some m) (r : Nat) :
    exec (.messageRelease h i r) s = .next (
      let t := m.arrived - s.step.runAt
      let k := max s.clkK 1
      let due := s.deadline h m r t
      let late : Bool := decide (due < (t * 5000 * k : Nat)) || decide ((t : Int) + 1 < sendTime (fld m.h1 59 32) t)
      if !s.entered then s.released h i m
      else if !late && decide (((s.clock - s.step.runAt) * 5000 * k : Nat) < due) then s
      else if !late then s.released h i m else s.releasedLate h i m) := by
  change execMessageRelease h i r s = _
  rw [execMessageRelease, decide_eq_true hh, guardPart, if_pos rfl]
  dsimp only
  rw [hm]
  rfl

/-- The full send time is the one congruent to the beats nearest T (R352). -/
theorem sendTime_nearest (beats t : Nat) :
    (sendTime beats t - beats) % 2 ^ 28 = 0 ∧ (t : Int) - 2 ^ 27 < sendTime beats t ∧ sendTime beats t ≤ t + 2 ^ 27 := by
  unfold sendTime
  extract_lets d
  have hd : d = ((beats : Int) - t) % 268435456 := rfl
  split <;> omega

/-- Settles O51: flits by their branch, a run of NAKs and a timeout by the link taken down, a release by its lateness. -/
theorem linkFlits : Obligations.LinkFlits := by
  unfold Obligations.LinkFlits
  intro s h hh
  refine ⟨fun b p hdown => ?off, fun b stalls hup => ⟨?fec, fun hbad => ?crc, ?data⟩, fun a hup hk hne hfew => ?nak, fun a hup hk hne hmany hs => ?nakDown,
    fun hno => ?noTimeout, fun hup hne hs => ?timeout, fun i r hm => ?noMessage, sendTime_nearest, fun i r m hm => ?release⟩
  case off =>
    change execFlit h b p s = _
    rw [execFlit, decide_eq_true hh, guardPart, if_pos rfl, if_pos (by rw [State.linkUp, decide_eq_false hdown]; rfl)]
  case fec =>
    obtain ⟨hseq, htotal⟩ := (s.flitIn h stalls).refused_flit h .FEC_UNCORR_TOTAL (by decide)
    refine ⟨_, exec_flit hh hup b true stalls, hseq.trans ((sentOnly_flitIn ..).rxSeq h), ?_, ?_⟩
    · exact htotal.trans (congrArg (satAdd · 1) (s.reg_flitIn_ne h stalls (by decide)))
    · exact (State.reg_refused_flit_ne (s.flitIn h stalls) h (n := .FEC_UNCORR_TOTAL) (by decide)).trans (s.reg_flitIn h stalls)
  case crc =>
    obtain ⟨hseq, htotal⟩ := (s.flitIn h stalls).refused_flit h .CRC_ERR_TOTAL (by decide)
    refine ⟨_, (exec_flit hh hup b false stalls).trans (congrArg Outcome.next ((if_neg (by decide)).trans (if_pos hbad))), hseq.trans ((sentOnly_flitIn ..).rxSeq h), ?_⟩
    exact htotal.trans (congrArg (satAdd · 1) (s.reg_flitIn_ne h stalls (by decide)))
  case data =>
    intro head hlen hcrc henc hkind hnak
    have hgood : ¬ (b.length ≠ 256 ∨ crc32 (b.take 252) ≠ leNat (b.drop 252)) := fun k => k.elim (fun e => e hlen) fun e => e hcrc
    have henc' : (s.flitIn h stalls).linkEnc h = false := by
      rw [State.linkEnc, s.reg_flitIn_ne h stalls (by decide)]
      exact henc
    have hexec := (exec_flit hh hup b false stalls).trans (congrArg Outcome.next ((if_neg (by decide)).trans (if_neg hgood)))
    dsimp only at hexec
    rw [hkind, henc', if_neg (by decide), if_neg (by decide)] at hexec
    have hin : RxKept s (s.flitIn h stalls) := (sentOnly_flitIn ..).rxKept
    have hopen : RxKept s ((s.flitIn h stalls).setLink h { (s.flitIn h stalls).link h with
        rcvd := max ((s.flitIn h stalls).link h).rcvd (((s.flitIn h stalls).link h).rcvd + 1) }) := hin.trans (rxKept_setLink _ h _ rfl)
    have hhead := hopen.trans (rxKept_flitHeader _ h hnak)
    refine ⟨_, hexec.trans (congrArg Outcome.next (congrArg (State.pump · h) (if_pos rfl))), ?_⟩
    rw [(sentOnly_pump ..).rxSeq, State.rxSeq_dataFlit, hhead.rxSeq]
  case nak =>
    have hmarks := marks_retried s h
    obtain ⟨htotal, hbit⟩ := s.reg_retried h
    rw [exec_nak hh hup hk hne, if_neg (by omega)]
    refine ⟨_, rfl, ?_, ?_, ?_⟩
    · exact (State.linkState_of_marks (marks_pump ..) h).trans ((State.linkState_of_marks hmarks h).trans hup)
    · rw [(marks_pump ..).reg_eq _ (show RegName.RETRY_TOTAL ∉ [RegName.FLIT_TX_TOTAL] by decide), htotal]
    · exact ((marks_pump ..).bits (.link h)).bit 5 hbit
  case nakDown =>
    have hdown := State.wentDown_linkDown h (s := s.retried h) (by rw [(marks_retried s h).state]; exact hs)
    rw [exec_nak hh hup hk hne, if_pos (by omega), State.pump_of_down (by rw [hdown.state]; decide)]
    exact ⟨_, rfl, hdown.state, hdown.replay, hdown.cause⟩
  case noTimeout =>
    change execAckTimeout h s = _
    rw [execAckTimeout, decide_eq_true hh, guardPart, if_pos rfl, if_neg]
    rw [Bool.and_eq_true, linkUp_iff, Bool.not_eq_true', List.isEmpty_eq_false_iff]
    exact fun k => hno.elim (fun e => e k.1) fun e => k.2 e
  case timeout =>
    have hdown := State.wentDown_linkDown h hs
    refine ⟨s.linkDown h, ?_, hdown.state, hdown.replay, hdown.total, hdown.cause⟩
    change execAckTimeout h s = _
    rw [execAckTimeout, decide_eq_true hh, guardPart, if_pos rfl, if_pos]
    rw [Bool.and_eq_true, linkUp_iff, Bool.not_eq_true', List.isEmpty_eq_false_iff]
    exact ⟨hup, hne⟩
  case noMessage =>
    change execMessageRelease h i r s = _
    rw [execMessageRelease, decide_eq_true hh, guardPart, if_pos rfl]
    dsimp only
    rw [hm]
  case release =>
    intro T k due late early
    have hexec := exec_messageRelease hh hm r
    have hearly (hin : s.entered = true) (hl : ¬ late) (he : early) : exec (.messageRelease h i r) s = .next s := by
      refine hexec.trans (congrArg Outcome.next ((if_neg (by rw [hin]; decide)).trans (if_pos ?_)))
      rw [Bool.and_eq_true, Bool.not_eq_true', Bool.or_eq_false_iff, decide_eq_false_iff_not, decide_eq_false_iff_not, decide_eq_true_iff]
      exact ⟨not_or.1 hl, he⟩
    refine ⟨hearly, fun hgo => ?_⟩
    by_cases hin : s.entered = true
    · by_cases hl : late
      · have hlate : (decide (due < (T * 5000 * k : Nat)) || decide ((T : Int) + 1 < sendTime (fld m.h1 59 32) T)) = true := by
          rw [Bool.or_eq_true, decide_eq_true_iff, decide_eq_true_iff]
          exact hl
        obtain ⟨hinbox, htotal⟩ := s.releasedLate_inbox h i m
        refine ⟨s.releasedLate h i m, ?_, hinbox, ?_⟩
        · refine hexec.trans (congrArg Outcome.next ((if_neg (by rw [hin]; decide)).trans ((if_neg ?_).trans (if_neg ?_)))) <;> rw [hlate] <;> simp
        · rw [hin, hlate]
          exact htotal
      · have hlate : (decide (due < (T * 5000 * k : Nat)) || decide ((T : Int) + 1 < sendTime (fld m.h1 59 32) T)) = false := by
          rw [Bool.or_eq_false_iff, decide_eq_false_iff_not, decide_eq_false_iff_not]
          exact not_or.1 hl
        have hdue : ¬ early := fun he => hgo ⟨hin, hl, he⟩
        refine ⟨s.released h i m, ?_, s.inbox_released h i m, ?_⟩
        · refine hexec.trans (congrArg Outcome.next ((if_neg (by rw [hin]; decide)).trans ((if_neg ?_).trans (if_pos ?_))))
          · rw [hlate, Bool.not_false, Bool.true_and, decide_eq_true_iff]
            exact hdue
          · rw [hlate]
            rfl
        · rw [hin, hlate, s.reg_released]
          exact (satAdd_zero _).symm
    · refine ⟨s.released h i m, hexec.trans (congrArg Outcome.next (if_pos (by rw [eq_false_of_ne_true hin]; rfl))), s.inbox_released h i m, ?_⟩
      rw [eq_false_of_ne_true hin, s.reg_released]
      exact (satAdd_zero _).symm

end Sys2Proof.Machine
end

section
/-! SPDM requests over I3C (17 R445–R449), and the security mailbox (17 R439, R440, R442, R451, R458, R459). Settles O55 and O56. -/
set_option Elab.async false -- elaborate in order: side threads each hold a stack of their own

namespace Sys2Proof.Machine

open Host

/- SPDM. -/

theorem State.spdmI3c_of_off {s : State} (h : s.sec.mode = 0) (r : SpdmReq) : s.spdmI3c r = s := if_pos h

/-- An answered request: the answer by the state, or busy; negotiation notes its stage. -/
theorem State.spdmI3c_answers {s : State} (hmode : s.sec.mode ≠ 0) (hgood : s.pwr.pwrGood = true) (r : SpdmReq) :
    (s.spdmI3c r).regs = s.regs ∧ (s.spdmI3c r).hbm = s.hbm ∧ (s.spdmI3c r).sec.otp = s.sec.otp ∧ (s.spdmI3c r).sec.busy = s.sec.busy ∧
      (s.spdmI3c r).i3c = s.i3c ++ [if (s.sec.busy.map (·.op)) = some 8 then spdmError 3 else s.spdmAnswer r] := by
  have hreply (bs : List Byte) : s.i3cReply bs = { s with i3c := s.i3c ++ [bs] } := if_pos hgood
  rw [State.spdmI3c, if_neg hmode]
  cases hb : s.sec.busy with
  | none =>
    simp only [hreply]
    exact ⟨rfl, rfl, rfl, hb, rfl⟩
  | some j =>
    by_cases h8 : j.op = 8
    · simp only [h8, hreply, if_true, Option.map_some]
      exact ⟨trivial, trivial, trivial, hb, trivial⟩
    · have hop : ¬ Option.map (·.op) (some j) = some 8 := fun e => h8 (Option.some.inj e)
      rw [if_neg hop]
      simp only [h8, hreply, if_false]
      exact ⟨trivial, trivial, trivial, hb, trivial⟩

/-- The command of each request asks what the request does. -/
theorem exec_spdm {s : State} {slot off len op : Nat} {signed : Bool} {nonce : List Byte} {r : Instr × SpdmReq}
    (h : r ∈ ([ (.getVersion, .version), (.getCapabilities, .capabilities), (.negotiateAlgorithms, .algorithms), (.getDigests, .digests)
      , (.getCertificate slot off len, .certificate slot off len), (.challenge slot nonce, .challenge slot (padTo 32 nonce))
      , (.getMeasurements op signed nonce, .measurements op signed (padTo 32 nonce)) ] : List (Instr × SpdmReq))) :
    exec r.1 s = .next (s.spdmI3c r.2) := by
  simp only [List.mem_cons, List.not_mem_nil, or_false] at h
  rcases h with rfl | rfl | rfl | rfl | rfl | rfl | rfl <;> rfl

/-- Settles O55: each request by its answer. -/
theorem spdmAnswers : Obligations.SpdmAnswers := by
  unfold Obligations.SpdmAnswers
  intro s slot off len op signed nonce r hr
  refine ⟨fun hoff => ?_, fun hmode hgood => ⟨_, exec_spdm hr, State.spdmI3c_answers hmode hgood r.2⟩, fun hslot => ⟨if_pos hslot, if_pos hslot⟩,
    fun h8 hff => if_pos ⟨h8, hff⟩, ?_, rfl⟩
  · rw [exec_spdm hr, State.spdmI3c_of_off hoff]
  · intro part
    rw [State.spdmAnswer]
    simp only [ne_eq, not_true_eq_false, if_false]
    rfl

/- The security mailbox. -/

section

variable (s : State)

theorem marks_onSec (f : Sec → Sec) : Marks [] s (s.onSec f) := ⟨rfl, ⟨fun _ _ => rfl⟩, fun _ => .of_reg_eq rfl⟩

theorem marks_burnAll (l : List (Nat × W64)) : Marks causeNames s (s.burnAll l).1 := by
  induction l generalizing s with
  | nil => exact .refl
  | cons p l ih =>
    obtain ⟨w, v⟩ := p
    unfold State.burnAll
    extract_lets t
    have ht : Marks causeNames s t := (marks_onSec ..).mono
    split
    · exact (ih t).step ht
    · dsimp only
      exact (marks_raise ..).step ht

theorem marks_policyWrite : Marks causeNames s s.policyWrite.1 := by
  unfold State.policyWrite
  extract_lets w
  split
  · exact .refl
  · split
    · exact .refl
    · split
      · dsimp only
        exact marks_raise ..
      · exact marks_burnAll ..

theorem marks_lifeAdvance : Marks causeNames s s.lifeAdvance.1 := by
  unfold State.lifeAdvance
  extract_lets target now
  split
  · exact .refl
  · split
    · exact .refl
    · split
      · exact .refl
      · split
        · exact .refl
        · exact marks_burnAll ..

theorem marks_debugUnlock (slot : Nat) : Marks causeNames s (s.debugUnlock slot).1 := by
  unfold State.debugUnlock
  split
  · exact .refl
  · extract_lets t a key
    have ht : Marks causeNames s t := (marks_onSec ..).mono
    split
    · exact ht
    · split
      · exact ht
      · dsimp only
        exact (marks_raise ..).step ((marks_onSec ..).step ht)

/-- A security command marks, at most: the controller keeps its course. -/
theorem marks_secRun (op index : Nat) : Marks causeNames s (s.secRun op index).1 := by
  unfold State.secRun
  split
  · exact (touches_ctxKeyGen ..).marks .refl
  · exact (touches_linkSecret ..).marks .refl
  · dsimp only
    exact (marks_onSec s _).mono
  · exact marks_policyWrite s
  · exact marks_lifeAdvance s
  · exact (touches_debugChallenge ..).marks .refl
  · exact marks_debugUnlock s index
  · exact (touches_spdmRelay ..).marks .refl
  · exact (touches_secRandom ..).marks .refl
  · exact .refl

end

/-- GO with nothing in progress: the command runs, and BUSY is set. -/
theorem State.secGo_of_idle {s : State} (h : s.sec.busy = none) {op index : Nat} (hop : op < 256) (hindex : index < 16) :
    ∃ j, (s.secGo op index).sec.busy = some j ∧ j.op = op ∧ j.code = ((s.setReg (modR .SEC_CMD) (w64 (op + index * 2 ^ 8))).secRun op index).2.1 ∧
      bit ((s.secGo op index).reg (modR .SEC_STATUS)) 8 = true ∧ (s.secGo op index).hbm = s.hbm ∧ (s.secGo op index).scratch = s.scratch ∧
      (s.secGo op index).step.state = s.step.state := by
  have hgo : s.secGo op index =
      (((s.setReg (modR .SEC_CMD) (w64 (op + index * 2 ^ 8))).secRun op index).1.onSec fun x => { x with
        busy := some ⟨op, ((s.setReg (modR .SEC_CMD) (w64 (op + index * 2 ^ 8))).secRun op index).2.1,
          ((s.setReg (modR .SEC_CMD) (w64 (op + index * 2 ^ 8))).secRun op index).2.2⟩ }).setRegFld (modR .SEC_STATUS) 8 8 1 := by
    rw [State.secGo, if_neg (by rw [h]; decide), Nat.mod_eq_of_lt hop, Nat.mod_eq_of_lt hindex]
  have htouch := touches_secRun (s.setReg (modR .SEC_CMD) (w64 (op + index * 2 ^ 8))) op index
  have hmarks := marks_secRun (s.setReg (modR .SEC_CMD) (w64 (op + index * 2 ^ 8))) op index
  rw [hgo]
  refine ⟨_, rfl, rfl, rfl, ?_, htouch.hbm_eq.trans rfl, htouch.scratch_eq.trans rfl, hmarks.state.trans rfl⟩
  rw [State.reg_setRegFld_same]
  exact bit_setFld_one (by decide) _

theorem State.secGo_of_busy {s : State} {j : SecJob} (h : s.sec.busy = some j) (op index : Nat) : s.secGo op index = s.bump (modR .SEC_BUSY_TOTAL) 1 :=
  if_pos (by rw [h]; rfl)

/-- The command of each operation is GO with its OP and index. -/
theorem exec_sec {s : State} {c slot : Nat} {r : Instr × Nat × Nat} (hc : c < 16) (hslot : slot < 16)
    (h : r ∈ ([ (.ctxKeyGen c, 1, c), (.linkSecret, 2, 0), (.imageKey, 3, 0), (.policyWrite, 4, 0), (.lifecycleAdvance, 5, 0)
        , (.debugChallenge, 6, 0), (.debugUnlock slot, 7, slot), (.spdmRelay, 8, 0), (.randomBytes, 9, 0) ] : List (Instr × Nat × Nat))) :
    exec r.1 s = .next (s.secGo r.2.1 r.2.2) ∧ r.2.1 < 256 ∧ r.2.2 < 16 := by
  simp only [List.mem_cons, List.not_mem_nil, or_false] at h
  rcases h with rfl | rfl | rfl | rfl | rfl | rfl | rfl | rfl | rfl
  case inl => exact ⟨rfl, Nat.lt_of_sub_eq_succ rfl, hc⟩
  case inr.inr.inr.inr.inr.inr.inl => exact ⟨rfl, Nat.lt_of_sub_eq_succ rfl, hslot⟩
  all_goals exact ⟨rfl, by decide, by decide⟩

/- Register arrays from bytes. -/

theorem State.reg_putBytes (s : State) (n : RegName) (bs : List Byte) {i : Nat} (hi : i < 64) :
    (s.putBytes n bs).reg (modR n i) = w64 (leNat ((bs.drop (8 * i)).take 8)) := by
  have hgo (l : List Nat) (t : State) (hnd : l.Nodup) : ((l.foldl (fun s i => s.setReg (modR n i) (w64 (leNat ((bs.drop (8 * i)).take 8)))) t).reg (modR n i)) =
      if i ∈ l then w64 (leNat ((bs.drop (8 * i)).take 8)) else t.reg (modR n i) := by
    induction l generalizing t with
    | nil => rfl
    | cons k l ih =>
      obtain ⟨hk, hl⟩ := List.nodup_cons.1 hnd
      rw [List.foldl_cons, ih _ hl]
      by_cases hik : i = k
      · subst hik
        rw [if_neg hk, if_pos List.mem_cons_self, State.reg_setReg_same]
      · rw [State.reg_setReg_ne _ _ _ _ fun e => hik (congrArg RegId.idx e)]
        simp only [List.mem_cons, hik, false_or]
  rw [State.putBytes, hgo _ _ List.nodup_range, if_pos (List.mem_range.2 hi)]

theorem regsWithin_putBytes (s : State) (n : RegName) (bs : List Byte) : RegsWithin [n] s (s.putBytes n bs) := by
  unfold State.putBytes
  exact .foldl .refl fun t i => regsWithin_setReg ..

/-- SEC_ARG and SEC_RESULT, zeroed. -/
def State.zeroed (s : State) : State := (s.putBytes .SEC_ARG []).putBytes .SEC_RESULT []

theorem State.reg_zeroed (s : State) {k : Nat} (hk : k < 64) : s.zeroed.reg (modR .SEC_ARG k) = 0 ∧ s.zeroed.reg (modR .SEC_RESULT k) = 0 := by
  have hword : w64 (leNat ((([] : List Byte).drop (8 * k)).take 8)) = 0 := by
    rw [List.drop_nil]
    rfl
  refine ⟨?_, (State.reg_putBytes _ _ _ hk).trans hword⟩
  exact ((regsWithin_putBytes ..).reg_eq _ (show RegName.SEC_ARG ∉ [RegName.SEC_RESULT] by decide)).trans ((State.reg_putBytes _ _ _ hk).trans hword)

theorem State.secZero_of_due {s : State} (hdue : s.sec.zeroDue = true) (hidle : s.sec.busy = none) :
    s.secZero = s.zeroed.onSec fun x => { x with zeroDue := false } := if_pos (by rw [hdue, hidle]; rfl)

/-- Arguments and results are zeroed where due (R459). -/
theorem State.secZero_zeroes (s : State) : s.secZero.hbm = s.hbm ∧
    (s.sec.zeroDue = true → s.sec.busy = none → s.secZero.sec.zeroDue = false ∧
      ∀ k < 64, s.secZero.reg (modR .SEC_ARG k) = 0 ∧ s.secZero.reg (modR .SEC_RESULT k) = 0) ∧
    ((s.sec.zeroDue = false ∨ s.sec.busy ≠ none) → s.secZero.regs = s.regs) := by
  refine ⟨(touches_secZero s).hbm_eq, fun hdue hidle => ?_, fun hnot => ?_⟩
  · rw [State.secZero_of_due hdue hidle]
    have hz (k : Nat) (hk : k < 64) := s.reg_zeroed hk
    generalize s.zeroed = z at hz ⊢
    exact ⟨rfl, hz⟩
  · rw [State.secZero, if_neg]
    rw [Bool.and_eq_true, Option.isNone_iff_eq_none]
    rintro ⟨hdue, hidle⟩
    rcases hnot with h | h
    · rw [h] at hdue
      cases hdue
    · exact h hidle

/- Effects of single commands. -/

theorem State.ctxKeyGen_of_free {s : State} {c : Nat} (hc : c < 4) (hheld : s.step.state = .held) (hfree : (s.ctx c).state = .free)
    (hok : s.sec.trngFail = false) : (s.ctxKeyGen c).2.1 = 0 ∧ ((s.ctxKeyGen c).1.ctx c).key = some (s.sec.draws + 1) := by
  have hgo : ¬ ((!s.isHeld) = true ∨ (s.ctx c).state ≠ .free) := by
    rw [isHeld_eq_true.2 hheld]
    simp [hfree]
  rw [State.ctxKeyGen, if_neg (by omega), if_neg hgo, if_neg (by rw [hok]; decide)]
  refine ⟨rfl, ?_⟩
  dsimp only
  rw [State.ctx, sget_sset, if_pos rfl]
  rfl

/-- A nonce serves one attempt: it is gone whatever the outcome, and debug is unlocked exactly where the code is 0 (R440). -/
theorem State.debugUnlock_of_nonce {s : State} {slot : Nat} (h : s.sec.nonce ≠ none) :
    (s.debugUnlock slot).1.sec.nonce = none ∧ (s.debugUnlock slot).1.sec.debug = (s.sec.debug || decide ((s.debugUnlock slot).2.1 = 0)) ∧
      (s.sec.custHash slot ≠ some (sha512 (s.secArg.take 133)).toNat → (s.debugUnlock slot).2.1 ≠ 0) := by
  obtain ⟨n, hn⟩ := Option.ne_none_iff_exists'.1 h
  unfold State.debugUnlock
  rw [hn]
  dsimp only
  split
  · exact ⟨rfl, (Bool.or_false _).symm, fun _ => Nat.succ_ne_zero _⟩
  · split
    · exact ⟨rfl, (Bool.or_false _).symm, fun _ => Nat.succ_ne_zero _⟩
    · rename_i hkey
      refine ⟨?_, ?_, fun hne => absurd (.inl hne) hkey⟩
      · rw [(touches_raise ..).sec_eq]
        rfl
      · rw [(touches_raise ..).sec_eq]
        exact (Bool.or_true _).symm

/-- Completion: the result and the code, BUSY clear. -/
def State.secDone (s : State) (j : SecJob) : State :=
  ((s.putBytes .SEC_RESULT j.result).setReg (modR .SEC_STATUS) (w64 j.code)).onSec fun x => { x with
    busy := none, zeroDue := x.zeroDue || [1, 2, 7, 9].contains j.op }

theorem exec_secCmdDone {s : State} {j : SecJob} (h : s.sec.busy = some j) :
    exec .secCmdDone s = .next (if j.code = 0 then s.secDone j else (s.secDone j).raise (.dieCtl 0) 16) := by
  change execSecCmdDone s = _
  rw [execSecCmdDone, h]
  rfl

theorem State.reg_secDone (s : State) (j : SecJob) : (s.secDone j).reg (modR .SEC_STATUS) = w64 j.code ∧
    ∀ i < 64, (s.secDone j).reg (modR .SEC_RESULT i) = w64 (leNat ((j.result.drop (8 * i)).take 8)) := by
  have hreg (i : RegId) : (s.secDone j).reg i = ((s.putBytes .SEC_RESULT j.result).setReg (modR .SEC_STATUS) (w64 j.code)).reg i :=
    (marks_onSec ((s.putBytes .SEC_RESULT j.result).setReg (modR .SEC_STATUS) (w64 j.code)) _).reg_eq i List.not_mem_nil
  refine ⟨(hreg _).trans (State.reg_setReg_same ..), fun i hi => ?_⟩
  rw [hreg, State.reg_setReg_ne _ _ _ _ (fun e => by cases congrArg RegId.name e), State.reg_putBytes _ _ _ hi]

theorem State.hbm_secDone (s : State) (j : SecJob) : (s.secDone j).hbm = s.hbm := by
  have hput : (s.putBytes .SEC_RESULT j.result).hbm = s.hbm := (touches_putBytes ..).hbm_eq
  rw [State.secDone]
  generalize s.putBytes .SEC_RESULT j.result = z at hput ⊢
  exact hput

theorem State.busy_secDone (s : State) (j : SecJob) : (s.secDone j).sec.busy = none := by
  rw [State.secDone]
  generalize s.putBytes .SEC_RESULT j.result = z
  rfl

/-- Settles O56: GO by the busy flag, each command by its effect, completion and zeroing by the registers they write. -/
theorem securityMailbox : Obligations.SecurityMailbox := by
  unfold Obligations.SecurityMailbox
  intro s
  refine ⟨fun c slot hc hslot r hr => ?go, fun c hc => ⟨fun hno => ?noKey, fun hheld hfree hfail => ?keyFail, fun hheld hfree hok => State.ctxKeyGen_of_free hc hheld hfree hok⟩,
    fun hno => ?held, fun hfail => ?trng, fun slot => ⟨fun hn => ?noNonce, fun hn => State.debugUnlock_of_nonce hn⟩, fun hidle => ?idle, ?fail,
    fun j hj hcode => ?done, fun i hi => ?zero, rfl⟩
  case go =>
    obtain ⟨hexec, hop, hindex⟩ := exec_sec (s := s) hc hslot hr
    refine ⟨fun j hj => ?_, fun hidle => ?_⟩
    · rw [hexec, State.secGo_of_busy hj]
    · obtain ⟨j, hgo⟩ := State.secGo_of_idle hidle hop hindex
      exact ⟨_, j, hexec, hgo⟩
  case noKey =>
    rw [State.ctxKeyGen, if_neg (by omega)]
    refine if_pos (hno.imp_left fun h => ?_)
    rw [Bool.not_eq_true', Bool.eq_false_iff]
    exact fun k => h (isHeld_eq_true.1 k)
  case keyFail =>
    have hgo : ¬ ((!s.isHeld) = true ∨ (s.ctx c).state ≠ .free) := by
      rw [isHeld_eq_true.2 hheld]
      simp [hfree]
    rw [State.ctxKeyGen, if_neg (by omega), if_neg hgo, if_pos hfail]
  case held =>
    have hnot : (!s.isHeld) = true := by
      rw [Bool.not_eq_true', Bool.eq_false_iff]
      exact fun k => hno (isHeld_eq_true.1 k)
    exact ⟨if_pos hnot, if_pos hnot⟩
  case trng => exact ⟨if_pos hfail, if_pos hfail⟩
  case noNonce => rw [State.debugUnlock, hn]
  case idle =>
    change execSecCmdDone s = _
    rw [execSecCmdDone, hidle]
  case fail =>
    refine ⟨_, rfl, ?_, State.bit_status_raised _ (.dieCtl 0) (by decide) ..⟩
    rw [(touches_raise ..).sec_eq]
    rfl
  case done =>
    have hrest : Marks causeNames (s.secDone j) (if j.code = 0 then s.secDone j else (s.secDone j).raise (.dieCtl 0) 16) := .ite .refl (marks_raise ..)
    obtain ⟨hstatus, hresult⟩ := s.reg_secDone j
    refine ⟨_, exec_secCmdDone hj, ?_, ?_, fun i hi => ?_, fun hne => ?_, ?_⟩
    · split
      · exact s.busy_secDone j
      · rw [(touches_raise ..).sec_eq]
        exact s.busy_secDone j
    · exact (hrest.reg_eq _ (by decide)).trans hstatus
    · rw [hrest.reg_eq _ (show RegName.SEC_RESULT ∉ causeNames by decide), hresult i hi]
    · rw [if_neg hne]
      exact State.bit_status_raised _ (.dieCtl 0) (by decide) ..
    · split
      · exact s.hbm_secDone j
      · exact (touches_raise ..).hbm_eq.trans (s.hbm_secDone j)
  case zero =>
    simp only [List.mem_cons, List.not_mem_nil, or_false] at hi
    rcases hi with rfl | rfl
    · exact ⟨_, rfl, s.secZero_zeroes⟩
    · exact ⟨_, rfl, (s.reply (s.readReg (modR .SEC_STATUS)).toNat).secZero_zeroes⟩

end Sys2Proof.Machine
end

section
/-! Contexts (15 R394–R401, 17 R454). Refutes O46: a lay group whose end lies inside a granule lets a byte of a scrubbed page escape the scrub. -/
set_option Elab.async false -- elaborate in order: side threads each hold a stack of their own

namespace Sys2Proof.Machine

open Host

/-- Outside every lay group an address resolves by the table of the whole window (12 R308). -/
theorem State.locate_of_no_group {s : State} {a : Nat} (h : (s.mem.groups.find? fun G => decide (G.base ≤ a) && decide (a < G.base + G.size)) = none) :
    s.locate a = (s.layEntry (a / 2048 % 3840), (0 + a / 2048 / 3840 * 16 + s.layRank (a / 2048 % 3840) (s.layEntry (a / 2048 % 3840))) * 2048 + a % 2048) := by
  unfold State.locate
  rw [h]

/-- With no migration recorded an access goes to its own channel. -/
theorem State.redirect_of_no_migration {s : State} {c : Nat} (h : bit (s.reg (rid .LAY_MIG .module (c / 32))) 63 = false) (b : Nat) :
    s.redirect c b = (c, [c]) := by
  unfold State.redirect
  extract_lets w n wm dst
  have hw : bit w 63 = false := h
  rw [hw, Bool.false_and, if_neg (by decide)]

/- The scrub that misses a byte. A lay group of one byte at 16,384 holds the base of the granule there, and none of its other bytes: zeroing the granule from its base clears the channel of the group, while byte 16,389 lies, outside the group, on channel 1. -/

/-- Context 0 scrubs page 0, where a lay group of one byte ends inside a granule. -/
def strayGroup : State :=
  { State.reset with ctxs := [(0, { state := .scrubbing })], regs := [(modR .CTX_PAGES 0, 1)], hbm := [(0, 1), (2 ^ 31 + 5, 7)]
                     mem := { groups := [⟨16384, 1, false⟩] } }

/-- A state on the way of that scrub: the stray byte is in place, in a memory in canonical form, and the layout is as it was. -/
structure StrayKept (s : State) : Prop where
  byte : memGet s.hbm (2 ^ 31 + 5) = 7
  wf : Memory.wf s.hbm = true
  lay : s.mem.lay = []
  groups : s.mem.groups = [⟨16384, 1, false⟩]
  still : ∀ c, bit (s.reg (rid .LAY_MIG .module c)) 63 = false

theorem strayKept_strayGroup : StrayKept strayGroup := by
  refine ⟨by decide, by decide, rfl, rfl, fun c => ?_⟩
  have hreg : regLook strayGroup.regs (rid .LAY_MIG .module c) = none := if_neg fun e => by cases congrArg RegId.name e
  rw [State.reg, hreg]
  exact (by decide : bit (regReset .LAY_MIG) 63 = false)

section

variable {s : State} (k : StrayKept s)
include k

theorem StrayKept.layEntry (e : Nat) : s.layEntry e = (e % 8) * 32 + (e / 8) % 30 := by
  rw [State.layEntry, k.lay]
  rfl

/-- Zeroing a granule that resolves to another row than the stray byte's leaves it. -/
theorem StrayKept.zeroGranule {a : Nat} (h : (s.locate a).1 ≠ 1 ∨ 2048 ≤ (s.locate a).2) (hlt : (s.locate a).2 + 2048 ≤ 2 ^ 31) : StrayKept (s.zeroGranule a) := by
  unfold State.zeroGranule
  extract_lets l
  rw [State.redirect_of_no_migration (k.still _)]
  dsimp only [List.foldl]
  have hkeep : (!(decide (chanKey l.1 l.2 ≤ 2 ^ 31 + 5) && decide (2 ^ 31 + 5 < chanKey l.1 l.2 + 2048))) = true := by
    change l.1 ≠ 1 ∨ 2048 ≤ l.2 at h
    change l.2 + 2048 ≤ 2 ^ 31 at hlt
    rw [Bool.not_eq_true', Bool.and_eq_false_iff, decide_eq_false_iff_not, decide_eq_false_iff_not, chanKey]
    rcases Nat.lt_trichotomy l.1 1 with h1 | h1 | h1 <;> omega
  refine ⟨?_, Memory.wf_filter _ k.wf, k.lay, k.groups, k.still⟩
  refine (memGet_filter k.wf (fun x => !(decide (chanKey l.1 l.2 ≤ x) && decide (x < chanKey l.1 l.2 + 2048))) _).trans ?_
  rw [if_pos hkeep]
  exact k.byte

/-- Granule 8 resolves, from its base inside the group, to channel 0. -/
theorem StrayKept.locate_group : s.locate 16384 = (0, 0) := by
  have hfind : (s.mem.groups.find? fun G => decide (G.base ≤ 16384) && decide (16384 < G.base + G.size)) = some ⟨16384, 1, false⟩ := by
    rw [k.groups]
    decide
  have hfirst : nth ((List.range 3840).filter fun e => decide (s.layEntry e / 32 = 0)) 0 0 = 0 := by
    have hrange : List.range 3840 = 0 :: (List.range 3839).map Nat.succ := List.range_succ_eq_map
    rw [hrange, List.filter_cons_of_pos (by rw [k.layEntry]; decide)]
    rfl
  unfold State.locate
  rw [hfind]
  extract_lets g off fin
  have hdiv : (g - 16384 / 2048) / (1 / 2048 / 8) = 0 := by change (16384 / 2048 - 16384 / 2048) / (1 / 2048 / 8) = 0; decide
  have hmod : (g - 16384 / 2048) % (1 / 2048 / 8) = 0 := by change (16384 / 2048 - 16384 / 2048) % (1 / 2048 / 8) = 0; decide
  have hrank : s.layRank 0 (s.layEntry 0) = 0 := rfl
  simp only [Bool.false_eq_true, if_false, hdiv, hmod, Nat.zero_mod, hfirst]
  simp only [fin, Nat.zero_div, hrank]
  rw [k.layEntry]
  rfl

/-- Every other granule of page 0 resolves to another row than the stray byte's. -/
theorem StrayKept.locate_granule {i : Nat} (hi : i < 1024) (h8 : i ≠ 8) :
    ((s.locate (i * 2048)).1 ≠ 1 ∨ 2048 ≤ (s.locate (i * 2048)).2) ∧ (s.locate (i * 2048)).2 + 2048 ≤ 2 ^ 31 := by
  have hfind : (s.mem.groups.find? fun G => decide (G.base ≤ i * 2048) && decide (i * 2048 < G.base + G.size)) = none := by
    rw [k.groups, List.find?_cons_of_neg]
    · rfl
    · simp
      omega
  have hrow : i * 2048 / 2048 % 3840 = i := by omega
  rw [State.locate_of_no_group hfind, hrow]
  have hrank : s.layRank i (s.layEntry i) ≤ i := Nat.le_trans List.countP_le_length (Nat.le_of_eq List.length_range)
  refine ⟨?_, by dsimp only; omega⟩
  by_cases h1 : s.layEntry i = 1
  · have hpos : 0 < s.layRank i (s.layEntry i) := by
      rw [State.layRank, List.countP_pos_iff]
      refine ⟨8, List.mem_range.2 ?_, ?_⟩
      · rw [k.layEntry] at h1
        omega
      · rw [h1, k.layEntry]
        decide
    right
    dsimp only
    omega
  · exact .inl h1

/-- Granules of page 0, zeroed one after another. -/
theorem StrayKept.zeroGranules {l : List Nat} (hlt : ∀ i ∈ l, i < 1024) : StrayKept (l.foldl (fun s i => s.zeroGranule (0 * 2 ^ 21 + i * 2048)) s) := by
  induction l generalizing s with
  | nil => exact k
  | cons i l ih =>
    refine ih ?_ fun j hj => hlt j (List.mem_cons_of_mem _ hj)
    dsimp only
    rw [Nat.zero_mul, Nat.zero_add]
    by_cases h8 : i = 8
    · subst h8
      refine k.zeroGranule (.inl ?_) ?_ <;> rw [show 8 * 2048 = 16384 from rfl, k.locate_group] <;> decide
    · obtain ⟨hrow, hend⟩ := k.locate_granule (hlt i List.mem_cons_self) h8
      exact k.zeroGranule hrow hend

theorem StrayKept.unkeyed (l : SMap PageKey) : StrayKept { s with mem := { s.mem with pages := l } } := ⟨k.byte, k.wf, k.lay, k.groups, k.still⟩

/-- The scrub of page 0 leaves the stray byte. -/
theorem StrayKept.zeroPage : StrayKept (s.zeroPage 0) := by
  unfold State.zeroPage
  rw [if_pos (by decide)]
  exact (k.zeroGranules fun i hi => List.mem_range.1 hi).unkeyed _

/-- Byte 16,389 of the window is the stray byte, where its page has no key record. -/
theorem StrayKept.hbmRead (h : sfind s.mem.pages 0 = none) : s.hbmRead 16389 1 = [7] := by
  have hfind : (s.mem.groups.find? fun G => decide (G.base ≤ 16389) && decide (16389 < G.base + G.size)) = none := by
    rw [k.groups]
    decide
  have hlocate : s.locate 16389 = (1, 5) := by
    have hrank : s.layRank 8 1 = 0 := by
      rw [State.layRank, List.countP_eq_zero]
      intro e he
      have he := List.mem_range.1 he
      rw [k.layEntry, decide_eq_true_eq]
      omega
    rw [State.locate_of_no_group hfind, show 16389 / 2048 % 3840 = 8 from rfl, k.layEntry, show 8 % 8 * 32 + 8 / 8 % 30 = 1 from rfl, hrank]
  have hruns : runsOf 16389 1 = [(16389, 1)] := by decide
  rw [State.hbmRead, hruns]
  change [s.unitRead 16389 1].flatten = [7]
  rw [State.unitRead, hlocate, State.redirect_of_no_migration (k.still _), show 16389 / 2 ^ 21 = 0 from rfl, h]
  change [[memGet s.hbm (2 ^ 31 + 5 + 0)]].flatten = [7]
  rw [Nat.add_zero, k.byte]
  rfl

end

/-- Completion of a scrub beyond its pages: the cores' scratch, the knots, the context and the cause; memory and its layout stay. -/
def State.scrubbed (s : State) (c : Nat) : State :=
  ((((((s.ctxPages c).foldl State.zeroPage s).ctxCores c).foldl State.wipeScratch ((s.ctxPages c).foldl State.zeroPage s)).clearCtxKnots 0 c).clearCtxKnots 1 c)

theorem exec_ctxTeardownDone {s : State} {c : Nat} (hc : c < 4) (h : (s.ctx c).state = .scrubbing) :
    exec (.ctxTeardownDone c) s = .next (((s.scrubbed c).onCtx c fun x => { x with state := .free, key := none }).raise .module 9 c) := by
  change execCtxTeardownDone c s = _
  rw [execCtxTeardownDone, decide_eq_true hc, guardPart, if_pos rfl, if_neg (Classical.not_not.2 h)]
  rfl

theorem State.pages_zeroPage (s : State) (p : Nat) : (s.zeroPage p).mem.pages = sdel s.mem.pages p := by
  have hgranules : Touches [.hbm, .poison] s (if (p + 1) * 2 ^ 21 ≤ hbmSize then (List.range 1024).foldl (fun s i => s.zeroGranule (p * 2 ^ 21 + i * 2048)) s else s) :=
    .ite (.foldl .refl fun t i => touches_zeroGranule ..) .refl
  unfold State.zeroPage
  generalize (if (p + 1) * 2 ^ 21 ≤ hbmSize then (List.range 1024).foldl (fun s i => s.zeroGranule (p * 2 ^ 21 + i * 2048)) s else s) = t at hgranules ⊢
  exact congrArg (fun m : MemSys => sdel m.pages p) hgranules.mem_eq

/-- The end of a scrub keeps the stray byte as its pages left it. -/
theorem StrayKept.of_touches {F : List Field} {s t : State} (k : StrayKept s) (h : Touches F s t) (hhbm : Field.hbm ∉ F := by decide)
    (hmem : Field.mem ∉ F := by decide) (hregs : Field.regs ∉ F := by decide) : StrayKept t :=
  ⟨h.hbm_eq hhbm ▸ k.byte, h.hbm_eq hhbm ▸ k.wf, h.mem_eq hmem ▸ k.lay, h.mem_eq hmem ▸ k.groups, fun c => h.reg_eq (rid .LAY_MIG .module c) hregs ▸ k.still c⟩

theorem StrayKept.raise {s : State} (k : StrayKept s) (p : Part) (b ctx : Nat) : StrayKept (s.raise p b ctx) := by
  have h := touches_raise s p b ctx 0
  have hstill (c : Nat) : (s.raise p b ctx).reg (rid .LAY_MIG .module c) = s.reg (rid .LAY_MIG .module c) :=
    (regsWithin_raise ..).reg_eq _ (show RegName.LAY_MIG ∉ causeNames by decide)
  exact ⟨h.hbm_eq ▸ k.byte, h.hbm_eq ▸ k.wf, h.mem_eq ▸ k.lay, h.mem_eq ▸ k.groups, fun c => hstill c ▸ k.still c⟩

/-- Refutes O46: on a state whose lay group ends inside a granule of the scrubbed page, byte 16,389 still reads 7 when the scrub is complete. -/
theorem not_contextLifecycle : ¬ Obligations.ContextLifecycle := by
  unfold Obligations.ContextLifecycle
  intro h
  obtain ⟨-, -, -, -, -, -, -, hscrub⟩ := h strayGroup 0 (by decide)
  obtain ⟨t, hexec, -, -, -, -, hpages⟩ := hscrub rfl
  have hpage : strayGroup.ctxPages 0 = [0] := by decide
  have hend : Touches [.scratch, .knots] (strayGroup.zeroPage 0) (strayGroup.scrubbed 0) := by
    rw [State.scrubbed, hpage]
    exact (touches_clearCtxKnots ..).step ((touches_clearCtxKnots ..).step (.foldl .refl fun t n => (touches_wipeScratch ..).step .refl))
  have hfree : StrayKept ((strayGroup.scrubbed 0).onCtx 0 fun x => { x with state := .free, key := none }) :=
    (strayKept_strayGroup.zeroPage.of_touches hend).of_touches (touches_onCtx ..)
  have ht : t = ((strayGroup.scrubbed 0).onCtx 0 fun x => { x with state := .free, key := none }).raise .module 9 0 :=
    Outcome.next.inj (hexec.symm.trans (exec_ctxTeardownDone (by decide) rfl))
  have hkeys : sfind t.mem.pages 0 = none := by
    have hmem : t.mem = (strayGroup.zeroPage 0).mem := by rw [ht, (touches_raise ..).mem_eq, (touches_onCtx ..).mem_eq, hend.mem_eq]
    rw [hmem, State.pages_zeroPage]
    rfl
  have hzero := hpages 0 (by rw [hpage]; exact List.mem_cons_self) (by decide) 16389 (by decide)
  have hseven : t.hbmRead 16389 1 = [7] := (ht ▸ hfree.raise .module 9 0).hbmRead hkeys
  rw [show 0 * 2 ^ 21 + 16389 = 16389 from rfl, hseven] at hzero
  exact absurd hzero (by decide)

end Sys2Proof.Machine
end

section
/-! PROOFS. The HBM window as reads and the holding of accesses see it; dumps, the chafe log, the outbox and the repair journal (16 R420–R424). Settles O45. -/
set_option Elab.async false -- elaborate in order: side threads each hold a stack of their own

namespace Sys2Proof.Machine

open Host

/- What an access of the HBM window sees. -/

/-- Memory without what its regulators' buckets and its page-entry caches hold. -/
def MemSys.content (m : MemSys) : MemSys := { m with tokens := [], xcache := [] }

/-- Whatever decides how the window resolves, what it reads and whether an access of it waits is as it was; regulators' tokens and cached page entries may differ. -/
structure SameWindow (s t : State) : Prop where
  hbm : t.hbm = s.hbm
  poison : t.poison = s.poison
  mem : t.mem.content = s.mem.content
  stackReset : t.stackReset = s.stackReset
  rel : t.rel = s.rel
  reg : ∀ i : RegId, i.name = .LAY_MIG ∨ i.name = .REG → t.reg i = s.reg i

theorem SameWindow.refl (s : State) : SameWindow s s := ⟨rfl, rfl, rfl, rfl, rfl, fun _ _ => rfl⟩

theorem SameWindow.trans {s t u : State} (h : SameWindow s t) (k : SameWindow t u) : SameWindow s u :=
  ⟨k.hbm.trans h.hbm, k.poison.trans h.poison, k.mem.trans h.mem, k.stackReset.trans h.stackReset, k.rel.trans h.rel,
    fun i hi => (k.reg i hi).trans (h.reg i hi)⟩

/-- The fields of the state that an access of the window sees. -/
def windowFields : List Field := [.hbm, .poison, .mem, .stackReset, .rel]

theorem Touches.sameWindow {F : List Field} {L : List RegName} {s t : State} (k : Touches F s t) (r : RegsWithin L s t)
    (hF : ∀ f ∈ windowFields, f ∉ F := by decide) (hL : .LAY_MIG ∉ L ∧ .REG ∉ L := by decide) : SameWindow s t where
  hbm := k.hbm_eq (hF _ (by decide))
  poison := k.poison_eq (hF _ (by decide))
  mem := by rw [k.mem_eq (hF _ (by decide))]
  stackReset := k.stackReset_eq (hF _ (by decide))
  rel := k.rel_eq (hF _ (by decide))
  reg i hi := r.reg_eq i (hi.elim (fun h => h ▸ hL.1) fun h => h ▸ hL.2)

section

variable {s t : State} (k : SameWindow s t)
include k

theorem SameWindow.lay : t.mem.lay = s.mem.lay := show t.mem.content.lay = s.mem.content.lay by rw [k.mem]

theorem SameWindow.groups : t.mem.groups = s.mem.groups := show t.mem.content.groups = s.mem.content.groups by rw [k.mem]

theorem SameWindow.pages : t.mem.pages = s.mem.pages := show t.mem.content.pages = s.mem.content.pages by rw [k.mem]

theorem SameWindow.retraining : t.mem.retraining = s.mem.retraining := show t.mem.content.retraining = s.mem.content.retraining by rw [k.mem]

theorem SameWindow.locate (a : Nat) : t.locate a = s.locate a := by
  have he : ∀ e, t.layEntry e = s.layEntry e := fun e => by rw [State.layEntry, k.lay, State.layEntry]
  simp only [State.locate, State.layRank, he, k.groups]

theorem SameWindow.redirect (c b : Nat) : t.redirect c b = s.redirect c b := by
  rw [State.redirect, k.reg _ (.inl rfl), State.redirect]

theorem SameWindow.unitRead (a n : Nat) : t.unitRead a n = s.unitRead a n := by
  simp only [State.unitRead, k.locate, k.redirect, k.hbm, k.pages]

theorem SameWindow.hbmRead (a n : Nat) : t.hbmRead a n = s.hbmRead a n := by
  simp only [State.hbmRead, k.unitRead]

theorem SameWindow.hbmNat (a n : Nat) : t.hbmNat a n = s.hbmNat a n := by
  rw [State.hbmNat, k.hbmRead, State.hbmNat]

theorem SameWindow.poisoned (a n : Nat) : t.poisoned a n = s.poisoned a n := by
  simp only [State.poisoned, State.hbmUnits, k.locate, k.redirect, k.poison]

theorem SameWindow.accessHeld (p : Nat) (write : Bool) (a n : Nat) : t.accessHeld p write a n = s.accessHeld p write a n := by
  have hreg : ∀ st, t.reg (rid .REG (.stack st) p) = s.reg (rid .REG (.stack st) p) := fun st => k.reg _ (.inr rfl)
  simp only [State.accessHeld, State.burstChans, k.locate, k.redirect, k.retraining, State.regBlocked, hreg, State.stackDown, k.stackReset, k.rel]

end

theorem sameWindow_takeTokens (s : State) (st p n : Nat) : SameWindow s (s.takeTokens st p n) := by
  unfold State.takeTokens
  extract_lets rate have_ now w mem s1
  exact .trans (t := s1) ⟨rfl, rfl, rfl, rfl, rfl, fun _ _ => rfl⟩ ((touches_bump ..).sameWindow (regsWithin_bump ..))

/-- Serving an access charges its regulators and nothing that an access sees. -/
theorem sameWindow_charge (s : State) (p : Nat) (write : Bool) (a n : Nat) : SameWindow s (s.charge p write a n) := by
  unfold State.charge
  refine foldl_rel SameWindow.refl SameWindow.trans _ (fun s r => ?_) _ s
  unfold State.chargeBurst
  refine foldl_rel SameWindow.refl SameWindow.trans _ (fun s c => ?_) _ s
  exact .trans ((touches_bump ..).sameWindow (regsWithin_bump ..)) (sameWindow_takeTokens ..)

/- Dumps. -/

/-- Where no dump is held one is taken of the moment, and the die's dump cause is raised. -/
theorem State.takeDump_of_none (s : State) (d reason : Nat) (cores : List Nat) (h : bit (s.reg (dieR .DUMP_STATUS d)) 63 = false) :
    ∃ u : Dump, s.takeDump d reason cores = ((s.onRel d fun x => { x with dump := some u }).setRegFld (dieR .DUMP_STATUS d) 63 63 1).raise (.dieCtl d) 6 ∧
      u.reason = reason ∧ u.logline = s.logline ∧ u.attempt = s.step.attempt :=
  ⟨_, if_neg (by rw [h]; decide), rfl, rfl, rfl⟩

theorem exec_takeDump {d : Nat} (hd : d < 2) (s : State) : exec (.takeDump d) s = .next (s.takeDump d 3 (s.job.used.filter fun n => coreDie n = d)) :=
  if_pos (decide_eq_true hd)

theorem takeDump_taken {s : State} {d : Nat} (hd : d < 2) (h : bit (s.reg (dieR .DUMP_STATUS d)) 63 = false) :
    ∃ t u, exec (.takeDump d) s = .next t ∧ (t.dieRel d).dump = some u ∧ u.reason = 3 ∧ u.logline = s.logline ∧ u.attempt = s.step.attempt ∧
      bit (t.reg (dieR .DUMP_STATUS d)) 63 = true ∧ bit (t.reg (dieR .DIECTL_STATUS d)) 6 = true ∧ t.hbm = s.hbm ∧ t.cores = s.cores := by
  obtain ⟨u, hdump, hreason, hlog, hatt⟩ := s.takeDump_of_none d 3 (s.job.used.filter fun n => coreDie n = d) h
  have hk := touches_takeDump s d 3 (s.job.used.filter fun n => coreDie n = d)
  refine ⟨_, u, exec_takeDump hd s, ?_, hreason, hlog, hatt, ?_, ?_, hk.hbm_eq, hk.cores_eq⟩
  · rw [hdump, State.dieRel, (touches_raise ..).rel_eq, (touches_setRegFld ..).rel_eq]
    exact congrArg DieRel.dump ((s.dieRel_onRel d d _).trans (if_pos rfl))
  · rw [hdump, (regsWithin_raise ..).reg_eq _ (show RegName.DUMP_STATUS ∉ _ by decide), State.reg_setRegFld_same]
    exact bit_setFld_one (by decide) _
  · rw [hdump]
    exact State.bit_status_raised _ (.dieCtl d) (by decide) ..

/- The chafe log's tail. -/

/-- Entries that a write of CHAFE_TAIL names. -/
def State.retired (s : State) (d : Nat) (v : W64) : Nat := (fld v 8 0 + 512 - fld (s.reg (dieR .CHAFE_TAIL d)) 8 0) % 512

theorem State.retired_of_tail {s : State} {d : Nat} {v : W64} (h : fld v 8 0 = fld (s.reg (dieR .CHAFE_TAIL d)) 8 0) : s.retired d v = 0 := by
  rw [State.retired, h, Nat.add_sub_cancel_left]

/-- Unless it names the tail of a full log, a write of CHAFE_TAIL retires what it names of the unretired entries, and else nothing. -/
theorem exec_chafeTail {s : State} {d : Nat} {v : W64} (hd : d < 2) (h : ¬ (fld v 8 0 = fld (s.reg (dieR .CHAFE_TAIL d)) 8 0 ∧ s.chafeUsed d = 512)) :
    exec (.chafeTail d v) s = .next (if s.retired d v = 0 ∨ s.chafeUsed d < s.retired d v then s else
      (s.setReg (dieR .CHAFE_TAIL d) (w64 (fld v 8 0))).setReg (dieR .CHAFE_HEAD d) (w64 (fld (s.reg (dieR .CHAFE_HEAD d)) 8 0))) := by
  change execChafeTail d v s = _
  rw [execChafeTail, decide_eq_true hd, guardPart, if_pos rfl, State.chafeRetire, if_neg h]
  rfl

theorem chafeTail_retires {s : State} {d : Nat} (v : W64) (hd : d < 2) (h0 : s.retired d v ≠ 0) (hle : s.retired d v ≤ s.chafeUsed d) :
    exec (.chafeTail d v) s = .next ((s.setReg (dieR .CHAFE_TAIL d) (w64 (fld v 8 0))).setReg (dieR .CHAFE_HEAD d) (w64 (fld (s.reg (dieR .CHAFE_HEAD d)) 8 0))) := by
  rw [exec_chafeTail hd fun e => h0 (State.retired_of_tail e.1), if_neg (not_or.2 ⟨h0, Nat.not_lt.2 hle⟩)]

theorem chafeTail_stays {s : State} {d : Nat} (v : W64) (hd : d < 2) (h : s.chafeUsed d < s.retired d v ∨ s.retired d v = 0 ∧ s.chafeUsed d ≠ 512) :
    exec (.chafeTail d v) s = .next s := by
  have hne : ¬ (fld v 8 0 = fld (s.reg (dieR .CHAFE_TAIL d)) 8 0 ∧ s.chafeUsed d = 512) := fun e =>
    h.elim (fun h => by rw [State.retired_of_tail e.1] at h; omega) fun h => h.2 e.2
  rw [exec_chafeTail hd hne, if_pos (h.symm.imp And.left id)]

/- The outbox. -/

theorem sfind_sset {α : Type} (m : SMap α) (k : Nat) (v : α) : sfind (sset m k v) k = some v := by
  induction m with
  | nil => exact if_pos rfl
  | cons p m ih =>
    rw [sset]
    split
    · exact if_pos rfl
    · split
      · exact if_pos rfl
      · next h => rw [sfind, if_neg fun e => h e.symm, ih]

theorem sfind_sdel {α : Type} (m : SMap α) (k : Nat) : sfind (sdel m k) k = none := by
  induction m with
  | nil => rfl
  | cons p m ih =>
    rw [sdel, List.filter_cons]
    split
    · next h => rw [sfind, if_neg (of_decide_eq_true h)]; exact ih
    · exact ih

/-- The journal with an outbox slot freed. -/
def Journal.freed (j : Journal) (slot : Nat) : Journal := { j with out := sdel j.out slot, order := j.order.filter (· ≠ slot) }

/-- The journal with an entry of the queue put into an outbox slot. -/
def Journal.refilled (j : Journal) (slot : Nat) (e : List Byte) (t : List (List Byte)) : Journal :=
  { j with out := sset j.out slot e, order := j.order ++ [slot], queue := t }

theorem State.journalAck_of_empty {s : State} {k : Nat} (h : sfind s.journal.out k ≠ none) (hq : s.journal.queue = []) :
    s.journalAck k = { s with journal := s.journal.freed k } := by
  rw [State.journalAck, if_neg (by simpa using h)]
  simp only [hq, Journal.freed]

theorem State.journalAck_of_queue {s : State} {k : Nat} (h : sfind s.journal.out k ≠ none) {q : List Byte} {l : List (List Byte)} (hq : s.journal.queue = q :: l) :
    s.journalAck k = ({ s with journal := (s.journal.freed k).refilled k q l } : State).raise .module 12 := by
  rw [State.journalAck, if_neg (by simpa using h)]
  simp only [hq, Journal.freed, Journal.refilled]

theorem journalAck_frees {s : State} {k : Nat} {e : List Byte} (h : sfind s.journal.out (k % 32) = some e) :
    ∃ t, exec (.journalAck k) s = .next t ∧ t.journal.jseq = s.journal.jseq ∧
      (s.journal.queue = [] → sfind t.journal.out (k % 32) = none) ∧
      (∀ q l, s.journal.queue = q :: l → sfind t.journal.out (k % 32) = some q ∧ t.journal.queue = l ∧ bit (t.reg (modR .MODC_STATUS)) 12 = true) := by
  have hne : sfind s.journal.out (k % 32) ≠ none := by simp [h]
  refine ⟨s.journalAck (k % 32), rfl, ?_⟩
  cases hq : s.journal.queue with
  | nil =>
    rw [State.journalAck_of_empty hne hq]
    exact ⟨rfl, fun _ => sfind_sdel .., nofun⟩
  | cons q l =>
    rw [State.journalAck_of_queue hne hq]
    have hj := (touches_raise ({ s with journal := (s.journal.freed (k % 32)).refilled (k % 32) q l } : State) .module 12 0 0).journal_eq
    refine ⟨by rw [hj]; rfl, nofun, fun q' l' e => ?_⟩
    cases e
    rw [hj]
    exact ⟨sfind_sset .., rfl, State.bit_status_raised _ .module (by decide) ..⟩

/- The journal. -/

theorem State.jseq_journalPut (s : State) (e : List Byte) : (s.journalPut e).journal.jseq = s.journal.jseq := by
  unfold State.journalPut
  extract_lets j
  split
  · rw [(touches_raise ..).journal_eq]
  · split
    · rfl
    · rw [(touches_raise ..).journal_eq]

theorem State.started_journalPut (s : State) (e : List Byte) : (s.journalPut e).journal.started = s.journal.started := by
  unfold State.journalPut
  extract_lets j
  split
  · rw [(touches_raise ..).journal_eq]
  · split
    · rfl
    · rw [(touches_raise ..).journal_eq]

/-- An entry put where outbox slot 0 is free stands there, and JOURNAL_READY is raised. -/
theorem State.journalPut_ready {s : State} (e : List Byte) (h : sfind s.journal.out 0 = none) :
    sfind (s.journalPut e).journal.out 0 = some e ∧ bit ((s.journalPut e).reg (modR .MODC_STATUS)) 12 = true := by
  have hslot : ((List.range 16).find? fun i => (sfind s.journal.out i).isNone) = some 0 := by
    rw [show List.range 16 = 0 :: (List.range 15).map (· + 1) from rfl, List.find?_cons_of_pos (by rw [h]; rfl)]
  unfold State.journalPut
  extract_lets j
  rw [hslot]
  refine ⟨?_, State.bit_status_raised _ .module (by decide) ..⟩
  rw [(touches_raise ..).journal_eq]
  exact sfind_sset ..

section

variable (s : State) (kind origin : Nat) (vol fresh : Bool) (at_ : Nat × Nat) (body : List Byte)

/-- An entry counts in JSEQ. -/
theorem State.jseq_journalEntry : (s.journalEntry kind origin vol fresh at_ body).journal.jseq = s.journal.jseq + 1 := State.jseq_journalPut ..

theorem State.started_journalEntry : (s.journalEntry kind origin vol fresh at_ body).journal.started = s.journal.started := State.started_journalPut ..

theorem State.journalEntry_ready (h : sfind s.journal.out 0 = none) :
    ∃ x, sfind (s.journalEntry kind origin vol fresh at_ body).journal.out 0 = some x ∧
      bit ((s.journalEntry kind origin vol fresh at_ body).reg (modR .MODC_STATUS)) 12 = true := ⟨_, State.journalPut_ready _ h⟩

end

/-- What a resumed entry's verification says (16 R424). -/
def State.resumable (s : State) (e : List Byte) : Bool :=
  ecdsaVerify (publicKey s.sec.devid) (sha512 (e.take 256)) ((e.drop 256).take 66) ((e.drop 322).take 66) && decide (leNat ((e.drop 12).take 4) ≤ s.sec.otpCount)

theorem State.jseq_journalResume (s : State) (a : Nat) :
    (s.journalResume a).journal.jseq = (if s.resumable (s.hbmRead a 512) then leNat ((s.hbmRead a 512).take 8) + 2 else 1) ∧ (s.journalResume a).journal.started = true := by
  unfold State.journalResume
  extract_lets e head dg ok
  have hok : ok = s.resumable (s.hbmRead a 512) := rfl
  rw [hok]
  split
  · exact ⟨State.jseq_journalEntry .., State.started_journalEntry ..⟩
  · exact ⟨State.jseq_journalEntry .., State.started_journalEntry ..⟩

theorem journalResume_refused {s : State} (v : W64) (h : s.step.state ≠ .held) :
    ∃ t, exec (.journalResume v) s = .next t ∧ t.journal = s.journal ∧ bit (t.reg (modR .MODC_STATUS)) 0 = true :=
  ⟨_, congrArg Outcome.next (if_pos (by simp [State.isHeld, h])), (touches_decodeError ..).journal_eq, State.bit_status_raised _ .module (by decide) ..⟩

theorem journalResume_served {s : State} {v : W64} (h : s.step.state = .held) (hfree : (s.waiting.any fun j => doorOf j = some 9) = false)
    (hserved : s.accessHeld 4 false (fld v 47 1 * 2) 512 = false) (hb : bit v 0 = true) :
    ∃ t, exec (.journalResume v) s = .next t ∧ t.journal.started = true ∧ t.hbm = s.hbm ∧
      t.journal.jseq = if s.resumable (s.hbmRead (fld v 47 1 * 2) 512) then leNat ((s.hbmRead (fld v 47 1 * 2) 512).take 8) + 2 else 1 := by
  have hset : SameWindow s (s.setReg (modR .JOURNAL_RESUME) (setFld v 0 0 0)) := (touches_setReg ..).sameWindow (regsWithin_setReg ..)
  generalize hs1 : s.setReg (modR .JOURNAL_RESUME) (setFld v 0 0 0) = s1 at hset
  have hsec : s1.sec = s.sec := by rw [← hs1]; rfl
  have hcharge := sameWindow_charge s1 4 false (fld v 47 1 * 2) 512
  have hexec : exec (.journalResume v) s = .next ((s1.charge 4 false (fld v 47 1 * 2) 512).journalResume (fld v 47 1 * 2)) := by
    change Outcome.next (s.resumeWrite v) = _
    rw [State.resumeWrite, if_neg (by simp [State.isHeld, h]), hs1, if_pos hb]
    refine congrArg Outcome.next (State.arrive_of_free ?_ ?_)
    · rw [← hs1]
      exact hfree
    · exact if_neg (by rw [hset.accessHeld, hserved]; decide)
  have hjseq := (s1.charge 4 false (fld v 47 1 * 2) 512).jseq_journalResume (fld v 47 1 * 2)
  rw [State.resumable, (touches_charge ..).sec_eq, hsec, hcharge.hbmRead, hset.hbmRead] at hjseq
  exact ⟨_, hexec, hjseq.2, (touches_journalResume ..).hbm_eq.trans (hcharge.hbm.trans hset.hbm), hjseq.1⟩

theorem journalSubmit_signed {s : State} {v : W64} (hb : bit v 0 = true) (hst : s.journal.started = true)
    (hfree : (s.waiting.any fun j => doorOf j = some 9) = false) (hserved : s.accessHeld 4 false (fld v 47 1 * 2) 128 = false) :
    ∃ t, exec (.journalSubmit v) s = .next t ∧ t.journal.jseq = s.journal.jseq + 1 ∧ t.hbm = s.hbm ∧
      (sfind s.journal.out 0 = none → ∃ x, sfind t.journal.out 0 = some x ∧ bit (t.reg (modR .MODC_STATUS)) 12 = true) := by
  have hset : SameWindow s (s.setReg (modR .JOURNAL_SUBMIT) (setFld v 0 0 0)) := (touches_setReg ..).sameWindow (regsWithin_setReg ..)
  generalize hs1 : s.setReg (modR .JOURNAL_SUBMIT) (setFld v 0 0 0) = s1 at hset
  have hj : (s1.charge 4 false (fld v 47 1 * 2) 128).journal = s.journal := (touches_charge ..).journal_eq.trans (by rw [← hs1]; rfl)
  have hhbm := (sameWindow_charge s1 4 false (fld v 47 1 * 2) 128).hbm.trans hset.hbm
  have hexec : exec (.journalSubmit v) s =
      .next ((s1.charge 4 false (fld v 47 1 * 2) 128).journalEmit 9 1 false (s1.logline, s1.clock) (s1.hbmRead (fld v 47 1 * 2) 128)) := by
    change Outcome.next (s.submitWrite v) = _
    rw [State.submitWrite, hs1, if_pos hb]
    refine congrArg Outcome.next (State.arrive_of_free ?_ ?_)
    · rw [← hs1]
      exact hfree
    · exact if_neg (by rw [hset.accessHeld, hserved]; decide)
  generalize s1.charge 4 false (fld v 47 1 * 2) 128 = u at hexec hj hhbm
  rw [State.journalEmit, hj, if_pos hst] at hexec
  refine ⟨_, hexec, ?_, (touches_journalEntry ..).hbm_eq.trans hhbm, fun h0 => State.journalEntry_ready _ _ _ _ _ _ _ (by rw [hj, h0])⟩
  rw [State.jseq_journalEntry, hj]

/-- Settles O45. -/
theorem logsDumpsJournal : Obligations.LogsDumpsJournal := by
  unfold Obligations.LogsDumpsJournal
  intro s
  refine ⟨?_, ?_, ?_, ?_, ?_, ?_, ?_, ?_⟩
  · intro d hd h
    exact (exec_takeDump hd s).trans (congrArg Outcome.next (if_pos h))
  · intro d hd h
    exact takeDump_taken hd h
  · intro d hd
    exact if_pos (decide_eq_true hd)
  · intro d v hd
    exact ⟨chafeTail_retires v hd, chafeTail_stays v hd⟩
  · intro k
    exact ⟨fun h => congrArg Outcome.next (if_pos (by rw [h]; rfl)), fun e => journalAck_frees⟩
  · intro v h
    exact journalResume_refused v h
  · intro v h hfree hserved
    refine ⟨fun hb => ?_, journalResume_served h hfree hserved⟩
    change Outcome.next (s.resumeWrite v) = _
    rw [State.resumeWrite, if_neg (by simp [State.isHeld, h]), if_neg (by simp [hb])]
  · intro v
    exact ⟨fun hb => congrArg Outcome.next (if_neg (by simp [hb])), journalSubmit_signed⟩

end Sys2Proof.Machine
end

section
/-! PROOFS. Tethers, the reset ladder of a core and its cluster, the failure of a die, and spare requests (16 R411–R413, R417). Settles O44. -/
set_option Elab.async false -- elaborate in order: side threads each hold a stack of their own

namespace Sys2Proof.Machine

open Host

/- Resets of a core's units. -/

/-- A core's units reset and its scratch, where asked, wiped. -/
def State.resetUnit (s : State) (wipe : Prop) [Decidable wipe] (n : Nat) : State :=
  let s := s.resetCore n
  if wipe then s.wipeScratch n else s

section

variable {wipe : Prop} [Decidable wipe]

theorem State.core_resetCore (s : State) (n k : Nat) : (s.resetCore n).core k = if k = n then (s.core n).resetUnits else s.core k := s.core_onCore ..

theorem State.core_resetUnit (s : State) (n k : Nat) : (s.resetUnit wipe n).core k = if k = n then (s.core n).resetUnits else s.core k := by
  unfold State.resetUnit
  split
  · exact s.core_resetCore ..
  · exact s.core_resetCore ..

/-- A reset of several cores resets the units of each. -/
theorem State.core_foldl_resetUnit (l : List Nat) (s : State) (k : Nat) :
    (l.foldl (fun s n => s.resetUnit wipe n) s).core k = if k ∈ l then (s.core k).resetUnits else s.core k := by
  induction l generalizing s with
  | nil => exact (if_neg List.not_mem_nil).symm
  | cons n l ih =>
    rw [List.foldl_cons, ih, s.core_resetUnit]
    by_cases hk : k = n
    · subst hk
      simp only [if_true, List.mem_cons, true_or]
      exact ite_self _
    · simp only [List.mem_cons, hk, false_or, if_false]

theorem touches_resetUnit (s : State) (n : Nat) : Touches [.cores, .knots, .scratch] s (s.resetUnit wipe n) := by
  unfold State.resetUnit
  exact .ite (.step (touches_wipeScratch ..) (.step (touches_resetCore ..) .refl)) (.step (touches_resetCore ..) .refl)

theorem State.scratch_resetUnit (s : State) (n : Nat) (h : ¬ wipe) : (s.resetUnit wipe n).scratch = s.scratch := by
  rw [State.resetUnit, if_neg h]
  exact (touches_resetCore ..).scratch_eq

theorem State.scratch_foldl_resetUnit (h : ¬ wipe) (l : List Nat) (s : State) : (l.foldl (fun s n => s.resetUnit wipe n) s).scratch = s.scratch := by
  induction l generalizing s with
  | nil => rfl
  | cons n l ih => rw [List.foldl_cons, ih, s.scratch_resetUnit n h]

/-- Wiped scratch lists no byte of the core, and none that was not listed before. -/
theorem mem_scratch_resetUnit {s : State} {n : Nat} (h : wipe) {c : Cell} (hc : c ∈ (s.resetUnit wipe n).scratch) :
    c ∈ s.scratch ∧ ¬ (n * scratchSize ≤ c.1 ∧ c.1 < (n + 1) * scratchSize) := by
  rw [State.resetUnit, if_pos h, State.wipeScratch, (touches_resetCore ..).scratch_eq] at hc
  obtain ⟨hmem, hout⟩ := List.mem_filter.1 hc
  have hside : c.1 < n * scratchSize ∨ (n + 1) * scratchSize ≤ c.1 := by simpa using hout
  exact ⟨hmem, fun hin => hside.elim (Nat.not_lt.2 hin.1) (Nat.not_le.2 hin.2)⟩

theorem mem_scratch_foldl_resetUnit (h : wipe) {c : Cell} (l : List Nat) (s : State) (hc : c ∈ (l.foldl (fun s n => s.resetUnit wipe n) s).scratch) :
    c ∈ s.scratch ∧ ∀ n ∈ l, ¬ (n * scratchSize ≤ c.1 ∧ c.1 < (n + 1) * scratchSize) := by
  induction l generalizing s with
  | nil => exact ⟨hc, fun n hn => absurd hn List.not_mem_nil⟩
  | cons m l ih =>
    obtain ⟨hmem, hl⟩ := ih _ hc
    obtain ⟨hs, hm⟩ := mem_scratch_resetUnit h hmem
    exact ⟨hs, List.forall_mem_cons.2 ⟨hm, hl⟩⟩

end

/-- A byte that no cell lists reads 0. -/
theorem memGet_of_unlisted {m : List Cell} {a : Nat} (h : ∀ c ∈ m, c.1 ≠ a) : memGet m a = 0 := by
  induction m with
  | nil => rfl
  | cons c m ih =>
    obtain ⟨hc, hm⟩ := List.forall_mem_cons.1 h
    rw [memGet, if_neg hc]
    split
    · rfl
    · exact ih hm

/-- Scratch of cores that are wiped reads 0 everywhere. -/
theorem State.scratch_wiped {wipe : Prop} [Decidable wipe] (h : wipe) (l : List Nat) (s : State) {n a : Nat} (hn : n ∈ l) (ha : a < 2 ^ 21) :
    memGet (l.foldl (fun s n => s.resetUnit wipe n) s).scratch (Safety.scrAddr n a) = 0 := by
  refine memGet_of_unlisted fun c hc e => ?_
  refine (mem_scratch_foldl_resetUnit h l s hc).2 n hn ?_
  rw [e, Safety.scrAddr, scratchSize]
  omega

theorem mem_clusterCores (n : Nat) : n ∈ clusterCores n := by
  refine List.mem_map.2 ⟨n % 8, List.mem_range.2 (Nat.mod_lt _ (by decide)), ?_⟩
  omega

/-- The cores that a completed stage resets. -/
def resetScope (c stage : Nat) : List Nat := if stage = 0 then [c] else clusterCores c

theorem mem_resetScope (c stage : Nat) : c ∈ resetScope c stage := by
  unfold resetScope
  split
  · exact List.mem_cons_self
  · exact mem_clusterCores c

/-- A completed stage ends and resets the units in its scope; a power-cycle wipes them. -/
theorem State.resetDone_eq {s : State} {c : Nat} {r : ResetSt} (h : (s.core c).reset = some r) :
    s.resetDone c = (resetScope c r.stage).foldl (fun s n => s.resetUnit (r.stage = 2) n) (s.onCore c fun x => { x with reset := none }) := by
  unfold State.resetDone resetScope
  simp only [h]
  by_cases h0 : r.stage = 0
  · simp only [h0, if_true, List.foldl_cons, List.foldl_nil]
    rw [State.resetUnit, if_neg (by decide)]
  · rw [if_neg h0, if_neg h0]
    rfl

theorem exec_resetDone {c : Nat} (hc : c < 384) (s : State) : exec (.resetDone 0 c) s = .next (s.resetDone c) := if_pos (decide_eq_true hc)

theorem resetDone_ends {s : State} {c : Nat} {r : ResetSt} (hc : c < 384) (h : (s.core c).reset = some r) :
    ∃ t, exec (.resetDone 0 c) s = .next t ∧ (t.core c).reset = none ∧
      (t.core c).cc.stream = (s.core c).cc.stream ∧ (t.core c).cc.mode = .idle ∧ (t.core c).vec.kernel = (s.core c).vec.kernel ∧ t.hbm = s.hbm ∧
      (r.stage ≠ 2 → t.scratch = s.scratch) ∧
      (r.stage = 2 → ∀ n ∈ clusterCores c, ∀ a < 2 ^ 21, memGet t.scratch (Safety.scrAddr n a) = 0) := by
  refine ⟨_, exec_resetDone hc s, ?_⟩
  rw [State.resetDone_eq h]
  have hcore := State.core_foldl_resetUnit (wipe := r.stage = 2) (resetScope c r.stage) (s.onCore c fun x => { x with reset := none }) c
  rw [if_pos (mem_resetScope ..), State.core_onCore_same] at hcore
  refine ⟨by rw [hcore]; rfl, by rw [hcore]; rfl, by rw [hcore]; rfl, by rw [hcore]; rfl, ?_, fun h2 => State.scratch_foldl_resetUnit h2 .., fun h2 n hn a ha => ?_⟩
  · exact Touches.hbm_eq (F := [.cores, .knots, .scratch]) (.foldl (.step (touches_onCore ..) .refl) fun t a => .step (touches_resetUnit ..) .refl)
  · refine State.scratch_wiped h2 _ _ ?_ ha
    rw [resetScope, if_neg (by omega)]
    exact hn

/- The reset ladder. -/

theorem marks_takeDump (s : State) (d reason : Nat) (cores : List Nat) : Marks (.DUMP_STATUS :: causeNames) s (s.takeDump d reason cores) := by
  unfold State.takeDump
  exact .ite (marks_setRegFld ..).mono ((marks_raise ..).step ((marks_setRegFld ..).step (L := .DUMP_STATUS :: causeNames) (marks_onRel ..).mono))

theorem marks_chafeEvent (s : State) (d source cause pc pk index ctx : Nat) : Marks causeNames s (s.chafeEvent d source cause pc pk index ctx) := marks_chafe ..

theorem marks_resetStage (s : State) (core cause stage : Nat) : Marks causeNames s (s.resetStage core cause stage) :=
  (marks_chafeEvent ..).step ((touches_onCore ..).marks .refl)

/-- A stage that begins on a core. -/
theorem State.core_resetStage (s : State) (core cause stage : Nat) : ((s.resetStage core cause stage).core core).reset = some ⟨cause, stage⟩ := by
  unfold State.resetStage
  extract_lets p
  rw [(touches_chafeEvent ..).core_eq, State.core_onCore_same]

theorem exec_resetEscalated {c : Nat} (hc : c < 384) (s : State) : exec (.resetEscalated 0 c) s = .next (s.resetEscalate c) := if_pos (decide_eq_true hc)

/-- The registers that an escalation writes. -/
def ladderNames : List RegName := .DUMP_STATUS :: warnNames

/-- A stage that passes its bound raises the die's cause and begins the next. -/
theorem resetEscalate_next {s : State} {c : Nat} {r : ResetSt} (h : (s.core c).reset = some r) (hr : r.stage < 2) :
    ∃ t, s.resetEscalate c = t.resetStage c r.cause (r.stage + 1) ∧ Marks ladderNames (s.raise (.dieCtl (coreDie c)) 4 (s.ctxOf c)) t ∧ t.scratch = s.scratch := by
  unfold State.resetEscalate
  simp only [h]
  have hraise := (touches_raise s (.dieCtl (coreDie c)) 4 (s.ctxOf c) 0).scratch_eq
  rcases Nat.lt_or_ge r.stage 1 with h0 | h1
  · rw [show r.stage = 0 by omega]
    refine ⟨_, rfl, (marks_takeDump ..).step ((marks_override ..).step (L := ladderNames) (marks_markCore ..).mono), ?_⟩
    rw [(touches_takeDump ..).scratch_eq, (touches_override ..).scratch_eq, (touches_markCore ..).scratch_eq, hraise]
  · rw [show r.stage = 1 by omega]
    refine ⟨_, rfl, (marks_override ..).step (L := ladderNames) (marks_markCluster ..).mono, ?_⟩
    rw [(touches_override ..).scratch_eq, (touches_markCluster ..).scratch_eq, hraise]

theorem resetEscalated_next {s : State} {c : Nat} {r : ResetSt} (hc : c < 384) (h : (s.core c).reset = some r) (hr : r.stage < 2) :
    ∃ t, exec (.resetEscalated 0 c) s = .next t ∧ (t.core c).reset = some { r with stage := r.stage + 1 } ∧
      bit (t.reg (dieR .DIECTL_STATUS (coreDie c))) 4 = true ∧ t.scratch = s.scratch := by
  obtain ⟨u, hu, hmarks, hscr⟩ := resetEscalate_next h hr
  refine ⟨_, (exec_resetEscalated hc s).trans (congrArg Outcome.next hu), State.core_resetStage .., ?_, (touches_resetStage ..).scratch_eq.trans hscr⟩
  have hbits := ((marks_resetStage u c r.cause (r.stage + 1)).step (L := ladderNames) hmarks).bits (.dieCtl (coreDie c))
  exact hbits.bit 4 (State.bit_status_raised _ (.dieCtl (coreDie c)) (by decide) ..)

/- Tethers. -/

/-- A fault flag that is up stays up when a cause is raised. -/
theorem State.fault_raise_of_fault {s : State} (h : s.step.fault = true) (p : Part) (b ctx : Nat) (det : W64) : (s.raise p b ctx det).step.fault = true := by
  rcases (raised_raise s p b ctx det).step with e | e
  · rw [e, h]
  · rw [e]

theorem State.fault_takeDump_of_fault {s : State} (h : s.step.fault = true) (d reason : Nat) (cores : List Nat) : (s.takeDump d reason cores).step.fault = true := by
  have hset (t : State) (hi lo v : Nat) : (t.setRegFld (dieR .DUMP_STATUS d) hi lo v).step = t.step := (touches_setRegFld ..).step_eq
  unfold State.takeDump
  dsimp only
  split
  · rw [hset, h]
  · refine State.fault_raise_of_fault ?_ ..
    rw [hset]
    exact h

theorem exec_tether {c p : Nat} (hc : c < 384) (hp : p < 5) (s : State) : exec (.tether c p) s = .next (if !s.tetherWork c p || (s.core c).reset.isSome then s else
    (((((s.setRegFld (coreR .TETHER_STATUS c) p p 1).bump (coreR .TETHER_TOTAL c) 1).raise (.core c) (24 + p)
      (((s.setRegFld (coreR .TETHER_STATUS c) p p 1).bump (coreR .TETHER_TOTAL c) 1).ctxOf c)).takeDump (coreDie c) 0 [c]).resetStage c p 0)) := by
  change execTether c p s = _
  rw [execTether, decide_eq_true hc, decide_eq_true hp, guardPart, Bool.and_self, if_pos rfl]

theorem tether_reached {s : State} {c p : Nat} (hc : c < 384) (hp : p < 5) (hwork : s.tetherWork c p = true) (hreset : (s.core c).reset = none) :
    ∃ t, exec (.tether c p) s = .next t ∧
      (t.core c).reset = some ⟨p, 0⟩ ∧ bit (t.reg (coreR .TETHER_STATUS c)) p = true ∧
      t.reg (coreR .TETHER_TOTAL c) = satAdd (s.reg (coreR .TETHER_TOTAL c)) 1 ∧ bit (t.reg (coreR .CORE_STATUS c)) (24 + p) = true ∧
      t.step.fault = true ∧ t.scratch = s.scratch ∧ t.hbm = s.hbm := by
  have hexec := exec_tether hc hp s
  rw [if_neg (by rw [hwork, hreset]; decide)] at hexec
  refine ⟨_, hexec, State.core_resetStage .., ?_⟩
  have hset : ((s.setRegFld (coreR .TETHER_STATUS c) p p 1).bump (coreR .TETHER_TOTAL c) 1).reg (coreR .TETHER_STATUS c) = setFld (s.reg (coreR .TETHER_STATUS c)) p p 1 :=
    (State.reg_bump_ne _ _ _ _ (show coreR .TETHER_STATUS c ≠ coreR .TETHER_TOTAL c by simp [coreR, rid])).trans (State.reg_setRegFld_same ..)
  have htotal : ((s.setRegFld (coreR .TETHER_STATUS c) p p 1).bump (coreR .TETHER_TOTAL c) 1).reg (coreR .TETHER_TOTAL c) = satAdd (s.reg (coreR .TETHER_TOTAL c)) 1 := by
    rw [State.reg_bump, if_neg (by decide), State.reg_setRegFld_ne _ _ _ _ _ _ (show coreR .TETHER_TOTAL c ≠ coreR .TETHER_STATUS c by simp [coreR, rid])]
  have hk : Touches [.regs] s ((s.setRegFld (coreR .TETHER_STATUS c) p p 1).bump (coreR .TETHER_TOTAL c) 1) := .step (touches_bump ..) (.step (touches_setRegFld ..) .refl)
  generalize (s.setRegFld (coreR .TETHER_STATUS c) p p 1).bump (coreR .TETHER_TOTAL c) 1 = u at hset htotal hk
  have hafter : Marks ladderNames (u.raise (.core c) (24 + p) (u.ctxOf c)) (((u.raise (.core c) (24 + p) (u.ctxOf c)).takeDump (coreDie c) 0 [c]).resetStage c p 0) :=
    (marks_resetStage ..).step (L := ladderNames) (marks_takeDump ..).mono
  have hmarks : Marks ladderNames u _ := hafter.step (L := ladderNames) (marks_raise ..).mono
  have hfault : causeFault .core (24 + p) = true := decide_eq_true (by omega)
  refine ⟨?_, ?_, (hafter.bits (.core c)).bit _ (State.bit_status_raised _ (.core c) (by omega) ..), ?_, ?_, ?_⟩
  · rw [hmarks.reg_eq _ (show RegName.TETHER_STATUS ∉ _ by decide), hset]
    exact bit_setFld_one (by omega) _
  · rw [hmarks.reg_eq _ (show RegName.TETHER_TOTAL ∉ _ by decide), htotal]
  · rw [(touches_resetStage ..).step_eq]
    refine State.fault_takeDump_of_fault ?_ ..
    rw [State.raise, show causeFault (leafOf (.core c)) (24 + p) = true from hfault]
    exact State.raiseWith_fault_flag ..
  · rw [(touches_resetStage ..).scratch_eq, (touches_takeDump ..).scratch_eq, (touches_raise ..).scratch_eq, hk.scratch_eq]
  · rw [(touches_resetStage ..).hbm_eq, (touches_takeDump ..).hbm_eq, (touches_raise ..).hbm_eq, hk.hbm_eq]

/- Spare requests. -/

/-- A spare request sets fields of SPARE_REQ, and with VALID marks what it names. -/
theorem State.spareReq_eq (s : State) (d : Nat) (v : W64) : ∃ u, Touches [.regs] s u ∧ RegsWithin [.SPARE_REQ] s u ∧
    s.spareReq d v = if !bit v 13 ∨ 24 ≤ fld v 4 0 then u
      else if bit v 12 then u.markCluster d (fld v 4 0)
      else if 8 ≤ fld v 11 8 then u
      else u.markCore d (fld v 4 0) (fld v 11 8) := by
  refine ⟨_, ?_, ?_, rfl⟩
  · exact .ite (.step (touches_setRegFld ..) (.ite (.step (touches_setRegFld ..) (.step (touches_setRegFld ..) .refl)) (.step (touches_setRegFld ..) .refl)))
      (.ite (.step (touches_setRegFld ..) (.step (touches_setRegFld ..) .refl)) (.step (touches_setRegFld ..) .refl))
  · have h (t : State) (hi lo w : Nat) : RegsWithin [.SPARE_REQ] t (t.setRegFld (dieR .SPARE_REQ d) hi lo w) := regsWithin_setRegFld ..
    exact .ite ((h ..).step (.ite ((h ..).step (h ..)) (h ..))) (.ite ((h ..).step (h ..)) (h ..))

theorem exec_spareReq {d : Nat} (hd : d < 2) (v : W64) (s : State) : exec (.spareReq d v) s = .next (s.spareReq d v) := if_pos (decide_eq_true hd)

theorem State.markCluster_free {s : State} {d : Nat} (l : Nat) (hm : ∀ m ∈ (s.dieRel d).marks, m.kind ≠ 2) (hu : s.clusterUsed d = false) :
    ⟨2, l, 0⟩ ∈ ((s.markCluster d l).dieRel d).marks := by
  have hnone : (s.dieRel d).marks.any (fun m => m.kind = 2) = false := by
    rw [List.any_eq_false]
    exact fun m h => by simpa using hm m h
  have hsame : (s.dieRel d).marks.any (fun m => m.kind = 2 && m.unit = l) = false := by
    rw [List.any_eq_false]
    exact fun m h => by simp [hm m h]
  rw [State.markCluster, if_neg (by rw [hsame]; decide), if_neg (by rw [hu, hnone]; decide), State.dieRel_onRel, if_pos rfl]
  exact List.mem_append_right _ List.mem_cons_self

theorem State.markCore_free {s : State} {d : Nat} {l : Nat} (k : Nat) (hm : ∀ m ∈ (s.dieRel d).marks, m.kind ≤ 2 → m.unit ≠ l)
    (hu : s.coreUsed d (fld (s.clusterEntry d l) 4 0) = false) : ⟨1, l, k⟩ ∈ ((s.markCore d l k).dieRel d).marks := by
  have hnone : (s.dieRel d).marks.filter (fun m => m.kind ≤ 2 && m.unit = l) = [] := by
    rw [List.filter_eq_nil_iff]
    intro m h hk
    rw [Bool.and_eq_true] at hk
    obtain ⟨hk2, hul⟩ := hk
    exact hm m h (of_decide_eq_true hk2) (of_decide_eq_true hul)
  unfold State.markCore
  rw [hnone]
  dsimp only
  rw [List.any_nil, List.isEmpty_nil, if_neg Bool.false_ne_true, if_neg (by rw [hu]; decide), State.dieRel_onRel, if_pos rfl]
  exact List.mem_append_right _ List.mem_cons_self

theorem spareReq_marks {s : State} {d : Nat} {v : W64} (hd : d < 2) (hv : bit v 13 = true) (hl : fld v 4 0 < 24) (hm : ∀ m ∈ (s.dieRel d).marks, m.kind ≠ 2) :
    (bit v 12 = true → s.clusterUsed d = false →
      ∃ t, exec (.spareReq d v) s = .next t ∧ ⟨2, fld v 4 0, 0⟩ ∈ (t.dieRel d).marks ∧ t.clusterMap = s.clusterMap) ∧
    (bit v 12 = false → fld v 11 8 < 8 → s.coreUsed d (fld (s.clusterEntry d (fld v 4 0)) 4 0) = false →
      (∀ m ∈ (s.dieRel d).marks, m.kind ≤ 2 → m.unit ≠ fld v 4 0) →
      ∃ t, exec (.spareReq d v) s = .next t ∧ ⟨1, fld v 4 0, fld v 11 8⟩ ∈ (t.dieRel d).marks ∧ t.clusterMap = s.clusterMap) := by
  obtain ⟨u, hk, hr, heq⟩ := s.spareReq_eq d v
  rw [if_neg (by rw [hv]; exact not_or.2 ⟨by decide, Nat.not_le.2 hl⟩)] at heq
  have hrel : u.dieRel d = s.dieRel d := by rw [State.dieRel, hk.rel_eq, State.dieRel]
  have hstat : u.reg (dieR .REL_STATUS d) = s.reg (dieR .REL_STATUS d) := hr.reg_eq _ (show RegName.REL_STATUS ∉ _ by decide)
  rw [← hrel] at hm ⊢
  constructor
  · intro hcl hu
    rw [if_pos hcl] at heq
    refine ⟨_, (exec_spareReq hd v s).trans (congrArg Outcome.next heq), State.markCluster_free _ hm ?_, (touches_markCluster ..).clusterMap_eq.trans hk.clusterMap_eq⟩
    rw [State.clusterUsed, hstat]
    exact hu
  · intro hcl h8 hu hfree
    rw [if_neg (by simp [hcl]), if_neg (by omega)] at heq
    refine ⟨_, (exec_spareReq hd v s).trans (congrArg Outcome.next heq), State.markCore_free _ hfree ?_, (touches_markCore ..).clusterMap_eq.trans hk.clusterMap_eq⟩
    rw [State.coreUsed, State.clusterEntry, hstat, hk.clusterMap_eq]
    exact hu

theorem resetEscalated_stack {s : State} {st : Nat} (hst : st < 8) (h : sfind s.stackReset st = some 0) :
    ∃ t, exec (.resetEscalated 1 st) s = .next t ∧ sfind t.stackReset st = some 1 ∧ t.caps = s.caps := by
  have hexec : exec (.resetEscalated 1 st) s =
      .next { ((s.raise (.dieCtl (stackDie st)) 4).chafeEvent (stackDie st) 9 4 0 0 st) with stackReset := sset s.stackReset st 1 } := by
    change execResetEscalated 1 st s = _
    rw [execResetEscalated, if_neg (by decide), if_neg (by decide), decide_eq_true hst, guardPart, if_pos rfl, h]
    simp only [(touches_chafeEvent ..).stackReset_eq, (touches_raise ..).stackReset_eq]
  exact ⟨_, hexec, sfind_sset .., (touches_chafeEvent ..).caps_eq.trans (touches_raise ..).caps_eq⟩

/-- Settles O44. -/
theorem resetsAndSpares : Obligations.ResetsAndSpares := by
  unfold Obligations.ResetsAndSpares
  intro s
  refine ⟨?_, ?_, ?_, ?_, ?_, ?_, ?_, ?_, ?_⟩
  · intro c p hc hp h
    refine (exec_tether hc hp s).trans (congrArg Outcome.next (if_pos ?_))
    rcases h with h | h
    · rw [h]; rfl
    · rw [h, Bool.or_true]
  · intro c p
    exact tether_reached
  · intro c hc h
    refine ⟨(exec_resetDone hc s).trans (congrArg Outcome.next ?_), (exec_resetEscalated hc s).trans (congrArg Outcome.next ?_)⟩
    · simp only [State.resetDone, h]
    · simp only [State.resetEscalate, h]
  · intro c r
    exact resetEscalated_next
  · intro c r
    exact resetDone_ends
  · intro st hst h
    refine ⟨?_, resetEscalated_stack hst h⟩
    change execResetDone 1 st s = _
    rw [execResetDone, if_neg (by decide), decide_eq_true hst, guardPart, if_pos rfl, h]
    rfl
  · intro d hd
    exact if_pos (decide_eq_true hd)
  · intro d v hd hv
    obtain ⟨u, hk, hr, heq⟩ := s.spareReq_eq d v
    rw [if_pos (.inl (by rw [hv]; rfl))] at heq
    exact ⟨_, (exec_spareReq hd v s).trans (congrArg Outcome.next heq), hk.rel_eq, hk.clusterMap_eq⟩
  · intro d v
    exact spareReq_marks

end Sys2Proof.Machine
end

section
/-! PROOFS. What serving accesses writes of the registers; mirror and restore data, sends of mirrors, and the state block (16 R425–R429, R433). Settles O43. -/
set_option Elab.async false -- elaborate in order: side threads each hold a stack of their own

namespace Sys2Proof.Machine

open Host

/- Registers that serving an access writes. -/

/-- The counts of served bursts and of waits at a regulator. -/
def burstNames : List RegName := [.CH_BURST_TOTAL, .REG_WAIT_TOTAL]

theorem regsWithin_takeTokens (s : State) (st p n : Nat) : RegsWithin burstNames s (s.takeTokens st p n) := by
  unfold State.takeTokens
  extract_lets rate have_ now w mem s1
  exact (regsWithin_bump ..).step (⟨fun _ _ => rfl⟩ : RegsWithin burstNames s s1)

theorem regsWithin_charge (s : State) (p : Nat) (write : Bool) (a n : Nat) : RegsWithin burstNames s (s.charge p write a n) := by
  unfold State.charge
  refine .foldl .refl fun t r => ?_
  unfold State.chargeBurst
  exact .foldl .refl fun t c => (regsWithin_takeTokens ..).step (regsWithin_bump ..).mono

theorem regsWithin_pageUse (s : State) (u : MemPort) (c i : Nat) : RegsWithin burstNames s (s.pageUse u c i) := by
  unfold State.pageUse
  extract_lets e t own m
  have ht : RegsWithin burstNames s t := regsWithin_charge ..
  exact .ite .refl (.ite ht ⟨ht.reg_eq⟩)

theorem regsWithin_ctxLoad (s : State) (u : MemPort) (c a n : Nat) : RegsWithin burstNames s (s.ctxLoad u c a n) := by
  have go (l : List (Nat × Nat)) (s : State) : RegsWithin burstNames s (s.ctxLoadGo u c l) := by
    induction l generalizing s with
    | nil => exact .refl
    | cons p l ih =>
      unfold State.ctxLoadGo
      split
      · exact .refl
      · exact (ih _).step ((regsWithin_charge ..).step (regsWithin_pageUse ..))
  exact go ..

theorem marks_charge (s : State) (p : Nat) (write : Bool) (a n : Nat) : Marks burstNames s (s.charge p write a n) :=
  (regsWithin_charge ..).marks (touches_charge ..).step_eq

theorem marks_ctxLoad (s : State) (u : MemPort) (c a n : Nat) : Marks burstNames s (s.ctxLoad u c a n) :=
  (regsWithin_ctxLoad ..).marks (touches_ctxLoad ..).step_eq

theorem marks_memErr (s : State) (p : Part) (b ctx : Nat) (e : MemErr) (det : W64) : Marks causeNames s (s.memErr p b ctx e det) := by
  unfold State.memErr
  split
  · exact marks_raise ..
  · exact marks_raise ..
  · exact .refl

/- Messages that may wait. -/

theorem State.arrive_free {s : State} {i : Instr} (h : (s.waiting.any fun j => doorOf j = doorOf i) = false) (f : State → Option State) :
    s.arrive i f = (f s).getD { s with waiting := s.waiting ++ [i] } := if_neg (by simp [h])

theorem State.ctxStale_iff {s : State} {c g : Nat} : s.ctxStale c g = true ↔ (s.ctx c).state ≠ .active ∨ (s.ctx c).gen ≠ g := by
  rw [State.ctxStale, Bool.or_eq_true, decide_eq_true_iff, decide_eq_true_iff]

theorem State.ctxStale_eq_false {s : State} {c g : Nat} (h : ¬ ((s.ctx c).state ≠ .active ∨ (s.ctx c).gen ≠ g)) : s.ctxStale c g = false :=
  Bool.eq_false_iff.2 fun e => h (State.ctxStale_iff.1 e)

/-- A module that has entered RUNNING is not HELD. -/
theorem State.not_held_of_entered {s : State} (h : s.entered = true) : s.isHeld = false := by
  rw [State.entered, Bool.and_eq_true, Bool.or_eq_true, decide_eq_true_iff, decide_eq_true_iff] at h
  rcases h.1 with h | h <;> simp [State.isHeld, h]

/-- What MIRROR_ERROR leaves. -/
theorem State.mirrorError_left (s : State) : bit (s.mirrorError.reg (modR .MODC_STATUS)) 14 = true ∧ s.mirrorError.hbm = s.hbm :=
  ⟨s.bit_status_raised .module (by decide) .., (touches_raise s .module 14 0 0).hbm_eq⟩

/- Mirror data. -/

section

variable {s : State} {m : MirrorMsg}

theorem exec_mirrorData (hfree : (s.waiting.any fun j => doorOf j = some 4) = false) :
    exec (.mirrorData m) s = .next ((s.mirrorTake m).getD { s with waiting := s.waiting ++ [.mirrorData m] }) :=
  congrArg Outcome.next (State.arrive_free (i := .mirrorData m) hfree fun s => s.mirrorTake m)

theorem exec_mirrorData_some (hfree : (s.waiting.any fun j => doorOf j = some 4) = false) {t : State} (h : s.mirrorTake m = some t) :
    exec (.mirrorData m) s = .next t := by
  rw [exec_mirrorData hfree, h]
  rfl

theorem State.mirrorTake_of_stale (h : s.ctxStale m.ctx m.gen = true) : s.mirrorTake m = some (s.dropStale m.ctx) := if_pos h

theorem State.mirrorTake_of_old (h : s.ctxStale m.ctx m.gen = false) (hnow : s.entered = false ∨ m.step ≠ s.logline ∨ m.attempt ≠ s.step.attempt)
    (hold : s.step.state ≠ .held ∨ s.logline ≤ m.step) : s.mirrorTake m = some s := by
  unfold State.mirrorTake
  extract_lets now rebuild
  have hn : now = false := by
    simp only [now, Bool.and_eq_false_iff, decide_eq_false_iff_not]
    exact or_assoc.2 hnow
  have hr : rebuild = false := by
    simp only [rebuild, Bool.and_eq_false_iff, decide_eq_false_iff_not, State.isHeld]
    exact hold.imp id Nat.not_lt.2
  rw [h, hn, hr]
  rfl

/-- Data of the step in progress, as the directory says. -/
theorem State.mirrorTake_of_now (h : s.ctxStale m.ctx m.gen = false) (he : s.entered = true) (hs : m.step = s.logline) (ha : m.attempt = s.step.attempt) :
    s.mirrorTake m = match s.mirFor m with
      | none => some s.mirrorError
      | some (e, i) =>
        if s.accessHeld 4 true (s.mirHalf e (!bit (s.mirCommit e) 0) + m.off) m.bytes.length then none else
        some { (s.mirWrite e m).send (.mirrorAck m.member) with mirror := s.mirNote i m :: s.mirror.filter fun x => x.entry ≠ i } := by
  have hnow : (s.entered && decide (m.step = s.logline) && decide (m.attempt = s.step.attempt)) = true := by simp [he, hs, ha]
  have hmir (e : MirEntry) : ((s.mirWrite e m).send (.mirrorAck m.member)).mirror = s.mirror := (touches_send ..).mirror_eq.trans (touches_mirWrite ..).mirror_eq
  unfold State.mirrorTake
  simp only [h, hnow, State.not_held_of_entered he, Bool.false_and, Bool.not_true, Bool.false_eq_true, if_false]
  cases s.mirFor m with
  | none => rfl
  | some p => simp only [State.mirNote, hmir]

/-- Data that is not the last of its half is written where it fits. -/
theorem State.mirWrite_of_part {e : MirEntry} (hf : m.final = false) (hfit : m.off + m.bytes.length ≤ e.size) :
    s.mirWrite e m = (s.charge 4 true (s.mirHalf e (!bit (s.mirCommit e) 0) + m.off) m.bytes.length).hbmWrite
      (s.mirHalf e (!bit (s.mirCommit e) 0) + m.off) m.bytes := by
  unfold State.mirWrite
  simp only [hf, if_pos hfit, Bool.false_and, Bool.false_eq_true, if_false]

theorem mirrorData_taken (hfree : (s.waiting.any fun j => doorOf j = some 4) = false) (h : ¬ ((s.ctx m.ctx).state ≠ .active ∨ (s.ctx m.ctx).gen ≠ m.gen))
    (he : s.entered = true) (hs : m.step = s.logline) (ha : m.attempt = s.step.attempt) :
    (s.mirFor m = none → ∃ t, exec (.mirrorData m) s = .next t ∧ bit (t.reg (modR .MODC_STATUS)) 14 = true ∧ t.hbm = s.hbm) ∧
    (∀ e i, s.mirFor m = some (e, i) → let a := s.mirHalf e (!bit (s.mirCommit e) 0) + m.off
      (s.accessHeld 4 true a m.bytes.length = true → exec (.mirrorData m) s = .next { s with waiting := s.waiting ++ [.mirrorData m] }) ∧
      (s.accessHeld 4 true a m.bytes.length = false → m.final = false → m.off + m.bytes.length ≤ e.size →
        exec (.mirrorData m) s = .next { ((s.charge 4 true a m.bytes.length).hbmWrite a m.bytes).send (.mirrorAck m.member) with
          mirror := s.mirNote i m :: s.mirror.filter fun x => x.entry ≠ i }) ∧
      (s.accessHeld 4 true a m.bytes.length = false → m.final = true →
        ∃ t, exec (.mirrorData m) s = .next t ∧ t.mirror = s.mirNote i m :: s.mirror.filter fun x => x.entry ≠ i)) := by
  have htake := State.mirrorTake_of_now (State.ctxStale_eq_false h) he hs ha
  constructor
  · intro hnone
    rw [hnone] at htake
    exact ⟨s.mirrorError, exec_mirrorData_some hfree htake, s.mirrorError_left⟩
  · intro e i hsome
    rw [hsome] at htake
    dsimp only at htake ⊢
    refine ⟨fun hheld => ?_, fun hheld hf hfit => ?_, fun hheld _ => ?_⟩
    · rw [if_pos hheld] at htake
      rw [exec_mirrorData hfree, htake]
      rfl
    · rw [if_neg (by rw [hheld]; decide), State.mirWrite_of_part hf hfit] at htake
      exact exec_mirrorData_some hfree htake
    · rw [if_neg (by rw [hheld]; decide)] at htake
      exact ⟨_, exec_mirrorData_some hfree htake, rfl⟩

end

/- Sends of mirrors. -/

/-- The registers that a send of mirrors writes. -/
def mirrorNames : List RegName := .MIRROR_STATUS :: burstNames ++ causeNames

theorem Marks.foldl_by {α β : Type} {L : List RegName} {s : State} (g : β → State) {f : β → α → β} {l : List α} {p : β} (h : Marks L s (g p))
    (hf : ∀ p a, Marks L (g p) (g (f p a))) : Marks L s (g (l.foldl f p)) := by
  induction l generalizing p with
  | nil => exact h
  | cons a l ih => exact ih ((hf p a).step h (List.Subset.refl L))

theorem marks_mirAcc_add {a : MirAcc} {mk : MirrorMsg → OutMsg} {m : MirrorMsg} {p : Part} {b : Nat} {src : Except MemErr (State × List Byte)}
    (h : ∀ t bs, src = .ok (t, bs) → Marks mirrorNames a.st t) : Marks mirrorNames a.st (a.add mk m p b src).st := by
  unfold MirAcc.add
  split
  · next t bs => exact .foldl (h t bs rfl) fun t x => (marks_send ..).mono
  · exact (marks_memErr ..).mono

theorem marks_mirrorRestore (s : State) (route target : Nat) : Marks mirrorNames s (s.mirrorRestore route target).st := by
  unfold State.mirrorRestore
  refine .foldl_by MirAcc.st .refl fun a e => ?_
  dsimp only
  split
  · exact .refl
  · refine marks_mirAcc_add fun t bs ht => ?_
    split at ht
    · cases ht
    · cases ht
      exact (marks_charge ..).mono

theorem marks_capHalf {s t : State} {st : Nat} {r : CapRec} {w : W64} {other : Bool} {bs : List Byte} (h : s.capHalf st r w other = .ok (t, bs)) :
    Marks mirrorNames s t := by
  unfold State.capHalf at h
  dsimp only at h
  split at h
  · cases h
  · cases h
    exact .foldl .refl fun t p => (marks_ctxLoad ..).mono

theorem marks_mirrorRebuild (s : State) (route target : Nat) : Marks mirrorNames s (s.mirrorRebuild route target).st := by
  unfold State.mirrorRebuild
  refine .foldl_by MirAcc.st .refl fun a x => ?_
  dsimp only
  split
  · exact marks_mirAcc_add fun t bs ht => by cases ht
  · split
    · exact .refl
    · exact marks_mirAcc_add fun t bs ht => marks_capHalf ht

/-- What a send whose reads are all served leaves. -/
structure SentMirrors (s t : State) : Prop where
  hbm : t.hbm = s.hbm
  scratch : t.scratch = s.scratch
  state : t.step.state = s.step.state
  done : bit (t.reg (modR .MIRROR_STATUS)) 63 = true

theorem MirAcc.done_sent {s : State} {a : MirAcc} (h : a.held = false) (k : Touches [.out, .regs, .mem, .step, .links] s a.st) (m : Marks mirrorNames s a.st) :
    ∃ t, a.done = some t ∧ SentMirrors s t := by
  refine ⟨_, if_neg (by simp [h]), k.hbm_eq, k.scratch_eq, m.state, ?_⟩
  have hlt : a.bytes % 2 ^ 48 + b01 (!a.ok) * 2 ^ 62 < 2 ^ 63 := by
    have hb : b01 (!a.ok) ≤ 1 := by cases a.ok <;> decide
    omega
  rw [State.reg_setReg_same, bit_w64 _ (by decide), Nat.add_comm, Nat.testBit_two_pow_add_eq, Nat.testBit_lt_two_pow hlt]
  rfl

/-- MIRROR_CTRL as an accepted write leaves it. -/
def State.mirrorSet (s : State) (v : W64) : State := s.setReg (modR .MIRROR_CTRL) (setFld (setFld v 63 63 0) 61 30 0)

theorem SentMirrors.of_set {s t : State} {v : W64} (h : SentMirrors (s.mirrorSet v) t) : SentMirrors s t := ⟨h.hbm, h.scratch, h.state, h.done⟩

/-- The word that MIRROR_RESTORE (mode 0) or MIRROR_REBUILD (mode 1) writes. -/
def mirrorWord (v : W64) (mode : Nat) : W64 := setFld (setFld v 63 63 1) 62 62 mode

theorem bit_mirrorWord_send (v : W64) (mode : Nat) : bit (mirrorWord v mode) 63 = true := by
  rw [mirrorWord, bit_setFld_disjoint (by decide) (by decide) (by decide)]
  exact bit_setFld_one (by decide) _

theorem State.mirrorCtrl_accepted {s : State} {w : W64} (h : s.step.state = .held) (hfree : (s.waiting.any fun j => doorOf j = some 6) = false)
    (hsend : bit w 63 = true) {t : State} (ht : (s.mirrorSet w).mirrorGo w = some t) : s.mirrorCtrl w = t := by
  unfold State.mirrorCtrl
  rw [if_neg (by simp [State.isHeld, h])]
  dsimp only
  rw [if_neg (by simp [hsend]), State.arrive_free]
  · exact congrArg (Option.getD · _) ht
  · split <;> exact hfree

theorem mirrorRestore_sends {s : State} (v : W64) (h : s.step.state = .held) (hfree : (s.waiting.any fun j => doorOf j = some 6) = false)
    (hheld : ((s.mirrorSet (mirrorWord v 0)).mirrorRestore (fld (mirrorWord v 0) 29 14) (fld (mirrorWord v 0) 13 0)).held = false) :
    ∃ t, exec (.mirrorRestore v) s = .next t ∧ SentMirrors s t := by
  obtain ⟨t, ht, hsent⟩ := MirAcc.done_sent hheld (touches_mirrorRestore ..) (marks_mirrorRestore ..)
  have hmode : bit (mirrorWord v 0) 62 = false := bit_setFld_zero (by decide) _
  refine ⟨t, congrArg Outcome.next (State.mirrorCtrl_accepted h hfree (bit_mirrorWord_send v 0) ?_), hsent.of_set⟩
  rw [State.mirrorGo, if_neg (by rw [hmode]; decide)]
  exact ht

theorem mirrorRebuild_sends {s : State} (v : W64) (h : s.step.state = .held) (hfree : (s.waiting.any fun j => doorOf j = some 6) = false)
    (hheld : ((s.mirrorSet (mirrorWord v 1)).mirrorRebuild (fld (mirrorWord v 1) 29 14) (fld (mirrorWord v 1) 13 0)).held = false) :
    ∃ t, exec (.mirrorRebuild v) s = .next t ∧ SentMirrors s t := by
  obtain ⟨t, ht, hsent⟩ := MirAcc.done_sent hheld (touches_mirrorRebuild ..) (marks_mirrorRebuild ..)
  have hmode : bit (mirrorWord v 1) 62 = true := bit_setFld_one (by decide) _
  refine ⟨t, congrArg Outcome.next (State.mirrorCtrl_accepted h hfree (bit_mirrorWord_send v 1) ?_), hsent.of_set⟩
  rw [State.mirrorGo, if_pos hmode]
  exact ht

theorem marks_decodeError (s : State) (write : Bool) (addr : Nat) : Marks (.MOD_DECODE_DETAIL :: causeNames) s (s.decodeError write addr) := by
  unfold State.decodeError
  exact (marks_raise ..).step (L := .MOD_DECODE_DETAIL :: causeNames) (marks_detail ..).mono

theorem State.mirrorCtrl_refused {s : State} (w : W64) (h : s.step.state ≠ .held) :
    (s.mirrorCtrl w).hbm = s.hbm ∧ (s.mirrorCtrl w).scratch = s.scratch ∧ (s.mirrorCtrl w).step.state = s.step.state ∧
      bit ((s.mirrorCtrl w).reg (modR .MODC_STATUS)) 0 = true ∧ (s.mirrorCtrl w).reg (modR .MIRROR_CTRL) = s.reg (modR .MIRROR_CTRL) := by
  have heq : s.mirrorCtrl w = s.decodeError true 0x020000500030 := if_pos (by simp [State.isHeld, h])
  rw [heq]
  exact ⟨(touches_decodeError ..).hbm_eq, (touches_decodeError ..).scratch_eq, (marks_decodeError ..).state, State.bit_status_raised _ .module (by decide) ..,
    (marks_decodeError ..).reg_eq _⟩

/- Restore data. -/

section

variable {s : State} {m : MirrorMsg}

theorem exec_restoreData (hfree : (s.waiting.any fun j => doorOf j = some 5) = false) :
    exec (.restoreData m) s = .next ((s.restoreTake m).getD { s with waiting := s.waiting ++ [.restoreData m] }) :=
  congrArg Outcome.next (State.arrive_free (i := .restoreData m) hfree fun s => s.restoreTake m)

theorem exec_restoreData_some (hfree : (s.waiting.any fun j => doorOf j = some 5) = false) {t : State} (h : s.restoreTake m = some t) :
    exec (.restoreData m) s = .next t := by
  rw [exec_restoreData hfree, h]
  rfl

theorem restoreData_refused (hfree : (s.waiting.any fun j => doorOf j = some 5) = false) (h : s.step.state ≠ .held ∨ m.step + 1 ≠ s.logline) :
    ∃ t, exec (.restoreData m) s = .next t ∧ bit (t.reg (modR .MODC_STATUS)) 14 = true ∧ t.hbm = s.hbm ∧ t.scratch = s.scratch := by
  have htake : s.restoreTake m = some s.mirrorError := if_pos (by simpa [State.isHeld] using h)
  obtain ⟨hbit, hhbm⟩ := s.mirrorError_left
  exact ⟨s.mirrorError, exec_restoreData_some hfree htake, hbit, hhbm, (touches_raise s .module 14 0 0).scratch_eq⟩

theorem State.restoreTake_of_held (h : s.step.state = .held) (hs : m.step + 1 = s.logline) :
    s.restoreTake m =
      if m.exch then
        (match s.xrec? m.unit m.rcd with
        | none => some s.mirrorError
        | some x =>
          if s.ctxStale x.ctx m.gen || !s.live x.ctx then some (s.dropStale x.ctx) else
          s.restoreWrite (4 * m.unit) x.ctx (x.plane (m.step % 2) + m.off) (m.bytes.take (4 * x.elems - m.off)))
      else match s.capRec? m.unit m.rcd with
        | none => some s.mirrorError
        | some r =>
          if s.ctxStale r.ctx m.gen || !s.live r.ctx then some (s.dropStale r.ctx) else
          (s.restoreWrite m.unit r.ctx (r.slot0 + m.off) (m.bytes.take (r.halfBytes (s.cap m.unit) - m.off))).bind fun s =>
            if m.final then s.restoreRecord m.unit r m.wt m.step else some s := if_neg (by simp [State.isHeld, h, hs])

theorem restoreData_residual (hfree : (s.waiting.any fun j => doorOf j = some 5) = false) (h : s.step.state = .held) (hs : m.step + 1 = s.logline)
    {x : XRec} {u : State} (hx : m.exch = true) (hrec : s.xrec? m.unit m.rcd = some x) (hst : ¬ ((s.ctx x.ctx).state ≠ .active ∨ (s.ctx x.ctx).gen ≠ m.gen))
    (hlive : s.live x.ctx = true)
    (hw : s.ctxWrite (.cap (4 * m.unit)) x.ctx (x.plane (m.step % 2) + m.off) (m.bytes.take (4 * x.elems - m.off)) = .ok u) : exec (.restoreData m) s = .next u := by
  have htake : s.restoreTake m = some u := by
    rw [State.restoreTake_of_held h hs, if_pos hx, hrec]
    dsimp only
    rw [State.ctxStale_eq_false hst, hlive, if_neg (by decide), State.restoreWrite, hw]
  exact exec_restoreData_some hfree htake

theorem restoreData_half (hfree : (s.waiting.any fun j => doorOf j = some 5) = false) (h : s.step.state = .held) (hs : m.step + 1 = s.logline)
    {r : CapRec} {u : State} (hx : m.exch = false) (hf : m.final = false) (hrec : s.capRec? m.unit m.rcd = some r)
    (hst : ¬ ((s.ctx r.ctx).state ≠ .active ∨ (s.ctx r.ctx).gen ≠ m.gen)) (hlive : s.live r.ctx = true)
    (hw : s.ctxWrite (.cap m.unit) r.ctx (r.slot0 + m.off) (m.bytes.take (r.halfBytes (s.cap m.unit) - m.off)) = .ok u) : exec (.restoreData m) s = .next u := by
  have htake : s.restoreTake m = some u := by
    rw [State.restoreTake_of_held h hs, if_neg (by simp [hx]), hrec]
    dsimp only
    rw [State.ctxStale_eq_false hst, hlive, if_neg (by decide), State.restoreWrite, hw]
    dsimp only [Option.bind]
    rw [if_neg (by simp [hf])]
  exact exec_restoreData_some hfree htake

theorem restoreData_stale (hfree : (s.waiting.any fun j => doorOf j = some 5) = false) (h : s.step.state = .held) (hs : m.step + 1 = s.logline)
    {r : CapRec} (hx : m.exch = false) (hrec : s.capRec? m.unit m.rcd = some r) (hst : (s.ctx r.ctx).state ≠ .active ∨ (s.ctx r.ctx).gen ≠ m.gen) :
    exec (.restoreData m) s = .next (s.bump (modR .CTX_STALE_TOTAL r.ctx) 1) := by
  have htake : s.restoreTake m = some (s.dropStale r.ctx) := by
    rw [State.restoreTake_of_held h hs, if_neg (by simp [hx]), hrec]
    dsimp only
    rw [State.ctxStale_iff.2 hst, if_pos (Bool.true_or _)]
  exact exec_restoreData_some hfree htake

end

/- The state block. -/

theorem length_flatMap_leBytes (n : Nat) {α : Type} (f : α → Nat) (l : List α) : (l.flatMap fun x => leBytes n (f x)).length = l.length * n := by
  rw [List.length_flatMap, List.map_congr_left fun x _ => leBytes_length n (f x), List.map_const', List.sum_replicate_nat]

/-- The job-wide state block has 279,616 bytes (16 R429). -/
theorem State.length_stateBlock (s : State) : s.stateBlock.length = 279616 := by
  simp only [State.stateBlock, List.length_append, length_flatMap_leBytes, leBytes_length, List.length_range]

theorem SameWindow.blockMaxima {s t : State} (k : SameWindow s t) (a n : Nat) : t.blockMaxima a n = s.blockMaxima a n := by
  simp only [State.blockMaxima, k.hbmNat]

/-- The block at an address is this job's, for the step in force, before a step has run. -/
def State.blockGood (s : State) (a : Nat) : Prop :=
  s.step.ran = false ∧ s.hbmNat a 4 = 0x45545453 ∧ s.hbmNat (a + 4) 4 = 1 ∧ s.hbmNat (a + 8) 8 = s.logline ∧ s.hbmNat (a + 16) 8 = s.job.jobId

theorem State.blockBad_iff (s : State) (a : Nat) :
    (s.step.ran || decide (s.hbmNat a 4 ≠ 0x45545453) || decide (s.hbmNat (a + 4) 4 ≠ 1) || decide (s.hbmNat (a + 8) 8 ≠ s.logline)
      || decide (s.hbmNat (a + 16) 8 ≠ s.job.jobId)) = true ↔ ¬ s.blockGood a := by
  simp only [State.blockGood, Bool.or_eq_true, decide_eq_true_iff, Classical.not_and_iff_not_or_not, Bool.not_eq_false, or_assoc, ne_eq]

/-- A control core's layers after a restore from the block at an address. -/
def State.restoreLayers (s : State) (a : Nat) (x : Core) : Core :=
  { x with ec := { x.ec with layers := x.ec.layers.map fun (p : Nat × EcLayer) => (p.1, p.2.ofBlock (s.hbmNat (a + 0x40 + 4 * p.1) 4)) } }

theorem State.core_foldl_onCore_notMem {f : Core → Core} {l : List Nat} {n : Nat} (h : n ∉ l) (s : State) : (l.foldl (fun t c => t.onCore c f) s).core n = s.core n := by
  induction l generalizing s with
  | nil => rfl
  | cons m l ih => rw [List.foldl_cons, ih (List.not_mem_of_not_mem_cons h), s.core_onCore, if_neg (List.ne_of_not_mem_cons h)]

theorem State.core_foldl_onCore {f : Core → Core} {l : List Nat} {n : Nat} (hn : l.Nodup) (h : n ∈ l) (s : State) :
    (l.foldl (fun t c => t.onCore c f) s).core n = f (s.core n) := by
  induction l generalizing s with
  | nil => exact absurd h List.not_mem_nil
  | cons m l ih =>
    obtain ⟨hm, hl⟩ := List.nodup_cons.1 hn
    rw [List.foldl_cons]
    by_cases he : n = m
    · subst he
      rw [State.core_foldl_onCore_notMem hm, State.core_onCore_same]
    · rw [ih hl ((List.mem_cons.1 h).resolve_left he), s.core_onCore, if_neg he]

theorem touches_restoreLayers (l : List Nat) (f : Core → Core) (s : State) : Touches [.cores] s (l.foldl (fun t c => t.onCore c f) s) :=
  .foldl .refl fun _ _ => touches_onCore ..

section

variable {s : State}

/-- The address of the state block. -/
def State.blockAt (s : State) : Nat := fld (s.reg (modR .STATE_BASE)) 47 0

theorem exec_save (h : s.step.state = .held) (hfree : (s.waiting.any fun j => doorOf j = some 7) = false) :
    exec .save s = .next (s.saveGo.getD { s with waiting := s.waiting ++ [.save] }) := by
  change Outcome.next (s.stateCtrl 1) = _
  rw [State.stateCtrl, if_neg (by simp [State.isHeld, h]), if_neg (by decide), if_pos (by decide), if_neg (by decide)]
  exact congrArg Outcome.next (State.arrive_free (i := .save) hfree State.saveGo)

theorem exec_restore (h : s.step.state = .held) (hfree : (s.waiting.any fun j => doorOf j = some 7) = false) (hserved : s.accessHeld 4 false s.blockAt 279616 = false) :
    exec .restore s = .next (s.charge 4 false s.blockAt 279616).stateRestore := by
  change Outcome.next (s.stateCtrl 2) = _
  rw [State.stateCtrl, if_neg (by simp [State.isHeld, h]), if_pos (by decide), if_neg (by decide), if_neg (by decide)]
  rw [State.arrive_free (i := .restore) hfree State.restoreGo]
  have hgo : s.restoreGo = some (s.charge 4 false s.blockAt 279616).stateRestore := if_neg (by rw [show fld (s.reg (modR .STATE_BASE)) 47 0 = s.blockAt from rfl, hserved]; decide)
  rw [hgo]
  rfl

theorem save_writes (h : s.step.state = .held) (hfree : (s.waiting.any fun j => doorOf j = some 7) = false) :
    (s.accessHeld 4 true s.blockAt 279616 = false → exec .save s = .next ((s.charge 4 true s.blockAt 279616).hbmWrite s.blockAt s.stateBlock)) ∧
    (s.accessHeld 4 true s.blockAt 279616 = true → exec .save s = .next { s with waiting := s.waiting ++ [.save] }) := by
  have hgo : s.saveGo = if s.accessHeld 4 true s.blockAt 279616 then none else some ((s.charge 4 true s.blockAt 279616).hbmWrite s.blockAt s.stateBlock) := rfl
  rw [exec_save h hfree, hgo]
  generalize s.stateBlock = block
  refine ⟨fun hs => ?_, fun hs => ?_⟩
  · rw [hs, if_neg Bool.false_ne_true, Option.getD_some]
  · rw [hs, if_pos rfl, Option.getD_none]

/-- The charge of the block's read leaves what decides whether it is good. -/
theorem State.blockGood_charge (n a : Nat) : (s.charge 4 false a n).blockGood a ↔ s.blockGood a := by
  have hk := touches_charge s 4 false a n
  have hlog : (s.charge 4 false a n).logline = s.logline := congrArg BitVec.toNat ((regsWithin_charge s 4 false a n).reg_eq (modR .LOGLINE) (by decide))
  simp only [State.blockGood, (sameWindow_charge ..).hbmNat, hk.step_eq, hlog, hk.job_eq]

end

theorem SameWindow.restoreLayers {s t : State} (k : SameWindow s t) (a : Nat) : t.restoreLayers a = s.restoreLayers a := by
  funext x
  simp only [State.restoreLayers, k.hbmNat]

theorem State.stateRestore_of_bad {s : State} (h : ¬ s.blockGood s.blockAt) : s.stateRestore = (s.setRegFld (modR .STATE_CTRL) 2 2 1).raise .module 15 :=
  if_pos ((s.blockBad_iff s.blockAt).2 h)

theorem State.stateRestore_of_good {s : State} (h : s.blockGood s.blockAt) :
    s.stateRestore = { s.job.used.foldl (fun t c => t.onCore c (s.restoreLayers s.blockAt)) s with
      siteMax := s.blockMaxima (s.blockAt + 0x440) 4096, wMax := s.blockMaxima (s.blockAt + 0x4440) 65536 } :=
  if_neg fun e => (s.blockBad_iff s.blockAt).1 e h

section

variable {s : State} (h : s.step.state = .held) (hfree : (s.waiting.any fun j => doorOf j = some 7) = false) (hserved : s.accessHeld 4 false s.blockAt 279616 = false)
include h hfree hserved

theorem restore_refused (hbad : ¬ s.blockGood s.blockAt) : ∃ t, exec .restore s = .next t ∧ bit (t.reg (modR .STATE_CTRL)) 2 = true ∧
    bit (t.reg (modR .MODC_STATUS)) 15 = true ∧ t.cores = s.cores ∧ t.siteMax = s.siteMax ∧ t.wMax = s.wMax ∧ t.hbm = s.hbm := by
  have hat : (s.charge 4 false s.blockAt 279616).blockAt = s.blockAt := congrArg (fld · 47 0) ((regsWithin_charge ..).reg_eq _ (show RegName.STATE_BASE ∉ _ by decide))
  have hbad' : ¬ (s.charge 4 false s.blockAt 279616).blockGood (s.charge 4 false s.blockAt 279616).blockAt := by rwa [hat, State.blockGood_charge]
  have hexec := exec_restore h hfree hserved
  have hk := touches_charge s 4 false s.blockAt 279616
  rw [State.stateRestore_of_bad hbad'] at hexec
  generalize s.charge 4 false s.blockAt 279616 = u at hexec hk
  have hset : Touches [.out, .regs, .mem, .step, .links] s ((u.setRegFld (modR .STATE_CTRL) 2 2 1).raise .module 15) :=
    .step (touches_raise ..) (.step (touches_setRegFld ..) hk.mono)
  refine ⟨_, hexec, ?_, State.bit_status_raised _ .module (by decide) .., hset.cores_eq, hset.siteMax_eq, hset.wMax_eq, hset.hbm_eq⟩
  rw [(regsWithin_raise ..).reg_eq _ (by decide), State.reg_setRegFld_same]
  exact bit_setFld_one (by decide) _

theorem restore_accepted (hgood : s.blockGood s.blockAt) (hnd : s.job.used.Nodup) : ∃ t, exec .restore s = .next t ∧
    t.siteMax = s.blockMaxima (s.blockAt + 0x440) 4096 ∧ t.wMax = s.blockMaxima (s.blockAt + 0x4440) 65536 ∧
    t.reg (modR .STATE_CTRL) = s.reg (modR .STATE_CTRL) ∧ t.hbm = s.hbm ∧
    ∀ c ∈ s.job.used, c < 384 → (t.core c).ec.layers = (s.core c).ec.layers.map fun p => (p.1, p.2.ofBlock (s.hbmNat (s.blockAt + 0x40 + 4 * p.1) 4)) := by
  have hw := sameWindow_charge s 4 false s.blockAt 279616
  have hk := touches_charge s 4 false s.blockAt 279616
  have hr := regsWithin_charge s 4 false s.blockAt 279616
  have hat : (s.charge 4 false s.blockAt 279616).blockAt = s.blockAt := congrArg (fld · 47 0) (hr.reg_eq _ (show RegName.STATE_BASE ∉ _ by decide))
  have hexec := exec_restore h hfree hserved
  rw [State.stateRestore_of_good (by rwa [hat, State.blockGood_charge]), hat, hw.blockMaxima, hw.blockMaxima, hw.restoreLayers, hk.job_eq] at hexec
  have hl := touches_restoreLayers s.job.used (s.restoreLayers s.blockAt) (s.charge 4 false s.blockAt 279616)
  generalize s.blockMaxima (s.blockAt + 0x440) 4096 = sites at hexec ⊢
  generalize s.blockMaxima (s.blockAt + 0x4440) 65536 = weights at hexec ⊢
  refine ⟨_, hexec, rfl, rfl, ?_, ?_, fun c hc _ => ?_⟩
  · exact (hl.reg_eq _).trans (hr.reg_eq _ (by decide))
  · exact hl.hbm_eq.trans hk.hbm_eq
  · refine (congrArg (fun x : Core => x.ec.layers) (State.core_foldl_onCore hnd hc _)).trans ?_
    rw [hk.core_eq]
    rfl

end

/-- Settles O43. -/
theorem mirrorsAndState : Obligations.MirrorsAndState := by
  unfold Obligations.MirrorsAndState
  intro s
  refine ⟨?_, ?_, ?_, ?_, ?_, ?_, ?_, ?_, s.length_stateBlock, ?_⟩
  · intro m hfree hst
    exact exec_mirrorData_some hfree (State.mirrorTake_of_stale (State.ctxStale_iff.2 hst))
  · intro m hfree hst hnow hold
    exact exec_mirrorData_some hfree (State.mirrorTake_of_old (State.ctxStale_eq_false hst) hnow hold)
  · intro m hfree hst he hs ha
    exact mirrorData_taken hfree hst he hs ha
  · intro i hi h
    have hctrl (v : W64) : s.stateCtrl v = s.decodeError true 0x020000500020 := if_pos (by simp [State.isHeld, h])
    have hexec : exec i s = .next (s.decodeError true 0x020000500020) := by
      rcases List.mem_cons.1 hi with rfl | hi
      · exact congrArg Outcome.next (hctrl 1)
      · cases List.mem_singleton.1 hi
        exact congrArg Outcome.next (hctrl 2)
    exact ⟨_, hexec, State.bit_status_raised _ .module (by decide) .., (touches_decodeError ..).hbm_eq, (touches_decodeError ..).cores_eq, (touches_decodeError ..).siteMax_eq⟩
  · intro v i hi h
    have hexec : ∃ w, exec i s = .next (s.mirrorCtrl w) := by
      rcases List.mem_cons.1 hi with rfl | hi
      · exact ⟨_, rfl⟩
      · cases List.mem_singleton.1 hi
        exact ⟨_, rfl⟩
    obtain ⟨w, hexec⟩ := hexec
    exact ⟨_, hexec, State.mirrorCtrl_refused w h⟩
  · intro v h hfree
    refine ⟨fun hheld => ?_, fun hheld => ?_⟩
    · obtain ⟨t, ht, hs⟩ := mirrorRestore_sends v h hfree hheld
      exact ⟨t, ht, hs.hbm, hs.scratch, hs.state.trans h, hs.done⟩
    · obtain ⟨t, ht, hs⟩ := mirrorRebuild_sends v h hfree hheld
      exact ⟨t, ht, hs.hbm, hs.scratch, hs.state.trans h, hs.done⟩
  · intro m hfree h
    exact restoreData_refused hfree h
  · intro m hfree h hs
    exact ⟨fun x u => restoreData_residual hfree h hs, fun r u => restoreData_half hfree h hs, fun r => restoreData_stale hfree h hs⟩
  · intro h hfree
    obtain ⟨hsave, hheld⟩ := save_writes h hfree
    exact ⟨hsave, hheld, fun hbad hserved => restore_refused h hfree hserved hbad, fun hgood hserved hnd => restore_accepted h hfree hserved hgood hnd⟩

end Sys2Proof.Machine
end

section
/-! PROOFS. Reduction instructions of the vector engine (07 R194–R201). Settles O23. -/
set_option Elab.async false -- elaborate in order: side threads each hold a stack of their own

namespace Sys2Proof.Machine

open Safety Claims

variable {s : State} {n t : Nat} {m : OpMsg} {w : W64}

/- Folds of a reduction state. -/

theorem vecRed_of_vecAt {op : Nat} (h : VecAt s n t m w) (hcls : vCls w = 7) (hop : vOp w = op) (f : OpMsg → W64 → Strand → RedState → RedState) :
    vecRed n t op s f = .next (strandUpd s n t fun x => strandNext (x.putR w (f m w x (x.red w)))) := vecLocal_of_vecAt h hcls hop _

/-- Within the span the state is folded and its position advances. -/
theorem vecSpan_within {op : Nat} (h : VecAt s n t m w) (hcls : vCls w = 7) (hop : vOp w = op) (f : OpMsg → W64 → Strand → RedState → RedState)
    (hn : ((s.strand n t).red w).n + 16 ≤ 2 ^ 20) :
    vecSpan n t op s f = .next (strandUpd s n t fun x => strandNext (x.putR w { f m w x (x.red w) with n := (x.red w).n + 16 })) := by
  rw [vecSpan, vecRun_of_vecAt h hcls hop]
  simp only [State.bump_strand]
  rw [attnSpan, if_neg (Nat.not_lt.2 hn)]
  rfl

/-- The reduction state of the strand core past its span. -/
def RedState.passed (r : RedState) : RedState := { r with nan := true, n := min (r.n + 16) (2 ^ 21 - 1) }

theorem vecSpan_past {op : Nat} (h : VecAt s n t m w) (hcls : vCls w = 7) (hop : vOp w = op) (f : OpMsg → W64 → Strand → RedState → RedState)
    (hn : 2 ^ 20 < ((s.strand n t).red w).n + 16) :
    ∃ u, vecSpan n t op s f = .next u ∧ u.strand n t = strandNext ((s.strand n t).putR w ((s.strand n t).red w).passed) ∧
      u.reg (coreR .OVERSPAN_TOTAL n) = satAdd (s.reg (coreR .OVERSPAN_TOTAL n)) 1 ∧ bit (u.reg (coreR .CORE_STATUS n)) 10 = true ∧
      u.scratch = s.scratch ∧ u.hbm = s.hbm := by
  rw [vecSpan, vecRun_of_vecAt h hcls hop]
  simp only [State.bump_strand]
  rw [attnSpan, if_pos hn, bump_onStrand_eq_strandUpd]
  generalize hv : strandUpd s n t _ = v
  have hstrand : v.strand n t = strandNext ((s.strand n t).putR w ((s.strand n t).red w).passed) := by rw [← hv, strandUpd_strand]; rfl
  have htotal : v.reg (coreR .OVERSPAN_TOTAL n) = s.reg (coreR .OVERSPAN_TOTAL n) := by
    rw [← hv]
    exact State.reg_bump_ne _ _ _ _ (show coreR .OVERSPAN_TOTAL n ≠ coreR .INSN_TOTAL n by simp [coreR, rid])
  have hscr : v.scratch = s.scratch := by rw [← hv]; exact (touches_bump ..).scratch_eq
  have hhbm : v.hbm = s.hbm := by rw [← hv]; exact (touches_bump ..).hbm_eq
  refine ⟨_, rfl, ?_, ?_, State.bit_status_raised _ (.core n) (by decide) .., ?_, ?_⟩
  · rw [(touches_raise ..).strand_eq, (touches_bump ..).strand_eq, hstrand]
  · rw [(regsWithin_raise ..).reg_eq _ (show RegName.OVERSPAN_TOTAL ∉ _ by decide), State.reg_bump, if_neg (by decide), htotal]
  · rw [(touches_raise ..).scratch_eq, (touches_bump ..).scratch_eq, hscr]
  · rw [(touches_raise ..).hbm_eq, (touches_bump ..).hbm_eq, hhbm]

theorem Strand.lanes_contains (x : Strand) (w : W64) {l : Nat} (hl : l < 16) : (x.lanes w).contains l = nbit (x.pred (vPg w)) l := by
  rw [Bool.eq_iff_iff, List.contains_iff_mem, Strand.lanes, List.mem_filter, List.mem_range]
  exact ⟨fun h => h.2, fun h => ⟨hl, h⟩⟩

/-- The fall-back tree of RADD takes +0 for inactive lanes. -/
theorem RedState.radd_tree (r : RedState) (x : Strand) (w : W64) (v : List W32) : r.radd true (x.lanes w) v =
    { r with tree := toF32 ((f32 r.tree).add (f32 (treeSum ((List.range 16).map fun l => if nbit (x.pred (vPg w)) l then lane v l else 0)))) } := by
  have hmap : (List.range 16).map (fun l => if (x.lanes w).contains l then lane v l else 0) = (List.range 16).map fun l => if nbit (x.pred (vPg w)) l then lane v l else 0 :=
    List.map_congr_left fun l hl => by rw [x.lanes_contains w (List.mem_range.1 hl)]
  rw [RedState.radd, if_pos rfl, hmap]
  rfl

/- Cells in cache lines. -/

theorem XCell.length_toBytes (c : XCell) : c.toBytes.length = 64 := by
  simp only [XCell.toBytes, List.length_append, leBytes_length]

/-- RXPORT's run, where its cell goes to line c of the cache. -/
theorem execRxport_line {stalls c : Nat} {cell : XCell} (wf : Memory.wf s.scratch = true) (hc : cacheLine (s.strand n t) w = some c)
    (hrun : execRxport n t stalls s =
      .next ((((s.bump (coreR .INSN_TOTAL n) 1).ocStall n stalls).scrWrite n (cacheAddr c) cell.toBytes).onStrand n t Strand.adv)) :
    ∃ u, exec (.rxport n t stalls) s = .next u ∧ u.strand n t = strandNext (s.strand n t) ∧ u.hbm = s.hbm ∧
      u.scrRead n ((0x6000 + c) * 64) 64 = cell.toBytes ∧
      (∀ a, a < scrAddr n ((0x6000 + c) * 64) ∨ scrAddr n ((0x6000 + c) * 64 + 64) ≤ a → memGet u.scratch a = memGet s.scratch a) := by
  have k := touches_counted s n stalls
  have hlt := cacheLine_lt hc
  have hlen := cell.length_toBytes
  have hwf : Memory.wf ((s.bump (coreR .INSN_TOTAL n) 1).ocStall n stalls).scratch = true := by rw [k.scratch_eq, wf]
  have hw : Touches [.regs, .scratch] s (((s.bump (coreR .INSN_TOTAL n) 1).ocStall n stalls).scrWrite n (cacheAddr c) cell.toBytes) :=
    .step (touches_scrWrite ..) k.mono
  refine ⟨_, hrun, ?_, hw.hbm_eq, ?_, fun a ha => ?_⟩
  · rw [State.strand_onStrand, hw.strand_eq]
    rfl
  · rw [State.scrRead_onStrand]
    exact State.scrRead_scrWrite_same hwf (by rw [cacheAddr]; omega) (by rw [hlen, cacheAddr]; omega) hlen
  · refine (State.memGet_scrWrite (n := n) hwf (by rw [cacheAddr]; omega) (by rw [hlen, cacheAddr]; omega) a).trans ?_
    rw [hlen, if_neg, k.scratch_eq]
    simp only [scrAddr, cacheAddr] at ha ⊢
    omega

theorem execRimport_line {stalls c : Nat} (h : VecAt s n t m w) (hcls : vCls w = 7) (hop : vOp w = 8) (hc : cacheLine (s.strand n t) w = some c) :
    ∃ u, exec (.rimport n t stalls []) s = .next u ∧ u.scratch = s.scratch ∧ u.hbm = s.hbm ∧
      u.strand n t = strandNext ((s.strand n t).putR w (((s.strand n t).red w).import m.tree (XCell.ofBytes (s.scrRead n ((0x6000 + c) * 64) 64)))) := by
  have k := touches_counted s n stalls
  change ∃ u, execRimport n t stalls [] s = .next u ∧ _
  rw [execRimport, vecRun_of_vecAt h hcls hop]
  simp only [State.bump_strand, hc, State.scrEventsAt_nil]
  refine ⟨_, rfl, k.scratch_eq, k.hbm_eq, ?_⟩
  rw [State.strand_onStrand, k.strand_eq]
  simp only [State.scrRead, k.scratch_eq, cacheAddr]
  rfl

/-- A cell access outside the cache. -/
theorem redCell_outside {stalls : Nat} {write : Bool} {i : Instr}
    (hi : exec i s = .next ((((s.bump (coreR .INSN_TOTAL n) 1).ocStall n stalls).vecOob n write 1).onStrand n t Strand.adv)) :
    ∃ u, exec i s = .next u ∧ u.strand n t = strandNext (s.strand n t) ∧ u.scratch = s.scratch ∧ u.hbm = s.hbm ∧ bit (u.reg (coreR .CORE_STATUS n)) 9 = true := by
  have k := Touches.step (F := [.out, .regs, .step, .links]) (touches_vecOob _ n write 1) (touches_counted s n stalls).mono
  refine ⟨_, hi, ?_, k.scratch_eq, k.hbm_eq, State.bit_vecOob _ _ _ Nat.one_ne_zero⟩
  rw [State.strand_onStrand, k.strand_eq]
  rfl

theorem exec_redCell_outside {stalls : Nat} (h : VecAt s n t m w) (hcls : vCls w = 7) (hc : cacheLine (s.strand n t) w = none) :
    (vOp w = 7 → exec (.rxport n t stalls) s = .next ((((s.bump (coreR .INSN_TOTAL n) 1).ocStall n stalls).vecOob n true 1).onStrand n t Strand.adv)) ∧
    (vOp w = 8 → exec (.rimport n t stalls []) s = .next ((((s.bump (coreR .INSN_TOTAL n) 1).ocStall n stalls).vecOob n false 1).onStrand n t Strand.adv)) := by
  constructor
  · intro hop
    change execRxport n t stalls s = _
    rw [execRxport, vecRun_of_vecAt h hcls hop]
    simp only [State.bump_strand, hc]
  · intro hop
    change execRimport n t stalls [] s = _
    rw [execRimport, vecRun_of_vecAt h hcls hop]
    simp only [State.bump_strand, hc]

/- Softmax rows. -/

/-- The row of a state has no live element and no NaN. -/
def RedState.emptyRow (r : RedState) : Prop := r.nan = false ∧ r.overSpan = false ∧ r.live = false

theorem RedState.emptyRow_iff (r : RedState) : (!(r.nan || r.overSpan) && !r.live) = true ↔ r.emptyRow := by
  simp only [RedState.emptyRow, Bool.and_eq_true, Bool.not_eq_true', Bool.or_eq_false_iff, and_assoc]

/-- What VSMX makes of the strand core. -/
def Strand.smxDone (x : Strand) (m : OpMsg) (w : W64) (seen : Bool) : Strand :=
  strandNext { x with
    v := sset x.v (vVd w) ((List.range 16).map fun l => if nbit (x.pred (vPg w)) l then (x.red w).smx m.tree (lane (x.reg (vVa w)) l) else 0)
    r := sset x.r (vSlot w % 4) { x.red w with emptySeen := seen } }

theorem execVsmx_of_vecAt (h : VecAt s n t m w) (hcls : vCls w = 7) (hop : vOp w = 9) {empty : Bool}
    (he : (!(((s.strand n t).red w).nan || ((s.strand n t).red w).overSpan) && !((s.strand n t).red w).live) = empty) :
    exec (.vsmx n t) s =
      let v := strandUpd s n t fun _ => (s.strand n t).smxDone m w (((s.strand n t).red w).emptySeen || empty)
      .next (if empty && !((s.strand n t).red w).emptySeen then (v.bump (coreR .EMPTY_ROW_TOTAL n) 1).raise (.core n) 11 (v.ctxOf n) else v) := by
  change execVsmx n t s = _
  rw [execVsmx, vecRun_of_vecAt h hcls hop]
  simp only [State.bump_strand, he, bump_onStrand_eq_strandUpd]
  rfl

theorem execVsmx_emptyRow (h : VecAt s n t m w) (hcls : vCls w = 7) (hop : vOp w = 9) (he : ((s.strand n t).red w).emptyRow)
    (hseen : ((s.strand n t).red w).emptySeen = false) :
    ∃ u, exec (.vsmx n t) s = .next u ∧ u.strand n t = (s.strand n t).smxDone m w true ∧ u.scratch = s.scratch ∧ u.hbm = s.hbm ∧
      u.reg (coreR .EMPTY_ROW_TOTAL n) = satAdd (s.reg (coreR .EMPTY_ROW_TOTAL n)) 1 ∧ bit (u.reg (coreR .CORE_STATUS n)) 11 = true := by
  have hexec := execVsmx_of_vecAt h hcls hop ((RedState.emptyRow_iff _).2 he)
  rw [hseen] at hexec
  generalize hv : strandUpd s n t _ = v at hexec
  have hstrand : v.strand n t = (s.strand n t).smxDone m w true := by rw [← hv, strandUpd_strand]; rfl
  have htotal : v.reg (coreR .EMPTY_ROW_TOTAL n) = s.reg (coreR .EMPTY_ROW_TOTAL n) := by
    rw [← hv]
    exact State.reg_bump_ne _ _ _ _ (show coreR .EMPTY_ROW_TOTAL n ≠ coreR .INSN_TOTAL n by simp [coreR, rid])
  have hscr : v.scratch = s.scratch := by rw [← hv]; exact (touches_bump ..).scratch_eq
  have hhbm : v.hbm = s.hbm := by rw [← hv]; exact (touches_bump ..).hbm_eq
  refine ⟨(v.bump (coreR .EMPTY_ROW_TOTAL n) 1).raise (.core n) 11 (v.ctxOf n), hexec, ?_, ?_, ?_, ?_, State.bit_status_raised _ (.core n) (by decide) ..⟩
  · rw [(touches_raise ..).strand_eq, (touches_bump ..).strand_eq, hstrand]
  · rw [(touches_raise ..).scratch_eq, (touches_bump ..).scratch_eq, hscr]
  · rw [(touches_raise ..).hbm_eq, (touches_bump ..).hbm_eq, hhbm]
  · rw [(regsWithin_raise ..).reg_eq _ (show RegName.EMPTY_ROW_TOTAL ∉ _ by decide), State.reg_bump, if_neg (by decide), htotal]

/-- RMAX, RARG and RSOFT within the span. -/
theorem redSpan_within (h : VecAt s n t m w) (hcls : vCls w = 7) (hn : ((s.strand n t).red w).n + 16 ≤ 2 ^ 20) :
    (vOp w = 2 → exec (.rmax n t) s = .next (strandUpd s n t fun x =>
      strandNext (x.putR w { (x.red w).fold true (x.lanes w) (x.reg (vVa w)) with n := (x.red w).n + 16 }))) ∧
    (vOp w = 4 → exec (.rarg n t) s = .next (strandUpd s n t fun x =>
      strandNext (x.putR w { (x.lanes w).foldl (fun r l => r.argLane (x.reg (vVa w)) l) (x.red w) with n := (x.red w).n + 16 }))) ∧
    (vOp w = 5 → exec (.rsoft n t) s = .next (strandUpd s n t fun x =>
      strandNext (x.putR w { (x.red w).rsoft m.tree (x.lanes w) (x.reg (vVa w)) with n := (x.red w).n + 16 }))) :=
  ⟨fun hop => vecSpan_within (op := 2) h hcls hop (fun _ w x r => r.fold true (x.lanes w) (x.reg (vVa w))) hn,
    fun hop => vecSpan_within (op := 4) h hcls hop (fun _ w x r => (x.lanes w).foldl (fun r l => r.argLane (x.reg (vVa w)) l) r) hn,
    fun hop => vecSpan_within (op := 5) h hcls hop (fun m w x r => r.rsoft m.tree (x.lanes w) (x.reg (vVa w))) hn⟩

/-- Settles O23: one lemma per kind of fold, then the cells and the softmax row. -/
theorem vectorReductions : Obligations.VectorReductions := by
  unfold Obligations.VectorReductions
  intro s n t m w h hcls upd act x r
  refine ⟨?_, fun hop => ⟨fun htree => ?_, fun htree => ?_⟩, ?_, ?_, fun hn i hi => ?_, ?_, ?_, fun hc stalls i hi => ?_, fun hop => ?_⟩
  · intro hop
    exact vecRed_of_vecAt h hcls hop fun _ _ _ _ => {}
  · change execRadd n t s = _
    rw [execRadd, vecRed_of_vecAt h hcls hop, OpMsg.tree, htree]
    rfl
  · change execRadd n t s = _
    rw [execRadd, vecRed_of_vecAt h hcls hop, OpMsg.tree, htree]
    simp only [RedState.radd_tree]
    rfl
  · intro hop
    exact vecRed_of_vecAt h hcls hop fun _ w x r => r.fold false (x.lanes w) (x.reg (vVa w))
  · intro hn
    exact redSpan_within h hcls hn
  · rcases hi with ⟨hop, rfl⟩ | ⟨hop, rfl⟩ | ⟨hop, rfl⟩
    · exact vecSpan_past (op := 2) h hcls hop (fun _ w x r => r.fold true (x.lanes w) (x.reg (vVa w))) hn
    · exact vecSpan_past (op := 4) h hcls hop (fun _ w x r => (x.lanes w).foldl (fun r l => r.argLane (x.reg (vVa w)) l) r) hn
    · exact vecSpan_past (op := 5) h hcls hop (fun m w x r => r.rsoft m.tree (x.lanes w) (x.reg (vVa w))) hn
  · intro hop
    exact vecLocal_of_vecAt h hcls hop fun m w x => x.putV w fun l => if l = 0 then (x.red w).read m.tree (fld w 1 0) else lane (x.reg (vVd w)) l
  · intro stalls c hc wf
    refine ⟨fun hop => execRxport_line wf hc ?_, fun hop => execRimport_line h hcls hop hc⟩
    rw [execRxport, vecRun_of_vecAt h hcls hop]
    simp only [State.bump_strand, show cacheLine (s.strand n t) w = some c from hc]
    rfl
  · obtain ⟨hx, hi8⟩ := exec_redCell_outside (stalls := stalls) h hcls hc
    rcases hi with ⟨hop, rfl⟩ | ⟨hop, rfl⟩
    · exact redCell_outside (hx hop)
    · exact redCell_outside (hi8 hop)
  · intro empty y
    refine ⟨fun he => ?_, fun he hseen => ?_, fun he hseen => execVsmx_emptyRow h hcls hop he hseen⟩
    · have hexec := execVsmx_of_vecAt h hcls hop (Bool.eq_false_iff.2 fun e => he ((RedState.emptyRow_iff _).1 e))
      rw [Bool.or_false] at hexec
      exact hexec
    · have hexec := execVsmx_of_vecAt h hcls hop ((RedState.emptyRow_iff _).2 he)
      rw [show ((s.strand n t).red w).emptySeen = true from hseen] at hexec
      exact hexec

end Sys2Proof.Machine
end

section
/-! PROOFS. Gathers and scatters of the vector engine (07 R203–R206). Settles O25. -/
set_option Elab.async false -- elaborate in order: side threads each hold a stack of their own

namespace Sys2Proof.Machine

open Safety Claims

variable {s : State} {n t : Nat} {m : OpMsg} {w : W64}

/- Cells as bytes. -/

/-- A count that fits the 48 bits of a cell's count. -/
def XCell.countFits (c : XCell) : Prop := c.terms < 256 ^ 6

theorem XCell.countFits_addLane (c : XCell) (a : W32) : (c.addLane a).countFits := by
  unfold XCell.addLane XCell.countFits
  extract_lets d
  split
  · exact Nat.mod_lt _ (by decide)
  · next h => exact Nat.lt_of_le_of_lt (Nat.not_lt.1 h) (by decide)

theorem leNat_leBytes_toNat {n : Nat} (x : BitVec (8 * n)) : leNat (leBytes n x.toNat) = x.toNat :=
  leNat_leBytes_of_lt (by rw [show 256 = 2 ^ 8 from rfl, ← Nat.pow_mul]; exact x.isLt)

/-- The 64 bytes of a cell give the cell back. -/
theorem XCell.ofBytes_toBytes {c : XCell} (h : c.countFits) : XCell.ofBytes c.toBytes = c := by
  obtain ⟨sum, nan, pinf, ninf, terms⟩ := c
  have hsum : (leBytes 40 sum.toNat).length = 40 := leBytes_length ..
  have hflags : (leBytes 1 (b01 nan + 2 * b01 pinf + 4 * b01 ninf)).length = 1 := leBytes_length ..
  have hterms : (leBytes 6 terms).length = 6 := leBytes_length ..
  have hbits : leNat (leBytes 1 (b01 nan + 2 * b01 pinf + 4 * b01 ninf)) = b01 nan + 2 * b01 pinf + 4 * b01 ninf :=
    leNat_leBytes_of_lt (by cases nan <;> cases pinf <;> cases ninf <;> decide)
  have htake : XCell.toBytes ⟨sum, nan, pinf, ninf, terms⟩ = leBytes 40 sum.toNat ++ (leBytes 1 (b01 nan + 2 * b01 pinf + 4 * b01 ninf) ++ (leBytes 6 terms ++ leBytes 17 0)) := by
    simp only [XCell.toBytes, List.append_assoc]
  have h40 : (XCell.toBytes ⟨sum, nan, pinf, ninf, terms⟩).take 40 = leBytes 40 sum.toNat := by rw [htake, List.take_left' hsum]
  have hd40 : ((XCell.toBytes ⟨sum, nan, pinf, ninf, terms⟩).drop 40).take 1 = leBytes 1 (b01 nan + 2 * b01 pinf + 4 * b01 ninf) := by
    rw [htake, List.drop_left' hsum, List.take_left' hflags]
  have hd41 : ((XCell.toBytes ⟨sum, nan, pinf, ninf, terms⟩).drop 41).take 6 = leBytes 6 terms := by
    rw [htake, show 41 = 40 + 1 from rfl, ← List.drop_drop, List.drop_left' hsum, List.drop_left' hflags, List.take_left' hterms]
  unfold XCell.ofBytes
  rw [h40, hd40, hd41, leNat_leBytes_toNat (n := 40) sum, hbits, leNat_leBytes_of_lt h, BitVec.ofNat_toNat, BitVec.setWidth_eq]
  cases nan <;> cases pinf <;> cases ninf <;> rfl

/- Elements of a slot. -/

/-- The element that lane l of an instruction addresses (R203). -/
def Strand.element (x : Strand) (w : W64) (T : TSlot) (l : Nat) : Option Nat := resolveIdx T.wrap T.dim (lane (x.reg (vVa w)) l)

theorem resolveIdx_lt {wrap : Bool} {dim e : Nat} {a : W32} (h : resolveIdx wrap dim a = some e) : e < dim := by
  unfold resolveIdx at h
  extract_lets i j at h
  clear_value j
  split at h
  · next hi =>
    obtain rfl := Option.some.inj h
    omega
  · cases h

theorem Strand.element_lt {x : Strand} {T : TSlot} {l e : Nat} (h : x.element w T l = some e) : e < T.dim := resolveIdx_lt h

/- Gathers. -/

theorem execVgath_loads {scr oc : Nat} (h : VecAt s n t m w) (hcls : vCls w = 8) (hop : vOp w = 0) :
    ∃ u, exec (.vgath n t scr oc []) s = .next u ∧ u.hbm = s.hbm ∧ u.scratch = s.scratch ∧
      u.strand n t = strandNext (vdWritten (s.strand n t) w fun l => match (s.strand n t).element w (m.tslot (vSlot w / 2)) l with
        | some e => s.slotLane n (m.tslot (vSlot w / 2)) true e
        | none => BitVec.ofNat 32 (m.tslot (vSlot w / 2)).fill) := by
  have k (ls es ov) : Touches [.out, .regs, .step, .links] s
      ((((s.bump (coreR .INSN_TOTAL n) 1).slotStall n ls scr oc).slotTscale n (m.tslot (vSlot w / 2)) es).vecOob n false ov) :=
    .step (touches_vecOob ..) (.step (touches_slotTscale ..) (.step (touches_slotStall ..) (.step (touches_bump ..) .refl)))
  have k0 (ls es) : (((s.bump (coreR .INSN_TOTAL n) 1).slotStall n ls scr oc).slotTscale n (m.tslot (vSlot w / 2)) es).scratch = s.scratch := by
    rw [(touches_slotTscale ..).scratch_eq, (touches_slotStall ..).scratch_eq, (touches_bump ..).scratch_eq]
  change ∃ u, execVgath n t scr oc [] s = .next u ∧ _
  rw [execVgath, vecRun_of_vecAt h hcls hop]
  simp only [State.bump_strand, State.scrEventsAt_nil]
  refine ⟨_, rfl, (k ..).hbm_eq, (k ..).scratch_eq, ?_⟩
  rw [State.strand_onStrand, (k ..).strand_eq, ← Strand.putV_eq_vdWritten]
  refine congrArg strandNext (Strand.putV_congr _ _ fun l hl => ?_)
  rw [lane, nth, List.getElem?_map, List.getElem?_range hl, Option.map_some, Option.getD_some]
  simp only [State.slotLane_congr (k0 ..)]
  rfl

/- Scatters of elements. -/

/-- What VSCAT writes for lane l: k bytes of its code at the element it addresses. -/
def Strand.scatLane (x : Strand) (w : W64) (T : TSlot) (v : List W32) (k : Nat) (code : W32 → Nat) (l : Nat) : Option (Nat × List Byte) :=
  (x.element w T l).map fun e => (T.elem * 64 + k * e, leBytes k (code (lane v l)))

theorem foldl_scrWrite_element (s : State) (n : Nat) (g : Nat → Option Nat) (addr : Nat → Nat) (bs : Nat → List Byte) (L : List Nat) :
    L.foldl (fun s l => match g l with | some e => s.scrWrite n (addr e) (bs l) | none => s) s =
      s.scrWrites n (L.filterMap fun l => (g l).map fun e => (addr e, bs l)) := by
  induction L generalizing s with
  | nil => rfl
  | cons l L ih =>
    rw [List.foldl_cons, ih, List.filterMap_cons]
    cases g l with
    | none => rfl
    | some e => rfl

/-- The plain formats that VSCAT writes: FP32 in four bytes, BF16 in two. -/
def scatCode (T : TSlot) (k : Nat) (code : W32 → Nat) : Prop :=
  fsCode T.fmt = 6 ∧ k = 4 ∧ code = (fun a => (tensorF32 a).toNat) ∨
    fsCode T.fmt = 5 ∧ k = 2 ∧ code = (fun a => let c := (FF.bf16.encode (fsSat T.fmt) (f32 a)).1; if c = 0x8000 then 0 else c)

/-- The lines that an access of a slot by the active lanes touches. -/
def Strand.elementLines (x : Strand) (w : W64) (T : TSlot) : List Nat := ((x.lanes w).filterMap (x.element w T)).flatMap T.lines

/-- The active lanes whose index lies outside the slot. -/
def Strand.outside (x : Strand) (w : W64) (T : TSlot) : Nat := (x.lanes w).countP fun l => (x.element w T l).isNone

/-- A scatter's instruction counted and its stalls. -/
def State.scatCounted (s : State) (n scr oc : Nat) (lines : List Nat) : State := (s.bump (coreR .INSN_TOTAL n) 1).slotStall n lines scr oc

theorem touches_scatCounted (s : State) (n scr oc : Nat) (lines : List Nat) : Touches [.regs] s (s.scatCounted n scr oc lines) :=
  .step (touches_slotStall ..) (.step (touches_bump ..) .refl)

/-- VSCAT writes lane by lane. -/
theorem execVscat_writes {scr oc k : Nat} {code : W32 → Nat} (h : VecAt s n t m w) (hcls : vCls w = 8) (hop : vOp w = 1) {T : TSlot}
    (hT : m.tslot (vSlot w / 2) = T) (hx : T.exact = false) (hcode : scatCode T k code) :
    exec (.vscat n t scr oc) s = .next ((((s.scatCounted n scr oc ((s.strand n t).elementLines w T)).scrWrites n
      (((s.strand n t).lanes w).filterMap ((s.strand n t).scatLane w T ((s.strand n t).srcB m w) k code))).vecOob n true
        ((s.strand n t).outside w T)).onStrand n t Strand.adv) := by
  have hwide : isWide (fsCode T.fmt) = true := by rcases hcode with ⟨hf, _⟩ | ⟨hf, _⟩ <;> rw [hf] <;> rfl
  change execVscat n t scr oc s = _
  rw [execVscat, vecRun_of_vecAt h hcls hop]
  simp only [State.bump_strand, hT, hx, hwide, Bool.not_true, Bool.or_false, Bool.false_eq_true, if_false]
  rcases hcode with ⟨hf, rfl, rfl⟩ | ⟨hf, rfl, rfl⟩
  · simp only [hf, if_true]
    exact congrArg (fun u : State => Host.Outcome.next ((u.vecOob n true _).onStrand n t Strand.adv)) (foldl_scrWrite_element ..)
  · simp only [hf, show ¬ (5 = 6) by decide, if_false]
    exact congrArg (fun u : State => Host.Outcome.next ((u.vecOob n true _).onStrand n t Strand.adv)) (foldl_scrWrite_element ..)

theorem State.scrRead_vecOob (s : State) (c : Nat) (write : Bool) (k q a b : Nat) : (s.vecOob c write k).scrRead q a b = s.scrRead q a b := by
  rw [State.scrRead, (touches_vecOob ..).scratch_eq, State.scrRead]

/-- An element of a slot that ends in scratch does. -/
theorem element_inScratch {T : TSlot} {k e : Nat} (hk : 0 < k) (hfit : T.elem * 64 + k * T.dim ≤ 2 ^ 21) (he : e < T.dim) :
    T.elem * 64 + k * e < 2 ^ 21 ∧ T.elem * 64 + k * e + k ≤ 2 ^ 21 := by
  have hmul : k * (e + 1) ≤ k * T.dim := Nat.mul_le_mul_left k he
  rw [Nat.mul_succ] at hmul
  omega

/-- Two elements of a slot share no byte. -/
theorem element_disjoint {e f : Nat} (k : Nat) (h : e ≠ f) : k * e + k ≤ k * f ∨ k * f + k ≤ k * e := by
  rcases Nat.lt_or_gt_of_ne h with h | h
  · exact .inl (by rw [← Nat.mul_succ]; exact Nat.mul_le_mul_left k h)
  · exact .inr (by rw [← Nat.mul_succ]; exact Nat.mul_le_mul_left k h)

section

variable {scr oc k : Nat} {code : W32 → Nat} {T : TSlot}

theorem scatLane_eq_some {x : Strand} {v : List W32} {l : Nat} {p : Nat × List Byte} (h : x.scatLane w T v k code l = some p) :
    ∃ e, x.element w T l = some e ∧ p = (T.elem * 64 + k * e, leBytes k (code (lane v l))) := by
  obtain ⟨e, he, hp⟩ := Option.map_eq_some_iff.1 h
  exact ⟨e, he, hp.symm⟩

theorem scatLane_inScratch {x : Strand} {v : List W32} {l : Nat} {p : Nat × List Byte} (hk : 0 < k) (hfit : T.elem * 64 + k * T.dim ≤ 2 ^ 21)
    (h : x.scatLane w T v k code l = some p) : InScratch p := by
  obtain ⟨e, he, rfl⟩ := scatLane_eq_some h
  rw [InScratch, leBytes_length]
  exact element_inScratch hk hfit (Strand.element_lt he)

theorem execVscat_slot (h : VecAt s n t m w) (hcls : vCls w = 8) (hop : vOp w = 1) (wf : Memory.wf s.scratch = true)
    (hT : m.tslot (vSlot w / 2) = T) (hx : T.exact = false) (hcode : scatCode T k code) (hfit : T.elem * 64 + k * T.dim ≤ 2 ^ 21) :
    ∃ u, exec (.vscat n t scr oc) s = .next u ∧ u.strand n t = strandNext (s.strand n t) ∧ u.hbm = s.hbm ∧
      (∀ l e, l < 16 → nbit ((s.strand n t).pred (vPg w)) l = true → (s.strand n t).element w T l = some e →
        (∀ j, l < j → j < 16 → nbit ((s.strand n t).pred (vPg w)) j = true → (s.strand n t).element w T j ≠ some e) →
        u.scrNat n (T.elem * 64 + k * e) k = code (lane ((s.strand n t).srcB m w) l) % 256 ^ k) ∧
      (∀ a, (∀ l e, l < 16 → nbit ((s.strand n t).pred (vPg w)) l = true → (s.strand n t).element w T l = some e →
          a < scrAddr n (T.elem * 64 + k * e) ∨ scrAddr n (T.elem * 64 + k * e + k) ≤ a) →
        memGet u.scratch a = memGet s.scratch a) := by
  have hk : 0 < k := by rcases hcode with ⟨-, rfl, -⟩ | ⟨-, rfl, -⟩ <;> decide
  have hexec := execVscat_writes (scr := scr) (oc := oc) h hcls hop hT hx hcode
  have hcount := touches_scatCounted s n scr oc ((s.strand n t).elementLines w T)
  generalize s.scatCounted n scr oc ((s.strand n t).elementLines w T) = a0 at hexec hcount
  have wf0 : Memory.wf a0.scratch = true := by rw [hcount.scratch_eq, wf]
  have hw := touches_scrWrites a0 n (((s.strand n t).lanes w).filterMap ((s.strand n t).scatLane w T ((s.strand n t).srcB m w) k code))
  have hov := touches_vecOob (a0.scrWrites n (((s.strand n t).lanes w).filterMap ((s.strand n t).scatLane w T ((s.strand n t).srcB m w) k code))) n true
    ((s.strand n t).outside w T)
  refine ⟨_, hexec, ?_, hov.hbm_eq.trans (hw.hbm_eq.trans hcount.hbm_eq), fun l e hl hact he hlast => ?_, fun a ha => ?_⟩
  · rw [State.strand_onStrand, hov.strand_eq, hw.strand_eq, hcount.strand_eq]
    rfl
  · obtain ⟨A, B, hsplit, hB⟩ := Strand.lanes_split _ w hl hact
    rw [State.scrNat, State.scrRead_onStrand, State.scrRead_vecOob, hsplit, List.filterMap_append, List.filterMap_cons, Strand.scatLane, he]
    refine (congrArg leNat (State.scrRead_scrWrites_last wf0 ?_ ?_ ?_ (leBytes_length ..))).trans (leNat_leBytes ..)
    · exact fun p hp => (List.mem_filterMap.1 hp).elim fun j hj => scatLane_inScratch hk hfit hj.2
    · rw [InScratch, leBytes_length]
      exact element_inScratch hk hfit (Strand.element_lt he)
    · intro p hp
      obtain ⟨j, hj, hjp⟩ := List.mem_filterMap.1 hp
      obtain ⟨f, hf, rfl⟩ := scatLane_eq_some hjp
      obtain ⟨hlj, hj16, hjact⟩ := hB j hj
      have hne : e ≠ f := fun hef => hlast j hlj hj16 hjact (hef ▸ hf)
      have := element_disjoint k hne
      simp only [leBytes_length]
      omega
  · rw [← hcount.scratch_eq]
    refine (congrArg (memGet · a) hov.scratch_eq).trans (State.memGet_scrWrites_outside wf0 ?_ ?_)
    · exact fun p hp => (List.mem_filterMap.1 hp).elim fun j hj => scatLane_inScratch hk hfit hj.2
    · intro p hp
      obtain ⟨j, hj, hjp⟩ := List.mem_filterMap.1 hp
      obtain ⟨f, hf, rfl⟩ := scatLane_eq_some hjp
      obtain ⟨hj, hjact⟩ := List.mem_filter.1 hj
      have := ha j f (List.mem_range.1 hj) hjact hf
      rw [leBytes_length, ← scrAddr_add]
      exact this

end

/- Scatters into cells. -/

/-- What VSCADD does to the cell that lane l addresses. -/
def State.addCell (s : State) (n : Nat) (T : TSlot) (ix : Nat → Option Nat) (v : List W32) (l : Nat) : State :=
  match ix l with
  | some e => s.scrWrite n (T.elem * 64 + 64 * e) ((XCell.ofBytes (s.scrRead n (T.elem * 64 + 64 * e) 64)).addLane (lane v l)).toBytes
  | none => s

section

variable {T : TSlot} {ix : Nat → Option Nat} (v : List W32) (hlt : ∀ l e, ix l = some e → e < T.dim) (hfit : T.elem * 64 + 64 * T.dim ≤ 2 ^ 21)

theorem touches_addCell (s : State) (n : Nat) (T : TSlot) (ix : Nat → Option Nat) (v : List W32) (l : Nat) : Touches [.scratch] s (s.addCell n T ix v l) := by
  unfold State.addCell
  split
  · exact touches_scrWrite ..
  · exact .refl

theorem wf_addCell {s : State} (wf : Memory.wf s.scratch = true) (n : Nat) (T : TSlot) (ix : Nat → Option Nat) (v : List W32) (l : Nat) :
    Memory.wf (s.addCell n T ix v l).scratch = true := by
  unfold State.addCell
  split
  · exact State.wf_scrWrite wf
  · exact wf

include hlt hfit

/-- A lane adds to the cell it addresses and leaves the other cells. -/
theorem cell_addCell {s : State} (wf : Memory.wf s.scratch = true) (l : Nat) {e : Nat} (he : e < T.dim) :
    XCell.ofBytes ((s.addCell n T ix v l).scrRead n (T.elem * 64 + 64 * e) 64) =
      if ix l = some e then (XCell.ofBytes (s.scrRead n (T.elem * 64 + 64 * e) 64)).addLane (lane v l) else XCell.ofBytes (s.scrRead n (T.elem * 64 + 64 * e) 64) := by
  obtain ⟨he1, he2⟩ := element_inScratch (k := 64) (by decide) hfit he
  unfold State.addCell
  split
  · next f hf =>
    obtain ⟨hf1, hf2⟩ := element_inScratch (k := 64) (by decide) hfit (hlt l f hf)
    have hlen (c : XCell) : T.elem * 64 + 64 * f + c.toBytes.length ≤ 2 ^ 21 := by rw [XCell.length_toBytes]; exact hf2
    by_cases hef : f = e
    · subst hef
      rw [if_pos hf, State.scrRead_scrWrite_same wf hf1 (hlen _) (XCell.length_toBytes _), XCell.ofBytes_toBytes (XCell.countFits_addLane ..)]
    · rw [if_neg (fun h => hef (Option.some.inj (hf.symm.trans h))), State.scrRead_scrWrite_disjoint wf hf1 (hlen _) he1]
      have := element_disjoint 64 hef
      rw [XCell.length_toBytes]
      omega
  · next hf => rw [if_neg (by rw [hf]; nofun)]

/-- Lanes that add in order leave in a cell the sum of those that address it. -/
theorem cell_foldl_addCell (L : List Nat) {s : State} (wf : Memory.wf s.scratch = true) {e : Nat} (he : e < T.dim) :
    XCell.ofBytes ((L.foldl (fun s l => s.addCell n T ix v l) s).scrRead n (T.elem * 64 + 64 * e) 64) =
      (L.filter fun l => decide (ix l = some e)).foldl (fun c l => c.addLane (lane v l)) (XCell.ofBytes (s.scrRead n (T.elem * 64 + 64 * e) 64)) := by
  induction L generalizing s with
  | nil => rfl
  | cons l L ih =>
    rw [List.foldl_cons, ih (wf_addCell wf ..), cell_addCell v hlt hfit wf l he, List.filter_cons]
    by_cases h : ix l = some e
    · rw [if_pos h, decide_eq_true h, if_pos rfl, List.foldl_cons]
    · rw [if_neg h, decide_eq_false h, if_neg Bool.false_ne_true]

theorem memGet_foldl_addCell (L : List Nat) {s : State} (wf : Memory.wf s.scratch = true) {a : Nat}
    (ha : ∀ l ∈ L, ∀ e, ix l = some e → a < scrAddr n (T.elem * 64 + 64 * e) ∨ scrAddr n (T.elem * 64 + 64 * e + 64) ≤ a) :
    memGet (L.foldl (fun s l => s.addCell n T ix v l) s).scratch a = memGet s.scratch a := by
  induction L generalizing s with
  | nil => rfl
  | cons l L ih =>
    obtain ⟨hl, hL⟩ := List.forall_mem_cons.1 ha
    rw [List.foldl_cons, ih (wf_addCell wf ..) hL, State.addCell]
    split
    · next e he =>
      obtain ⟨he1, he2⟩ := element_inScratch (k := 64) (by decide) hfit (hlt l e he)
      have := hl e he
      rw [scrAddr_add n (T.elem * 64 + 64 * e) 64] at this
      rw [State.memGet_scrWrite wf he1 (by rw [XCell.length_toBytes]; exact he2), XCell.length_toBytes, if_neg (by omega)]
    · rfl

end

theorem execVscadd_adds {scr oc : Nat} (h : VecAt s n t m w) (hcls : vCls w = 8) (hop : vOp w = 2) {T : TSlot}
    (hT : m.tslot (vSlot w / 2) = T) (hx : T.exact = true) :
    exec (.vscadd n t scr oc []) s = .next (((((s.strand n t).lanes w).foldl (fun u l => u.addCell n T ((s.strand n t).element w T) ((s.strand n t).srcB m w) l)
      (s.scatCounted n scr oc ((s.strand n t).elementLines w T))).vecOob n true ((s.strand n t).outside w T)).onStrand n t Strand.adv) := by
  change execVscadd n t scr oc [] s = _
  rw [execVscadd, vecRun_of_vecAt h hcls hop]
  simp only [State.bump_strand, hT, hx, Bool.not_true, Bool.false_eq_true, if_false, State.scrEventsAt_nil]
  rfl

theorem execVscadd_slot {scr oc : Nat} (h : VecAt s n t m w) (hcls : vCls w = 8) (hop : vOp w = 2) (wf : Memory.wf s.scratch = true) {T : TSlot}
    (hT : m.tslot (vSlot w / 2) = T) (hx : T.exact = true) (hfit : T.elem * 64 + 64 * T.dim ≤ 2 ^ 21) :
    ∃ u, exec (.vscadd n t scr oc []) s = .next u ∧ u.strand n t = strandNext (s.strand n t) ∧ u.hbm = s.hbm ∧
      (∀ e, (∃ l, l < 16 ∧ nbit ((s.strand n t).pred (vPg w)) l = true ∧ (s.strand n t).element w T l = some e) →
        XCell.ofBytes (u.scrRead n (T.elem * 64 + 64 * e) 64) =
          ((List.range 16).filter fun l => nbit ((s.strand n t).pred (vPg w)) l && decide ((s.strand n t).element w T l = some e)).foldl
            (fun c l => c.addLane (lane ((s.strand n t).srcB m w) l)) (XCell.ofBytes (s.scrRead n (T.elem * 64 + 64 * e) 64))) ∧
      (∀ a, (∀ l e, l < 16 → nbit ((s.strand n t).pred (vPg w)) l = true → (s.strand n t).element w T l = some e →
          a < scrAddr n (T.elem * 64 + 64 * e) ∨ scrAddr n (T.elem * 64 + 64 * e + 64) ≤ a) →
        memGet u.scratch a = memGet s.scratch a) := by
  have hlt : ∀ l e, (s.strand n t).element w T l = some e → e < T.dim := fun l e => Strand.element_lt
  have hexec := execVscadd_adds (scr := scr) (oc := oc) h hcls hop hT hx
  have hcount := touches_scatCounted s n scr oc ((s.strand n t).elementLines w T)
  generalize s.scatCounted n scr oc ((s.strand n t).elementLines w T) = a0 at hexec hcount
  have wf0 : Memory.wf a0.scratch = true := by rw [hcount.scratch_eq, wf]
  have hw : Touches [.scratch] a0 (((s.strand n t).lanes w).foldl (fun u l => u.addCell n T ((s.strand n t).element w T) ((s.strand n t).srcB m w) l) a0) :=
    .foldl .refl fun _ _ => touches_addCell ..
  have hcell (e : Nat) (he : e < T.dim) := cell_foldl_addCell (n := n) ((s.strand n t).srcB m w) hlt hfit ((s.strand n t).lanes w) wf0 he
  have hmem (a : Nat) := memGet_foldl_addCell (n := n) (a := a) ((s.strand n t).srcB m w) hlt hfit ((s.strand n t).lanes w) wf0
  generalize ((s.strand n t).lanes w).foldl (fun u l => u.addCell n T ((s.strand n t).element w T) ((s.strand n t).srcB m w) l) a0 = b at hexec hw hcell hmem
  have hov := touches_vecOob b n true ((s.strand n t).outside w T)
  refine ⟨_, hexec, ?_, hov.hbm_eq.trans (hw.hbm_eq.trans hcount.hbm_eq), fun e he => ?_, fun a ha => ?_⟩
  · rw [State.strand_onStrand, hov.strand_eq, hw.strand_eq, hcount.strand_eq]
    rfl
  · obtain ⟨l, -, -, hle⟩ := he
    rw [State.scrRead_onStrand, State.scrRead_vecOob, hcell e (hlt l e hle), Strand.lanes, List.filter_filter]
    simp only [State.scrRead, hcount.scratch_eq, Bool.and_comm, Strand.active]
  · refine (congrArg (memGet · a) hov.scratch_eq).trans ((hmem a fun l hl e he => ?_).trans (by rw [hcount.scratch_eq]))
    obtain ⟨hl, hact⟩ := List.mem_filter.1 hl
    exact ha l e (List.mem_range.1 hl) hact he

/-- Settles O25: a gather lane by lane, and scatters as the writes of their lanes in order. -/
theorem vectorGather : Obligations.VectorGather := by
  unfold Obligations.VectorGather
  intro s n t m w scr oc h hcls wf x T ix act
  refine ⟨fun hop => execVgath_loads h hcls hop, fun hop hx k code hcode hfit => ?_, fun hop hx hfit => ?_⟩
  · exact execVscat_slot h hcls hop wf rfl hx hcode hfit
  · exact execVscadd_slot h hcls hop wf rfl hx hfit

end Sys2Proof.Machine
end

section
/-! PROOFS. Launches of the vector engine: acceptance, rejection and completion (07 R177–R179). Settles O26. -/
set_option Elab.async false -- elaborate in order: side threads each hold a stack of their own

namespace Sys2Proof.Machine

variable {s : State} {n : Nat}

/- A launch that completes. -/

theorem State.vec_complete (s : State) (n : Nat) (m : OpMsg) : ((s.complete n m).core n).vec = (s.core n).vec := by
  unfold State.complete
  split
  · rfl
  · rw [State.core_onCore_same]

theorem State.vec_launchDone (s : State) (n : Nat) (m : OpMsg) : ((s.launchDone n m).core n).vec = (s.core n).vec := by
  rw [State.launchDone, State.vec_complete, State.core_onCore_same]

/-- The control core sees a launch complete: its tag is no longer in flight and its results are readable. -/
theorem State.cc_launchDone (s : State) (n : Nat) {m : OpMsg} (h : m.reissue = false) :
    (∀ o ∈ ((s.launchDone n m).core n).cc.inFlight, o.tag ≠ m.tag) ∧ (∀ r ∈ ((s.launchDone n m).core n).cc.results, r.tag = m.tag → r.done = true) := by
  rw [State.launchDone, State.complete, if_neg (by rw [h]; decide), State.core_onCore_same, State.core_onCore_same]
  refine ⟨fun o ho => of_decide_eq_true (List.mem_filter.1 ho).2, fun r hr htag => ?_⟩
  obtain ⟨q, -, rfl⟩ := List.mem_map.1 hr
  split at htag
  · next hq => rw [if_pos hq]
  · next hq => exact absurd htag hq

/- Acceptance and rejection. -/

theorem exec_vlaunch {m : OpMsg} {rest : List OpMsg} (hn : n < 384) (hin : (s.core n).vec.inbox = m :: rest) :
    exec (.vlaunch n) s = .next (match launchBad (s.core n) (s.ringSize n) m with
      | some code => ((((s.onVec n fun v => { v with inbox := rest }).bump (coreR .VEC_REJECT_TOTAL n) 1).raiseDetail (coreR .VEC_ERR_DETAIL n)
          (vecDetail code 0 0 m.idx) (.core n) (if code = 1 then 0 else 7)
          (((s.onVec n fun v => { v with inbox := rest }).ctxOf n))).markRejected.launchDone n m)
      | none => s.onVec n fun v => { v with inbox := rest, queue := v.queue ++ [{ msg := m, pend := m.strands, ended := [], qops := 0 }] }) := by
  change execVlaunch n s = _
  rw [execVlaunch, decide_eq_true hn, guardPart, if_pos rfl, hin] <;> rfl

theorem vlaunch_rejected {m : OpMsg} {rest : List OpMsg} (hn : n < 384) (hin : (s.core n).vec.inbox = m :: rest) {code : Nat}
    (hbad : launchBad (s.core n) (s.ringSize n) m = some code) :
    ∃ t, exec (.vlaunch n) s = .next t ∧ (t.core n).vec.inbox = rest ∧ (t.core n).vec.queue = (s.core n).vec.queue ∧ t.step.rejected = true ∧
      t.reg (coreR .VEC_REJECT_TOTAL n) = satAdd (s.reg (coreR .VEC_REJECT_TOTAL n)) 1 := by
  have hexec := exec_vlaunch hn hin
  rw [hbad] at hexec
  dsimp only at hexec
  generalize hc : (if code = 1 then 0 else 7) = cause at hexec
  generalize hv : s.onVec n (fun v => { v with inbox := rest }) = v at hexec
  have hvec : (v.core n).vec = { (s.core n).vec with inbox := rest } := by
    rw [← hv, State.onVec, State.core_onCore_same]
  have hreg : v.reg (coreR .VEC_REJECT_TOTAL n) = s.reg (coreR .VEC_REJECT_TOTAL n) := by rw [← hv]; rfl
  have hraised := touches_raiseDetail (v.bump (coreR .VEC_REJECT_TOTAL n) 1) (coreR .VEC_ERR_DETAIL n) (vecDetail code 0 0 m.idx) (.core n) cause (v.ctxOf n)
  have hregs : RegsWithin (.VEC_ERR_DETAIL :: causeNames) (v.bump (coreR .VEC_REJECT_TOTAL n) 1)
      ((v.bump (coreR .VEC_REJECT_TOTAL n) 1).raiseDetail (coreR .VEC_ERR_DETAIL n) (vecDetail code 0 0 m.idx) (.core n) cause (v.ctxOf n)) :=
    (regsWithin_raise ..).step (L := .VEC_ERR_DETAIL :: causeNames) (regsWithin_detail ..).mono
  generalize (v.bump (coreR .VEC_REJECT_TOTAL n) 1).raiseDetail (coreR .VEC_ERR_DETAIL n) (vecDetail code 0 0 m.idx) (.core n) cause (v.ctxOf n) = u
    at hexec hraised hregs
  have huvec : (u.markRejected.core n).vec = { (s.core n).vec with inbox := rest } := by
    change (u.core n).vec = _
    rw [hraised.core_eq, (touches_bump ..).core_eq, hvec]
  refine ⟨_, hexec, ?_, ?_, ?_, ?_⟩
  · rw [State.vec_launchDone, huvec]
  · rw [State.vec_launchDone, huvec]
  · rw [(touches_launchDone ..).step_eq]
    rfl
  · rw [(touches_launchDone ..).reg_eq]
    change u.reg _ = _
    rw [hregs.reg_eq _ (show RegName.VEC_REJECT_TOTAL ∉ _ by decide), State.reg_bump, if_neg (by decide), hreg]

/- Completion. -/

/-- A core with no tile record leaves nothing to end. -/
theorem State.vecTileEnd_of_empty (s : State) (site tile epoch : Nat) (hin : (s.core n).ec.inbox = []) (ht : (s.core n).ec.tiles = []) :
    s.vecTileEnd n site tile epoch = s := by
  unfold State.vecTileEnd
  simp only [hin, ht, List.reverse_nil, List.findIdx?_nil, List.find?_nil]

theorem launchComplete_completes {l : Launch} {rest : List Launch} (hn : n < 384) (hq : (s.core n).vec.queue = l :: rest) (hops : l.qops = 0)
    (hend : ∀ t ∈ l.msg.strands, t ∈ l.ended) (hin : (s.core n).ec.inbox = []) (ht : (s.core n).ec.tiles = []) (hre : l.msg.reissue = false) :
    ∃ t, exec (.launchComplete n) s = .next t ∧ (t.core n).vec.queue = rest ∧
      (∀ o ∈ (t.core n).cc.inFlight, o.tag ≠ l.msg.tag) ∧ (∀ r ∈ (t.core n).cc.results, r.tag = l.msg.tag → r.done = true) := by
  have hfind : ((s.core n).vec.queue.find? fun l => l.qops = 0 ∧ l.msg.strands.all l.ended.contains) = some l := by
    rw [hq, List.find?_cons_of_pos]
    refine decide_eq_true ⟨hops, List.all_eq_true.2 fun t ht => ?_⟩
    exact List.contains_iff_mem.2 (hend t ht)
  have hec (f : Vector16 → Vector16) : ((s.onVec n f).core n).ec = (s.core n).ec := by rw [State.onVec, State.core_onCore_same]
  have hexec : exec (.launchComplete n) s = .next ((s.onVec n fun v => { v with queue := v.queue.erase l }).launchDone n l.msg) := by
    change execLaunchComplete n s = _
    rw [execLaunchComplete, decide_eq_true hn, guardPart, if_pos rfl, hfind]
    have htile (site tile epoch : Nat) : (s.onVec n fun v => { v with queue := v.queue.erase l }).vecTileEnd n site tile epoch =
        s.onVec n fun v => { v with queue := v.queue.erase l } := State.vecTileEnd_of_empty _ _ _ _ (by rw [hec, hin]) (by rw [hec, ht])
    simp only [List.foldl_cons, List.foldl_nil, htile]
  refine ⟨_, hexec, ?_, State.cc_launchDone _ _ hre⟩
  rw [State.vec_launchDone, State.onVec, State.core_onCore_same, hq]
  exact List.erase_cons_head ..

/-- Settles O26. -/
theorem vectorLaunches : Obligations.VectorLaunches := by
  unfold Obligations.VectorLaunches
  refine ⟨fun s n m rest hn hin => ⟨fun hok => ?_, fun code hbad => vlaunch_rejected hn hin hbad⟩,
    fun s n l rest hn hq hops hend hin ht hre => launchComplete_completes hn hq hops hend hin ht hre⟩
  have hexec := exec_vlaunch hn hin
  rw [hok] at hexec
  exact hexec

end Sys2Proof.Machine
end

section
/-! PROOFS. Test ports (03 R89, 05 R150), and what the error-control unit takes: damage records and layer bounds (06 R152, R170). Settles O17 and O18. -/
set_option Elab.async false -- elaborate in order: side threads each hold a stack of their own

namespace Sys2Proof.Machine

open Host Claims

/- Test ports. -/

/-- An input written to the ravel test port: it stands in its register, and VALID is clear. -/
theorem State.ravelInput_reg (s : State) {core : Nat} {n : RegName} (v : W64) (hn : n ≠ .RAVEL_TEST_RESULT) :
    (s.ravelInput core n v).reg (coreR n core) = v ∧ bit ((s.ravelInput core n v).reg (coreR .RAVEL_TEST_RESULT core)) 32 = false := by
  have hne : coreR n core ≠ coreR .RAVEL_TEST_RESULT core := by simp [coreR, rid, hn]
  unfold State.ravelInput
  constructor
  · rw [State.reg_setRegFld_ne _ _ _ _ _ _ hne, State.reg_setReg_same]
  · rw [State.reg_setRegFld_same]
    exact bit_setFld_zero (by decide) _

theorem exec_ravelTestIndex {s u : State} {core : Nat} {v : W64} (hc : core < 384) (hu : s.ravelInput core .RAVEL_TEST_INDEX (w64 (fld v 47 0)) = u) :
    exec (.ravelTestIndex core v) s = .next (u.onQnt core fun q => { q with testRun := true }) := by
  change execRavelTestIndex core v s = _
  rw [execRavelTestIndex, decide_eq_true hc, guardPart, if_pos rfl, hu]

theorem ravelTestIndex_starts (s : State) {core : Nat} (v : W64) (hc : core < 384) : ∃ t, exec (.ravelTestIndex core v) s = .next t ∧
    (t.core core).qnt.testRun = true ∧ t.reg (coreR .RAVEL_TEST_INDEX core) = w64 (fld v 47 0) ∧ bit (t.reg (coreR .RAVEL_TEST_RESULT core)) 32 = false := by
  obtain ⟨hindex, hvalid⟩ := s.ravelInput_reg (core := core) (n := .RAVEL_TEST_INDEX) (w64 (fld v 47 0)) (by decide)
  have hreg := (touches_onQnt (s.ravelInput core .RAVEL_TEST_INDEX (w64 (fld v 47 0))) core fun q => { q with testRun := true }).reg_eq
  refine ⟨_, exec_ravelTestIndex hc rfl, ?_, ?_, ?_⟩
  · rw [State.onQnt, State.core_onCore_same]
  · exact (hreg _).trans hindex
  · exact (congrArg (bit · 32) (hreg _)).trans hvalid

theorem ravelTestDone_ends {s : State} {core : Nat} (hc : core < 384) (h : (s.core core).qnt.testRun = true) :
    let g (n : RegName) : Nat := (s.reg (coreR n core)).toNat
    ∃ t, exec (.ravelTestDone core) s = .next t ∧ (t.core core).qnt.testRun = false ∧
      t.reg (coreR .RAVEL_TEST_RESULT core) = w64 (2 ^ 32 + (ravel (g .RAVEL_TEST_SEED_LO + g .RAVEL_TEST_SEED_HI * 2 ^ 64)
        (g .RAVEL_TEST_STEP) (g .RAVEL_TEST_STREAM) (g .RAVEL_TEST_INDEX)).toNat) := by
  intro g
  generalize hr : w64 (2 ^ 32 + (ravel (g .RAVEL_TEST_SEED_LO + g .RAVEL_TEST_SEED_HI * 2 ^ 64) (g .RAVEL_TEST_STEP) (g .RAVEL_TEST_STREAM) (g .RAVEL_TEST_INDEX)).toNat) = r
  have hexec : exec (.ravelTestDone core) s = .next ((s.setReg (coreR .RAVEL_TEST_RESULT core) r).onQnt core fun q => { q with testRun := false }) := by
    change execRavelTestDone core s = _
    rw [execRavelTestDone, decide_eq_true hc, guardPart, if_pos rfl, if_pos h, ← hr]
  refine ⟨_, hexec, ?_, State.reg_setReg_same ..⟩
  rw [State.onQnt, State.core_onCore_same]

/-- Settles O18. -/
theorem testPorts : Obligations.TestPorts := by
  unfold Obligations.TestPorts
  refine ⟨fun s core ply hc hp => ⟨fun h => ?_, fun h => ?_⟩, fun s core sel v hc hs => ?_, fun s core v hc => ravelTestIndex_starts s v hc,
    fun s core hc h => ravelTestDone_ends hc h⟩
  · change execResidueInject core ply s = _
    rw [execResidueInject, decide_eq_true hc, decide_eq_true hp, guardPart, Bool.and_self, if_pos rfl, State.residueInject, if_pos h]
    rfl
  · have hexec : ∃ addr, exec (.residueInject core ply) s = .next (s.decodeError true addr) := by
      refine ⟨0x021000000000 + coreDie core * 0x1000000000 + coreCluster core * 2 ^ 24 + coreIdx core * 2 ^ 20 + 0x10210 + ply * 0x4000, ?_⟩
      change execResidueInject core ply s = _
      rw [execResidueInject, decide_eq_true hc, decide_eq_true hp, guardPart, Bool.and_self, if_pos rfl, State.residueInject, if_neg (by simp [h])]
    obtain ⟨addr, hexec⟩ := hexec
    exact ⟨_, hexec, State.bit_status_raised _ .module (by decide) ..⟩
  · change execRavelTestInput core sel v s = _
    rw [execRavelTestInput, decide_eq_true hc, decide_eq_true hs, guardPart, Bool.and_self, if_pos rfl]
    rfl

/- Damage records. -/

/-- The record's guard is at another epoch (06 R162). -/
def Core.staleRecord (c : Core) (m : DamageMsg) : Prop := ∃ g gs, m.guard = some g ∧ c.ec.guards[g]? = some gs ∧ gs.epoch ≠ m.epoch

/-- The unit's oldest record taken. -/
def State.recordTaken (s : State) (core : Nat) (rest : List DamageMsg) : State := s.onEc core fun e => { e with inbox := rest }

theorem State.core_recordTaken (s : State) (core : Nat) (rest : List DamageMsg) :
    (s.recordTaken core rest).core core = { s.core core with ec := { (s.core core).ec with inbox := rest } } := by
  rw [State.recordTaken, State.onEc, State.core_onCore_same]

theorem exec_damageRecord {s : State} {core : Nat} {m : DamageMsg} {rest : List DamageMsg} (hc : core < 384) (hin : (s.core core).ec.inbox = m :: rest) {stale : Bool}
    (hs : stale = true ↔ (s.core core).staleRecord m) :
    exec (.damageRecord core) s = .next (if stale then (s.recordTaken core rest).dropKeeps core fun k => m.keep = some k
      else ((s.recordTaken core rest).ecRecord core m).ecPoll core) := by
  have hstale : (match m.guard with
      | none => false
      | some g => match (s.core core).ec.guards[g]? with
        | none => false
        | some gs => decide (gs.epoch ≠ m.epoch)) = stale := by
    rw [Bool.eq_iff_iff, hs, Core.staleRecord]
    cases hg : m.guard with
    | none => simp
    | some g => cases hgs : (s.core core).ec.guards[g]? <;> simp [hgs]
  change execDamageRecord core s = _
  rw [execDamageRecord, decide_eq_true hc, guardPart, if_pos rfl, hin]
  have hguards : ((s.recordTaken core rest).core core).ec.guards = (s.core core).ec.guards := by rw [State.core_recordTaken]
  rw [← hstale, ← hguards] <;> rfl

theorem damageRecord_stale {s : State} {core : Nat} {m : DamageMsg} {rest : List DamageMsg} (hc : core < 384) (hin : (s.core core).ec.inbox = m :: rest)
    (hs : (s.core core).staleRecord m) :
    exec (.damageRecord core) s = .next (s.setCore core { s.core core with
      ec := { (s.core core).ec with inbox := rest }
      qnt := { (s.core core).qnt with keeps := (s.core core).qnt.keeps.filter fun k => decide (m.keep ≠ some k) } }) := by
  rw [exec_damageRecord (stale := true) hc hin (by simp [hs]), if_pos rfl, State.dropKeeps, State.onCore, State.core_recordTaken]
  refine congrArg Outcome.next ((State.setCore_setCore ..).trans ?_)
  simp only [decide_not]

theorem damageRecord_joins {s : State} {core : Nat} {m : DamageMsg} {rest : List DamageMsg} (hc : core < 384) (hin : (s.core core).ec.inbox = m :: rest)
    (hs : ¬ (s.core core).staleRecord m) : exec (.damageRecord core) s = .next (((s.recordTaken core rest).ecRecord core m).ecPoll core) := by
  rw [exec_damageRecord (stale := false) hc hin (by simp [hs]), if_neg Bool.false_ne_true]

/-- With no guards there is nothing to decide. -/
theorem State.ecPoll_of_no_guards {s : State} {core : Nat} (h : (s.core core).ec.guards = []) : s.ecPoll core = s := by
  have go (l : List Nat) : l.foldl (fun s gi => match (s.core core).ec.guards[gi]? with
      | none => s
      | some g => if s.ecReady core g then s.ecDecide core gi g else s) s = s := by
    induction l with
    | nil => rfl
    | cons gi l ih =>
      rw [List.foldl_cons, h, List.getElem?_nil]
      exact ih
  exact go _

/-- What a record that joins its tile leaves. -/
structure RecordJoined (s : State) (core : Nat) (m : DamageMsg) (t : State) : Prop where
  inbox : (t.core core).ec.inbox = (s.core core).ec.inbox
  layers : (t.core core).ec.layers = (s.core core).ec.layers
  guards : (t.core core).ec.guards = (s.core core).ec.guards
  tile : ∃ r ∈ (t.core core).ec.tiles, r.site = m.site ∧ r.tile = m.tile ∧ r.epoch = m.epoch ∧ m ∈ r.parts ∧ (m.last = true → r.judged.isSome = true)

theorem RecordJoined.of_core {s t u : State} {core : Nat} {m : DamageMsg} (h : RecordJoined s core m t) (e : u.core core = t.core core) : RecordJoined s core m u :=
  ⟨by rw [e, h.inbox], by rw [e, h.layers], by rw [e, h.guards], by rw [e]; exact h.tile⟩

/-- The tile's record with the message added. -/
def Core.joined (c : Core) (m : DamageMsg) : TileRec :=
  match c.ec.tiles.find? fun t => t.site = m.site ∧ t.tile = m.tile ∧ t.epoch = m.epoch with
  | some t => { t with dmg := t.dmg.add m.dmg, accTrunc := min (t.accTrunc + m.accTrunc) 0xFFFF
                       accSat := min (t.accSat + m.accSat) 0xFFFF, parts := t.parts ++ [m] }
  | none => { site := m.site, tile := m.tile, epoch := m.epoch, dmg := m.dmg, accTrunc := m.accTrunc, accSat := m.accSat
              parts := [m], guard := m.guard, judged := none }

theorem Core.joined_of (c : Core) (m : DamageMsg) : (c.joined m).site = m.site ∧ (c.joined m).tile = m.tile ∧ (c.joined m).epoch = m.epoch ∧ m ∈ (c.joined m).parts := by
  unfold Core.joined
  split
  · next t ht =>
    have hfound := List.find?_some ht
    obtain ⟨hsite, htile, hepoch⟩ := of_decide_eq_true hfound
    exact ⟨hsite, htile, hepoch, List.mem_append_right _ List.mem_cons_self⟩
  · exact ⟨rfl, rfl, rfl, List.mem_cons_self⟩

/-- A tile record put into its unit. -/
theorem recordJoined_put (s : State) (core : Nat) {m : DamageMsg} {r : TileRec} (rest : List TileRec) (hsite : r.site = m.site) (htile : r.tile = m.tile)
    (hepoch : r.epoch = m.epoch) (hm : m ∈ r.parts) (hl : m.last = true → r.judged.isSome = true) :
    RecordJoined s core m (s.onEc core fun e => { e with tiles := rest ++ [r] }) := by
  have hcore : (s.onEc core fun e => { e with tiles := rest ++ [r] }).core core = { s.core core with ec := { (s.core core).ec with tiles := rest ++ [r] } } := by
    rw [State.onEc, State.core_onCore_same]
  refine ⟨by rw [hcore], by rw [hcore], by rw [hcore], r, ?_, hsite, htile, hepoch, hm, hl⟩
  rw [hcore]
  exact List.mem_append_right _ List.mem_cons_self

theorem recordJoined_ecRecord (s : State) (core : Nat) (m : DamageMsg) : RecordJoined s core m (s.ecRecord core m) := by
  obtain ⟨hsite, htile, hepoch, hm⟩ := (s.core core).joined_of m
  have hput (r : TileRec) (rest : List TileRec) (j : Option Nat) (hr : r = { (s.core core).joined m with judged := j }) (hl : m.last = true → j.isSome = true) :
      RecordJoined s core m (s.onEc core fun e => { e with tiles := rest ++ [r] }) := by
    subst hr
    exact recordJoined_put s core rest hsite htile hepoch hm hl
  have hbump (t : State) (k : Nat) (n : RegName) (h : RecordJoined s core m t) : RecordJoined s core m (t.bump (coreR n core) k) :=
    h.of_core ((touches_bump ..).core_eq core)
  unfold State.ecRecord
  extract_lets c old t rest put
  have ht : t = (s.core core).joined m := rfl
  split
  · next hlast =>
    exact hput t rest t.judged (by rw [ht]) fun h => by rw [h] at hlast; cases hlast
  · split
    · exact hput _ rest (some 0) (by rw [ht]) fun _ => rfl
    · next n hn =>
      extract_lets b s1
      have h1 : RecordJoined s core m s1 := hbump _ _ _ (hput _ rest (some b) (by rw [ht]) fun _ => rfl)
      split
      · exact h1
      · exact hbump _ _ _ h1

theorem damageRecord_unguarded {s : State} {core : Nat} {m : DamageMsg} {rest : List DamageMsg} (hc : core < 384) (hin : (s.core core).ec.inbox = m :: rest)
    (hs : ¬ (s.core core).staleRecord m) (hg : (s.core core).ec.guards = []) :
    ∃ t r, exec (.damageRecord core) s = .next t ∧ (t.core core).ec.inbox = rest ∧
      (t.core core).ec.layers = (s.core core).ec.layers ∧ r ∈ (t.core core).ec.tiles ∧ r.site = m.site ∧ r.tile = m.tile ∧ r.epoch = m.epoch ∧
      m ∈ r.parts ∧ (m.last = true → r.judged.isSome = true) ∧ t.hbm = s.hbm ∧ t.scratch = s.scratch ∧ t.knots = s.knots := by
  have hjoin := recordJoined_ecRecord (s.recordTaken core rest) core m
  have hk := touches_ecRecord (s.recordTaken core rest) core m
  have htaken : Touches [.cores] s (s.recordTaken core rest) := touches_onEc ..
  have hexec := damageRecord_joins hc hin hs
  rw [State.ecPoll_of_no_guards (by rw [hjoin.guards, State.core_recordTaken, hg])] at hexec
  obtain ⟨r, hr, hsite, htile, hepoch, hm, hl⟩ := hjoin.tile
  refine ⟨_, r, hexec, ?_, ?_, hr, hsite, htile, hepoch, hm, hl, hk.hbm_eq.trans htaken.hbm_eq, hk.scratch_eq.trans htaken.scratch_eq, hk.knots_eq.trans htaken.knots_eq⟩
  · rw [hjoin.inbox, State.core_recordTaken]
  · rw [hjoin.layers, State.core_recordTaken]

/- Layer bounds. -/

/-- The bounds that a write gives a layer keep the limits of its section, and the module is HELD (06 R170). -/
def State.boundOk (s : State) (v : W64) (l : EcLayer) : Prop :=
  s.isHeld = true ∧ fld v 2 1 ≤ fld v 4 3 ∧ fld v 4 3 ≤ fld (nth l.words 0 0) 4 3 ∧ fld (nth l.words 0 3) 1 0 ≤ fld v 2 1

theorem State.boundBad_iff (s : State) (v : W64) (l : EcLayer) :
    (!s.isHeld ∨ fld v 4 3 < fld v 2 1 ∨ fld (nth l.words 0 0) 4 3 < fld v 4 3 ∨ fld v 2 1 < fld (nth l.words 0 3) 1 0) ↔ ¬ s.boundOk v l := by
  rw [State.boundOk, Bool.not_eq_true', ← Bool.not_eq_true]
  simp only [Classical.not_and_iff_not_or_not, Nat.not_le]

theorem exec_ecLayerBound {core n : Nat} (hc : core < 384) (hn : n < 256) (s : State) (v : W64) : exec (.ecLayerBound core n v) s = .next (s.layerWrite core n v) := by
  change execEcLayerBound core n v s = _
  rw [execEcLayerBound, decide_eq_true hc, decide_eq_true hn, guardPart, Bool.and_self, if_pos rfl]

theorem sget_of_sfind {α : Type} {m : SMap α} {k : Nat} {v : α} (h : sfind m k = some v) (d : α) : sget m d k = v := by
  induction m with
  | nil => cases h
  | cons p m ih =>
    rw [sfind] at h
    rw [sget]
    split at h
    · next hk => rw [if_pos hk]; exact Option.some.inj h
    · next hk => rw [if_neg hk]; exact ih h

theorem ecLayerBound_set {s : State} {core n : Nat} {v : W64} {l : EcLayer} (hc : core < 384) (hn : n < 256) (hl : sfind (s.core core).ec.layers n = some l)
    (hok : s.boundOk v l) :
    exec (.ecLayerBound core n v) s = .next (s.setCore core { s.core core with ec := { (s.core core).ec with
      layers := sset (s.core core).ec.layers n { l with mode := fld v 0 0, start := fld v 2 1, ceil := fld v 4 3
                                                        rung := fld v 2 1, storm := 0, calm := 0, held := false } } }) := by
  rw [exec_ecLayerBound hc hn, State.layerWrite, State.layerBound]
  dsimp only
  rw [hl]
  dsimp only
  rw [if_neg (fun e => (s.boundBad_iff v l).1 e hok), State.onLayer, State.onEc, State.onCore, sget_of_sfind hl]

theorem ecLayerBound_refused {s : State} {core n : Nat} {v : W64} (hc : core < 384) (hn : n < 256)
    (h : ∀ l, sfind (s.core core).ec.layers n = some l → ¬ s.boundOk v l) :
    ∃ t, exec (.ecLayerBound core n v) s = .next t ∧ t.cores = s.cores ∧ bit (t.reg (rid .MODC_STATUS .module)) 0 = true := by
  have hexec : ∃ addr, exec (.ecLayerBound core n v) s = .next (s.decodeError true addr) := by
    rw [exec_ecLayerBound hc hn, State.layerWrite]
    generalize 0x021000000000 + coreDie core * 0x1000000000 + coreCluster core * 2 ^ 24 + coreIdx core * 2 ^ 20 = base
    refine ⟨base + 0x31000 + 8 * n, congrArg Outcome.next ?_⟩
    unfold State.layerBound
    dsimp only
    split
    · rfl
    · next l hl => exact if_pos ((s.boundBad_iff v l).2 (h l hl))
  obtain ⟨addr, hexec⟩ := hexec
  exact ⟨_, hexec, (touches_decodeError ..).cores_eq, State.bit_status_raised _ .module (by decide) ..⟩

/-- Settles O17. -/
theorem errorControlTakes : Obligations.ErrorControlTakes := by
  unfold Obligations.ErrorControlTakes
  refine ⟨?_, ?_⟩
  · intro s core m rest hc hin
    exact ⟨damageRecord_stale hc hin, damageRecord_joins hc hin, damageRecord_unguarded hc hin⟩
  · intro s core n v hc hn
    exact ⟨fun l hl hok => ecLayerBound_set hc hn hl hok, ecLayerBound_refused hc hn⟩

end Sys2Proof.Machine
end

section
/-! SUPPORT. What knot operations leave in the cores and Capstans (11 R288–R293). -/
set_option Elab.async false -- elaborate in order: side threads each hold a stack of their own

namespace Sys2Proof.Machine



/- Knot operations: a release changes a core's control core and a Capstan's released waits, and nothing else of either. -/

/-- From `s` to `t`, of the cores only control cores change, and of the Capstans only their released waits. -/
structure OnlyResumes (s t : State) : Prop where
  core : ∀ n, { t.core n with cc := (s.core n).cc } = s.core n
  cap : ∀ st, { t.cap st with released := (s.cap st).released } = s.cap st

namespace OnlyResumes

variable {s t u : State}

theorem refl : OnlyResumes s s := ⟨fun _ => rfl, fun _ => rfl⟩

theorem trans (h : OnlyResumes s t) (k : OnlyResumes t u) : OnlyResumes s u where
  core n := by rw [← h.core n, ← k.core n]
  cap st := by rw [← h.cap st, ← k.cap st]

theorem of_touches {F : List Field} (k : Touches F s t) (hc : Field.cores ∉ F := by decide) (hp : Field.caps ∉ F := by decide) : OnlyResumes s t where
  core n := by rw [k.core_eq n hc]
  cap st := by rw [State.cap, State.cap, k.caps_eq hp]

/-- Appends a part that touches neither cores nor Capstans. -/
theorem touch {F : List Field} (h : OnlyResumes s t) (k : Touches F t u) (hc : Field.cores ∉ F := by decide) (hp : Field.caps ∉ F := by decide) : OnlyResumes s u :=
  h.trans (of_touches k hc hp)

theorem ite {c : Prop} [Decidable c] (h : OnlyResumes s t) (k : OnlyResumes s u) : OnlyResumes s (if c then t else u) := by
  split
  · exact h
  · exact k

theorem foldl {α : Type} {f : State → α → State} (hf : ∀ t a, OnlyResumes t (f t a)) (l : List α) : OnlyResumes s t → OnlyResumes s (l.foldl f t) := by
  induction l generalizing t with
  | nil => exact id
  | cons a l ih => exact fun h => ih (h.trans (hf t a))

theorem plies (h : OnlyResumes s t) (n : Nat) : (t.core n).plies = (s.core n).plies := by rw [← h.core n]
theorem plyInbox (h : OnlyResumes s t) (n : Nat) : (t.core n).plyInbox = (s.core n).plyInbox := by rw [← h.core n]
theorem qnt (h : OnlyResumes s t) (n : Nat) : (t.core n).qnt = (s.core n).qnt := by rw [← h.core n]
theorem ec (h : OnlyResumes s t) (n : Nat) : (t.core n).ec = (s.core n).ec := by rw [← h.core n]
theorem updDone (h : OnlyResumes s t) (st : Nat) : (t.cap st).updDone = (s.cap st).updDone := by rw [← h.cap st]

end OnlyResumes

theorem onlyResumes_ccResume (s : State) (n : Nat) : OnlyResumes s (s.ccResume n) where
  core k := by
    rw [State.ccResume, State.core_onCore]
    split
    · next h => rw [h]
    · rfl
  cap _ := rfl

theorem onlyResumes_releaseSrc (s : State) (p : KnotPend) : OnlyResumes s (s.releaseSrc p) := by
  unfold State.releaseSrc
  split
  · exact onlyResumes_ccResume ..
  · next st i _ =>
    refine ⟨fun _ => rfl, fun k => ?_⟩
    rw [State.cap_onCap]
    split
    · next h => rw [h]
    · rfl
  · exact .refl

theorem onlyResumes_releaseWaits (s : State) (d phys : Nat) : OnlyResumes s (s.releaseWaits d phys) := by
  unfold State.releaseWaits
  exact OnlyResumes.foldl (fun t p => (OnlyResumes.refl.touch (touches_dropPend ..)).trans (onlyResumes_releaseSrc ..)) _ .refl

theorem onlyResumes_settle (n : Nat) (s : State) (d phys : Nat) : OnlyResumes s (State.settle n s d phys) := by
  induction n generalizing s with
  | zero => exact .refl
  | succ n ih =>
    have hwaits := onlyResumes_releaseWaits s d phys
    unfold State.settle
    dsimp only
    refine .ite ?_ ?_
    · split
      · exact hwaits
      · next p _ =>
        have hput := (hwaits.touch (touches_dropPend _ d p)).touch (touches_putKnot _ d phys false p.src.station)
        exact (OnlyResumes.trans (.ite (hput.touch (touches_bump ..)) hput) (onlyResumes_releaseSrc ..)).trans (ih _)
    · split
      · exact hwaits
      · next p _ =>
        have hput := (hwaits.touch (touches_dropPend _ d p)).touch (touches_putKnot _ d phys true p.src.station)
        exact ((hput.touch (touches_bump ..)).trans (onlyResumes_releaseSrc ..)).trans (ih _)

theorem onlyResumes_knotDo (s : State) (d c k : Nat) (src : KSrc) (op : KOp) : OnlyResumes s (s.knotDo d c k src op).1 := by
  have hput (b : Bool) (ph : Nat) : OnlyResumes s (s.putKnot d ph b src.station) := .of_touches (touches_putKnot ..)
  have hpend (p : KnotPend) : OnlyResumes s (s.addPend d p) := .of_touches (touches_addPend ..)
  have hbump {t : State} {id : RegId} (h : OnlyResumes s t) : OnlyResumes s (t.bump id 1) := h.touch (touches_bump ..)
  unfold State.knotDo
  extract_lets e ph unit barrier changes pend
  split
  · exact .refl
  split
  · exact .refl
  cases op with
  | tie =>
    dsimp only
    split
    · exact (hbump (hput ..)).trans (onlyResumes_settle ..)
    · split
      · exact hbump (hpend _)
      · exact hbump .refl
  | untie =>
    dsimp only
    split
    · exact (hput ..).trans (onlyResumes_settle ..)
    · split
      · exact hbump (hpend _)
      · exact hbump .refl
  | wait =>
    dsimp only
    split
    · exact .refl
    · exact hpend _
  | waitclr =>
    dsimp only
    split
    · exact hpend _
    · exact .refl
  | take =>
    dsimp only
    split
    · exact (hbump (hput ..)).trans (onlyResumes_settle ..)
    · exact hpend _

theorem onlyResumes_knotAct (s : State) (d c k : Nat) (src : KSrc) (op : KOp) : OnlyResumes s (s.knotAct d c k src op) := by
  have hdo := onlyResumes_knotDo s d c k src op
  unfold State.knotAct
  dsimp only
  split
  · exact hdo.touch (touches_knotError ..)
  · exact hdo.touch (touches_knotError ..)
  · exact hdo

theorem onlyResumes_flushBehind (n : Nat) (s : State) (d : Nat) : OnlyResumes s (State.flushBehind n s d) := by
  induction n generalizing s with
  | zero => exact .refl
  | succ n ih =>
    unfold State.flushBehind
    dsimp only
    split
    · exact .refl
    · exact ((OnlyResumes.of_touches (touches_setKnot ..)).trans (onlyResumes_knotAct ..)).trans (ih _)

theorem onlyResumes_knotUnit (s : State) (d c k : Nat) (src : KSrc) (op : KOp) : OnlyResumes s (s.knotUnit d c k src op) :=
  (onlyResumes_knotAct ..).trans (onlyResumes_flushBehind ..)

end Sys2Proof.Machine
end

section
/-! PROOFS. Microprograms, schedules and optimisers of the Capstan (08 R215–R236). Settles O32 and O33. -/
set_option Elab.async false -- elaborate in order: side threads each hold a stack of their own

namespace Sys2Proof.Machine

open Host Claims

/- Microprograms. -/

theorem mpFrozen_of_not_frozen {x : CapIn} {p : Nat} (h : nth x.frozen false p = false) (f : Nat) (outs : List (W32 × W32 × W32)) :
    mpFrozen x f p outs = (p, outs) := by
  cases f with
  | zero => rfl
  | succ f => rw [mpFrozen, h]; rfl

/-- A microprogram stands at its operation on a parameter that is not frozen. -/
structure MpAt (s : State) (st : Nat) (u : MpRun) (r : CapRec) (x : CapIn) : Prop where
  part : st < 8
  run : (s.cap st).mp = some u
  record : s.capRec? st u.rcd = some r
  read : s.capRead st r = .ok x
  more : u.p < r.n
  live : nth x.frozen false u.p = false

section
variable (s : State) (st : Nat) (u : MpRun) (r : CapRec) (x : CapIn)

/-- The operation that the program counter names. -/
def mpWord : W32 := nth (nth (s.cap st).mprogs [] r.mprog) 0 u.pc

/-- The registers with which an operation begins. -/
def mpRegs : List W32 :=
  if u.pc = 0 then [posWord (nth x.ws 0 u.p), nth x.ms 0 u.p, nth x.vs 0 u.p] ++ List.replicate 13 0 else u.regs

/-- The value of a source of the operation. -/
def mpSource (hi lo : Nat) : W32 :=
  mpSrc r (capScal r (BitVec.ofNat 32 (s.reg (capR .SCHED_ETA st r.sched)).toNat) s.logline) (posWord (nth x.ws 0 u.p)) (nth x.ms 0 u.p)
    (nth x.vs 0 u.p) (rmul u.c (nth x.gs 0 u.p)) (mpRegs u x) (bits (mpWord s st u r).toNat hi lo)
end

theorem execMp_operation {s : State} {st : Nat} {u : MpRun} {r : CapRec} {x : CapIn} (h : MpAt s st u r x) {op : Nat} (hop : op ≠ 0) (hpc : u.pc < 31)
    (hw : mpOp (mpWord s st u r) = op) :
    execMp op st s = .next (s.onCap st fun c => { c with
      mp := some { u with
        pc := u.pc + 1
        regs := (mpRegs u x).set (mpD (mpWord s st u r)) (mpResult op (mpSource s st u r x 22 17) (mpSource s st u r x 16 11) (mpSource s st u r x 10 5)) } }) := by
  obtain ⟨hst, hrun, hrec, hread, hmore, hlive⟩ := h
  rw [mpWord] at hw
  rw [execMp, decide_eq_true hst, guardPart, if_pos rfl]
  dsimp only
  rw [hrun]
  simp only [hrec, hread, mpFrozen_of_not_frozen hlive, if_pos (show u.pc < 32 by omega), if_neg (Nat.not_le.2 hmore), hw, ne_eq, not_true,
    if_false, hop, not_false_eq_true, hpc, and_self, if_true]
  rfl

theorem execMp_end {s : State} {st : Nat} {u : MpRun} {r : CapRec} {x : CapIn} (h : MpAt s st u r x) (hpc : u.pc < 32)
    (hw : mpOp (mpWord s st u r) = 0) (hnext : u.p + 1 < r.n) (hlive : nth x.frozen false (u.p + 1) = false) :
    execMp 0 st s = .next (s.onCap st fun c => { c with
      mp := some { u with p := u.p + 1, pc := 0, regs := [], outs := (nth (mpRegs u x) 0 0, nth (mpRegs u x) 0 1, nth (mpRegs u x) 0 2) :: u.outs } }) := by
  obtain ⟨hst, hrun, hrec, hread, hmore, hnow⟩ := h
  rw [mpWord] at hw
  rw [execMp, decide_eq_true hst, guardPart, if_pos rfl]
  dsimp only
  rw [hrun]
  simp only [hrec, hread, mpFrozen_of_not_frozen hnow, mpFrozen_of_not_frozen hlive, if_pos hpc, if_neg (Nat.not_le.2 hmore), if_neg (Nat.not_le.2 hnext),
    hw, ne_eq, not_true, if_false, if_true, false_and]
  rfl

/-- Every operation of the table runs as its OP says. -/
theorem exec_mpOps {o : (Nat → Instr) × Nat × (W32 → W32 → W32 → W32)} (ho : o ∈ mpOps) (st : Nat) (s : State) :
    exec (o.1 st) s = execMp o.2.1 st s ∧ o.2.1 ≠ 0 ∧ mpResult o.2.1 = o.2.2 := by
  simp only [mpOps, List.mem_cons, List.not_mem_nil, or_false] at ho
  rcases ho with rfl | rfl | rfl | rfl | rfl | rfl | rfl | rfl | rfl | rfl | rfl | rfl | rfl <;>
    exact ⟨rfl, by decide, rfl⟩

/-- Settles O32. -/
theorem microprograms : Obligations.Microprograms := by
  unfold Obligations.Microprograms
  intro s st u r x hst hrun hrec hread hmore hlive w k w0 regs src
  have h : MpAt s st u r x := ⟨hst, hrun, hrec, hread, hmore, hlive⟩
  refine ⟨fun hpc o ho hw => ?_, fun hpc hw hnext hlive' => execMp_end h hpc hw hnext hlive'⟩
  obtain ⟨hexec, hop, hres⟩ := exec_mpOps ho st s
  rw [hexec, execMp_operation h hop hpc hw, hres]
  rfl

/- Schedules and optimisers. -/

/-- What a write of the schedule test port leaves: VALID clear, the operands, and the result to come. -/
theorem State.schedTest_writes (s : State) (st : Nat) (v res : W64) :
    let u := (s.setReg (capR .SCHED_TEST_CTRL st) v).setRegFld (capR .SCHED_TEST_RESULT st) 63 63 0
    let t := u.onCap st fun c => { c with test := some res }
    u.reg (capR .SCHED_TEST_STEP st) = s.reg (capR .SCHED_TEST_STEP st) ∧
      bit (t.reg (capR .SCHED_TEST_RESULT st)) 63 = false ∧ t.reg (capR .SCHED_TEST_CTRL st) = v ∧ (t.cap st).test = some res := by
  intro u t
  have hreg := (touches_onCap u st fun c => { c with test := some res }).reg_eq
  refine ⟨?_, ?_, ?_, ?_⟩
  · rw [State.reg_setRegFld_ne _ _ _ _ _ _ (by simp [capR, rid]), State.reg_setReg_ne _ _ _ _ (by simp [capR, rid])]
  · rw [hreg, State.reg_setRegFld_same]
    exact bit_setFld_zero (by decide) _
  · rw [hreg, State.reg_setRegFld_ne _ _ _ _ _ _ (by simp [capR, rid]), State.reg_setReg_same]
  · rw [State.cap_onCap, if_pos rfl]

theorem State.schedTest_spec (s : State) (st : Nat) (mode : Bool) (index entry : Nat) :
    let t := s.schedTest st mode index entry
    let e := nth (s.cap st).sched [] (entry % 8)
    let f := schedFrac e (s.reg (capR .SCHED_TEST_STEP st)).toNat
    bit (t.reg (capR .SCHED_TEST_RESULT st)) 63 = false ∧
      t.reg (capR .SCHED_TEST_CTRL st) = w64 (entry % 8 + index % 1024 * 8 + b01 mode * 2 ^ 13) ∧
      (t.cap st).test = some (if mode then w64 (2 ^ 63 + ct (if index % 1024 = 0 ∧ entry % 8 = 1 then 1024 else index % 1024) * 2 ^ 32)
        else w64 (2 ^ 63 + f * 2 ^ 32 + (schedEta e f).toNat)) := by
  unfold State.schedTest
  generalize w64 (entry % 8 + index % 1024 * 8 + b01 mode * 2 ^ 13) = v
  generalize w64 (2 ^ 63 + ct (if index % 1024 = 0 ∧ entry % 8 = 1 then 1024 else index % 1024) * 2 ^ 32) = table
  have hsched : nth (((s.setReg (capR .SCHED_TEST_CTRL st) v).setRegFld (capR .SCHED_TEST_RESULT st) 63 63 0).cap st).sched [] (entry % 8)
    = nth (s.cap st).sched [] (entry % 8) := rfl
  obtain ⟨hstep, -⟩ := s.schedTest_writes st v 0
  dsimp only
  rw [hsched, hstep]
  exact (s.schedTest_writes st v _).2

/-- Settles O33. -/
theorem schedulesAndOptimisers : Obligations.SchedulesAndOptimisers := by
  unfold Obligations.SchedulesAndOptimisers
  refine ⟨fun s st index entry hst => ⟨fun ctMode => ⟨s.schedTest st ctMode index entry, ?_, s.schedTest_spec st ctMode index entry⟩, fun v hv => ?_⟩,
    fun r k w m v g => ⟨fun h => ?_, fun h => ?_, fun h => ?_⟩⟩
  · cases ctMode with
    | false =>
      change execSchedTestCompute st index entry s = _
      rw [execSchedTestCompute, decide_eq_true hst, guardPart, if_pos rfl]
    | true =>
      change execSchedTestCt st index entry s = _
      rw [execSchedTestCt, decide_eq_true hst, guardPart, if_pos rfl]
  · change execSchedTestDone st s = _
    rw [execSchedTestDone, decide_eq_true hst, guardPart, if_pos rfl, hv]
  · rw [capUpdate, h]
    rfl
  · rw [capUpdate, h]
    rfl
  · rw [capUpdate, h]
    rfl

end Sys2Proof.Machine
end

section
/-! PROOFS. Norm, clip and update passes of the Capstan (08 R213–R226). Settles O34. -/
set_option Elab.async false -- elaborate in order: side threads each hold a stack of their own

namespace Sys2Proof.Machine

open Host Claims

theorem foldl_filter_of_none {α β : Type} {p : α → Bool} {l : List α} (h : ∀ a ∈ l, p a = false) (f : β → α → β) (b : β) : (l.filter p).foldl f b = b := by
  rw [List.filter_eq_nil_iff.2 fun a ha => by simp [h a ha], List.foldl_nil]

/-- The guard of a pass: a part that is there and a record of its table. -/
theorem guardPart_pass {st i : Nat} (hst : st < 8) (hi : i < 4096) (s : State) : guardPart (decide (st < 8) && decide (i < 4096)) s = .next s := by
  rw [decide_eq_true hst, decide_eq_true hi, Bool.and_self, guardPart, if_pos rfl]

theorem State.onCap_onCap (s : State) (st : Nat) (f g : Cap → Cap) : (s.onCap st f).onCap st g = s.onCap st (g ∘ f) := by
  have hcap : (s.onCap st f).cap st = f (s.cap st) := by rw [State.cap_onCap, if_pos rfl]
  rw [State.onCap, hcap]
  simp only [State.onCap, sset_sset, Function.comp_apply]

theorem State.onCap_congr {s : State} {st : Nat} {f g : Cap → Cap} (h : f (s.cap st) = g (s.cap st)) : s.onCap st f = s.onCap st g := by
  rw [State.onCap, State.onCap, h]

/- The norm pass. -/

section
variable {s : State} {st i : Nat} {r : CapRec} {gs : List W32} {ms : List Bool}

/-- The Capstan after the norm pass of record i with cell `cell`. -/
def Cap.normed (c : Cap) (i g : Nat) (cell : XCell) : Cap := { c with normDone := i :: c.normDone, cells := sset c.cells g cell }

/-- A group's cell with the squares of a gradient added. -/
def Cap.normCell (c : Cap) (r : CapRec) (gs : List W32) (ms : List Bool) : XCell :=
  ((gs.zip ms).zipIdx).foldl (fun (c : XCell) p =>
    if p.1.2 || r.isPad p.2 then c else c.addLane (toF32 ((f32 p.1.1).mul (f32 p.1.1)))) (sget c.cells {} r.clip)

theorem State.normPass_adds (hskip : s.capSkip st i r = .ok (false, s)) (hready : s.gradReady st i r = true) (hg : s.capGrad st r = .ok gs)
    (hm : s.capMask st r = .ok ms) :
    s.normPass st i r = (s.capLoad st r r.normReads).onCap st fun c => c.normed i r.clip ((s.cap st).normCell r gs ms) := by
  unfold State.normPass
  rw [hskip]
  dsimp only
  rw [hready, hg, hm, if_neg (by decide)]
  dsimp only [State.normMark]
  rw [State.onCap_onCap]
  rfl

theorem Cap.ofGroup_mem {c : Cap} {g j : Nat} : j ∈ c.ofGroup g ↔ ∃ p ∈ c.recs, p.1.clip = g ∧ p.2 = j := by
  simp only [Cap.ofGroup, List.mem_map, List.mem_filter, decide_eq_true_eq, and_assoc]

/-- A record of the table by its number. -/
theorem State.capRec_of_mem {p : CapRec × Nat} (hp : p ∈ (s.cap st).recs) : s.capRec? st p.2 = some p.1 := by
  have h := List.getElem?_eq_some_iff.2 ⟨_, (List.mem_zipIdx' hp).2.symm⟩
  rwa [List.getElem?_map] at h

/-- Only the passed record's own group can become ready by its pass. -/
theorem Cap.groupReady_normed {g : Nat} (hr : s.capRec? st i = some r) (hg : g ≠ r.clip) (cell : XCell) (h : (s.cap st).groupReady g = false) :
    ((s.cap st).normed i r.clip cell).groupReady g = false := by
  rw [Cap.groupReady, List.all_eq_false] at h ⊢
  obtain ⟨j, hj, hnot⟩ := h
  refine ⟨j, hj, fun hin => hnot ?_⟩
  obtain ⟨p, hp, hclip, rfl⟩ := Cap.ofGroup_mem.1 hj
  have hne : p.2 ≠ i := fun e => by
    have hp' := State.capRec_of_mem hp
    rw [e, hr] at hp'
    exact hg (by rw [← hclip, Option.some.inj hp'])
  simpa [Cap.normed, hne] using hin

/-- A Capstan with no complete group that is not handed yet hands nothing. -/
theorem State.handGroups_of_none (h : ∀ g, g ∈ (s.cap st).handed ∨ (s.cap st).groupReady g = false ∨ (s.cap st).ofGroup g = []) : s.handGroups st = s := by
  unfold State.handGroups
  refine foldl_filter_of_none (fun g _ => ?_) _ s
  rcases h g with hin | hnot | hnil
  · simp [hin]
  · simp [hnot]
  · simp [hnil]

theorem normPass_adds (hst : st < 8) (hi : i < 4096) (hr : s.capRec? st i = some r) (hon : s.capOn r = true) (hclip : r.clip ≠ 15) (hdone : i ∉ (s.cap st).normDone)
    (hfirst : ∀ p ∈ (s.cap st).recs, p.1.clip = 15 ∨ i ≤ p.2 ∨ p.2 ∈ (s.cap st).normDone)
    (hskip : s.capSkip st i r = .ok (false, s)) (hready : s.gradReady st i r = true) (hg : s.capGrad st r = .ok gs) (hm : s.capMask st r = .ok ms)
    (hmore : ∃ p ∈ (s.cap st).recs, p.1.clip = r.clip ∧ p.2 ≠ i ∧ p.2 ∉ (s.cap st).normDone)
    (hother : ∀ g, g ≠ r.clip → g ∈ (s.cap st).handed ∨ (s.cap st).groupReady g = false ∨ (s.cap st).ofGroup g = []) :
    exec (.normPass st i) s = .next ((s.capLoad st r r.normReads).onCap st fun c => c.normed i r.clip ((s.cap st).normCell r gs ms)) := by
  have hall : ((s.cap st).recs.all fun p => p.1.clip = 15 || decide (i ≤ p.2) || (s.cap st).normDone.contains p.2) = true :=
    List.all_eq_true.2 fun p hp => by
      rcases hfirst p hp with h | h | h <;> simp [h]
  have hpass := State.normPass_adds hskip hready hg hm
  generalize hcell : (s.cap st).normCell r gs ms = cell at hpass ⊢
  have hcap : ((s.capLoad st r r.normReads).onCap st fun c => c.normed i r.clip cell).cap st = (s.cap st).normed i r.clip cell := by
    rw [State.cap_onCap, if_pos rfl, State.cap, State.cap, (touches_capLoad ..).caps_eq]
  have hexec : exec (.normPass st i) s = .next ((s.normPass st i r).handGroups st) := by
    change execNormPass st i s = _
    rw [execNormPass, guardPart_pass hst hi, hr]
    dsimp only
    rw [hall, hon]
    refine congrArg Outcome.next (if_neg ?_)
    simp [hclip, hdone]
  rw [hexec, hpass, State.handGroups_of_none]
  rw [hcap]
  intro g
  by_cases hgr : g = r.clip
  · obtain ⟨p, hp, hpc, hpi, hpn⟩ := hmore
    refine .inr (.inl ?_)
    rw [Cap.groupReady, List.all_eq_false]
    exact ⟨p.2, Cap.ofGroup_mem.2 ⟨p, hp, hpc.trans hgr.symm, rfl⟩, by simp [Cap.normed, hpi, hpn]⟩
  · rcases hother g hgr with h | h | h
    · exact .inl h
    · exact .inr (.inl (Cap.groupReady_normed hr hgr cell h))
    · exact .inr (.inr h)

end

/- The clip factor. -/

/-- The clip factor of a cell: none where the norm is not finite, MAX/NORM where it exceeds MAX, 1 where not. -/
theorem clipFactor_fst (cell : XCell) (mx : W32) :
    let nrm := f32 (toF32 (f32 cell.toF32).sqrt)
    (clipFactor cell mx).1 = if nrm.isFin = false then none else if (f32 mx).lt nrm then some (toF32 ((f32 mx).div nrm)) else some 0x3F800000 := by
  intro nrm
  unfold clipFactor
  dsimp only [rsqrt]
  cases hfin : nrm.isFin with
  | false => rw [if_pos (show (!false) = true from rfl), if_pos rfl]
  | true =>
    rw [if_neg (show ¬ (!true) = true by decide), if_neg (show ¬ true = false by decide)]
    by_cases hlt : (f32 mx).lt nrm = true
    · rw [if_pos hlt, if_pos hlt]
      rfl
    · rw [if_neg hlt, if_neg hlt]
      rfl

theorem clipNorm_sets {s : State} {st g : Nat} {p : XRec × Nat} {cell : XCell} (hst : st < 8) (hg : g < 15) (hent : s.entered = true)
    (hnone : sfind (s.cap st).clip g = none)
    (hjob : (((s.whip 0).records.map xrec).zipIdx).find? (fun p => p.1.mode = 3 && !p.1.cellIn && p.1.site % 16 = g && ((s.whip 0).cellOf p.2).done) = some p)
    (hcell : ((s.whip 0).cellOf p.2).res.head? = some cell) :
    ∃ t, exec (.clipNorm st g) s = .next t ∧ sfind (t.cap st).clip g = some (clipFactor cell ((nth (s.cap st).groups 0 g).truncate 32)).1 := by
  have hres : nth ((s.whip 0).cellOf p.2).res ({ } : XCell) 0 = cell := by
    obtain ⟨l, hl⟩ := List.head?_eq_some_iff.1 hcell
    rw [hl]
    rfl
  generalize hf : clipFactor cell ((nth (s.cap st).groups 0 g).truncate 32) = f
  have hexec : exec (.clipNorm st g) s =
      .next ((if f.2 then s.bump (capR .CLIP_TOTAL st) 1 else s).onCap st fun c => { c with clip := sset c.clip g f.1 }) := by
    change execClipNorm st g s = _
    rw [execClipNorm, decide_eq_true hst, decide_eq_true hg, Bool.and_self, guardPart, if_pos rfl]
    dsimp only
    rw [hjob]
    dsimp only
    rw [if_neg (by rw [hent, hnone]; decide), hres, hf]
  refine ⟨_, hexec, ?_⟩
  rw [State.cap_onCap, if_pos rfl, sfind_sset]

/- The update pass. -/

section
variable {s : State} {st i : Nat} {r : CapRec}

/-- A record whose turn to update it is. -/
structure UpdateDue (s : State) (st i : Nat) (r : CapRec) : Prop where
  part : st < 8
  number : i < 4096
  record : s.capRec? st i = some r
  on : s.capOn r = true
  todo : i ∉ (s.cap st).updDone
  idle : (s.cap st).mp = none
  turn : (s.cap st).updTurn i r = true

theorem exec_updatePass (h : UpdateDue s st i r) : exec (.updatePass st i) s = .next (s.updatePass st i r) := by
  obtain ⟨hst, hi, hr, hon, htodo, hidle, hturn⟩ := h
  change execUpdatePass st i s = _
  rw [execUpdatePass, guardPart_pass hst hi, hr]
  dsimp only
  rw [hon, hidle, hturn]
  refine congrArg Outcome.next (if_neg ?_)
  simp [htodo]

theorem updatePass_skips (h : UpdateDue s st i r) (hskip : s.capSkip st i r = .ok (true, s)) :
    ∃ t, exec (.updatePass st i) s = .next t ∧ (t.cap st).updDone = i :: (s.cap st).updDone ∧ t.hbm = s.hbm ∧ t.scratch = s.scratch := by
  have hpass : s.updatePass st i r = s.updMark st i r := by
    rw [State.updatePass, hskip]
  refine ⟨_, by rw [exec_updatePass h, hpass], ?_, (touches_updMark ..).hbm_eq, (touches_updMark ..).scratch_eq⟩
  rw [State.updMark, (onlyResumes_knotUnit ..).updDone, State.cap_onCap, if_pos rfl]

/-- What an update pass waits for is there: the knot of an unclipped record, the clip factor of a clipped one. -/
def State.updReady (s : State) (st i : Nat) (r : CapRec) : Prop :=
  if r.clip = 15 then s.gradReady st i r = true else (sfind (s.cap st).clip r.clip).isSome = true

variable {x : CapIn}

theorem State.updatePass_of_ready (hskip : s.capSkip st i r = .ok (false, s)) (hready : s.updReady st i r) (hread : s.capRead st r = .ok x) :
    s.updatePass st i r =
      let s1 := s.capLoad st r (r.updReads (s.cap st) x.src)
      if r.opt = 3 then s1.onCap st fun k => { k with mp := some { rcd := i, c := s.clipOf st r, p := 0, pc := 0, regs := [], outs := [] } }
      else
        let k := capScal r (BitVec.ofNat 32 (s1.reg (capR .SCHED_ETA st r.sched)).toNat) s1.logline
        (s1.capFinish st i r x (((x.ws.zip (x.ms.zip x.vs)).zip (x.gs.zip x.frozen)).map fun p =>
          if p.2.2 then (p.1.1, p.1.2.1, p.1.2.2) else capUpdate r k (posWord p.1.1) p.1.2.1 p.1.2.2 (rmul (s.clipOf st r) p.2.1))).getD s := by
  have hknot : ¬ (decide (r.clip = 15) && !s.gradReady st i r) = true := by
    unfold State.updReady at hready
    split at hready
    · simp [hready]
    · next h => simp [h]
  have hclip : ¬ (decide (r.clip ≠ 15) && (sfind (s.cap st).clip r.clip).isNone) = true := by
    unfold State.updReady at hready
    split at hready
    · next h => simp [h]
    · obtain ⟨c, hc⟩ := Option.isSome_iff_exists.1 hready
      simp [hc]
  rw [State.updatePass, hskip]
  dsimp only
  rw [if_neg hknot, if_neg hclip, hread]

theorem updatePass_microprogram (h : UpdateDue s st i r) (hskip : s.capSkip st i r = .ok (false, s)) (hclip : r.clip = 15)
    (hready : s.gradReady st i r = true) (hread : s.capRead st r = .ok x) (hopt : r.opt = 3) :
    ∃ t, exec (.updatePass st i) s = .next t ∧ t.hbm = s.hbm ∧
      (t.cap st).mp = some { rcd := i, c := 0x3F800000, p := 0, pc := 0, regs := [], outs := [] } := by
  have hpass := State.updatePass_of_ready hskip (by rw [State.updReady, if_pos hclip, hready]) hread
  dsimp only at hpass
  rw [if_pos hopt] at hpass
  refine ⟨_, by rw [exec_updatePass h, hpass], ?_, ?_⟩
  · exact (touches_capLoad ..).hbm_eq
  · rw [State.cap_onCap, if_pos rfl, State.clipOf, if_pos hclip]
    rfl

theorem updatePass_waits (h : UpdateDue s st i r) (hskip : s.capSkip st i r = .ok (false, s)) (hclip : r.clip = 15) (hready : s.gradReady st i r = false) :
    exec (.updatePass st i) s = .next (s.gradWait st i r) := by
  rw [exec_updatePass h, State.updatePass, hskip]
  dsimp only
  rw [hclip, hready, if_pos (by decide)]

end

/-- Settles O34. -/
theorem capstanPasses : Obligations.CapstanPasses := by
  unfold Obligations.CapstanPasses
  refine ⟨⟨?_, ?_⟩, ?_⟩
  · intro s st i r gs ms hst hi hr hon hclip hdone hfirst hskip hready hg hm hmore hother
    rw [normPass_adds hst hi hr hon hclip hdone hfirst hskip hready hg hm hmore hother]
    have hcap : (s.capLoad st r r.normReads).cap st = s.cap st := by rw [State.cap, State.cap, (touches_capLoad ..).caps_eq]
    refine congrArg Outcome.next (State.onCap_congr ?_)
    rw [hcap]
    rfl
  · intro s st g p cell hst hg hent hnone hjob hcell nrm mx
    obtain ⟨t, hexec, hset⟩ := clipNorm_sets hst hg hent hnone hjob hcell
    exact ⟨t, hexec, hset.trans (congrArg some (clipFactor_fst cell mx))⟩
  · intro s st i r hst hi hr hon htodo hidle hturn
    have h : UpdateDue s st i r := ⟨hst, hi, hr, hon, htodo, hidle, hturn⟩
    refine ⟨updatePass_skips h, fun x u hskip hready hread hopt => ?_, fun hskip hclip =>
      ⟨updatePass_waits h hskip hclip, fun x hready hread hopt => updatePass_microprogram h hskip hclip hready hread hopt⟩⟩
    intro s1 k hfinish
    have hpass := State.updatePass_of_ready hskip hready hread
    dsimp only at hpass
    rw [if_neg hopt] at hpass
    rw [exec_updatePass h, hpass]
    exact congrArg Outcome.next (congrArg (Option.getD · s) hfinish)

end Sys2Proof.Machine
end

section
/-! PROOFS. Fragment messages at a whipping unit, and a bucket's compression, sends and FINAL (09 R242–R255). Settles O35. -/
set_option Elab.async false -- elaborate in order: side threads each hold a stack of their own

namespace Sys2Proof.Machine

open Host Claims

/- Stale messages. -/

/-- A fragment is judged by the step, the attempt, the contexts and the records. -/
theorem State.fragStale_congr {s t : State} (hline : t.logline = s.logline) (hctx : t.ctxs = s.ctxs) (hstep : t.step = s.step) (hwhip : t.whips = s.whips)
    (d : Nat) (m : FragMsg) : t.fragStale d m = s.fragStale d m := by
  unfold State.fragStale State.xrec? State.whip State.ctx
  rw [hline, hctx, hstep, hwhip]

theorem State.fragStale_bump_whip (s : State) {n : RegName} (hn : n ≠ .LOGLINE) (d e k : Nat) (m : FragMsg) :
    (s.bump (whipR n e) k).fragStale d m = s.fragStale d m := by
  have hk := touches_bump s (whipR n e) k
  refine State.fragStale_congr ?_ hk.ctxs_eq hk.step_eq hk.whips_eq d m
  rw [State.logline, State.logline, State.reg_bump_ne _ _ _ _ (by simp [whipR, rid, hn.symm])]

/-- A stale message counts in STALE_TOTAL, and leaves the unit and memory. -/
theorem State.whipStale_leaves (s : State) (d c : Nat) : (s.whipStale d c).whips = s.whips ∧ (s.whipStale d c).hbm = s.hbm ∧
    (s.whipStale d c).reg (whipR .STALE_TOTAL d) = satAdd (s.reg (whipR .STALE_TOTAL d)) 1 ∧
    (s.whipStale d c).reg (whipR .FRAG_RECV_TOTAL d) = s.reg (whipR .FRAG_RECV_TOTAL d) := by
  have hk := touches_whipStale s d c
  have hraise (t : State) := regsWithin_raise t (.whip d) 2 c 0
  refine ⟨hk.whips_eq, hk.hbm_eq, ?_, ?_⟩
  · rw [State.whipStale, (hraise _).reg_eq _ (show RegName.STALE_TOTAL ∉ causeNames by decide), State.reg_bump, if_neg (by decide)]
  · rw [State.whipStale, (hraise _).reg_eq _ (show RegName.FRAG_RECV_TOTAL ∉ causeNames by decide), State.reg_bump_ne _ _ _ _ (by simp [whipR, rid])]

/- A fragment message comes in. -/

/-- The unit with its arrival counted, where the kind counts. -/
def State.fragCounted (s : State) (d : Nat) (counts : Bool) : State := if counts then s.bump (whipR .FRAG_RECV_TOTAL d) 1 else s

section
variable {q : (Nat → FragMsg → Instr) × Nat × Bool} {s : State} {d : Nat} {m : FragMsg}

theorem exec_fragKinds (hq : q ∈ fragKinds) (hd : d < 2) (hkind : fld m.h0 59 56 = q.2.1) :
    exec (q.1 d m) s = .next (s.arrive (q.1 d m) fun s => (s.fragCounted d q.2.2).fragRecv d m) ∧ doorOf (q.1 d m) = some d ∧
      (q.2.2 = true ↔ q.2.1 = 1 ∨ q.2.1 = 2) := by
  have hrun (kind : Nat) (i : Instr) (h : fld m.h0 59 56 = kind) : fragArrive d kind m i s =
      .next (s.arrive i fun s => (if kind ≤ 2 then s.bump (whipR .FRAG_RECV_TOTAL d) 1 else s).fragRecv d m) := by
    rw [fragArrive, if_neg (by omega), if_neg (by simpa using h)]
  simp only [fragKinds, List.mem_cons, List.not_mem_nil, or_false] at hq
  rcases hq with rfl | rfl | rfl | rfl <;> exact ⟨hrun _ _ hkind, rfl, by decide⟩

theorem fragMsg_waits (hq : q ∈ fragKinds) (hd : d < 2) (hkind : fld m.h0 59 56 = q.2.1) (hwait : (s.waiting.any fun j => doorOf j = some d) = true) :
    exec (q.1 d m) s = .next { s with waiting := s.waiting ++ [q.1 d m] } := by
  obtain ⟨hexec, hdoor, -⟩ := exec_fragKinds (s := s) hq hd hkind
  rw [hexec, State.arrive_of_waiting _ (by rw [hdoor]; exact hwait)]

/-- With none of its unit waiting a message is taken, or waits where memory holds its write. -/
theorem fragMsg_taken (hq : q ∈ fragKinds) (hd : d < 2) (hkind : fld m.h0 59 56 = q.2.1) (hfree : (s.waiting.any fun j => doorOf j = some d) = false) :
    exec (q.1 d m) s = .next (((s.fragCounted d q.2.2).fragRecv d m).getD { s with waiting := s.waiting ++ [q.1 d m] }) := by
  obtain ⟨hexec, hdoor, -⟩ := exec_fragKinds (s := s) hq hd hkind
  rw [hexec, State.arrive_free (by rw [hdoor]; exact hfree)]

theorem State.fragCounted_leaves (s : State) (d : Nat) (counts : Bool) : Touches [.regs] s (s.fragCounted d counts) ∧
    (∀ m, (s.fragCounted d counts).fragStale d m = s.fragStale d m) ∧ (s.fragCounted d counts).reg (whipR .STALE_TOTAL d) = s.reg (whipR .STALE_TOTAL d) := by
  cases counts with
  | false => exact ⟨.refl, fun _ => rfl, rfl⟩
  | true =>
    rw [State.fragCounted, if_pos rfl]
    exact ⟨touches_bump .., fun m => s.fragStale_bump_whip (by decide) d d 1 m, State.reg_bump_ne _ _ _ _ (by simp [whipR, rid])⟩

theorem fragMsg_stale (hq : q ∈ fragKinds) (hd : d < 2) (hkind : fld m.h0 59 56 = q.2.1) (hfree : (s.waiting.any fun j => doorOf j = some d) = false)
    (hstale : s.fragStale d m = true) : ∃ t, exec (q.1 d m) s = .next t ∧ t.whips = s.whips ∧ t.hbm = s.hbm ∧
      t.reg (whipR .STALE_TOTAL d) = satAdd (s.reg (whipR .STALE_TOTAL d)) 1 := by
  obtain ⟨hk, hsame, hreg⟩ := s.fragCounted_leaves d q.2.2
  obtain ⟨hwhips, hhbm, htotal, -⟩ := (s.fragCounted d q.2.2).whipStale_leaves d (fld m.h3 9 8)
  refine ⟨_, fragMsg_taken hq hd hkind hfree, ?_⟩
  rw [State.fragRecv, if_pos (by rw [hsame, hstale]), Option.getD_some, hwhips, hhbm, htotal, hk.whips_eq, hk.hbm_eq, hreg]
  exact ⟨rfl, rfl, rfl⟩

/-- A message in force reaches *Receiver actions* with its slot. -/
theorem fragMsg_inForce (hq : q ∈ fragKinds) (hd : d < 2) (hkind : fld m.h0 59 56 = q.2.1) (hfree : (s.waiting.any fun j => doorOf j = some d) = false)
    (hlive : s.fragStale d m = false) :
    exec (q.1 d m) s = .next (((s.fragCounted d q.2.2).fragTake d m).getD { s with waiting := s.waiting ++ [q.1 d m] }) := by
  obtain ⟨-, hsame, -⟩ := s.fragCounted_leaves d q.2.2
  rw [fragMsg_taken hq hd hkind hfree, State.fragRecv, if_neg (by rw [hsame, hlive]; decide)]

end

/- *Receiver actions*. -/

section
variable {s : State} {d : Nat} {m : FragMsg} {x : XRec}

/-- The slot that a fragment names. -/
def State.fragSlot (s : State) (d : Nat) (m : FragMsg) : SlotRx := (s.whip d).rxOf (fld m.h1 7 0) (fld m.h1 31 8) (fld m.h1 46 32)

theorem State.fragTake_cancel (hx : (s.xrec? d (fld m.h1 7 0)).map (s.xrecv d) = some x) (hkind : fld m.h0 59 56 = 3) (hh : (s.fragSlot d m).h ≤ fld m.h0 55 48) :
    s.fragTake d m = some ((s.setWhip d ((s.whip d).putRx { s.fragSlot d m with h := fld m.h0 55 48 + 1, held := none, fin := false })).storeFill d) := by
  unfold State.fragTake
  dsimp only
  rw [hx, hkind]
  exact congrArg some (if_neg (Nat.not_lt.2 hh))

theorem State.fragTake_final (hx : (s.xrec? d (fld m.h1 7 0)).map (s.xrecv d) = some x) (hkind : fld m.h0 59 56 = 4)
    (hheld : (s.fragSlot d m).held = some (fld m.h0 55 48)) :
    s.fragTake d m = some ((s.setWhip d ((s.whip d).putRx { s.fragSlot d m with fin := true })).storeFill d) := by
  unfold State.fragTake
  dsimp only
  rw [hx, hkind]
  exact congrArg some (if_pos hheld)

theorem State.fragTake_final_other (hx : (s.xrec? d (fld m.h1 7 0)).map (s.xrecv d) = some x) (hkind : fld m.h0 59 56 = 4)
    (hheld : (s.fragSlot d m).held ≠ some (fld m.h0 55 48)) :
    s.fragTake d m = some (s.whipError d 1 1 (fld m.h1 7 0) (fld m.h1 46 32) (fld m.h1 31 8) x.ctx) := by
  unfold State.fragTake
  dsimp only
  rw [hx, hkind]
  exact congrArg some (if_neg hheld)

/-- WH_PROTOCOL (R255). -/
theorem State.whipError_protocol (s : State) (d i sender bucket ctx : Nat) : let t := s.whipError d 1 1 i sender bucket ctx
    t.whips = s.whips ∧ t.step.fault = true ∧ bit (t.reg (rid .WHIP_STATUS (.whip d))) 1 = true := by
  refine ⟨(touches_whipError ..).whips_eq, ?_, State.bit_status_raised _ (.whip d) (by decide) ..⟩
  have hfault : causeFault (leafOf (.whip d)) 1 = true := rfl
  rw [State.whipError, State.raiseDetail, State.raise, hfault, State.raiseWith_fault_flag]

/-- A TOPK or SIGN of an epoch not below H, to a slot that is not final: its write goes to the slot's place. -/
theorem State.fragTake_write (hx : (s.xrec? d (fld m.h1 7 0)).map (s.xrecv d) = some x) (hkind : fld m.h0 59 56 = 1 ∨ fld m.h0 59 56 = 2)
    (hh : (s.fragSlot d m).h ≤ fld m.h0 55 48) (hfin : (s.fragSlot d m).fin = false) :
    (∀ u, s.ctxWrite (.die d) x.ctx (x.slotAddr (fld m.h1 31 8) (fld m.h1 46 32)) ((fragBytes m).take x.slotBytes) = .ok u →
      s.fragTake d m = some (u.setWhip d ((s.whip d).putRx { s.fragSlot d m with h := fld m.h0 55 48, held := some (fld m.h0 55 48) }))) ∧
    (s.ctxWrite (.die d) x.ctx (x.slotAddr (fld m.h1 31 8) (fld m.h1 46 32)) ((fragBytes m).take x.slotBytes) = .error .held → s.fragTake d m = none) := by
  have hnot : ¬ (fld m.h0 55 48 < (s.fragSlot d m).h ∨ (s.fragSlot d m).fin = true) := by
    rw [hfin]
    simpa using hh
  rw [State.fragSlot] at hnot
  constructor
  · intro u hu
    unfold State.fragTake
    dsimp only
    rcases hkind with hkind | hkind <;> (rw [hx, hkind]; dsimp only; rw [if_neg hnot, hu]; rfl)
  · intro he
    unfold State.fragTake
    dsimp only
    rcases hkind with hkind | hkind <;> (rw [hx, hkind]; dsimp only; rw [if_neg hnot, he]; rfl)

end

/- Compression. -/

section
variable {s : State} {d i b : Nat} {x : XRec}

theorem exec_bucketCompress (hd : d < 2) (hi : i < 256) (hx : s.xrec? d i = some x) (hon : s.whipOn x = true) :
    (x.mode = 2 → exec (.bucketCompress d i b) s = .next (s.ringStart d i x)) ∧
    (x.mode ≤ 1 → b < x.buckets → exec (.bucketCompress d i b) s = .next ((s.bucketGo d i b x).getD s)) := by
  have hexec : exec (.bucketCompress d i b) s = (if x.mode = 3 then .next (if x.cellIn then (s.cellTake d i x).getD s else s)
      else if x.mode = 2 then .next (s.ringStart d i x) else if x.buckets ≤ b then .next s else .next ((s.bucketGo d i b x).getD s)) := by
    change execBucketCompress d i b s = _
    rw [execBucketCompress, if_neg (by omega), hx]
    dsimp only
    rw [hon, if_neg (by decide)]
  refine ⟨fun hm => ?_, fun hm hb => ?_⟩
  · rw [hexec, if_neg (by omega), if_pos hm]
  · rw [hexec, if_neg (by omega), if_neg (by omega), if_neg (by omega)]

theorem State.bucketGo_of_idle (h : (!((s.whip d).txOf i b).sent && s.tilesAll d x b fun n => x.spec || n.accepted) = false) :
    s.bucketGo d i b x = s.bucketFinal d i b x := by
  unfold State.bucketGo
  dsimp only
  rw [h]
  rfl

theorem State.bucketGo_of_ready (h : (!((s.whip d).txOf i b).sent && s.tilesAll d x b fun n => x.spec || n.accepted) = true) :
    s.bucketGo d i b x = (s.bucketSend d i b x).bind fun u => u.bucketFinal d i b x := by
  unfold State.bucketGo
  dsimp only
  rw [h]
  rfl

theorem State.bucketFinal_of_unsent (h : ((s.whip d).txOf i b).sent = false) : s.bucketFinal d i b x = some s := by
  unfold State.bucketFinal
  dsimp only
  rw [h]
  rfl

theorem State.bucketFinal_of_sent (hsent : ((s.whip d).txOf i b).sent = true) (hfin : ((s.whip d).txOf i b).fin = false)
    (hall : s.tilesAll d x b (·.accepted) = true) :
    s.bucketFinal d i b x = (s.setWhip d ((s.whip d).putTx { (s.whip d).txOf i b with fin := true })).fragSend d x b none
      ((s.setWhip d ((s.whip d).putTx { (s.whip d).txOf i b with fin := true })).fragHead x i 4 ((s.whip d).txOf i b).epoch b 0 0 []) := by
  unfold State.bucketFinal
  dsimp only
  rw [if_pos (by rw [hsent, hfin, hall]; decide)]

end

/-- Settles O35. -/
theorem fragments : Obligations.Fragments := by
  unfold Obligations.Fragments
  refine ⟨?_, fun s d i b x hd hi hx hon hm => (exec_bucketCompress hd hi hx hon).1 hm, ?_⟩
  · intro q hq s d m hd hkind
    refine ⟨fragMsg_waits hq hd hkind, ?_⟩
    intro hfree s1 i snd e slot
    refine ⟨fragMsg_stale hq hd hkind hfree, ?_⟩
    intro x hlive hx
    have hexec := fragMsg_inForce hq hd hkind hfree hlive
    obtain ⟨hk, -, -⟩ := s.fragCounted_leaves d q.2.2
    have hcounts := (exec_fragKinds (s := s) hq hd hkind).2.2
    have hplain (h : q.2.1 ≠ 1 ∧ q.2.1 ≠ 2) : s.fragCounted d q.2.2 = s := by
      rw [State.fragCounted, if_neg (by rw [hcounts]; omega)]
    refine ⟨fun h3 hh => ?_, fun h4 hheld => ?_, fun h4 hheld => ?_, fun u hcount hh hfin hu => ?_, fun hcount hh hfin he => ?_⟩
    · rw [hexec, hplain (by omega), State.fragTake_cancel hx (hkind.trans h3) hh]
      rfl
    · rw [hexec, hplain (by omega), State.fragTake_final hx (hkind.trans h4) hheld]
      rfl
    · refine ⟨_, by rw [hexec, hplain (by omega), State.fragTake_final_other hx (hkind.trans h4) hheld, Option.getD_some], ?_⟩
      exact State.whipError_protocol ..
    all_goals
      have hw : s1.whips = s.whips := hk.whips_eq
      have hslot : s1.fragSlot d m = slot := by rw [State.fragSlot, State.whip, hw]; rfl
      have hx1 : (s1.xrec? d i).map (s1.xrecv d) = some x := by
        rw [← hx]
        unfold State.xrecv State.bridges State.pairOf State.xrec? State.whip
        rw [hw]
      obtain ⟨hok, hwait⟩ := State.fragTake_write hx1 (by rw [hkind]; exact hcounts.1 hcount) (by rw [hslot]; exact hh) (by rw [hslot]; exact hfin)
    · rw [hexec]
      have htake := hok u hu
      rw [hslot, State.whip, hw] at htake
      exact congrArg Outcome.next (congrArg (Option.getD · _) htake)
    · rw [hexec]
      exact congrArg Outcome.next (congrArg (Option.getD · _) (hwait he))
  · intro s d i b x hd hi hx hon hm hb tx
    have hexec := (exec_bucketCompress hd hi hx hon).2 hm hb
    refine ⟨fun hsent hnot => ?_, fun u hsent hfin hall hu => ?_, fun hsent hall => ?_⟩
    · rw [hexec, State.bucketGo_of_idle (by rw [hnot, Bool.and_false]), State.bucketFinal_of_unsent hsent, Option.getD_some]
    · have hidle : (!((s.whip d).txOf i b).sent && s.tilesAll d x b fun n => x.spec || n.accepted) = false := by
        rw [show ((s.whip d).txOf i b).sent = true from hsent, Bool.not_true, Bool.false_and]
      rw [hexec, State.bucketGo_of_idle hidle, State.bucketFinal_of_sent hsent hfin hall]
      exact congrArg Outcome.next (congrArg (Option.getD · s) hu)
    · have hready : (!((s.whip d).txOf i b).sent && s.tilesAll d x b fun n => x.spec || n.accepted) = true := by
        rw [show ((s.whip d).txOf i b).sent = false from hsent, hall]
        rfl
      refine ⟨fun u v hu hv => ?_, fun hnone => ?_⟩
      · rw [hexec, State.bucketGo_of_ready hready, hu, Option.bind_some, hv, Option.getD_some]
      · rw [hexec, State.bucketGo_of_ready hready, hnone, Option.bind_none, Option.getD_none]

end Sys2Proof.Machine
end

section
/-! PROOFS. Dense and cell messages, and the merge of a bucket (09 R247–R253, 14 R376). Settles O36. -/
set_option Elab.async false -- elaborate in order: side threads each hold a stack of their own

namespace Sys2Proof.Machine

open Host Claims

section
variable {s : State} {d : Nat}

/-- The unit with an arrival counted keeps its progress. -/
theorem State.whip_bump (s : State) (id : RegId) (k d : Nat) : (s.bump id k).whip d = s.whip d := by
  rw [State.whip, State.whip, (touches_bump ..).whips_eq]

theorem State.xrec_bump (s : State) (id : RegId) (k d i : Nat) : (s.bump id k).xrec? d i = s.xrec? d i := by
  rw [State.xrec?, State.xrec?, State.whip_bump]

/- Dense messages. -/

theorem exec_denseMsg (hd : d < 2) (m : DenseMsg) (hfree : (s.waiting.any fun j => doorOf j = some d) = false) :
    exec (.denseMsg d m) s = .next ((s.denseTake d m).getD { s with waiting := s.waiting ++ [.denseMsg d m] }) := by
  change execDenseMsg d m s = _
  rw [execDenseMsg, if_neg (by omega), State.arrive_free hfree]

theorem denseMsg_early {m : DenseMsg} {x : XRec} {p : XRec × Nat} (hd : d < 2) (hfree : (s.waiting.any fun j => doorOf j = some d) = false)
    (hlive : s.fragStale d { h0 := m.h0, h1 := m.h1, h2 := 0, h3 := m.h3, payload := [] } = false) (hx : s.xrec? d (fld m.h1 7 0) = some x) (hm : x.mode = 2)
    (hp : (s.bump (whipR .FRAG_RECV_TOTAL d) 1).pairFor d x = some p) (hg : 2 ≤ x.group) (hwent : fld m.h1 31 8 ∉ ((s.whip d).ringOf (fld m.h1 7 0)).went) :
    exec (.denseMsg d m) s = .next ((s.bump (whipR .FRAG_RECV_TOTAL d) 1).setWhip d ((s.whip d).putRing
      { (s.whip d).ringOf (fld m.h1 7 0) with early := ((s.whip d).ringOf (fld m.h1 7 0)).early ++ [m] })) := by
  have hcontains : ((s.whip d).ringOf (fld m.h1 7 0)).went.contains (fld m.h1 31 8) = false := by simpa using hwent
  rw [exec_denseMsg hd m hfree]
  unfold State.denseTake
  dsimp only
  rw [s.fragStale_bump_whip (by decide), hlive, if_neg (by decide), State.xrec_bump, hx]
  dsimp only
  rw [if_neg (by simp [hm]), hp]
  dsimp only
  rw [if_neg (by omega), State.whip_bump, hcontains, if_neg (by decide), Option.getD_some]

theorem denseMsg_stale {m : DenseMsg} (hd : d < 2) (hfree : (s.waiting.any fun j => doorOf j = some d) = false)
    (hstale : s.fragStale d { h0 := m.h0, h1 := m.h1, h2 := 0, h3 := m.h3, payload := [] } = true) :
    exec (.denseMsg d m) s = .next ((s.bump (whipR .FRAG_RECV_TOTAL d) 1).whipStale d (fld m.h3 9 8)) := by
  rw [exec_denseMsg hd m hfree]
  unfold State.denseTake
  dsimp only
  rw [s.fragStale_bump_whip (by decide), hstale, if_pos rfl, Option.getD_some]

/-- A counted stale message: both totals, and the unit and memory as they were. -/
theorem State.countedStale_leaves (s : State) (d c : Nat) : let t := (s.bump (whipR .FRAG_RECV_TOTAL d) 1).whipStale d c
    t.whips = s.whips ∧ t.hbm = s.hbm ∧ t.reg (whipR .STALE_TOTAL d) = satAdd (s.reg (whipR .STALE_TOTAL d)) 1 ∧
      t.reg (whipR .FRAG_RECV_TOTAL d) = satAdd (s.reg (whipR .FRAG_RECV_TOTAL d)) 1 := by
  intro t
  have hk := touches_bump s (whipR .FRAG_RECV_TOTAL d) 1
  obtain ⟨hwhips, hhbm, hstale, hrecv⟩ := (s.bump (whipR .FRAG_RECV_TOTAL d) 1).whipStale_leaves d c
  refine ⟨hwhips.trans hk.whips_eq, hhbm.trans hk.hbm_eq, hstale.trans ?_, hrecv.trans ?_⟩
  · rw [State.reg_bump_ne _ _ _ _ (by simp [whipR, rid])]
  · rw [State.reg_bump, if_neg (by decide)]

/- Cell messages. -/

theorem exec_cellMsg (hd : d < 2) (m : CellMsg) (hfree : (s.waiting.any fun j => doorOf j = some d) = false) :
    exec (.cellMsg d m) s = .next ((s.cellRecv d m).getD { s with waiting := s.waiting ++ [.cellMsg d m] }) := by
  change execCellMsg d m s = _
  rw [execCellMsg, if_neg (by omega), State.arrive_free hfree]

theorem cellMsg_stale {m : CellMsg} (hd : d < 2) (hfree : (s.waiting.any fun j => doorOf j = some d) = false)
    (hstale : s.fragStale d { h0 := m.h0, h1 := m.h1, h2 := m.h2, h3 := m.h3, payload := [] } = true) :
    exec (.cellMsg d m) s = .next ((s.bump (whipR .FRAG_RECV_TOTAL d) 1).whipStale d (fld m.h3 9 8)) := by
  rw [exec_cellMsg hd m hfree]
  unfold State.cellRecv
  dsimp only
  rw [s.fragStale_bump_whip (by decide), hstale, if_pos rfl, Option.getD_some]

theorem Whip.rcd_cellOf (w : Whip) (i : Nat) : (w.cellOf i).rcd = i := by
  unfold Whip.cellOf
  cases h : w.cells.find? fun j => j.rcd = i with
  | none => rfl
  | some j =>
    have hj := List.find?_some h
    exact of_decide_eq_true hj

theorem Whip.cellOf_putCell (w : Whip) {j : CellJob} {i : Nat} (h : j.rcd = i) : (w.putCell j).cellOf i = j := by
  rw [Whip.cellOf, Whip.putCell, List.find?_cons_of_pos (by simpa using h), Option.getD_some]

/-- What a job holds after a change that keeps its record. -/
theorem State.cellOf_onCell (s : State) (d i : Nat) {f : CellJob → CellJob} (hf : (f ((s.whip d).cellOf i)).rcd = ((s.whip d).cellOf i).rcd) :
    ((s.onCell d i f).whip d).cellOf i = f ((s.whip d).cellOf i) := by
  rw [State.onCell, State.whip_setWhip, if_pos rfl, Whip.cellOf_putCell _ (hf.trans (Whip.rcd_cellOf ..))]

theorem cellMsg_result {m : CellMsg} {x : XRec} (hd : d < 2) (hleg : m.leg = 2) (hfree : (s.waiting.any fun j => doorOf j = some d) = false)
    (hlive : s.fragStale d { h0 := m.h0, h1 := m.h1, h2 := m.h2, h3 := m.h3, payload := [] } = false) (hx : s.xrec? d (fld m.h1 7 0) = some x) (hm : x.mode = 3)
    (hmore : (((fld m.h1 46 32, fld m.h1 31 8, m.cells.length) :: ((s.whip d).cellOf (fld m.h1 7 0)).resGot).map fun g => g.2.2).sum < x.cellCount) :
    exec (.cellMsg d m) s = .next ((s.bump (whipR .FRAG_RECV_TOTAL d) 1).onCell d (fld m.h1 7 0) fun j => { j with
      resGot := (fld m.h1 46 32, fld m.h1 31 8, m.cells.length) :: j.resGot
      res := addPiece x.cellCount j.res (fld m.h1 31 8) (m.cells.map XCell.ofBytes) }) := by
  rw [exec_cellMsg hd m hfree]
  unfold State.cellRecv
  dsimp only
  rw [s.fragStale_bump_whip (by decide), hlive, if_neg (by decide), State.xrec_bump, hx]
  dsimp only
  rw [if_neg (by simp [hm]), hleg, List.length_map]
  rw [State.cellOf_onCell _ _ _ rfl, State.whip_bump]
  dsimp only
  rw [decide_eq_false (Nat.not_le.2 hmore), Bool.and_false, if_neg Bool.false_ne_true]
  rfl

/- Merging. -/

/-- The store takes no bucket that is merged. -/
theorem State.storeFill_whip (s : State) (d : Nat) : ((s.storeFill d).whip d).merged = (s.whip d).merged ∧
    ∀ i b, (i, b) ∈ (s.whip d).merged → (i, b) ∉ (s.whip d).store → (i, b) ∉ ((s.storeFill d).whip d).store := by
  unfold State.storeFill
  dsimp only
  rw [State.whip_setWhip, if_pos rfl]
  refine ⟨rfl, fun i b hmerged hstore hin => ?_⟩
  dsimp only at hin
  rcases List.mem_append.1 hin with hin | hin
  · exact hstore (List.mem_filter.1 hin).1
  · have hwaits := List.mem_of_mem_take hin
    unfold State.mergeWaits at hwaits
    obtain ⟨l, hl, hmem⟩ := List.mem_flatten.1 hwaits
    obtain ⟨p, -, rfl⟩ := List.mem_map.1 hl
    obtain ⟨c, hc, hpair⟩ := List.mem_map.1 hmem
    obtain ⟨rfl, rfl⟩ := Prod.mk.inj hpair
    have hready := (Bool.and_eq_true_iff.1 (List.mem_filter.1 hc).2).1
    unfold State.mergeReady at hready
    rw [State.whip_setWhip, if_pos rfl, List.contains_iff_mem.2 hmerged] at hready
    simp at hready

theorem State.mergeMark_whip (s : State) (d i b : Nat) :
    (i, b) ∈ ((s.mergeMark d i b).whip d).merged ∧ (i, b) ∉ ((s.mergeMark d i b).whip d).store := by
  unfold State.mergeMark
  dsimp only
  generalize hu : s.setWhip d { s.whip d with merged := (i, b) :: (s.whip d).merged, store := (s.whip d).store.filter (· ≠ (i, b)) } = u
  have hw : u.whip d = { s.whip d with merged := (i, b) :: (s.whip d).merged, store := (s.whip d).store.filter (· ≠ (i, b)) } := by
    rw [← hu, State.whip_setWhip, if_pos rfl]
  obtain ⟨hmerged, hstore⟩ := u.storeFill_whip d
  refine ⟨by rw [hmerged, hw]; exact List.mem_cons_self, hstore i b (by rw [hw]; exact List.mem_cons_self) ?_⟩
  rw [hw]
  intro hin
  simpa using (List.mem_filter.1 hin).2

theorem exec_bucketMerge {i b stalls : Nat} {x : XRec} (hd : d < 2) (hi : i < 256) (hx : (s.xrec? d i).map (s.xrecv d) = some x) (hon : s.whipOn x = true)
    (hready : s.mergeReady d i b x = true) (hin : (i, b) ∈ (s.whip d).store) :
    exec (.bucketMerge d i b stalls) s =
      .next (((s.bump (whipR .MERGE_STALL_TOTAL d) (if (s.whip d).store.length = 16 then stalls else 0)).bucketMerge d i b x).getD s) := by
  change execBucketMerge d i b stalls s = _
  rw [execBucketMerge, if_neg (by omega), hx]
  dsimp only
  rw [hon, hready, List.contains_iff_mem.2 hin, if_neg (by decide)]

variable {i b : Nat} {x : XRec} {cs : List XCell}

/-- At a bridge a merged bucket becomes its contribution to the ring. -/
theorem State.bucketMerge_bridge {p : XRec × Nat} (hcs : s.mergeCells d x b = .ok cs) (hp : (s.mergeLoad d x b).pairOf d x = some p) :
    let t := (s.mergeLoad d x b).mergeMark d i b
    s.bucketMerge d i b x = some ((t.setWhip d { t.whip d with bridged := (i, b, cs.map XCell.toF32) :: (t.whip d).bridged }).ringStart d p.2 p.1) := by
  unfold State.bucketMerge
  dsimp only
  rw [hcs]
  dsimp only
  rw [hp]

/-- The write of a merged bucket to the record's output plane. -/
def State.mergeWrite (s : State) (d : Nat) (x : XRec) (b : Nat) (cs : List XCell) : Except MemErr State :=
  s.ctxWrite (.die d) x.ctx (x.outBase + (if x.owner then x.rank b x.mem else b) * 4096 * x.outBytes)
    ((cs.map fun c => leBytes x.outBytes (x.outCode (c.value.mul (f32n x.scale)))).flatten)

theorem State.bucketMerge_plain (hcs : s.mergeCells d x b = .ok cs) (hp : (s.mergeLoad d x b).pairOf d x = none) :
    (∀ u, (s.mergeLoad d x b).mergeWrite d x b cs = .ok u → let t := u.mergeMark d i b
      s.bucketMerge d i b x = some (if (x.received x.mem).all fun c => (t.whip d).merged.contains (i, c) then t.whipDone d i x else t)) ∧
    ((s.mergeLoad d x b).mergeWrite d x b cs = .error .held → s.bucketMerge d i b x = none) := by
  constructor
  · intro u hu t
    unfold State.bucketMerge
    dsimp only
    rw [hcs]
    dsimp only
    rw [hp]
    dsimp only
    rw [State.mergeWrite] at hu
    rw [hu]
  · intro he
    unfold State.bucketMerge
    dsimp only
    rw [hcs]
    dsimp only
    rw [hp]
    dsimp only
    rw [State.mergeWrite] at he
    rw [he]
    rfl

end

/-- Settles O36. -/
theorem ringAndMerge : Obligations.RingAndMerge := by
  unfold Obligations.RingAndMerge
  refine ⟨⟨?_, ?_, ?_, ?_⟩, ?_⟩
  · intro s d m hd hfree hlive x p hx hm hp hg hwent
    exact denseMsg_early hd hfree hlive hx hm hp hg hwent
  · intro s d m hd hleg hfree hlive x hx hm j hmore
    exact cellMsg_result hd hleg hfree hlive hx hm hmore
  · intro s d m hd hfree hstale
    exact ⟨_, cellMsg_stale hd hfree hstale, s.countedStale_leaves ..⟩
  · intro s d m hd hfree hstale
    exact ⟨_, denseMsg_stale hd hfree hstale, s.countedStale_leaves ..⟩
  · intro s d i b x cs u stalls hd hi hx hon hready hin s1 hcs s2 wr
    have hexec := exec_bucketMerge (stalls := stalls) hd hi hx hon hready hin
    refine ⟨fun p hp => ?_, fun hp hw => ?_, fun hp hw => ?_⟩
    · intro t
      rw [hexec]
      exact congrArg Outcome.next (congrArg (Option.getD · s) (State.bucketMerge_bridge hcs hp))
    · intro t
      obtain ⟨hmerged, hstore⟩ := u.mergeMark_whip d i b
      refine ⟨hmerged, hstore, ?_⟩
      rw [hexec]
      exact congrArg Outcome.next (congrArg (Option.getD · s) ((State.bucketMerge_plain hcs hp).1 u hw))
    · rw [hexec]
      exact congrArg Outcome.next (congrArg (Option.getD · s) ((State.bucketMerge_plain hcs hp).2 hw))

end Sys2Proof.Machine
end

section
/-! PROOFS. Refutes O12: the block that a REQ_T operand's staging writes is reported to the whipping units (09 R241), and the report can start a ring bucket, which writes HBM. -/
set_option Elab.async false -- elaborate in order: side threads each hold a stack of their own

namespace Sys2Proof.Machine

open Host

/- The operation stages its operand A (a packed operation of one block-step, REQ_T, of site and tile 0). Die A's unit is a bridge's: a compressed record and a BUCKET record of two members name that tile, the bucket is merged, and a piece of the ring's second trip came early. The tile's report starts the ring bucket, and the early piece is written to the output plane. -/

/-- A packed operation whose operand A is REQ_T. -/
def stagingMsg : OpMsg :=
  { words := [w64 (2 + 2 * 2 ^ 24 + 2 ^ 37), 0, 0, 0, 0, 0, 0, 0, 0, 0, 0, 0, 0, 0, 0, 0], idx := 0, occ := 0, tag := 0, reissue := false, bcast := [] }

/-- The operation in its slot, at its first block-step. -/
def stagingRun : PlyRun := { msg := stagingMsg, kb := 0, done := false }

/-- Value 1 of ring bucket 0 on its second trip, for record 1. -/
def earlyPiece : DenseMsg := { h0 := 0, h1 := 1, h3 := 0, chunk := 1, second := true, vals := [1] }

/-- A bridge pair on two elements of tile 0, its only bucket merged, and the early piece. -/
def bridgeWhip : Whip :=
  { records := [[0, 0, 2, 0, 0, 0, w64 (2 ^ 32), 0], [w64 (2 + 2 * 2 ^ 32), 0, 2, 0, 0, 0, w64 (2 ^ 32), 0]]
    merged := [(0, 0)]
    rings := [{ rcd := 1, early := [earlyPiece] }] }

/-- The operation stands in a slot of core 0, in a step, with the bridge's records on die A, and page 0 of context 0 writable. -/
def stagingState : State :=
  { State.reset with
    cores := [(0, { plies := [{ slots := [{ run := some stagingRun }, {}, {}, {}] }, {}, {}, {}] })]
    ctxs := [(0, { state := .active })]
    regs := [(modR .CTX_PAGES 0, 1)]
    step := { State.reset.step with state := .running }
    mem := { State.reset.mem with xcache := [(MemPort.key (.die 0) 0 0, 3)] }
    whips := [(0, bridgeWhip)] }

/-- Byte `a` of HBM after a command. -/
def byteAfter (o : Out) (a : Nat) : Byte :=
  match o with
  | .next t => memGet t.hbm a
  | _ => 0

/-- Refutes O12: the block-step's staging makes the whipping unit write byte 2 of HBM, which the statement keeps. -/
theorem not_blockStepAccumulates : ¬ Obligations.BlockStepAccumulates := by
  unfold Obligations.BlockStepAccumulates
  rintro ⟨haccumulates, -⟩
  obtain ⟨-, hruns⟩ := haccumulates stagingState 0 0 0 0 0 stagingRun (by decide) (by decide) (by decide) (by decide +kernel) rfl (by decide +kernel) (by decide +kernel)
  obtain ⟨t, hexec, -, hhbm, -⟩ := hruns (by decide +kernel)
  have hwritten : byteAfter (exec (.blockStep 0 0 0 0 0 []) stagingState) 2 = 1 := by decide +kernel
  rw [hexec, byteAfter, hhbm] at hwritten
  exact absurd hwritten (by decide +kernel)

end Sys2Proof.Machine
end

section
/-! SUPPORT. Exchange work leaves the cores but for released waits: rings, tile reports and acceptance (09 R241, R253, 06 R163). -/
set_option Elab.async false -- elaborate in order: side threads each hold a stack of their own

namespace Sys2Proof.Machine

/-- The same for an answer that may be absent. -/
structure OptResumes (s : State) (o : Option State) : Prop where
  resumes : ∀ t, o = some t → OnlyResumes s t

namespace OptResumes

variable {s t : State} {o : Option State}

theorem none : OptResumes s none := ⟨fun _ h => nomatch h⟩

theorem some (h : OnlyResumes s t) : OptResumes s (some t) := ⟨fun _ e => Option.some.inj e ▸ h⟩

theorem of_touches {F : List Field} (k : OptTouches F s o) (hc : Field.cores ∉ F := by decide) (hp : Field.caps ∉ F := by decide) : OptResumes s o :=
  ⟨fun t e => OnlyResumes.of_touches (k.touches t e) hc hp⟩

theorem after (k : OptResumes t o) (h : OnlyResumes s t) : OptResumes s o := ⟨fun u e => h.trans (k.resumes u e)⟩

theorem bind {α : Type} {p : Option α} {f : α → Option State} (hf : ∀ a, p = .some a → OptResumes s (f a)) : OptResumes s (p.bind f) := by
  cases p with
  | none => exact .none
  | some a => exact hf a rfl

theorem map {f : State → State} (k : OptResumes s o) (hf : ∀ t, OnlyResumes t (f t)) : OptResumes s (o.map f) := by
  cases o with
  | none => exact .none
  | some a => exact .some ((k.resumes a rfl).trans (hf a))

theorem foldlM {α : Type} {f : State → α → Option State} {l : List α} (h : OnlyResumes s t) (hf : ∀ t a, OptResumes t (f t a)) : OptResumes s (l.foldlM f t) := by
  induction l generalizing t with
  | nil => exact .some h
  | cons a l ih => exact .bind fun u e => ih (h.trans ((hf t a).resumes u e))

theorem getD (k : OptResumes s o) : OnlyResumes s (o.getD s) := by
  cases o with
  | none => exact .refl
  | some a => exact k.resumes a rfl

end OptResumes

theorem onlyResumes_setWhip (s : State) (d : Nat) (w : Whip) : OnlyResumes s (s.setWhip d w) := .of_touches (touches_setWhip ..)

theorem onlyResumes_whipDone (s : State) (d i : Nat) (x : XRec) : OnlyResumes s (s.whipDone d i x) := by
  unfold State.whipDone
  dsimp only
  exact .ite .refl ((onlyResumes_setWhip ..).trans (onlyResumes_knotUnit ..))

theorem onlyResumes_ringSend (s : State) (d : Nat) (x : XRec) (m : DenseMsg) : OnlyResumes s (s.ringSend d x m) := .of_touches (touches_ringSend ..)

theorem optResumes_ringWrite (s : State) (d i : Nat) (x : XRec) (r c off : Nat) (vals : List Nat) : OptResumes s (s.ringWrite d i x r c off vals) := by
  unfold State.ringWrite
  dsimp only
  split
  · exact .of_touches (touches_memFail ..)
  · next u hu =>
    have hwritten (w : Whip) : OnlyResumes s (u.setWhip d w) := (OnlyResumes.of_touches (Touches.of_ok (touches_ctxWrite ..) hu)).trans (onlyResumes_setWhip ..)
    have hdone {v : State} (h : OnlyResumes s v) (b : Prop) [Decidable b] : OptResumes s (if b then some (v.whipDone d i x) else some v) := by
      split
      · exact .some (h.trans (onlyResumes_whipDone ..))
      · exact .some h
    split
    · exact .bind fun v hv => hdone ((hwritten _).trans ((OptResumes.of_touches (touches_fanOut ..)).resumes v hv)) _
    · exact .bind fun v hv => hdone (Option.some.inj hv ▸ hwritten _) _

theorem optResumes_ringEnd (s : State) (d i : Nat) (x : XRec) (r c off : Nat) (sums : List Fl) : OptResumes s (s.ringEnd d i x r c off sums) := by
  unfold State.ringEnd
  dsimp only
  exact (optResumes_ringWrite ..).map fun t => .ite .refl (onlyResumes_ringSend ..)

theorem optResumes_ringTake (s : State) (d i : Nat) (x : XRec) (m : DenseMsg) : OptResumes s (s.ringTake d i x m) := by
  unfold State.ringTake
  dsimp only
  split
  · exact (optResumes_ringWrite ..).map fun t => .ite .refl (onlyResumes_ringSend ..)
  · split
    · exact optResumes_ringEnd ..
    · exact .some (onlyResumes_ringSend ..)

theorem optResumes_ringEnter (s : State) (d i : Nat) (x : XRec) (r : Nat) : OptResumes s (s.ringEnter d i x r) := by
  unfold State.ringEnter
  dsimp only
  refine .bind fun u hu => ?_
  refine .foldlM (OptResumes.resumes (.foldlM (onlyResumes_setWhip ..) fun t p => ?_) u hu) fun t m => optResumes_ringTake ..
  split
  · exact optResumes_ringEnd ..
  · exact .some (onlyResumes_ringSend ..)

theorem onlyResumes_ringStart (s : State) (d i : Nat) (x : XRec) : OnlyResumes s (s.ringStart d i x) := by
  unfold State.ringStart
  exact .ite .refl (OnlyResumes.foldl (fun t r => (optResumes_ringEnter ..).getD) _ .refl)

theorem onlyResumes_ringsStart (s : State) (d : Nat) : OnlyResumes s (s.ringsStart d) := by
  unfold State.ringsStart
  exact OnlyResumes.foldl (fun t p => onlyResumes_ringStart ..) _ .refl

theorem onlyResumes_tileReport (s : State) (d site tile epoch : Nat) (loc : TileLoc) (guard : Option Nat) :
    OnlyResumes s (s.tileReport d site tile epoch loc guard) := by
  unfold State.tileReport
  dsimp only
  exact .ite (.ite ((onlyResumes_setWhip ..).trans (onlyResumes_ringsStart ..)) (onlyResumes_setWhip ..)) .refl

theorem onlyResumes_tileAccept (s : State) (d site tile epoch core g : Nat) : OnlyResumes s (s.tileAccept d site tile epoch core g) := by
  unfold State.tileAccept
  exact (onlyResumes_setWhip ..).trans (onlyResumes_ringsStart ..)

end Sys2Proof.Machine
end

section
/-! PROOFS. The quantiser's ports (03 R65, R92, R95). Settles O16. -/
set_option Elab.async false -- elaborate in order: side threads each hold a stack of their own

namespace Sys2Proof.Machine

open Host Claims

/-- The cores' quantiser ports and the damage records waiting at their error-control units stay. -/
structure PortsKept (s t : State) : Prop where
  ports : ∀ n, (t.core n).qnt.ports = (s.core n).qnt.ports
  inbox : ∀ n, (t.core n).ec.inbox = (s.core n).ec.inbox

namespace PortsKept

variable {s t u : State}

theorem refl : PortsKept s s := ⟨fun _ => rfl, fun _ => rfl⟩

theorem trans (h : PortsKept s t) (k : PortsKept t u) : PortsKept s u := ⟨fun n => (k.ports n).trans (h.ports n), fun n => (k.inbox n).trans (h.inbox n)⟩

theorem of_touches {F : List Field} (k : Touches F s t) (hc : Field.cores ∉ F := by decide) : PortsKept s t :=
  ⟨fun n => by rw [k.core_eq n hc], fun n => by rw [k.core_eq n hc]⟩

theorem of_resumes (h : OnlyResumes s t) : PortsKept s t := ⟨fun n => by rw [h.qnt], fun n => by rw [h.ec]⟩

theorem onCore {core : Nat} {f : Core → Core} (hp : ∀ c, (f c).qnt.ports = c.qnt.ports) (hi : ∀ c, (f c).ec.inbox = c.ec.inbox) : PortsKept s (s.onCore core f) where
  ports n := by
    rw [State.core_onCore]
    split
    · next h => rw [hp, h]
    · rfl
  inbox n := by
    rw [State.core_onCore]
    split
    · next h => rw [hi, h]
    · rfl

theorem ite {c : Prop} [Decidable c] (h : PortsKept s t) (k : PortsKept s u) : PortsKept s (if c then t else u) := by
  split
  · exact h
  · exact k

end PortsKept

theorem portsKept_complete (s : State) (core : Nat) (m : OpMsg) : PortsKept s (s.complete core m) := by
  unfold State.complete
  exact .ite .refl (.onCore (fun _ => rfl) fun _ => rfl)

theorem portsKept_onGuard (s : State) (core g : Nat) (f : GuardSt → GuardSt) : PortsKept s (s.onGuard core g f) := by
  unfold State.onGuard State.onEc
  exact .onCore (fun _ => rfl) fun _ => rfl

theorem portsKept_releaseAccepted (s : State) (core : Nat) : PortsKept s (s.releaseAccepted core) := by
  unfold State.releaseAccepted State.dropKeeps
  exact .onCore (fun _ => rfl) fun _ => rfl

theorem portsKept_releaseUnguarded (s : State) (core : Nat) : PortsKept s (s.releaseUnguarded core) := by
  unfold State.releaseUnguarded
  exact .onCore (fun _ => rfl) fun _ => rfl

theorem portsKept_ecAccept (s : State) (core gi : Nat) : PortsKept s (s.ecAccept core gi) := by
  unfold State.ecAccept
  split
  · exact .refl
  · next g _ =>
    refine .ite .refl ?_
    dsimp only
    have htied := (portsKept_onGuard s core gi fun g => { g with accepted := true }).trans
      (.of_resumes (onlyResumes_knotUnit _ (coreDie core) ((s.onGuard core gi fun g => { g with accepted := true }).ctxOf core) g.knot (.ec core) .tie))
    split
    · exact (htied.trans (.of_resumes (OnlyResumes.foldl (fun t d => onlyResumes_tileAccept ..) _ .refl))).trans (portsKept_releaseAccepted ..)
    · exact htied.trans (portsKept_releaseAccepted ..)

theorem portsKept_ecReadOut (s : State) (core : Nat) (m : OpMsg) : PortsKept s (s.ecReadOut core m) := by
  unfold State.ecReadOut
  split
  · exact .refl
  · exact .ite .refl ((portsKept_onGuard ..).trans (portsKept_ecAccept ..))

theorem portsKept_qopDone (s : State) (core port : Nat) (o : QOp) : PortsKept s (s.qopDone core port o) := by
  have hsignal : PortsKept s (match o.signal with | some m => (s.complete core m).ecReadOut core m | none => s) := by
    split
    · exact (portsKept_complete ..).trans (portsKept_ecReadOut ..)
    · exact .refl
  unfold State.qopDone
  dsimp only
  split
  · exact hsignal
  · refine hsignal.trans (.onCore (fun c => ?_) fun c => ?_)
    · split <;> rfl
    · split <;> rfl

theorem isSome_ite_none {α : Type} {c : Prop} [Decidable c] (a : α) : (if c then none else some a).isSome = decide (¬ c) := by
  by_cases h : c <;> simp [h]

/- One run. -/

section
variable {s : State} {core : Nat} {o : QOp}

/-- The QSPEC under which an operation runs at its site's rung. -/
def State.qopSpec (s : State) (core : Nat) (o : QOp) : QSpec := qspecOf ((s.core core).ladder o.lo o.hi) o.hi

/-- What a run of an operation leaves in its core: its ports, and one record more at the error-control unit. -/
structure RanTo (s : State) (core : Nat) (o : QOp) (t : State) (m : DamageMsg) : Prop where
  ports : (t.core core).qnt.ports = (s.core core).qnt.ports
  inbox : (t.core core).ec.inbox = (s.core core).ec.inbox ++ [m]
  site : m.site = (s.qopSpec core o).site
  tile : m.tile = o.tile
  epoch : m.epoch = o.epoch
  keep : m.keep.isSome = decide ((s.qopSpec core o).keepFmt ≠ 0)

theorem RanTo.kept {t u : State} {m : DamageMsg} (h : RanTo s core o t m) (k : PortsKept t u) : RanTo s core o u m :=
  ⟨(k.ports core).trans h.ports, (k.inbox core).trans h.inbox, h.site, h.tile, h.epoch, h.keep⟩

/-- A record delivered to the unit of a core whose ports stay. -/
theorem ranTo_onEcInbox {t : State} {m : DamageMsg} (h : PortsKept s t) (hsite : m.site = (s.qopSpec core o).site) (htile : m.tile = o.tile)
    (hepoch : m.epoch = o.epoch) (hkeep : m.keep.isSome = decide ((s.qopSpec core o).keepFmt ≠ 0)) : RanTo s core o (t.onEcInbox core (· ++ [m])) m where
  ports := by rw [State.onEcInbox, State.core_onCore_same, h.ports]
  inbox := by rw [State.onEcInbox, State.core_onCore_same, h.inbox]
  site := hsite
  tile := htile
  epoch := hepoch
  keep := hkeep

theorem State.runQOp_ranTo {r : State × Option MemErr} (h : s.runQOp core o = some r) : ∃ m, RanTo s core o r.1 m := by
  unfold State.runQOp at h
  dsimp only at h
  rw [if_neg Bool.false_ne_true] at h
  split at h
  · cases h
  · next p hp =>
    obtain rfl := Option.some.inj h
    refine ⟨_, RanTo.kept (ranTo_onEcInbox ?_ rfl rfl rfl ?_) (.ite .refl (.of_resumes (OnlyResumes.foldl (fun t d => onlyResumes_tileReport ..) _ .refl)))⟩
    · refine PortsKept.trans ?_ (.ite (.of_touches (touches_trackRaise ..)) .refl)
      refine PortsKept.trans ?_ (.of_touches (touches_damageTotals ..))
      refine PortsKept.trans ?_ (.of_touches (touches_writeRuns ..))
      split
      · exact .refl
      · exact (PortsKept.of_touches (touches_scrWrite ..)).trans ((PortsKept.of_touches (touches_bump ..)).trans (.onCore (fun _ => rfl) fun _ => rfl))
    · exact isSome_ite_none ..

/-- Writes to core scratch all take place. -/
theorem State.writeRuns_scratch {d : QDest} (hd : d.hbm = false) (s : State) (l : List (Nat × List Byte)) : (s.writeRuns d l).2 = none := by
  have hok (t : State) (a : Nat) (bs : List Byte) : t.destWrite d a bs = .ok (t.scrWrite d.core a bs) := by rw [State.destWrite, hd]; rfl
  unfold State.writeRuns
  induction l generalizing s with
  | nil => rfl
  | cons p l ih =>
    rw [List.foldl_cons]
    dsimp only
    rw [hok]
    exact ih _

theorem State.runQOp_scratch (hk : (s.qopSpec core o).keepFmt = 0) (hd : o.dst.hbm = false) : ∃ r, s.runQOp core o = some r ∧ r.2 = none := by
  have hk : (qspecOf ((s.core core).ladder o.lo o.hi) o.hi).keepFmt = 0 := hk
  unfold State.runQOp
  dsimp only
  rw [if_neg Bool.false_ne_true, if_pos hk]
  exact ⟨_, rfl, State.writeRuns_scratch hd ..⟩

/- The port. -/

theorem State.core_portRan (s : State) (core port : Nat) (rest : List QOp) : (s.portRan core port rest).core core = { s.core core with
    qnt := { (s.core core).qnt with ports := setNth (s.core core).qnt.ports port rest, stalled := setNth (s.core core).qnt.stalled port false } } := by
  rw [State.portRan, State.onQnt, State.core_onCore_same]

variable {port : Nat} {rest : List QOp}

/-- What follows a run: the operation leaves its port, and its completion. -/
def State.qopEnd (t : State) (core port : Nat) (rest : List QOp) (o : QOp) (e : Option MemErr) : State :=
  let u := (match e with
    | some e => (t.portRan core port rest).memErr (.core core) 22 ((t.portRan core port rest).ctxOf core) e
    | none => t.portRan core port rest).qopDone core port o
  if u.step.state = .draining then u.releaseUnguarded core else u

theorem exec_quantiserOperation (hc : core < 384) (hp : port < 4) (hport : (s.core core).qnt.ports[port]? = some (o :: rest)) :
    (s.runQOp core o = none → exec (.quantiserOperation core port) s = .next (s.keepStall core port)) ∧
    (∀ r, s.runQOp core o = some r → exec (.quantiserOperation core port) s =
      .next (if r.2 = some .held then s else r.1.qopEnd core port rest o r.2)) := by
  have hnth : nth (s.core core).qnt.ports [] port = o :: rest := by rw [nth, hport, Option.getD_some]
  have hexec : exec (.quantiserOperation core port) s = .next (match s.runQOp core o with
      | none => s.keepStall core port
      | some r => if r.2 = some .held then s else r.1.qopEnd core port rest o r.2) := by
    change execQuantiserOperation core port s = _
    rw [execQuantiserOperation, decide_eq_true hc, decide_eq_true hp, Bool.and_self, guardPart, if_pos rfl, hnth] <;> rfl
  exact ⟨fun h => by rw [hexec, h], fun r h => by rw [hexec, h]⟩

theorem portsKept_qopEnd (t : State) (e : Option MemErr) : PortsKept (t.portRan core port rest) (t.qopEnd core port rest o e) := by
  have herr : PortsKept (t.portRan core port rest) (match e with
      | some e => (t.portRan core port rest).memErr (.core core) 22 ((t.portRan core port rest).ctxOf core) e
      | none => t.portRan core port rest) := by
    split
    · exact .of_touches (touches_memErr ..)
    · exact .refl
  unfold State.qopEnd
  dsimp only
  have hdone := herr.trans (portsKept_qopDone _ core port o)
  exact .ite (hdone.trans (portsKept_releaseUnguarded ..)) hdone

end

/-- Settles O16. -/
theorem quantiserRuns : Obligations.QuantiserRuns := by
  unfold Obligations.QuantiserRuns
  intro s core port o rest hc hp hport q
  obtain ⟨hnone, hsome⟩ := exec_quantiserOperation hc hp hport
  refine ⟨fun r hr hheld => ?_, fun hk hd => State.runQOp_scratch hk hd, fun r hr hheld => ?_, fun hr => ⟨fun hstalled => ?_, fun hstalled => ?_⟩⟩
  · obtain ⟨m, hran⟩ := State.runQOp_ranTo hr
    have hkept := portsKept_qopEnd (core := core) (port := port) (rest := rest) (o := o) r.1 r.2
    refine ⟨_, m, by rw [hsome r hr, if_neg hheld], ?_, ?_, hran.site, hran.tile, hran.epoch, hran.keep⟩
    · have hlt : port < (s.core core).qnt.ports.length := (List.getElem?_eq_some_iff.1 hport).1
      rw [hkept.ports, State.core_portRan, hran.ports, setNth, List.getElem?_set_self hlt]
    · rw [hkept.inbox, State.core_portRan, hran.inbox]
  · rw [hsome r hr, if_pos hheld]
  · rw [hnone hr, State.keepStall, State.portStalled, if_pos hstalled]
  · rw [hnone hr, State.keepStall, State.portStalled, if_neg (by simp [hstalled]), State.onQnt, State.onCore, (touches_bump ..).core_eq]

end Sys2Proof.Machine
end

section
/-! PROOFS. Accumulator flags and the read-out of a sum (05 R136–R150, 04 R123). Settles O15. -/
set_option Elab.async false -- elaborate in order: side threads each hold a stack of their own

namespace Sys2Proof.Machine

open Host Claims

/- Flags. -/

theorem Acc.resolve_flags (a : Acc) :
    (a.nan = true ∨ a.pinf = true ∧ a.ninf = true → a.resolve.1 = .nan) ∧
    (a.nan = false → a.pinf = true → a.ninf = false → a.resolve.1 = .inf false) ∧
    (a.nan = false → a.pinf = false → a.ninf = true → a.resolve.1 = .inf true) := by
  unfold Acc.resolve
  refine ⟨fun h => ?_, fun hn hp hi => ?_, fun hn hp hi => ?_⟩
  · rw [if_pos]
    simpa using h
  · rw [hn, hp, hi]
    rfl
  · rw [hn, hp, hi]
    rfl

/- Residue checks. -/

/-- A fault recorded stays recorded, and STATUS bits of a register stay. -/
structure FaultKept (id : RegId) (s t : State) : Prop where
  fault : s.step.fault = true → t.step.fault = true
  bits : BitsStay id s t

theorem FaultKept.refl {id : RegId} {s : State} : FaultKept id s s := ⟨fun h => h, .refl ..⟩

theorem FaultKept.trans {id : RegId} {s t u : State} (h : FaultKept id s t) (k : FaultKept id t u) : FaultKept id s u :=
  ⟨fun f => k.fault (h.fault f), h.bits.trans k.bits⟩

section
variable (core k : Nat) (p : PlyDesc) (m : OpMsg) (r : List (Nat × Nat × Nat) × Nat × Nat)

/-- The registers that residue checks write, beyond those of causes. -/
def residueNames : List RegName := [.RESIDUE_CHECK_TOTAL, .RESIDUE_SKIP_TOTAL, .RESIDUE_INJECT, .RESIDUE_FAULT_TOTAL, .ACC_FAULT_DETAIL, .ACC_FAULT_RESIDUE]

/-- The checks of a member counted, and its ARM clear (R149, R150). -/
def State.residueCounted (s : State) : State :=
  let s := (s.bump (plyR .RESIDUE_CHECK_TOTAL core k) r.2.1).bump (plyR .RESIDUE_SKIP_TOTAL core k) r.2.2
  if r.2.1 = 0 then s else s.setRegFld (plyR .RESIDUE_INJECT core k) 0 0 0

/-- A failure counted and its first detail kept. -/
def State.residueNoted (s : State) (i exp obs : Nat) : State :=
  let s := s.bump (plyR .RESIDUE_FAULT_TOTAL core k) 1
  let det := w64 (m.idx % 2 ^ 32 + i % p.side * 2 ^ 36 + i / p.side * 2 ^ 40 + p.quad * 2 ^ 44)
  if bit (s.reg (plyR .ACC_FAULT_DETAIL core k)) 63 then s
  else (s.detail (plyR .ACC_FAULT_DETAIL core k) det).setReg (plyR .ACC_FAULT_RESIDUE core k) (w64 (obs + exp * 2 ^ 16 + min r.1.length 255 * 2 ^ 40))

theorem State.residueEvents_pass (s : State) (h : r.1 = []) : s.residueEvents core k p m r = s.residueCounted core k r := by
  unfold State.residueEvents
  dsimp only
  rw [h]
  rfl

theorem State.residueEvents_fail (s : State) {x : Nat × Nat × Nat} {l : List (Nat × Nat × Nat)} (h : r.1 = x :: l) :
    let u := (s.residueCounted core k r).residueNoted core k p m r x.1 x.2.1 x.2.2
    s.residueEvents core k p m r = u.raise (.core core) 20 (u.ctxOf core) (u.reg (plyR .ACC_FAULT_DETAIL core k)) := by
  obtain ⟨i, exp, obs⟩ := x
  unfold State.residueEvents State.residueNoted
  dsimp only
  rw [h]
  rfl

theorem regsWithin_residueCounted (s : State) : RegsWithin residueNames s (s.residueCounted core k r) := by
  unfold State.residueCounted
  have hcounts : RegsWithin residueNames s ((s.bump (plyR .RESIDUE_CHECK_TOTAL core k) r.2.1).bump (plyR .RESIDUE_SKIP_TOTAL core k) r.2.2) :=
    (regsWithin_bump ..).step (regsWithin_bump ..).mono
  exact .ite hcounts ((regsWithin_setRegFld ..).step hcounts)

theorem regsWithin_residueNoted (s : State) (i exp obs : Nat) : RegsWithin residueNames s (s.residueNoted core k p m r i exp obs) := by
  unfold State.residueNoted
  have hcount : RegsWithin residueNames s (s.bump (plyR .RESIDUE_FAULT_TOTAL core k) 1) := (regsWithin_bump ..).mono
  exact .ite hcount ((regsWithin_setReg ..).step ((regsWithin_detail ..).step hcount))

theorem State.step_residueCounted (s : State) : (s.residueCounted core k r).step = s.step := by
  have hk : Touches [.regs] s (s.residueCounted core k r) := by
    unfold State.residueCounted
    exact .ite (.step (touches_bump ..) (.step (touches_bump ..) .refl)) (.step (touches_setRegFld ..) (.step (touches_bump ..) (.step (touches_bump ..) .refl)))
  exact hk.step_eq

theorem State.step_residueNoted (s : State) (i exp obs : Nat) : (s.residueNoted core k p m r i exp obs).step = s.step := by
  have hk : Touches [.regs] s (s.residueNoted core k p m r i exp obs) := by
    unfold State.residueNoted
    exact .ite (.step (touches_bump ..) .refl) (.step (touches_setReg ..) (.step (touches_detail ..) (.step (touches_bump ..) .refl)))
  exact hk.step_eq

theorem regsWithin_residueEvents (s : State) : RegsWithin (residueNames ++ causeNames) s (s.residueEvents core k p m r) := by
  have hcounted := regsWithin_residueCounted core k r s
  cases h : r.1 with
  | nil =>
    rw [State.residueEvents_pass _ _ _ _ _ _ h]
    exact hcounted.mono
  | cons x l =>
    rw [State.residueEvents_fail _ _ _ _ _ _ h]
    exact (regsWithin_raise ..).step ((regsWithin_residueNoted ..).step hcounted.mono)

/-- A failing check raises RESIDUE_FAULT, as a fault. -/
theorem State.residueEvents_faults (s : State) (h : r.1 ≠ []) : (s.residueEvents core k p m r).step.fault = true ∧
    bit ((s.residueEvents core k p m r).reg (coreR .CORE_STATUS core)) 20 = true := by
  obtain ⟨x, l, hr⟩ := List.exists_cons_of_ne_nil h
  rw [State.residueEvents_fail _ _ _ _ _ _ hr]
  exact ⟨State.raiseWith_fault_flag .., State.bit_status_raised _ (.core core) (by decide) ..⟩

theorem faultKept_residueEvents (s : State) : FaultKept (coreR .CORE_STATUS core) s (s.residueEvents core k p m r) := by
  have hname : (coreR .CORE_STATUS core).name ∉ residueNames := (by decide : RegName.CORE_STATUS ∉ residueNames)
  have hcounted : FaultKept (coreR .CORE_STATUS core) s (s.residueCounted core k r) :=
    ⟨fun h => by rw [State.step_residueCounted, h], .of_reg_eq ((regsWithin_residueCounted ..).reg_eq _ hname)⟩
  cases h : r.1 with
  | nil =>
    rw [State.residueEvents_pass _ _ _ _ _ _ h]
    exact hcounted
  | cons x l =>
    have hfaults := State.residueEvents_faults core k p m r s (by simp [h])
    refine ⟨fun _ => hfaults.1, ?_⟩
    rw [State.residueEvents_fail _ _ _ _ _ _ h]
    exact (hcounted.bits.trans (.of_reg_eq ((regsWithin_residueNoted ..).reg_eq _ hname))).trans ((marks_raise ..).bits (.core core))

end

/- The sums move. -/

section
variable {s : State} {core q : Nat}

/-- A slot cleared by its read-out. -/
def PlySlot.cleared (sl : PlySlot) : PlySlot := { sl with run := none, held := none, tile := {} }

/-- The members' slots cleared, and the operation counted on each. -/
def State.slotsRead (s : State) (core q : Nat) (ks : List Nat) : State :=
  ks.foldl (fun s k => (s.onSlot core k q PlySlot.cleared).bump (plyR .OPS_TOTAL core k) 1) s

theorem State.core_slotRead (s : State) (core q k : Nat) : ((s.onSlot core k q PlySlot.cleared).bump (plyR .OPS_TOTAL core k) 1).core core =
    { s.core core with plies := (s.core core).plies.modify k fun y => { y with slots := y.slots.modify q PlySlot.cleared } } := by
  rw [(touches_bump ..).core_eq, State.onSlot, State.onPly, State.core_onCore_same]

/-- What reading the members leaves of one ply, and of the quantiser. -/
theorem State.slotsRead_spec {ks : List Nat} (hnd : ks.Nodup) (s : State) : ((s.slotsRead core q ks).core core).qnt = (s.core core).qnt ∧
    (∀ k, ((s.slotsRead core q ks).core core).plies[k]? =
      if k ∈ ks then (s.core core).plies[k]?.map fun y => { y with slots := y.slots.modify q PlySlot.cleared } else (s.core core).plies[k]?) ∧
    (∀ k, (s.slotsRead core q ks).reg (plyR .OPS_TOTAL core k) =
      if k ∈ ks then satAdd (s.reg (plyR .OPS_TOTAL core k)) 1 else s.reg (plyR .OPS_TOTAL core k)) := by
  induction ks generalizing s with
  | nil => exact ⟨rfl, fun k => by rw [if_neg List.not_mem_nil]; rfl, fun k => by rw [if_neg List.not_mem_nil]; rfl⟩
  | cons j ks ih =>
    obtain ⟨hj, hnd⟩ := List.nodup_cons.1 hnd
    obtain ⟨hqnt, hply, hreg⟩ := ih hnd ((s.onSlot core j q PlySlot.cleared).bump (plyR .OPS_TOTAL core j) 1)
    rw [State.slotsRead, List.foldl_cons, ← State.slotsRead]
    rw [State.core_slotRead] at hqnt hply
    refine ⟨hqnt, fun k => ?_, fun k => ?_⟩
    · rw [hply, List.getElem?_modify]
      by_cases hk : j = k
      · subst hk
        simp [hj]
      · simp [hk, Ne.symm hk]
    · rw [hreg]
      by_cases hk : j = k
      · subst hk
        rw [if_neg hj, if_pos List.mem_cons_self, State.reg_bump, if_neg (by decide)]
        rfl
      · have hne : plyR .OPS_TOTAL core k ≠ plyR .OPS_TOTAL core j := fun e => hk (by simpa [plyR, rid] using e.symm)
        rw [State.reg_bump_ne _ _ _ _ hne]
        simp [Ne.symm hk]
        rfl

end

/- READ_OUT. -/

theorem PlyDesc.nodup_members (p : PlyDesc) : p.members.Nodup := by
  unfold PlyDesc.members
  split
  · exact (by simp : [p.ply, p.ply + 1].Nodup).filter _
  · split
    · decide
    · exact List.pairwise_singleton ..

section
variable {s : State} {core : Nat} {p : PlyDesc} {m : OpMsg}

/-- What a member's tile fails, its outputs checked and skipped. -/
def State.memberCheck (s : State) (core q k : Nat) : List (Nat × Nat × Nat) × Nat × Nat :=
  residueCheck ((s.ply core k).slot q).tile (bit (s.reg (plyR .RESIDUE_INJECT core k)) 0)

/-- The members' checks recorded, after their slots are read. -/
def State.membersChecked (s : State) (core : Nat) (p : PlyDesc) (m : OpMsg) : State :=
  p.members.foldl (fun t k => t.residueEvents core k p m (s.memberCheck core p.slot k)) (s.slotsRead core p.slot p.members)

theorem State.membersChecked_leaves (s : State) (core : Nat) (p : PlyDesc) (m : OpMsg) :
    (s.membersChecked core p m).cores = (s.slotsRead core p.slot p.members).cores ∧
    RegsWithin (residueNames ++ causeNames) (s.slotsRead core p.slot p.members) (s.membersChecked core p m) := by
  have hk : Touches [.out, .regs, .step, .links] (s.slotsRead core p.slot p.members) (s.membersChecked core p m) :=
    .foldl .refl fun t k => touches_residueEvents ..
  exact ⟨hk.cores_eq, .foldl .refl fun t k => regsWithin_residueEvents ..⟩

theorem State.membersChecked_fails {k : Nat} (hk : k ∈ p.members) (hfail : (s.memberCheck core p.slot k).1 ≠ []) :
    (s.membersChecked core p m).step.fault = true ∧ bit ((s.membersChecked core p m).reg (coreR .CORE_STATUS core)) 20 = true := by
  obtain ⟨l₁, l₂, hl⟩ := List.append_of_mem hk
  unfold State.membersChecked
  rw [hl, List.foldl_append, List.foldl_cons]
  obtain ⟨hfault, hbit⟩ := State.residueEvents_faults core k p m _ (l₁.foldl (fun t k => t.residueEvents core k p m (s.memberCheck core p.slot k))
    (s.slotsRead core p.slot (l₁ ++ k :: l₂))) hfail
  have hkept := foldl_rel (R := FaultKept (coreR .CORE_STATUS core)) (fun _ => .refl) (fun h k => h.trans k)
    (fun t k => t.residueEvents core k p m (s.memberCheck core p.slot k)) (fun t k => faultKept_residueEvents ..) l₂
  exact ⟨(hkept _).fault hfault, (hkept _).bits.bit 20 hbit⟩

/-- A member fails its residue check. -/
def State.anyFails (s : State) (core : Nat) (p : PlyDesc) : Bool := p.members.any fun k => !(s.memberCheck core p.slot k).1.isEmpty

theorem State.anyFails_eq_true : s.anyFails core p = true ↔ ∃ k ∈ p.members, (s.memberCheck core p.slot k).1 ≠ [] := by
  simp [State.anyFails]

theorem State.readOut_fails (h : s.anyFails core p = true) : s.readOut core p m = (s.membersChecked core p m).complete core m := by
  unfold State.readOut
  dsimp only
  simp only [List.map_map, List.foldl_map, List.any_map]
  exact if_pos h

/-- The registers that a sum passed to the quantiser writes. -/
def passNames : List RegName := [.ACC_SAT_TOTAL, .ACC_SPECIAL_TOTAL] ++ causeNames

/-- A sum that passes its checks goes to port 0. -/
theorem State.readOut_passes (h : s.anyFails core p = false) : ∃ t o, s.readOut core p m = t.onQnt core (fun u => { u with ports := u.ports.modify 0 (· ++ [o]) }) ∧
    t.cores = (s.membersChecked core p m).cores ∧ RegsWithin passNames (s.membersChecked core p m) t ∧
    o.tile = p.tile ∧ o.epoch = p.epoch ∧ o.signal = some m ∧ o.plies = p.members := by
  unfold State.readOut
  dsimp only
  simp only [List.map_map, List.foldl_map, List.any_map]
  split
  · next hany => exact absurd (h.symm.trans hany) Bool.false_ne_true
  · refine ⟨_, _, rfl, ?_, ?_, rfl, rfl, rfl, rfl⟩
    · refine Touches.cores_eq (F := [.out, .regs, .step, .links]) (.foldl (.ite ?_ ?_) fun t r => .step (touches_bump ..) (.step (touches_bump ..) .refl))
      · exact .step (touches_raise ..) (.ite (.step (touches_raise ..) .refl) .refl)
      · exact .ite (.step (touches_raise ..) .refl) .refl
    · refine .foldl (.ite ?_ ?_) fun t r => (regsWithin_bump ..).step (regsWithin_bump ..).mono
      · exact (regsWithin_raise ..).step (.ite (regsWithin_raise ..).mono .refl)
      · exact .ite (regsWithin_raise ..).mono .refl

end

section
variable {s : State} {core ply quad : Nat} {u : PlyRun} {port : List QOp}

/-- A finished sum in its slot, and what waits at the ply port. -/
structure SumReady (s : State) (core ply quad : Nat) (u : PlyRun) (port : List QOp) : Prop where
  core_lt : core < 384
  ply_lt : ply < 4
  quad_lt : quad < 4
  run : ((s.ply core ply).slot quad).run = some u
  done : u.done = true
  waiting : (s.core core).qnt.ports[0]? = some port
  here : (plyDesc u.msg.words).ply = ply

/-- Members whose read-out buffer is occupied. -/
def busyMembers (p : PlyDesc) (port : List QOp) : List Nat := p.members.filter fun k => port.any fun o => o.plies.contains k

theorem exec_readOut (h : SumReady s core ply quad u port) :
    exec (.readOut core ply quad) s = .next (if !(busyMembers (plyDesc u.msg.words) port).isEmpty
      then (busyMembers (plyDesc u.msg.words) port).foldl (fun s k => s.bump (plyR .READOUT_STALL_TOTAL core k) 1) s
      else s.readOut core (plyDesc u.msg.words) u.msg) := by
  have hbusy : (plyDesc u.msg.words).members.filter (s.bufferBusy core) = busyMembers (plyDesc u.msg.words) port := by
    have hnth : nth (s.core core).qnt.ports [] 0 = port := by rw [nth, h.waiting, Option.getD_some]
    unfold busyMembers
    congr 1
    funext k
    rw [State.bufferBusy, hnth]
  change execReadOut core ply quad s = _
  rw [execReadOut, decide_eq_true h.core_lt, decide_eq_true h.ply_lt, decide_eq_true h.quad_lt, Bool.and_self, Bool.and_self, guardPart, if_pos rfl, h.run]
  dsimp only
  rw [h.done, if_neg (by simp [h.here]), hbusy]

theorem readOut_stalls (h : SumReady s core ply quad u port) (hbusy : busyMembers (plyDesc u.msg.words) port ≠ []) :
    exec (.readOut core ply quad) s = .next ((busyMembers (plyDesc u.msg.words) port).foldl (fun t k => t.bump (plyR .READOUT_STALL_TOTAL core k) 1) s) := by
  rw [exec_readOut h, if_pos (by simpa using hbusy)]

theorem exec_readOut_free (h : SumReady s core ply quad u port) (hfree : busyMembers (plyDesc u.msg.words) port = []) :
    exec (.readOut core ply quad) s = .next (s.readOut core (plyDesc u.msg.words) u.msg) := by
  rw [exec_readOut h, hfree]
  rfl

theorem readOut_faults (h : SumReady s core ply quad u port) (hfree : busyMembers (plyDesc u.msg.words) port = [])
    (hfail : s.anyFails core (plyDesc u.msg.words) = true) :
    ∃ t, exec (.readOut core ply quad) s = .next t ∧ (t.core core).qnt = (s.core core).qnt ∧ t.step.fault = true ∧
      bit (t.reg (coreR .CORE_STATUS core)) 20 = true ∧ ∀ o ∈ (t.core core).cc.inFlight, o.tag = u.msg.tag → u.msg.reissue = true := by
  obtain ⟨k, hk, hne⟩ := State.anyFails_eq_true.1 hfail
  obtain ⟨hfault, hbit⟩ := State.membersChecked_fails (m := u.msg) hk hne
  obtain ⟨hcores, -⟩ := s.membersChecked_leaves core (plyDesc u.msg.words) u.msg
  have hqnt := (State.slotsRead_spec (core := core) (q := (plyDesc u.msg.words).slot) (plyDesc u.msg.words).nodup_members s).1
  have hcomplete := touches_complete (s.membersChecked core (plyDesc u.msg.words) u.msg) core u.msg
  refine ⟨_, by rw [exec_readOut_free h hfree, State.readOut_fails hfail], ?_, ?_, ?_, ?_⟩
  · have hkept : ∀ t : State, ((t.complete core u.msg).core core).qnt = (t.core core).qnt := fun t => by
      rw [State.complete]
      split
      · rfl
      · rw [State.core_onCore_same]
    rw [hkept, State.core, hcores, ← State.core, hqnt]
  · rw [hcomplete.step_eq, hfault]
  · rw [hcomplete.reg_eq, hbit]
  · intro o ho htag
    refine Classical.byContradiction fun hre => ?_
    rw [State.complete, if_neg hre, State.core_onCore_same] at ho
    exact absurd htag (by simpa using (List.mem_filter.1 ho).2)

theorem readOut_queues (h : SumReady s core ply quad u port) (hslot : (plyDesc u.msg.words).slot = quad)
    (hfree : busyMembers (plyDesc u.msg.words) port = []) (hpass : s.anyFails core (plyDesc u.msg.words) = false) :
    let p := plyDesc u.msg.words
    ∃ t o, exec (.readOut core ply quad) s = .next t ∧ (t.core core).qnt.ports[0]? = some (port ++ [o]) ∧
      o.tile = p.tile ∧ o.epoch = p.epoch ∧ o.signal = some u.msg ∧ o.plies = p.members ∧ t.hbm = s.hbm ∧ t.scratch = s.scratch ∧
      ∀ k ∈ p.members, t.reg (plyR .OPS_TOTAL core k) = satAdd (s.reg (plyR .OPS_TOTAL core k)) 1 ∧
        ∀ y sl, (s.core core).plies[k]? = some y → y.slots[quad]? = some sl →
          ∃ y', (t.core core).plies[k]? = some y' ∧ y'.queue = y.queue ∧ y'.slots[quad]? = some { sl with run := none, held := none, tile := {} } := by
  intro p
  obtain ⟨t, o, hread, hcores, hregs, htile, hepoch, hsignal, hplies⟩ := State.readOut_passes (m := u.msg) hpass
  obtain ⟨hchecked, hchecks⟩ := s.membersChecked_leaves core p u.msg
  obtain ⟨hqnt, hply, hops⟩ := State.slotsRead_spec (core := core) (q := p.slot) p.nodup_members s
  have hcore : t.core core = (s.slotsRead core p.slot p.members).core core := by rw [State.core, hcores, hchecked, ← State.core]
  have hexec := exec_readOut_free h hfree
  have htouch := touches_readOut s core p u.msg
  rw [hread] at hexec htouch
  refine ⟨_, o, hexec, ?_, htile, hepoch, hsignal, hplies, htouch.hbm_eq, htouch.scratch_eq, fun k hk => ⟨?_, fun y sl hy hsl => ?_⟩⟩
  · rw [State.onQnt, State.core_onCore_same, hcore, hqnt, List.getElem?_modify_eq, h.waiting]
    rfl
  · rw [(touches_onQnt ..).reg_eq, hregs.reg_eq _ (show RegName.OPS_TOTAL ∉ passNames by decide),
      hchecks.reg_eq _ (show RegName.OPS_TOTAL ∉ residueNames ++ causeNames by decide), hops, if_pos hk]
  · refine ⟨{ y with slots := y.slots.modify p.slot PlySlot.cleared }, ?_, rfl, ?_⟩
    · rw [State.onQnt, State.core_onCore_same, hcore, hply, if_pos hk, hy]
      rfl
    · rw [hslot, List.getElem?_modify_eq, hsl]
      rfl

end

/-- Settles O15. -/
theorem accumulatorFlagsAndReadOut : Obligations.AccumulatorFlagsAndReadOut := by
  unfold Obligations.AccumulatorFlagsAndReadOut
  refine ⟨⟨fun a => ⟨rfl, rfl, rfl⟩, Acc.resolve_flags⟩, ?_⟩
  intro s core ply quad u port hc hply hquad hrun hdone hport p hslot hhere busy fails
  have h : SumReady s core ply quad u port := ⟨hc, hply, hquad, hrun, hdone, hport, hhere⟩
  have hfails (k : Nat) : fails k = (s.memberCheck core p.slot k).1 := by rw [hslot]; rfl
  refine ⟨fun hfree hpass => readOut_queues h hslot hfree ?_, fun hfree hfail => readOut_faults h hfree ?_, readOut_stalls h⟩
  · rw [Bool.eq_false_iff, Ne, State.anyFails_eq_true]
    rintro ⟨k, hk, hne⟩
    exact hne ((hfails k).symm.trans (hpass k hk))
  · obtain ⟨k, hk, hne⟩ := hfail
    exact State.anyFails_eq_true.2 ⟨k, hk, fun e => hne ((hfails k).trans e)⟩

end Sys2Proof.Machine
end

section
/-! PROOFS. A ply's descriptor: acceptance into the members' queues, or rejection (04 R114, R121, R124). Settles O11. -/
set_option Elab.async false -- elaborate in order: side threads each hold a stack of their own

namespace Sys2Proof.Machine

open Host Claims

section
variable {s : State} {core ply : Nat} {m : OpMsg} {rest : List OpMsg}

/-- The oldest descriptor of the in-box is for this ply, is no re-issue, and finds room. -/
structure DescWaits (s : State) (core ply kind : Nat) (m : OpMsg) (rest : List OpMsg) : Prop where
  core_lt : core < 384
  ply_lt : ply < 4
  inbox : (s.core core).plyInbox = m :: rest
  fresh : m.reissue = false
  here : (plyDesc m.words).ply = ply
  kind : (plyDesc m.words).kind = kind
  room : ∀ k ∈ (plyDesc m.words).members, (nth (s.core core).plies {} k).queue.length < 4

theorem execPlyAccept_oldest {kind : Nat} (h : DescWaits s core ply kind m rest) : execPlyAccept kind core ply s = .next (s.plyAccept core m) := by
  have hfresh : (!reissueWaits (s.core core) m) = true := by rw [reissueWaits, h.fresh]; rfl
  have hmine : ((plyDesc m.words).kind = kind && (plyDesc m.words).ply = ply) = true := by simp [h.kind, h.here]
  have hroom : ((msgMembers m).all fun k => decide ((nth (s.core core).plies {} k).queue.length < 4)) = true :=
    List.all_eq_true.2 fun k hk => decide_eq_true (h.room k hk)
  have hfind (l : List OpMsg) : (m :: l).find? (fun m => (plyDesc m.words).kind = kind && (plyDesc m.words).ply = ply) = some m := by
    rw [List.find?_cons, hmine]
  have hwhile (l : List OpMsg) : (m :: l).takeWhile (fun m => !((plyDesc m.words).kind = kind && (plyDesc m.words).ply = ply)) = [] := by
    rw [List.takeWhile_cons, hmine]
    rfl
  rw [execPlyAccept, decide_eq_true h.core_lt, decide_eq_true h.ply_lt, Bool.and_self, guardPart, if_pos rfl]
  dsimp only
  rw [h.inbox, List.filter_cons_of_pos (p := fun m => !reissueWaits (s.core core) m) hfresh, hfind, hwhile]
  dsimp only
  rw [hroom]
  rfl

/-- The descriptor out of the in-box. -/
def State.descTaken (s : State) (core : Nat) (rest : List OpMsg) : State := s.setCore core { s.core core with plyInbox := rest }

theorem State.descTaken_eq (h : (s.core core).plyInbox = m :: rest) :
    (s.onCore core fun c => { c with plyInbox := c.plyInbox.erase m }) = s.descTaken core rest := by
  rw [State.onCore, State.descTaken, h, List.erase_cons_head]

/-- The words of a descriptor under its guard's layer. -/
def State.descWords (s : State) (core : Nat) (m : OpMsg) : List W64 := ladderWords (s.core core) (guardOf (s.core core) m) m.words

/-- The descriptor in the queue of every member. -/
def State.descQueued (s : State) (core : Nat) (m : OpMsg) (rest : List OpMsg) : State :=
  (plyDesc (s.descWords core m)).members.foldl
    (fun t k => t.setCore core { t.core core with plies := (t.core core).plies.modify k fun y =>
      { y with queue := y.queue ++ [{ m with words := s.descWords core m, guard := guardOf (s.core core) m }] } })
    (s.descTaken core rest)

/-- What the checks say of the descriptor. -/
def State.descVerdict (s : State) (core : Nat) (m : OpMsg) : Option (Nat × Nat) :=
  plyVerdict (s.core core) (s.ringSize core) m.words (s.descWords core m)

theorem State.plyAccept_accepts (hin : (s.core core).plyInbox = m :: rest) (hfresh : m.reissue = false) (hok : s.descVerdict core m = none) :
    (guardOf (s.core core) m = none → s.plyAccept core m = s.descQueued core m rest) ∧
    (∀ k, guardOf (s.core core) m = some k → s.plyAccept core m = ((s.descQueued core m rest).onGuard core k fun x => { x with
      chain := x.chain ++ [{ m with guard := some k }]
      epoch := if x.chain.isEmpty then (plyDesc (s.descWords core m)).epoch else x.epoch }).ecPoll core) := by
  have hverdict : plyVerdict (s.core core) ((s.descTaken core rest).ringSize core) m.words (s.descWords core m) = none := hok
  constructor
  · intro hg
    unfold State.plyAccept
    dsimp only
    rw [if_neg (by simp [hfresh] : ¬ m.reissue = true), ← State.descWords, State.descTaken_eq hin, hverdict]
    dsimp only
    rw [State.descQueued, hg]
    rfl
  · intro k hg
    unfold State.plyAccept
    dsimp only
    rw [if_neg (by simp [hfresh] : ¬ m.reissue = true), ← State.descWords, State.descTaken_eq hin, hverdict]
    dsimp only
    rw [State.descQueued, hg]
    exact if_neg (by simp [hfresh])

theorem State.plyAccept_rejects (hin : (s.core core).plyInbox = m :: rest) (hfresh : m.reissue = false) {e : Nat × Nat} (hbad : s.descVerdict core m = some e) :
    s.plyAccept core m = ((s.descTaken core rest).plyReject core (plyDesc (s.descWords core m)).ply e.1 e.2 m.idx).complete core m := by
  have hverdict : plyVerdict (s.core core) ((s.descTaken core rest).ringSize core) m.words (s.descWords core m) = some e := hbad
  unfold State.plyAccept
  dsimp only
  rw [if_neg (by simp [hfresh] : ¬ m.reissue = true), ← State.descWords, State.descTaken_eq hin, hverdict]

/-- A rejection counts and is marked. -/
theorem State.plyReject_marks (t : State) (core p code word idx : Nat) : (t.plyReject core p code word idx).step.rejected = true ∧
    (t.plyReject core p code word idx).reg (plyR .PLY_REJECT_TOTAL core p) = satAdd (t.reg (plyR .PLY_REJECT_TOTAL core p)) 1 := by
  refine ⟨rfl, ?_⟩
  have hrest : RegsWithin (.PLY_ERR_DETAIL :: causeNames) (t.bump (plyR .PLY_REJECT_TOTAL core p) 1) (t.plyReject core p code word idx) := by
    unfold State.plyReject State.raiseDetail
    exact ((marks_markRejected _).regs.step ((regsWithin_raise ..).step (regsWithin_detail ..).mono))
  rw [hrest.reg_eq _ (show RegName.PLY_REJECT_TOTAL ∉ .PLY_ERR_DETAIL :: causeNames by decide), State.reg_bump, if_neg (by decide)]

theorem plyAccept_rejected (hin : (s.core core).plyInbox = m :: rest) (hfresh : m.reissue = false) {e : Nat × Nat} (hbad : s.descVerdict core m = some e) :
    let t := s.plyAccept core m
    let p := plyDesc (s.descWords core m)
    (t.core core).plyInbox = rest ∧ (t.core core).plies = (s.core core).plies ∧ t.step.rejected = true ∧
      t.reg (plyR .PLY_REJECT_TOTAL core p.ply) = satAdd (s.reg (plyR .PLY_REJECT_TOTAL core p.ply)) 1 ∧
      ∀ o ∈ (t.core core).cc.inFlight, o.tag ≠ m.tag := by
  intro t p
  have ht : t = ((s.descTaken core rest).plyReject core p.ply e.1 e.2 m.idx).complete core m := State.plyAccept_rejects hin hfresh hbad
  obtain ⟨hrejected, htotal⟩ := (s.descTaken core rest).plyReject_marks core p.ply e.1 e.2 m.idx
  have hreject := touches_plyReject (s.descTaken core rest) core p.ply e.1 e.2 m.idx
  have htaken : (s.descTaken core rest).core core = { s.core core with plyInbox := rest } := State.core_setCore_same ..
  have hk := touches_complete ((s.descTaken core rest).plyReject core p.ply e.1 e.2 m.idx) core m
  have hcore : t.core core = { s.core core with plyInbox := rest, cc := { (s.core core).cc with inFlight := (s.core core).cc.inFlight.filter fun o => o.tag ≠ m.tag } } := by
    rw [ht, State.complete, if_neg (by simp [hfresh]), State.core_onCore_same, hreject.core_eq, htaken]
  refine ⟨by rw [hcore], by rw [hcore], by rw [ht, hk.step_eq, hrejected], ?_, fun o ho => ?_⟩
  · rw [ht, hk.reg_eq, htotal]
    rfl
  · rw [hcore] at ho
    simpa using (List.mem_filter.1 ho).2

end

/-- Settles O11. -/
theorem plyAccepts : Obligations.PlyAccepts := by
  unfold Obligations.PlyAccepts
  intro s core ply m rest hc hply hin hfresh hhere hroom i hi g ws p queued
  have hexec : exec i s = .next (s.plyAccept core m) := by
    rcases hi with ⟨hkind, rfl⟩ | ⟨hkind, rfl⟩
    · exact execPlyAccept_oldest ⟨hc, hply, hin, hfresh, hhere, hkind, hroom⟩
    · exact execPlyAccept_oldest ⟨hc, hply, hin, hfresh, hhere, hkind, hroom⟩
  refine ⟨fun hok => ?_, fun e hbad => ?_⟩
  · obtain ⟨hplain, hguarded⟩ := State.plyAccept_accepts hin hfresh hok
    exact ⟨fun hg => by rw [hexec, hplain hg]; rfl, fun k hg => by rw [hexec, hguarded k hg]; rfl⟩
  · exact ⟨_, hexec, plyAccept_rejected hin hfresh hbad⟩

end Sys2Proof.Machine
end

section
/-! PROOFS. A core's DMA engine: rejection, walks, completion, and the writes of peers (12 R326–R334, 15 R398). Settles O29. -/
set_option Elab.async false -- elaborate in order: side threads each hold a stack of their own

namespace Sys2Proof.Machine

open Host Claims

/- Which command runs a descriptor. -/

section
variable {r : (Nat → List EccEvent → List (Nat × Nat) → Nat → Instr) × Nat × List Nat} {s : State} {n : Nat} {m : OpMsg}

theorem exec_dmaKinds (hr : r ∈ dmaKinds) (hn : n < 384) (hnext : (s.core n).dmaNext = some m) (hkind : fld (m.w 0) 3 0 = r.2.1) (hop : fld (m.w 0) 28 27 ∈ r.2.2)
    (late : Nat) : exec (r.1 n [] [] late) s = .next ((s.dmaWalk n m).crossLate (coreDie n) late) := by
  have hrun (want : Nat → Nat → Bool) (hw : want (fld (m.w 0) 3 0) (fld (m.w 0) 28 27) = true) :
      execDma n want [] [] late s = .next ((s.dmaWalk n m).crossLate (coreDie n) late) := by
    rw [execDma, decide_eq_true hn, guardPart, if_pos rfl, hnext]
    exact congrArg Outcome.next (if_pos hw)
  simp only [dmaKinds, List.mem_cons, List.not_mem_nil, or_false] at hr
  obtain rfl | rfl | rfl | rfl := hr
  · exact hrun (fun k _ => k = 4) (by rw [hkind]; rfl)
  · exact hrun (fun k o => k = 5 && (o = 0 || o = 3)) (by rw [hkind]; simpa using hop)
  · exact hrun (fun k o => k = 5 && o = 1) (by rw [hkind]; simpa using hop)
  · exact hrun (fun k o => k = 5 && o = 2) (by rw [hkind]; simpa using hop)

theorem State.crossLate_zero (s : State) (d : Nat) : s.crossLate d 0 = s := if_pos rfl

/-- A core that belongs to the issuing core's context. -/
abbrev State.sameCtx (s : State) (n k : Nat) : Bool := s.job.used.contains k && s.ctxOf k = s.ctxOf n || k = n

/-- The checks of an unversioned descriptor. -/
def State.dmaCode (s : State) (n : Nat) (m : OpMsg) : Option Nat := (dmaDesc n m.words).check (s.core n) m.words (s.ringSize n) (s.sameCtx n)

theorem State.dmaVersion_plain {p : DmaDesc} (h : p.versioned = false) : s.dmaVersion n p = .ok (some p) := by
  rw [State.dmaVersion, h]
  rfl

/-- The descriptor's run marked walked, and lost where its target is fenced. -/
def State.dmaMark (s : State) (n : Nat) (m : OpMsg) (lost : Bool) : State :=
  s.setCore n { s.core n with dma := (s.core n).dma.map fun x => if x.msg.tag = m.tag then { x with walked := true, lost := x.lost || lost } else x }

theorem State.dmaWalk_rejects (hv : (dmaDesc n m.words).versioned = false) {code : Nat} (h : s.dmaCode n m = some code) : s.dmaWalk n m = s.dmaReject n m code := by
  unfold State.dmaWalk
  dsimp only
  rw [State.dmaVersion_plain hv]
  dsimp only
  rw [show DmaDesc.check _ _ _ _ _ = some code from h]

theorem State.dmaWalk_fenced (hv : (dmaDesc n m.words).versioned = false) (h : s.dmaCode n m = none) (hdst : (dmaDesc n m.words).dst.hbm = false)
    (hf : s.coreFenced (dmaDesc n m.words).target = true) : s.dmaWalk n m = s.dmaMark n m true := by
  unfold State.dmaWalk
  dsimp only
  rw [State.dmaVersion_plain hv]
  dsimp only
  rw [show DmaDesc.check _ _ _ _ _ = none from h]
  dsimp only
  rw [hdst, hf, if_pos (by decide), State.onCore, State.dmaMark]
  simp only [Bool.or_true]

/-- A descriptor about to be walked: marked and counted. -/
def State.dmaReady (s : State) (n : Nat) (m : OpMsg) : State :=
  ((s.dmaMark n m false).dmaTotals n (dmaDesc n m.words)).dmaTscale n (dmaDesc n m.words)

/-- The walk of a descriptor that is ready, through the quantiser where one is named. -/
def State.dmaGo (s : State) (n : Nat) (m : OpMsg) : State × Option MemErr :=
  if (dmaDesc n m.words).quant then (s.dmaReady n m).dmaQuant n m (dmaDesc n m.words) else (s.dmaReady n m).dmaPlain n m (dmaDesc n m.words)

/-- A descriptor that passes its checks and meets no memory event. -/
theorem State.dmaWalk_walks (hv : (dmaDesc n m.words).versioned = false) (h : s.dmaCode n m = none)
    (hdst : (dmaDesc n m.words).dst.hbm = true ∨ s.coreFenced (dmaDesc n m.words).target = false) (hw : (s.dmaGo n m).2 = none) :
    s.dmaWalk n m = (s.dmaGo n m).1 := by
  have hmark : (s.onCore n fun c => { c with dma := c.dma.map fun r => if r.msg.tag = m.tag then { r with walked := true } else r }) = s.dmaMark n m false := by
    rw [State.onCore, State.dmaMark]
    simp only [Bool.or_false]
  have hnot : ¬ (!(dmaDesc n m.words).dst.hbm && s.coreFenced (dmaDesc n m.words).target) = true := by
    rcases hdst with e | e <;> simp [e]
  unfold State.dmaWalk
  dsimp only
  rw [State.dmaVersion_plain hv]
  dsimp only
  rw [show DmaDesc.check _ _ _ _ _ = none from h]
  dsimp only
  rw [State.dmaGo, State.dmaReady] at hw ⊢
  rw [if_neg hnot, hmark, hw]

/- Rejection. -/

theorem State.dmaReject_leaves (s : State) (n : Nat) (m : OpMsg) (code : Nat) : let t := s.dmaReject n m code
    t.hbm = s.hbm ∧ t.scratch = s.scratch ∧ t.step.rejected = true ∧ (∀ x ∈ (t.core n).dma, x.msg.tag ≠ m.tag) ∧
      t.reg (coreR .DMA_REJECT_TOTAL n) = satAdd (s.reg (coreR .DMA_REJECT_TOTAL n)) 1 := by
  intro t
  have hk := touches_dmaReject s n m code
  generalize hu : ((s.bump (coreR .DMA_REJECT_TOTAL n) 1).raiseDetail (coreR .DMA_ERR_DETAIL n) (dmaDetail code m.idx) (.core n)
    (if code = 1 then 0 else 13) (s.ctxOf n)).markRejected = u
  have ht : t = (u.onCore n fun c => { c with dma := c.dma.filter fun r => r.msg.tag ≠ m.tag }).complete n m := by
    rw [← hu]
    rfl
  have hcomplete := touches_complete (u.onCore n fun c => { c with dma := c.dma.filter fun r => r.msg.tag ≠ m.tag }) n m
  have hrest : RegsWithin (.DMA_ERR_DETAIL :: causeNames) (s.bump (coreR .DMA_REJECT_TOTAL n) 1) u := by
    rw [← hu]
    unfold State.raiseDetail
    exact (marks_markRejected _).regs.step ((regsWithin_raise ..).step (regsWithin_detail ..).mono)
  refine ⟨hk.hbm_eq, hk.scratch_eq, ?_, fun x hx => ?_, ?_⟩
  · rw [ht, hcomplete.step_eq, (touches_onCore ..).step_eq, ← hu]
    rfl
  · have hdma : (t.core n).dma = (u.core n).dma.filter fun r => r.msg.tag ≠ m.tag := by
      rw [ht, State.complete]
      split
      · rw [State.core_onCore_same]
      · rw [State.core_onCore_same, State.core_onCore_same]
    rw [hdma] at hx
    simpa using (List.mem_filter.1 hx).2
  · rw [ht, hcomplete.reg_eq, (touches_onCore ..).reg_eq, hrest.reg_eq _ (show RegName.DMA_REJECT_TOTAL ∉ .DMA_ERR_DETAIL :: causeNames by decide),
      State.reg_bump, if_neg (by decide)]

end

/- Completion. -/

section
variable {s : State} {n : Nat}

/-- A descriptor whose acknowledgements are in completes. -/
theorem State.dmaComplete_first {r : DmaRun} {rest : List DmaRun} {acks : Nat} (hdma : (s.core n).dma = r :: rest) (hw : r.walked = true) (ha : r.acks ≤ acks)
    (hq : r.qops = 0) (hl : r.lost = false) (hre : r.msg.reissue = false) : let t := s.dmaComplete n acks 0
    (∀ x ∈ (t.core n).dma, x.msg.tag ≠ r.msg.tag) ∧ (∀ o ∈ (t.core n).cc.inFlight, o.tag ≠ r.msg.tag) ∧
      t.reg (coreR .DESC_TOTAL n) = satAdd (s.reg (coreR .DESC_TOTAL n)) 1 := by
  intro t
  generalize hu : (s.onCore n fun c => { c with dma := takeAcks acks c.dma }) = u
  have hcore : u.core n = { s.core n with dma := takeAcks acks (s.core n).dma } := by rw [← hu, State.core_onCore_same]
  have hfind : (u.core n).dma.find? (fun r => r.walked && r.acks = 0 && r.qops = 0 && !r.lost) = some { r with acks := r.acks - acks } := by
    rw [hcore, hdma, takeAcks, List.find?_cons_of_pos]
    simp [hw, hq, hl, Nat.sub_eq_zero_of_le ha]
  have ht : t = ((u.onCore n fun c => { c with dma := c.dma.filter fun x => x.msg.tag ≠ r.msg.tag }).bump (coreR .DESC_TOTAL n) 1).complete n r.msg := by
    change s.dmaComplete n acks 0 = _
    unfold State.dmaComplete
    dsimp only
    rw [State.crossLate_zero, hu, hfind]
  have hend : t.core n = { u.core n with dma := (u.core n).dma.filter fun x => x.msg.tag ≠ r.msg.tag
                                         cc := { (u.core n).cc with inFlight := (u.core n).cc.inFlight.filter fun o => o.tag ≠ r.msg.tag } } := by
    rw [ht, State.complete, if_neg (by simp [hre]), State.core_onCore_same, (touches_bump ..).core_eq, State.core_onCore_same]
  refine ⟨fun x hx => ?_, fun o ho => ?_, ?_⟩
  · rw [hend] at hx
    simpa using (List.mem_filter.1 hx).2
  · rw [hend] at ho
    simpa using (List.mem_filter.1 ho).2
  · rw [ht, (touches_complete ..).reg_eq, State.reg_bump, if_neg (by decide), (touches_onCore ..).reg_eq, ← hu, (touches_onCore ..).reg_eq]

/-- Contexts that go on to their scrub write no register but the key selector's and the causes'. -/
theorem regsWithin_ctxPoll (s : State) : RegsWithin (.KEYSEL_STATUS :: causeNames) s s.ctxPoll := by
  unfold State.ctxPoll
  exact .foldl .refl fun t c => .ite ((regsWithin_keyRebuild ..).step ((touches_onCtx ..).regs .refl)) .refl

theorem exec_dmaComplete (hn : n < 384) (acks late : Nat) : exec (.dmaComplete n acks late) s = .next (s.dmaComplete n acks late).ctxPoll := by
  change execDmaComplete n acks late s = _
  rw [execDmaComplete, decide_eq_true hn, guardPart, if_pos rfl]

end

/- Writes of a peer. -/

section
variable {s : State} {die member c gen : Nat} {runs : List (Nat × List Byte)}

theorem exec_peerWrite (hd : die < 2) (hc : c < 4) (hfree : (s.waiting.any fun j => doorOf j = doorOf (.peerWrite die member c gen runs)) = false) :
    exec (.peerWrite die member c gen runs) s = .next ((if (s.ctx c).state ≠ .active ∨ (s.ctx c).gen ≠ gen then some (s.bump (rid .CTX_STALE_TOTAL .module c) 1)
      else (runs.foldlM (fun (s : State) (r : Nat × List Byte) =>
        match s.ctxWrite (.die die) c r.1 r.2 with
        | .ok s => some s
        | .error e => s.memFail (.whip die) 3 c e) s).map fun (s : State) => s.send (.peerAck member)).getD
      { s with waiting := s.waiting ++ [.peerWrite die member c gen runs] }) := by
  change execPeerWrite die member c gen runs s = _
  rw [execPeerWrite, decide_eq_true hd, decide_eq_true hc, Bool.and_self, guardPart, if_pos rfl, State.arrive_free hfree] <;> rfl

theorem exec_peerWrite_stale (hd : die < 2) (hc : c < 4) (hfree : (s.waiting.any fun j => doorOf j = doorOf (.peerWrite die member c gen runs)) = false)
    (h : (s.ctx c).state ≠ .active ∨ (s.ctx c).gen ≠ gen) :
    exec (.peerWrite die member c gen runs) s = .next (s.bump (rid .CTX_STALE_TOTAL .module c) 1) := by
  rw [exec_peerWrite hd hc hfree, if_pos h, Option.getD_some]

section
variable {a : Nat} {bs : List Byte} (hd : die < 2) (hc : c < 4)
  (hfree : (s.waiting.any fun j => doorOf j = doorOf (.peerWrite die member c gen [(a, bs)])) = false) (hactive : (s.ctx c).state = .active)
  (hgen : (s.ctx c).gen = gen)
include hd hc hfree hactive hgen

theorem exec_peerWrite_written {u : State} (hw : s.ctxWrite (.die die) c a bs = .ok u) :
    exec (.peerWrite die member c gen [(a, bs)]) s = .next (u.send (.peerAck member)) := by
  rw [exec_peerWrite hd hc hfree, if_neg (fun h => h.elim (absurd hactive) (absurd hgen)), List.foldlM_cons, hw]
  rfl

theorem exec_peerWrite_held (hw : s.ctxWrite (.die die) c a bs = .error .held) :
    exec (.peerWrite die member c gen [(a, bs)]) s = .next { s with waiting := s.waiting ++ [.peerWrite die member c gen [(a, bs)]] } := by
  rw [exec_peerWrite hd hc hfree, if_neg (fun h => h.elim (absurd hactive) (absurd hgen)), List.foldlM_cons, hw]
  rfl

end
end

/-- Settles O29: a descriptor by what its checks find, a completion with the contexts' polls after it, a peer's write by its context and memory. -/
theorem dmaRuns : Obligations.DmaRuns := by
  unfold Obligations.DmaRuns
  refine ⟨?_, fun s n r rest acks hn hdma hw ha hq hl hre => ?_,
    fun s die member c gen runs hd hc hfree => ⟨exec_peerWrite_stale hd hc hfree, ?_⟩⟩
  · intro r hr s n m hn hnext hkind hop p same mark hv
    refine ⟨fun code hcode => ?_, fun hok hdst hf => ?_, ?_⟩
    · rw [exec_dmaKinds hr hn hnext hkind hop, State.crossLate_zero, State.dmaWalk_rejects hv hcode]
      exact ⟨_, rfl, s.dmaReject_leaves n m code⟩
    · rw [exec_dmaKinds hr hn hnext hkind hop, State.crossLate_zero, State.dmaWalk_fenced hv hok hdst hf]
      rfl
    · intro hok hdst late u
      rw [exec_dmaKinds hr hn hnext hkind hop]
      refine ⟨fun hquant hdone => ?_, fun hplain hdone => ?_⟩
      · have hgo : s.dmaGo n m = u.dmaQuant n m p := if_pos hquant
        rw [State.dmaWalk_walks hv hok hdst (hgo ▸ hdone), hgo]
      · have hgo : s.dmaGo n m = u.dmaPlain n m p := if_neg (Bool.eq_false_iff.1 hplain)
        rw [State.dmaWalk_walks hv hok hdst (hgo ▸ hdone), hgo]
  · obtain ⟨hleft, hflight, htotal⟩ := State.dmaComplete_first hdma hw ha hq hl hre
    have hpoll := touches_ctxPoll (s.dmaComplete n acks 0)
    have hrun := touches_dmaComplete s n acks 0
    refine ⟨_, exec_dmaComplete hn acks 0, fun x hx => ?_, fun o ho => ?_, ?_, hpoll.hbm_eq.trans hrun.hbm_eq, hpoll.scratch_eq.trans hrun.scratch_eq⟩
    · exact hleft x (hpoll.core_eq n ▸ hx)
    · exact hflight o (hpoll.core_eq n ▸ ho)
    · rw [(regsWithin_ctxPoll _).reg_eq _ (show RegName.DESC_TOTAL ∉ .KEYSEL_STATUS :: causeNames by decide), htotal]
  · rintro a bs rfl hactive hgen
    exact ⟨fun u hw => exec_peerWrite_written hd hc hfree hactive hgen hw, exec_peerWrite_held hd hc hfree hactive hgen⟩

end Sys2Proof.Machine
end

section
/-! PROOFS. A COPY of one unpadded row between scratch memories (12 R327–R330). Settles O30. -/
set_option Elab.async false -- elaborate in order: side threads each hold a stack of their own

namespace Sys2Proof.Machine

open Host Claims Safety

/- Records. -/

theorem recElems_ge (c : Nat) : 16 ≤ recElems c := by
  unfold recElems
  split <;> decide

theorem elemBits_ge (c : Nat) : 4 ≤ elemBits c := by
  unfold elemBits
  split <;> decide

theorem recBytes_pos (c : Nat) : 0 < recBytes c :=
  Nat.div_pos (Nat.le_trans (show 8 ≤ 4 * 16 by decide) (Nat.mul_le_mul (elemBits_ge c) (recElems_ge c))) (by decide)

/-- A dimension word's extent is at least 1. -/
theorem dmaDim_count_pos (w pad : W64) (d : Nat) : 0 < (dmaDim w pad d).count := by
  unfold dmaDim
  dsimp only
  split <;> omega

theorem dmaDesc_count_pos (n : Nat) (ws : List W64) : 0 < ((dmaDesc n ws).dim 0).count := by
  have h : (dmaDesc n ws).dim 0 = if 0 < fld (nth ws 0 0) 25 23 then dmaDim (nth ws 0 6) (nth ws 0 11) 0 else .one := rfl
  rw [h]
  split
  · exact dmaDim_count_pos ..
  · decide

/- The descriptor. -/

/-- A raw COPY of one row, without padding or scales, between scratch memories of this module. -/
structure DmaDesc.OneRow (p : DmaDesc) : Prop where
  kind : p.kind = 4
  quant : p.quant = false
  peer : p.peer = false
  spec : p.src.spec = p.dst.spec
  scale : hasScale (fsCode p.src.spec) = false
  src : p.src.hbm = false
  dst : p.dst.hbm = false
  padded : p.padded = false
  counts : p.counts = [1, 1, 1, 1]

namespace DmaDesc.OneRow
variable {p : DmaDesc} (h : p.OneRow)
include h

theorem indexed : p.indexed = false := by rw [DmaDesc.indexed, h.kind]; rfl

theorem raw : p.raw = true := by rw [DmaDesc.raw, h.quant, decide_eq_true h.spec]; rfl

theorem adds : p.adds = false := by rw [DmaDesc.adds, h.indexed]; rfl

theorem squares : p.squares = false := by rw [DmaDesc.squares, h.raw]; rfl

theorem pad {d : Nat} (hd : d ∈ [0, 1, 2, 3, 4]) : p.padLo d = 0 ∧ p.padHi d = 0 := by
  have hpad := List.any_eq_false.1 h.padded d hd
  rw [decide_eq_true_iff, Classical.not_not] at hpad
  omega

theorem padLo {d : Nat} (hd : d ∈ [0, 1, 2, 3, 4] := by decide) : p.padLo d = 0 := (h.pad hd).1

theorem padHi {d : Nat} (hd : d ∈ [0, 1, 2, 3, 4] := by decide) : p.padHi d = 0 := (h.pad hd).2

theorem padCounts : p.padCounts = [1, 1, 1, 1] := by
  rw [DmaDesc.padCounts, h.counts]
  change [p.padLo 1 + 1 + p.padHi 1, p.padLo 2 + 1 + p.padHi 2, p.padLo 3 + 1 + p.padHi 3, p.padLo 4 + 1 + p.padHi 4] = _
  rw [h.padLo, h.padLo, h.padLo, h.padLo, h.padHi, h.padHi, h.padHi, h.padHi]

theorem dstCounts : p.dstCounts = [1, 1, 1, 1] := by rw [DmaDesc.dstCounts, h.counts, h.padCounts, ite_self]

theorem rows : p.rows = [[0, 0, 0, 0]] := by
  rw [DmaDesc.rows, h.dstCounts]
  rfl

theorem rowW : p.rowW = (p.dim 0).count * recElems (fsCode p.dst.spec) := by
  rw [DmaDesc.rowW, h.padLo, h.padHi, Nat.add_zero, Nat.zero_mul, Nat.zero_add, ite_self, DmaDesc.dataW, DmaDesc.ws, h.spec]

theorem dstRecs : p.dstRecs = (p.dim 0).count := by
  rw [DmaDesc.dstRecs, h.rowW, DmaDesc.wd, h.squares]
  exact Nat.mul_div_cancel _ (Nat.lt_of_lt_of_le (by decide) (recElems_ge _))

theorem dstStrides : p.dstStrides = [(p.dim 1).dst, (p.dim 2).dst, (p.dim 3).dst, (p.dim 4).dst] := by
  rw [DmaDesc.dstStrides, h.indexed]
  rfl

theorem srcStrides : p.srcStrides = [(p.dim 1).src, (p.dim 2).src, (p.dim 3).src, (p.dim 4).src] := by
  rw [DmaDesc.srcStrides, h.indexed]
  rfl

end DmaDesc.OneRow

theorem dotStride_zeros (a b c d : Int) : dotStride [0, 0, 0, 0] [a, b, c, d] = 0 := by
  simp [dotStride]

theorem offRange_ones (a b c d : Int) : offRange [1, 1, 1, 1] [a, b, c, d] = (0, 0) := by
  simp [offRange]

namespace DmaDesc.OneRow
variable {p : DmaDesc} (h : p.OneRow)
include h

theorem dstRange : p.dstRange = (0, ((p.dim 0).count : Int) - 1) := by
  unfold DmaDesc.dstRange
  extract_lets cs r
  have hcs : cs = [1, 1, 1, 1] := by rw [show cs = p.dstCounts from if_neg (Bool.eq_false_iff.1 h.squares), h.dstCounts]
  have hr : r = (0, 0) := by
    have hnot : ¬ (p.indexed && decide (p.idxOp ≠ 0)) = true := by rw [h.indexed, Bool.false_and]; exact Bool.false_ne_true
    rw [show r = offRange cs p.dstStrides from if_neg hnot, hcs, h.dstStrides, offRange_ones]
  rw [hr, h.dstRecs, Int.zero_add]

/-- The checked row lies inside the destination's scratch. -/
theorem inside {c : Core} {ws : List W64} {ring : Nat → Nat} {same : Nat → Bool} (hok : p.check c ws ring same = none) :
    0 ≤ p.dst.elem ∧ p.dst.elem + ((p.dim 0).count * recBytes (fsCode p.src.spec) : Nat) ≤ 2 ^ 21 := by
  have haddr : p.badAddr c = false := by
    unfold DmaDesc.check at hok
    split at hok
    · cases hok
    · split at hok
      · cases hok
      · split at hok
        · cases hok
        · exact Bool.eq_false_iff.2 ‹_›
  have hdst : p.dst.ok p.dstRecBytes p.dstRange = true := by
    simp only [DmaDesc.badAddr, Bool.or_eq_false_iff, Bool.not_eq_false'] at haddr
    exact haddr.1.2
  rw [DmaSide.ok, h.dst, h.dstRange, DmaDesc.dstRecBytes, h.adds, ← h.spec] at hdst
  simp only [Bool.and_eq_true, decide_eq_true_eq, Bool.false_eq_true, if_false, Int.sub_add_cancel, Int.zero_mul, Int.add_zero] at hdst
  obtain ⟨⟨-, hlo, hhi⟩, -⟩ := hdst
  exact ⟨hlo, by rw [Int.natCast_mul]; exact hhi⟩

variable (s : State)

theorem dmaDstRow : s.dmaDstRow p [0, 0, 0, 0] = some 0 := by
  rw [State.dmaDstRow, h.indexed, h.squares, Bool.false_and, if_neg Bool.false_ne_true, if_neg Bool.false_ne_true, h.dstStrides, dotStride_zeros]

theorem dmaSrcRow : s.dmaSrcRow p [0, 0, 0, 0] = .at 0 := by
  unfold State.dmaSrcRow
  extract_lets co cs ps
  have hco (d : Nat) (hd : d ∈ [0, 1, 2, 3]) : co (0, d) = some 0 := by
    have hpad : p.padLo (d + 1) = 0 := h.padLo (by simp only [List.mem_cons, List.not_mem_nil, or_false] at hd ⊢; omega)
    have hone : nth p.counts 0 d = 1 := by
      rw [h.counts]
      simp only [List.mem_cons, List.not_mem_nil, or_false] at hd
      obtain rfl | rfl | rfl | rfl := hd <;> rfl
    simp only [co, hpad, hone, Nat.lt_irrefl, if_false, Nat.sub_zero, show ¬ 1 ≤ 0 by decide, ite_self, Nat.add_zero]
  have hcs : cs = [some 0, some 0, some 0, some 0] := by
    change [co (0, 0), co (0, 1), co (0, 2), co (0, 3)] = _
    rw [hco 0 (by decide), hco 1 (by decide), hco 2 (by decide), hco 3 (by decide)]
  have hps : ps = [0, 0, 0, 0] := by
    simp only [ps, hcs]
    rfl
  rw [hps, hcs, h.indexed, h.srcStrides, h.padLo, dotStride_zeros]
  simp

/-- The row as it is read. -/
theorem dmaRawRow : s.dmaRawRow p [0, 0, 0, 0] =
    .ok (s.scrRead p.src.core p.src.elem.toNat ((p.dim 0).count * recBytes (fsCode p.src.spec)), []) := by
  have hrecs : s.dmaRecs p.src 0 (p.dim 0).count = .ok (s.scrRead p.src.core p.src.elem.toNat ((p.dim 0).count * recBytes (fsCode p.src.spec)), []) := by
    rw [State.dmaRecs, State.dmaRead, h.src, h.scale, Int.zero_mul, Int.add_zero]
    rfl
  have hfill (spec fill t : Nat) : fillRecs spec fill t 0 = ([], []) := by
    unfold fillRecs
    simp
  unfold State.dmaRawRow
  rw [h.dmaSrcRow s]
  dsimp only
  rw [hrecs, h.padLo, h.padHi, hfill]
  cases p.store
  · exact congrArg (fun l => Except.ok (l, [])) (List.append_nil _)
  · rfl

/-- The read of scratch leaves the memory system as it is. -/
theorem dmaServeRow (off : Int) : s.dmaServeRow p (.at off) = s := by
  have hload (ad : Int) (k : Nat) : s.dmaLoad p.src ad k = s := if_neg (Bool.eq_false_iff.1 h.src)
  rw [State.dmaServeRow, State.dmaRecsLoad, h.scale, if_neg Bool.false_ne_true, hload]

/-- One run of bytes, and no scales, put at the destination. -/
theorem put {bs : List Byte} (hbs : bs.isEmpty = false) (ad sc : Int) :
    DmaAcc.put { s := s } p [(ad, bs), (sc, [])] = { s := s.scrWrite p.dst.core ad.toNat bs } := by
  rw [DmaAcc.put, if_neg (Bool.eq_false_iff.1 hbs), h.peer, if_neg Bool.false_ne_true, State.dmaWrite, h.dst]
  rfl

/-- The walk writes the row as it was read, and nothing else. -/
theorem dmaPlain (hcount : 0 < (p.dim 0).count) (n : Nat) (m : OpMsg) : s.dmaPlain n m p =
    (s.scrWrite p.dst.core p.dst.elem.toNat (s.scrRead p.src.core p.src.elem.toNat ((p.dim 0).count * recBytes (fsCode p.src.spec))), none) := by
  have hne : (s.scrRead p.src.core p.src.elem.toNat ((p.dim 0).count * recBytes (fsCode p.src.spec))).isEmpty = false :=
    List.isEmpty_eq_false_iff.2 (List.ne_nil_of_length_pos (by rw [s.scrRead_length]; exact Nat.mul_pos hcount (recBytes_pos _)))
  have hrow : DmaAcc.row { s := s } p [0, 0, 0, 0] =
      { s := s.scrWrite p.dst.core p.dst.elem.toNat (s.scrRead p.src.core p.src.elem.toNat ((p.dim 0).count * recBytes (fsCode p.src.spec))) } := by
    unfold DmaAcc.row
    dsimp only
    rw [Option.isSome_none, if_neg Bool.false_ne_true, h.dmaDstRow s, h.raw]
    dsimp only
    rw [if_pos rfl, h.dmaRawRow s, h.dmaSrcRow s]
    dsimp only
    rw [h.dmaServeRow, h.put _ hne, Int.zero_mul, Int.add_zero]
  unfold State.dmaPlain
  rw [h.rows, List.foldl_cons, List.foldl_nil, h.adds, if_neg Bool.false_ne_true, hrow]
  rfl

end DmaDesc.OneRow

/-- Settles O30: the walk is one write of the row that it read, and that write lies inside the target's scratch. -/
theorem dmaCopiesRow : Obligations.DmaCopiesRow := by
  unfold Obligations.DmaCopiesRow
  intro s n m hn hnext hkind hwf p same hv hok hf hquant hpeer hspec hscale hsrc hdst hpad hcounts len
  have hrow : p.OneRow := ⟨hkind, hquant, hpeer, hspec, hscale, hsrc, hdst, hpad, hcounts⟩
  have hcount : 0 < (p.dim 0).count := dmaDesc_count_pos n m.words
  have hlen : 0 < len := Nat.mul_pos hcount (recBytes_pos _)
  have hplain := hrow.dmaPlain (s.dmaReady n m) hcount n m
  have hgo : s.dmaGo n m = (s.dmaReady n m).dmaPlain n m p := if_neg (Bool.eq_false_iff.1 hquant)
  have hready : Touches [.out, .regs, .cores, .step, .links] s (s.dmaReady n m) :=
    .step (touches_dmaTscale ..) (.step (touches_dmaTotals ..) (touches_setCore ..).mono)
  rw [exec_dmaKinds (r := (.copy, 4, [0, 1, 2, 3])) List.mem_cons_self hn hnext hkind ?op 0, State.crossLate_zero,
    State.dmaWalk_walks hv hok (.inr hf) (by rw [hgo, hplain]), hgo, hplain]
  case op =>
    have := fld_lt (m.w 0) 28 27
    simp only [List.mem_cons, List.not_mem_nil, or_false]
    omega
  obtain ⟨hlo, hhi⟩ := hrow.inside hok
  have hread : (s.dmaReady n m).scrRead p.src.core p.src.elem.toNat len = s.scrRead n p.src.elem.toNat len := by
    rw [State.scrRead, hready.scratch_eq]
    rfl
  have hlength : ((s.dmaReady n m).scrRead p.src.core p.src.elem.toNat len).length = len := State.scrRead_length ..
  have hw : Memory.wf (s.dmaReady n m).scratch = true := by rw [hready.scratch_eq]; exact hwf
  have hend : p.dst.elem.toNat + len ≤ 2 ^ 21 := by omega
  refine ⟨_, rfl, (touches_scrWrite ..).hbm_eq.trans hready.hbm_eq, ?_, fun a ha => ?_⟩
  · rw [State.scrRead_scrWrite_same hw (by omega) (by rw [hlength]; exact hend) hlength, hread]
  · rw [State.memGet_scrWrite hw (by omega) (by rw [hlength]; exact hend), if_neg, hready.scratch_eq]
    rw [hlength]
    rw [scrAddr, scrAddr] at ha
    rw [scrAddr]
    omega

end Sys2Proof.Machine
end

section
/-! PROOFS. Repair of the HBM stacks: migration, retraining, patrol scrub and refresh (12 R311, R318–R321). -/
set_option Elab.async false -- elaborate in order: side threads each hold a stack of their own

namespace Sys2Proof.Machine

open Host Claims Safety

/- One channel copied to another. -/

/-- A byte after listed cells are set at a place of their own: a listed byte is there, and any other is as it was. -/
theorem memGet_foldl_memSet {lo to_ lo0 i : Nat} {l acc : List Cell} (hl : Memory.wfFrom lo0 l = true) (hlo : lo ≤ lo0) (hacc : Memory.wf acc = true) :
    memGet (l.foldl (fun acc p => memSet acc (to_ + (p.1 - lo)) p.2) acc) (to_ + i) =
      if memGet l (lo + i) = 0 then memGet acc (to_ + i) else memGet l (lo + i) := by
  induction l generalizing lo0 acc with
  | nil => exact (if_pos rfl).symm
  | cons p t ih =>
    obtain ⟨k, v⟩ := p
    simp only [Memory.wfFrom, Bool.and_eq_true, decide_eq_true_eq] at hl
    obtain ⟨⟨hk, hv⟩, ht⟩ := hl
    rw [List.foldl_cons, ih ht (by omega) (Memory.wf_memSet _ _ hacc), memGet_memSet hacc, memGet]
    by_cases hki : k = lo + i
    · rw [if_pos (memGet_of_lt ht (by omega)), if_pos (by omega), if_pos hki, if_neg hv]
    · rw [if_neg (show ¬ to_ + i = to_ + (k - lo) by omega), if_neg hki]
      by_cases hlt : lo + i < k
      · rw [if_pos hlt, if_pos (memGet_of_lt ht (by omega)), if_pos rfl]
      · rw [if_neg hlt]

/-- The form holds from the address below which nothing is listed. -/
theorem Memory.wfFrom_of_le {lo lo0 : Nat} {m : List Cell} (h : Memory.wfFrom lo0 m = true) (hlo : ∀ p ∈ m, lo ≤ p.1) : Memory.wfFrom lo m = true := by
  cases m with
  | nil => rfl
  | cons p t =>
    have hp := hlo p List.mem_cons_self
    simp only [Memory.wfFrom, Bool.and_eq_true, decide_eq_true_eq] at h ⊢
    exact ⟨⟨hp, h.1.2⟩, h.2⟩

/-- Each byte of the range arrives (R321). -/
theorem memGet_copyChan {m : List Cell} (hm : Memory.wf m = true) (src dst b : Nat) {n i : Nat} (hi : i < n) :
    memGet (copyChan m src dst b n) (chanKey dst b + i) = memGet m (chanKey src b + i) := by
  have hin (k : Nat) : (decide (k ≤ k + i) && decide (k + i < k + n)) = true := by
    rw [decide_eq_true (Nat.le_add_right ..), decide_eq_true (Nat.add_lt_add_left hi _)]
    rfl
  have hfrom := memGet_filter hm (fun a => decide (chanKey src b ≤ a) && decide (a < chanKey src b + n)) (chanKey src b + i)
  have hkeep := memGet_filter hm (fun a => !(decide (chanKey dst b ≤ a) && decide (a < chanKey dst b + n))) (chanKey dst b + i)
  rw [hin, if_pos rfl] at hfrom
  rw [hin, if_neg (by decide)] at hkeep
  have hlist : Memory.wfFrom (chanKey src b) (m.filter fun p => decide (chanKey src b ≤ p.1) && decide (p.1 < chanKey src b + n)) = true :=
    Memory.wfFrom_of_le (Memory.wf_filter _ hm) fun p hp => by
      have := (List.mem_filter.1 hp).2
      simp only [Bool.and_eq_true, decide_eq_true_eq] at this
      exact this.1
  unfold copyChan
  dsimp only
  rw [memGet_foldl_memSet hlist (Nat.le_refl _) (Memory.wf_filter _ hm), hfrom, hkeep]
  split
  · exact Eq.symm ‹_›
  · rfl

/- Migration (R320, R321). -/

section
variable {s : State} {st : Nat} (hst : st < 8)
include hst

theorem exec_migrationRequest (v : W64) : exec (.migrationRequest st v) s = .next (s.migRequest st (fld v 4 0) (fld v 9 5)) := by
  change execMigrationRequest st v s = _
  rw [execMigrationRequest, decide_eq_true hst, guardPart, if_pos rfl]

theorem exec_retrain {src : Nat} (hsrc : src < 32) : exec (.retrain st src) s = .next (s.retrainRequest st src) := by
  change execRetrain st src s = _
  rw [execRetrain, decide_eq_true hst, decide_eq_true hsrc, guardPart, Bool.and_self, if_pos rfl]

end

/-- The request's operands, kept in REPAIR_CTRL. -/
def State.repairOperands (s : State) (st src dst : Nat) : State := (s.setRegFld (stackR .REPAIR_CTRL st) 4 0 src).setRegFld (stackR .REPAIR_CTRL st) 9 5 dst

theorem State.migRequest_eq (s : State) (st src dst : Nat) : s.migRequest st src dst =
    if s.chan (32 * st + src) ≠ .active ∨ s.chan (32 * st + dst) ≠ .spare ∨ bit (s.reg (rid .LAY_MIG .module st)) 63 = true then
      ((s.repairOperands st src dst).setRegFld (stackR .REPAIR_CTRL st) 16 16 1).raise (.stack st) 6
    else { s.repairOperands st src dst with mem := { s.mem with migReq := sset s.mem.migReq st (src, dst) } } := by
  have hlay : (s.repairOperands st src dst).reg (rid .LAY_MIG .module st) = s.reg (rid .LAY_MIG .module st) :=
    (State.reg_setRegFld_ne _ _ _ _ _ _ (by simp [stackR, rid])).trans (State.reg_setRegFld_ne _ _ _ _ _ _ (by simp [stackR, rid]))
  unfold State.migRequest State.migActive
  rw [← State.repairOperands]
  dsimp only
  rw [hlay]
  rfl

theorem migrationRequest_recorded {s : State} {st : Nat} (hst : st < 8) {v : W64} (hsrc : s.chan (32 * st + fld v 4 0) = .active)
    (hdst : s.chan (32 * st + fld v 9 5) = .spare) (hidle : bit (s.reg (rid .LAY_MIG .module st)) 63 = false) :
    ∃ t, exec (.migrationRequest st v) s = .next t ∧ t.mem = { s.mem with migReq := sset s.mem.migReq st (fld v 4 0, fld v 9 5) } := by
  rw [exec_migrationRequest hst, State.migRequest_eq, if_neg (by simp [hsrc, hdst, hidle])]
  exact ⟨_, rfl, rfl⟩

theorem migrationRequest_refused {s : State} {st : Nat} (hst : st < 8) {v : W64} (h : s.chan (32 * st + fld v 4 0) ≠ .active ∨
    s.chan (32 * st + fld v 9 5) ≠ .spare ∨ bit (s.reg (rid .LAY_MIG .module st)) 63 = true) :
    ∃ t, exec (.migrationRequest st v) s = .next t ∧ t.mem = s.mem ∧ bit (t.reg (rid .STACK_STATUS (.stack st))) 6 = true := by
  rw [exec_migrationRequest hst, State.migRequest_eq, if_pos h]
  exact ⟨_, rfl, (touches_raise ..).mem_eq, State.bit_status_raised _ (.stack st) (by decide) ..⟩

theorem retrain_recorded (s : State) {st src : Nat} (hst : st < 8) (hsrc : src < 32) :
    ∃ t, exec (.retrain st src) s = .next t ∧ 32 * st + src ∈ t.mem.retrainReq ∧ t.hbm = s.hbm := by
  refine ⟨_, exec_retrain hst hsrc, ?_, (touches_retrainRequest ..).hbm_eq⟩
  change 32 * st + src ∈ if s.mem.retrainReq.contains (32 * st + src) then s.mem.retrainReq else s.mem.retrainReq ++ [32 * st + src]
  split
  · exact List.contains_iff_mem.1 ‹_›
  · exact List.mem_append_right _ (List.mem_singleton_self _)

/-- A chunk served: its bytes are copied, its bursts counted and charged, and the watermark moves past it. -/
theorem migrationChunk_moves {s : State} {st : Nat} (hst : st < 8) (hact : bit (s.reg (rid .LAY_MIG .module st)) 63 = true)
    (hwm : fld (s.reg (rid .LAY_MIG .module st)) 30 10 < 2 ^ 20) (hreg : s.regBlocked st 6 = false) (hdown : s.stackDown st = false)
    (hsrc : 32 * st + fld (s.reg (rid .LAY_MIG .module st)) 4 0 ∉ s.mem.retraining)
    (hdst : 32 * st + fld (s.reg (rid .LAY_MIG .module st)) 9 5 ∉ s.mem.retraining) :
    ∃ t, exec (.migrationChunk st) s = .next t ∧
      fld (t.reg (rid .LAY_MIG .module st)) 30 10 = fld (s.reg (rid .LAY_MIG .module st)) 30 10 + 64 ∧ t.scratch = s.scratch ∧
      t.hbm = copyChan s.hbm (32 * st + fld (s.reg (rid .LAY_MIG .module st)) 4 0) (32 * st + fld (s.reg (rid .LAY_MIG .module st)) 9 5)
        (fld (s.reg (rid .LAY_MIG .module st)) 30 10 * 2048) (64 * 2048) := by
  have hwait : ¬ ((!bit (s.reg (rid .LAY_MIG .module st)) 63 || decide (2 ^ 20 ≤ fld (s.reg (rid .LAY_MIG .module st)) 30 10) || s.regBlocked st 6 ||
      s.stackDown st || s.mem.retraining.contains (32 * st + fld (s.reg (rid .LAY_MIG .module st)) 4 0) ||
      s.mem.retraining.contains (32 * st + fld (s.reg (rid .LAY_MIG .module st)) 9 5)) = true) := by
    rw [hact, decide_eq_false (Nat.not_le.2 hwm), hreg, hdown, List.contains_eq_mem, List.contains_eq_mem, decide_eq_false hsrc, decide_eq_false hdst]
    decide
  have hexec : exec (.migrationChunk st) s = execMigrationChunk st s := rfl
  rw [execMigrationChunk, decide_eq_true hst, guardPart, if_pos rfl] at hexec
  dsimp only at hexec
  rw [if_neg hwait] at hexec
  refine ⟨_, hexec, ?_, ?_, ?_⟩
  · rw [State.reg_setRegFld_same, fld_setFld_same (by decide) (by decide)]
    exact Nat.mod_eq_of_lt (Nat.lt_of_lt_of_le (Nat.add_lt_add_right hwm 64) (by decide))
  · exact (touches_setRegFld ..).scratch_eq.trans ((touches_takeTokens ..).scratch_eq.trans ((touches_bump ..).scratch_eq.trans (touches_bump ..).scratch_eq))
  · exact (touches_setRegFld ..).hbm_eq.trans ((touches_takeTokens ..).hbm_eq.trans ((touches_bump ..).hbm_eq.trans (touches_bump ..).hbm_eq))

/- Patrol scrub (R318). -/

/-- Bursts counted in each channel of a list: that many more in the listed ones. -/
theorem State.reg_foldl_bursts (st k : Nat) {l : List Nat} (hl : l.Nodup) (s : State) (c : Nat) :
    (l.foldl (fun s c => s.bump (stackR .CH_BURST_TOTAL st c) k) s).reg (stackR .CH_BURST_TOTAL st c) =
      satAdd (s.reg (stackR .CH_BURST_TOTAL st c)) (if c ∈ l then k else 0) := by
  induction l generalizing s with
  | nil => exact (satAdd_zero _).symm
  | cons a t ih =>
    obtain ⟨hat, ht⟩ := List.nodup_cons.1 hl
    rw [List.foldl_cons, ih ht]
    by_cases hca : c = a
    · subst hca
      rw [if_neg hat, if_pos List.mem_cons_self, satAdd_zero, State.reg_bump]
      split
      · next h => rw [h, satAdd_zero]
      · rfl
    · rw [State.reg_bump_ne _ _ _ _ (by simp [stackR, rid, hca])]
      simp only [List.mem_cons, hca, false_or]

/-- The active channels of a stack. -/
def State.activeChans (s : State) (st : Nat) : List Nat := (List.range 32).filter fun c => s.chan (32 * st + c) = .active

/-- A scrub that meets no error counts its bursts, and that it was done. -/
theorem patrolScrub_counts {s : State} {st : Nat} (hst : st < 8) (hreg : s.regBlocked st 6 = false) (hdown : s.stackDown st = false)
    (htrain : ∀ c, c < 32 → s.chan (32 * st + c) = .active → 32 * st + c ∉ s.mem.retraining) :
    ∃ t, exec (.patrolScrub st []) s = .next t ∧ sget t.mem.patrol 0 st = sget s.mem.patrol 0 st + 1 ∧ t.hbm = s.hbm ∧ t.poison = s.poison ∧
      ∀ c, c < 32 → t.reg (rid .CH_BURST_TOTAL (.stack st) c) =
        satAdd (s.reg (rid .CH_BURST_TOTAL (.stack st) c)) (if s.chan (32 * st + c) = .active then 2 ^ 22 else 0) := by
  have hmem (c : Nat) : c ∈ s.activeChans st ↔ c < 32 ∧ s.chan (32 * st + c) = .active := by
    rw [State.activeChans, List.mem_filter, List.mem_range, decide_eq_true_iff]
  have hwait : ¬ ((s.regBlocked st 6 || s.stackDown st || (s.activeChans st).any fun c => s.mem.retraining.contains (32 * st + c)) = true) := by
    rw [hreg, hdown, Bool.false_or, Bool.false_or, List.any_eq_true]
    rintro ⟨c, hc, hin⟩
    obtain ⟨hlt, hchan⟩ := (hmem c).1 hc
    exact htrain c hlt hchan (List.contains_iff_mem.1 hin)
  have hexec : exec (.patrolScrub st []) s = execPatrolScrub st [] s := rfl
  rw [execPatrolScrub, decide_eq_true hst, guardPart, if_pos rfl] at hexec
  dsimp only at hexec
  rw [← State.activeChans, if_neg hwait] at hexec
  have hcount : Touches [.regs] s ((s.activeChans st).foldl (fun s c => s.bump (stackR .CH_BURST_TOTAL st c) (2 ^ 22)) s) :=
    .foldl .refl fun _ _ => touches_bump ..
  refine ⟨_, hexec, ?_, hcount.hbm_eq, hcount.poison_eq, fun c hc => ?_⟩
  · change sget (sset _ st (sget _ 0 st + 1)) 0 st = _
    rw [hcount.mem_eq]
    exact (sget_sset ..).trans (if_pos rfl)
  · have hnodup : (s.activeChans st).Nodup := List.nodup_range.filter _
    refine (State.reg_foldl_bursts st (2 ^ 22) hnodup s c).trans ?_
    simp only [hmem, hc, true_and]
    rfl

/- Refresh (R311). -/

theorem fld_setFld_low {hi lo hi' : Nat} (h : lo ≤ hi) (hhi : hi < 64) (hle : hi' ≤ hi) (x : W64) (v : Nat) :
    fld (setFld x hi lo v) hi' lo = v % 2 ^ (hi' + 1 - lo) := by
  refine Nat.eq_of_testBit_eq fun i => ?_
  rw [fld, testBit_bits, testBit_setFld h hhi, Nat.testBit_mod_two_pow]
  by_cases hi : i < hi' + 1 - lo
  · rw [if_pos (by omega), Nat.add_sub_cancel_left]
  · simp [hi]

theorem refreshNeed_le (temp : Nat) : refreshNeed temp ≤ 2 := by
  unfold refreshNeed
  split
  · decide
  · split <;> decide

/-- The temperature kept. -/
def State.heated (s : State) (st temp : Nat) : State := { s with mem := { s.mem with hot := sset s.mem.hot st temp } }

theorem exec_refreshOverride {s : State} {st : Nat} (hst : st < 8) (temp : Nat) : exec (.refreshOverride st temp) s =
    if refreshNeed temp ≤ fld (s.reg (rid .REFRESH_CTRL (.stack st))) 5 4 then .next (s.heated st temp)
    else .next (((s.heated st temp).setRegFld (stackR .REFRESH_CTRL st) 6 4 (refreshNeed temp)).raise (.stack st) 7).override := by
  change execRefreshOverride st temp s = _
  rw [execRefreshOverride, decide_eq_true hst, guardPart, if_pos rfl]
  exact apply_ite Outcome.next ..

/-- A need above the rate in force is applied at once. -/
theorem refreshOverride_applies {s : State} {st temp : Nat} (hst : st < 8)
    (h : fld (s.reg (rid .REFRESH_CTRL (.stack st))) 5 4 < refreshNeed temp) : ∃ t, exec (.refreshOverride st temp) s = .next t ∧
      t.mem = { s.mem with hot := sset s.mem.hot st temp } ∧ fld (t.reg (rid .REFRESH_CTRL (.stack st))) 5 4 = refreshNeed temp ∧
      bit (t.reg (rid .REFRESH_CTRL (.stack st))) 6 = false ∧ bit (t.reg (rid .STACK_STATUS (.stack st))) 7 = true := by
  have hle := refreshNeed_le temp
  rw [exec_refreshOverride hst, if_neg (Nat.not_le.2 h)]
  have hset := State.reg_setRegFld_same (s.heated st temp) (stackR .REFRESH_CTRL st) 6 4 (refreshNeed temp)
  have hmem : ((s.heated st temp).setRegFld (stackR .REFRESH_CTRL st) 6 4 (refreshNeed temp)).mem = (s.heated st temp).mem := rfl
  generalize (s.heated st temp).setRegFld (stackR .REFRESH_CTRL st) 6 4 (refreshNeed temp) = u at hset hmem ⊢
  have hname : RegName.REFRESH_CTRL ∉ causeNames := by decide
  have hreg : (u.raise (.stack st) 7).override.reg (stackR .REFRESH_CTRL st) =
      setFld ((s.heated st temp).reg (stackR .REFRESH_CTRL st)) 6 4 (refreshNeed temp) :=
    ((marks_override _).reg_eq _ hname).trans (((regsWithin_raise ..).reg_eq _ hname).trans hset)
  refine ⟨_, rfl, (touches_override ..).mem_eq.trans ((touches_raise ..).mem_eq.trans hmem), ?_, ?_,
    (bitsStay_override _ (.stack st)).bit 7 (State.bit_status_raised u (.stack st) (by decide) ..)⟩
  · rw [← stackR, hreg, fld_setFld_low (by decide) (by decide) (by decide)]
    exact Nat.mod_eq_of_lt (Nat.lt_of_le_of_lt hle (by decide))
  · rw [← stackR, hreg, bit_setFld (by decide) (by decide), if_pos (by decide)]
    exact Nat.testBit_lt_two_pow (Nat.lt_of_le_of_lt hle (by decide))

end Sys2Proof.Machine
end

section
/-! PROOFS. Host accesses to the HBM window (01 R28, 12 R308–R322, 15 R381). Settles O31. -/
set_option Elab.async false -- elaborate in order: side threads each hold a stack of their own

namespace Sys2Proof.Machine

open Host Claims Safety

/- An access within one unit. -/

section
variable {s : State} {a n : Nat}

theorem runsOf_unit (h0 : 0 < n) (h : a % 64 + n ≤ 64) : runsOf a n = [(a, n)] := by
  have hm : min n (64 - a % 64) = n := Nat.min_eq_left (by omega)
  rw [runsOf, pieces, if_neg (by omega)]
  dsimp only
  rw [hm, Nat.sub_self, pieces, if_pos rfl]

/-- Where a read of the window goes: the channel, and the byte in it. -/
def State.readPlace (s : State) (a : Nat) : Nat := chanKey (s.redirect (s.locate a).1 (s.locate a).2).1 (s.locate a).2

/-- The place depends on the layout and on the migration registers only. -/
theorem State.readPlace_of_eq {t : State} (hmem : t.mem = s.mem) (hreg : ∀ i, t.reg i = s.reg i) (a : Nat) : t.readPlace a = s.readPlace a := by
  have hentry (e : Nat) : t.layEntry e = s.layEntry e := by rw [State.layEntry, hmem, State.layEntry]
  have hlocate : t.locate a = s.locate a := by simp only [State.locate, State.layRank, hentry, hmem]
  rw [State.readPlace, hlocate, State.redirect, hreg, State.readPlace, State.redirect]

theorem State.hbmRead_unit (h0 : 0 < n) (h : a % 64 + n ≤ 64) (hpage : sfind s.mem.pages (a / 2 ^ 21) = none) :
    s.hbmRead a n = memRead s.hbm (s.readPlace a) n := by
  rw [State.hbmRead, runsOf_unit h0 h, List.map_singleton, List.flatten_singleton, State.unitRead]
  dsimp only
  rw [hpage]
  rfl

/-- A read goes to a channel that serves the writes (R322). -/
theorem State.redirect_mem (s : State) (c b : Nat) : (s.redirect c b).1 ∈ (s.redirect c b).2 := by
  unfold State.redirect
  extract_lets w k wm dst
  split
  · split
    · exact List.mem_singleton_self _
    · split
      · exact List.mem_cons_self
      · exact List.mem_singleton_self _
  · exact List.mem_singleton_self _

end

/-- The same short run written at one byte of several channels stands at each of them. -/
theorem memGet_foldl_chans {b : Nat} {bs : List Byte} (hbs : bs.length ≤ 64) {c : Nat} (l : List Nat) {m : List Cell} (hm : Memory.wf m = true)
    (h : c ∈ l ∨ ∀ i < bs.length, memGet m (chanKey c b + i) = nth bs 0 i) {i : Nat} (hi : i < bs.length) :
    memGet (l.foldl (fun m c => memWrite m (chanKey c b) bs) m) (chanKey c b + i) = nth bs 0 i := by
  induction l generalizing m with
  | nil => exact h.elim (fun hc => absurd hc List.not_mem_nil) fun h => h i hi
  | cons d t ih =>
    refine ih (Memory.wf_memWrite _ _ hm) ?_
    by_cases hcd : c = d
    · subst hcd
      refine .inr fun j hj => ?_
      rw [memGet_memWrite hm, if_pos (by omega), Nat.add_sub_cancel_left]
    · refine h.imp (fun hc => (List.mem_cons.1 hc).resolve_left hcd) fun h j hj => ?_
      rw [memGet_memWrite hm, if_neg (by simp only [chanKey]; omega), h j hj]

theorem State.hbm_unitStore (s : State) (a : Nat) (bs : List Byte) : (s.unitStore a bs).hbm =
    (s.redirect (s.locate a).1 (s.locate a).2).2.foldl (fun m c => memWrite m (chanKey c (s.locate a).2) bs) s.hbm := by
  unfold State.unitStore
  dsimp only
  generalize (s.redirect (s.locate a).1 (s.locate a).2).2 = cs
  generalize (s.locate a).2 = b
  induction cs generalizing s with
  | nil => rfl
  | cons c t ih => exact ih _

/-- A short write of a unit reads back. -/
theorem State.memRead_unitStore {s : State} (a : Nat) {bs : List Byte} (hbs : bs.length ≤ 64) (hm : Memory.wf s.hbm = true) :
    memRead (s.unitStore a bs).hbm (s.readPlace a) bs.length = bs := by
  refine List.ext_getElem (by simp [memRead]) fun i h1 h2 => ?_
  simp only [memRead, List.getElem_map, List.getElem_range]
  rw [State.hbm_unitStore, State.readPlace, memGet_foldl_chans hbs _ hm (.inl (s.redirect_mem ..)) h2, nth, List.getElem?_eq_getElem h2, Option.getD_some]

/- Host accesses. -/

section
variable {s : State} {a : HostAccess}

theorem sameWindow_hostPoison (s : State) (a n : Nat) : SameWindow s (s.hostPoison a n) := by
  unfold State.hostPoison
  exact foldl_rel SameWindow.refl SameWindow.trans _ (fun s p => (touches_raise ..).sameWindow (regsWithin_raise ..)) _ s

theorem exec_hostHbmAccess_held (ha : a.addr < 2 ^ 39) (h : s.hostUp = false ∨ s.pwr.hbmReady = false ∨ s.hostWaits a = true) :
    exec (.hostHbmAccess a []) s = .next { s with hostOut := s.hostOut ++ [a] } := by
  have hwait : (!s.hostUp || !s.pwr.hbmReady || s.hostWaits a) = true := by
    rcases h with h | h | h <;> simp [h]
  change execHostHbmAccess a [] s = _
  rw [execHostHbmAccess, if_neg (Nat.not_le.2 ha), if_pos hwait, State.hold]

theorem exec_hostHbmAccess_served (hup : s.hostUp = true) (hready : s.pwr.hbmReady = true) (hin : a.addr + a.size ≤ 480 * 2 ^ 30)
    (hfree : s.hostWaits a = false) : exec (.hostHbmAccess a []) s = .next (s.hostHbm a) := by
  have hwait : ¬ (!s.hostUp || !s.pwr.hbmReady || s.hostWaits a) = true := by simp [hup, hready, hfree]
  change execHostHbmAccess a [] s = _
  rw [execHostHbmAccess, if_neg (by omega), if_neg hwait, State.eccEvents, List.foldl_nil]

/-- The state as a write of the host finds it: partly covered units read, the access charged. -/
def State.hostCharged (s : State) (a : HostAccess) : State :=
  ((((runsOf a.addr a.size).filter fun p => p.2 ≠ 64).foldl (fun s p => s.hostPoison p.1 p.2) s).charge 4 true a.addr a.size)

theorem sameWindow_hostCharged (s : State) (a : HostAccess) : SameWindow s (s.hostCharged a) :=
  (foldl_rel SameWindow.refl SameWindow.trans _ (fun s (p : Nat × Nat) => sameWindow_hostPoison s p.1 p.2) _ s).trans (sameWindow_charge ..)

section
variable (hin : a.addr + a.size ≤ 480 * 2 ^ 30) (h0 : 0 < a.size) (hunit : a.addr % 64 + a.size ≤ 64)
  (hpage : sfind s.mem.pages (a.addr / 2 ^ 21) = none)
include hin h0 hunit hpage

theorem State.hostHbm_writes (hw : a.write = true) : s.hostHbm a = (s.hostCharged a).unitStore a.addr (leBytes a.size a.data) := by
  have hsame := sameWindow_hostCharged s a
  rw [State.hostHbm, if_neg (show ¬ hbmSize < a.addr + a.size from Nat.not_lt.2 hin), if_pos hw]
  change (s.hostCharged a).hbmWrite a.addr (leBytes a.size a.data) = _
  rw [State.hbmWrite, leBytes_length, runsOf_unit h0 hunit, State.hbmWriteGo, State.hbmWriteGo, State.hbmWriteUnit, hsame.pages, hpage,
    List.take_of_length_le (Nat.le_of_eq (leBytes_length ..))]

theorem State.hbmRead_hostHbm (hw : a.write = true) (hm : Memory.wf s.hbm = true) :
    (s.hostHbm a).hbmRead a.addr a.size = leBytes a.size a.data := by
  have hsame := sameWindow_hostCharged s a
  rw [State.hostHbm_writes hin h0 hunit hpage hw]
  have hstore := touches_unitStore (s.hostCharged a) a.addr (leBytes a.size a.data)
  have hplace : ((s.hostCharged a).unitStore a.addr (leBytes a.size a.data)).readPlace a.addr = (s.hostCharged a).readPlace a.addr :=
    State.readPlace_of_eq hstore.mem_eq hstore.reg_eq _
  have hread := State.memRead_unitStore (s := s.hostCharged a) a.addr (bs := leBytes a.size a.data) (by rw [leBytes_length]; omega)
    (by rw [hsame.hbm]; exact hm)
  rw [leBytes_length] at hread
  rw [State.hbmRead_unit h0 hunit (by rw [hstore.mem_eq, hsame.pages]; exact hpage), hplace, hread]

omit hpage in
theorem State.hostHbm_reads (hr : a.write = false) (hp : s.poisoned a.addr a.size = false) :
    s.hostHbm a = (s.charge 4 false a.addr a.size).reply (leNat (s.hbmRead a.addr a.size)) := by
  have hpoison : s.hostPoison a.addr a.size = s := by
    rw [State.hostPoison, runsOf_unit h0 hunit, List.filter_cons, hp]
    rfl
  have hbytes : s.hostBytes a.addr a.size = s.hbmRead a.addr a.size := by
    rw [State.hostBytes, runsOf_unit h0 hunit, List.map_singleton, List.flatten_singleton, hp, if_neg Bool.false_ne_true]
  rw [State.hostHbm, if_neg (show ¬ hbmSize < a.addr + a.size from Nat.not_lt.2 hin), if_neg (by rw [hr]; exact Bool.false_ne_true), hpoison, hbytes]

end

theorem exec_hostAccessTimeout {rest : List HostAccess} (h : s.hostOut = a :: rest) : exec .hostAccessTimeout s = .next { s with
    hostOut := rest, hostReply := if a.write then s.hostReply else s.hostReply ++ [2 ^ (8 * a.size) - 1] } := by
  change execHostAccessTimeout s = _
  rw [execHostAccessTimeout, h]
  dsimp only
  cases a.write <;> rfl

end

/-- Settles O31: the window's accesses by whether they wait, and the stacks' repair one command at a time. -/
theorem hbmAccessAndRepair : Obligations.HbmAccessAndRepair := by
  unfold Obligations.HbmAccessAndRepair
  refine ⟨⟨fun s a ha h => exec_hostHbmAccess_held ha h, fun s a hup hready hin h0 hunit hfree hpage hm => ⟨fun hw => ?_, fun hr hp => ?_⟩,
    fun s a rest h => exec_hostAccessTimeout h⟩, fun s st hst => ⟨fun v => ⟨fun hsrc hdst hidle => migrationRequest_recorded hst hsrc hdst hidle,
      fun h => migrationRequest_refused hst h⟩, fun src hsrc => retrain_recorded s hst hsrc, ?_,
      fun hreg hdown htrain => patrolScrub_counts hst hreg hdown htrain, fun temp => ⟨fun h => ?_, fun h => refreshOverride_applies hst h⟩⟩⟩
  · have hk := touches_hostHbm s a
    exact ⟨_, exec_hostHbmAccess_served hup hready hin hfree, State.hbmRead_hostHbm hin h0 hunit hpage hw hm, hk.scratch_eq, hk.cores_eq⟩
  · have hk := touches_charge s 4 false a.addr a.size
    refine ⟨_, exec_hostHbmAccess_served hup hready hin hfree, ?_⟩
    rw [State.hostHbm_reads hin h0 hunit hr hp]
    exact ⟨congrArg (· ++ _) hk.hostReply_eq, hk.hbm_eq, hk.scratch_eq, hk.cores_eq⟩
  · intro w wm hact hwm hreg hdown hsrc hdst hne hm
    obtain ⟨t, hexec, hmark, hscratch, hbm⟩ := migrationChunk_moves hst hact hwm hreg hdown hsrc hdst
    refine ⟨t, hexec, hmark, hscratch, fun b hb => ?_⟩
    have hcopy := memGet_copyChan hm (32 * st + fld w 4 0) (32 * st + fld w 9 5) (wm * 2048) hb
    rw [hbm]
    simpa only [chanKey, Nat.add_assoc] using hcopy
  · exact (exec_refreshOverride hst temp).trans (if_pos h)

end Sys2Proof.Machine
end
